-- ==== Sys2Proof/Word.lean ====
section
/-! DEFINITION. The words of the block: registers and mailbox words are 32 bits (spec/00_scope.md, Register
tables), memory is byte addressed (R8), and a compare time is the 48-bit T48 of R428. -/

namespace Sys2Proof

/-- A register, a mailbox word, a descriptor word (R12). -/
abbrev Word := BitVec 32

/-- One byte of the Larder or the Pantry (R8). -/
abbrev Byte := BitVec 8

/-- A compare time: TIME_WRAPS in [47:32], TIME_NS in [31:0] (R428). -/
abbrev T48 := BitVec 48

end Sys2Proof
end

