-- ==== Sys2Proof/Syntax.lean ====
section
/-! DEFINITION. The commands of the block: one constructor per row of spec/opcode_table.json. The table gives no bits;
what a command carries is what the row's rule gives the step from outside (a request, an address, a value, an outcome
that the device measures). -/

namespace Sys2Proof

/-- A port (R73): CSPI, the link (OPL stream 0x00), or Tilin's own. -/
inductive Port
  | cspi | link | tilin
  deriving DecidableEq, Repr

/-- A mailbox request as Tilin or Trivet takes it (R79): the mailbox, the tag, the argument words. The opcode is the
constructor's, and length_words is the number of arguments. -/
structure Req where
  mbx : Nat
  tag : Nat
  args : List Word
  deriving DecidableEq, Repr

/-- What the samples of a beam meter block carried (R185, R194): how many carried excl, and whether any carried thin, sat,
nbr, settling or swap. -/
structure Meter where
  excl : Nat
  thin : Bool
  sat : Bool
  nbr : Bool
  settling : Bool
  swap : Bool
  deriving DecidableEq, Repr

/-- One receive pair's block in an AM row (R368-R370): the pair, the payload, the BIP-8 that the receiver formed, and how
many blocks after the earliest lane it came. -/
structure LaneAm where
  pair : Nat
  am : BitVec 64
  bip : BitVec 8
  lag : Nat
  deriving DecidableEq, Repr

/-- Who waits on a transfer that a forced gate cut off (R523): nobody, a host port's access, a Ladle channel, a command of
Tilin's by its mailbox. -/
inductive Initiator
  | nobody
  | host (port : Port) (addr : Nat) (read : Bool)
  | ladle (ch : Nat)
  | tilin (mbx : Nat)
  deriving DecidableEq, Repr

/-- What one fit returns (R322, R323): the estimate as 64 words in the order of R309, whether the condition number fails,
the predicted NMSE with the target and with the active set in 0.25 dB, the samples that would saturate, and the external
loop delay measured from the capture where that is due (R484), in ns. -/
structure DpdFit where
  est : List Word
  illCond : Bool
  nmseT : Int
  nmseC : Int
  peak : Nat
  loop : Nat
  deriving DecidableEq, Repr

/-- A quantity of a row that the model computes from State: the operand carries nothing (log entry 13). -/
abbrev Computed := Unit

/-- A run of codes at one extreme of an RXADC component: counter time of its first code, codes in it (R126). -/
structure CodeRun where
  t : BitVec 48
  n : Nat
  deriving DecidableEq, Repr

/-- What the detection bank reports (R213, R216): beam, code slot, frequency bin, half chip, measured frequency. -/
structure BinReport where
  beam : Nat
  code : Nat
  bin : Int
  half : Int
  freq : Int
  deriving DecidableEq, Repr

/-- The blocks of a sample frame and the bytes they hold (R396). -/
structure FrameBody where
  blocks : Nat
  bytes : List Byte
  deriving DecidableEq, Repr

/-- The command that finishes: its mailbox, and whether an internal step of it exceeded its bound (R86). -/
structure Finish where
  mailbox : Nat
  late : Bool
  deriving DecidableEq, Repr

/-- One measured calibration result (R481, R497): the calibration, whether its unit is a quadrant (0 to 3; 4 to 7: the
quadrant's sample-clock PLL) or a path, the TX side, the cause of its reject or 0, and its values (R502). -/
structure CalResult where
  cal : Nat
  quad : Bool
  unit : Nat
  tx : Bool
  cause : Nat
  vals : List Int
  deriving DecidableEq, Repr

/-- What the checks of R108 find on an image in flash, each as passed or not, and its version word. Of an image in the
Larder the checks and the version are computed from its bytes, and these fields count for nothing. -/
structure ImageChecks where
  format : Bool
  key : Bool
  rollback : Bool
  crc : Bool
  signature : Bool
  version : Word
  deriving DecidableEq, Repr
/-- The commands, one per row of the table. -/
inductive Instr
  /-- VERSION_GET (R607). Command returning the Tilin version and SYS_ID. -/
  | versionGet (q : Req)
  /-- SYS_STATE_GET (R607). Command returning SYS_STATE, SYS_MODE, FLT_STAT and CLK_STAT. -/
  | sysStateGet (q : Req)
  /-- MODE_SET (R48). Command that validates and schedules a mode change at a compare time on a held TC unit. -/
  | modeSet (q : Req)
  /-- MODE_CANCEL (R608). Command cancelling the pending mode change up to MODE_LEAD before its compare time. -/
  | modeCancel (q : Req)
  /-- MODE_CFG_SET (R608). Command setting MODE_LEAD and SENTINEL_DWELL for later mode changes. -/
  | modeCfgSet (q : Req)
  /-- EVT_RING_SET (R609). Command resizing and re-placing the event ring, discarding unread entries. -/
  | evtRingSet (q : Req)
  /-- RES_CLAIM (R92). Command claiming consecutive indices of a resource, all or none. -/
  | resClaim (q : Req)
  /-- RES_RELEASE (R96). Command releasing held indices of a resource, all or none. -/
  | resRelease (q : Req)
  /-- RES_QUERY (R92). Command returning the owner of a resource index. -/
  | resQuery (q : Req)
  /-- TRV_STATE (R89). MBX7 command returning SYS_STATE, monitor status and domain states. -/
  | trvState (q : Req)
  /-- TRV_FAULT_LOG (R580). MBX7 command returning up to 15 fault log entries. -/
  | trvFaultLog (q : Req)
  /-- TRV_BOOT_EXEC (R611). MBX7 command that verifies and starts a host-written Tilin image. -/
  | trvBootExec (q : Req)
  /-- TRV_MGMT_RESET (R611). MBX7 command that restarts the management core 1 ms after its response. -/
  | trvMgmtReset (q : Req)
  /-- TRV_DEVICE_RESET (R611). MBX7 command that resets the device as an S4 fault 1 ms after its response. -/
  | trvDeviceReset (q : Req)
  /-- LO_TUNE (R338). Command scheduling an LO move of one side of a set of quadrants. -/
  | loTune (q : Req)
  /-- RADIO_CFG_SET (R352). Command setting RETURN_STATE, RFFE bindings, ret_hold and late_tol per side. -/
  | radioCfgSet (q : Req)
  /-- RADIO_STATE_GET (R351). Command returning side states, locks and frequencies of every quadrant. -/
  | radioStateGet (q : Req)
  /-- RADIO_SIDE_SET (R351). Command scheduling an Off request or Enable on one side. -/
  | radioSideSet (q : Req)
  /-- RX_GAIN_SET (R118). Command scheduling a gain index change on a set of paths. -/
  | rxGainSet (q : Req)
  /-- RFFE_XFER (R143). Command issuing one RFFE transaction, held until no armed trigger is near. -/
  | rffeXfer (q : Req)
  /-- RFFE_SEQ_LOAD (R141). Command loading a timed RFFE write sequence of a quadrant. -/
  | rffeSeqLoad (q : Req)
  /-- RFFE_SEQ_ARM (R141). Command arming a loaded RFFE sequence on a TC unit. -/
  | rffeSeqArm (q : Req)
  /-- SIEVE_CFG_SET (R171). Command scheduling a preset and resampler change on quadrants in RELAY, MIRROR or SURVEY. -/
  | sieveCfgSet (q : Req)
  /-- SIEVE_FIR_LOAD (R163). Command loading FIR coefficients for one quadrant and preset. -/
  | sieveFirLoad (q : Req)
  /-- SIEVE_FIR_SWAP (R164). Command scheduling a cross-faded FIR bank swap. -/
  | sieveFirSwap (q : Req)
  /-- SIEVE_FIR_READ (R162). Command copying the active or shadow FIR bank to a held region. -/
  | sieveFirRead (q : Req)
  /-- COEX_CFG_SET (R351). Command setting the coexistence configuration. -/
  | coexCfgSet (q : Req)
  /-- COEX_STAT_GET (R351). Command returning coexistence status and counts. -/
  | coexStatGet (q : Req)
  /-- CLK_CFG_SET (R536). Command setting master preference, auto_resume and Whisk mode and seed. -/
  | clkCfgSet (q : Req)
  /-- CLK_STAT_GET (R536). Command returning clock status, monitor counts and PLL lock data. -/
  | clkStatGet (q : Req)
  /-- CLK_RESUME (R534). Command starting a resume from HOSC to REFCLK. -/
  | clkResume (q : Req)
  /-- BEAM_CFG_SET (R189). Command scheduling qmask, shift and excl_nbr for RX beams. -/
  | beamCfgSet (q : Req)
  /-- BEAM_WEIGHT_LOAD (R189). Command copying weights from a held region into shadow banks. -/
  | beamWeightLoad (q : Req)
  /-- BEAM_SWAP (R189). Command scheduling a weight bank swap on RX or TX beams. -/
  | beamSwap (q : Req)
  /-- BEAM_WEIGHT_READ (R188). Command copying one beam's active or shadow bank to a held region. -/
  | beamWeightRead (q : Req)
  /-- TXB_CFG_SET (R189). Command scheduling source, rate, pair, qmask and sum shift for TX beams. -/
  | txbCfgSet (q : Req)
  /-- TXB_LINK_TC_SET (R416). Command naming the TC units used for LINK bursts. -/
  | txbLinkTcSet (q : Req)
  /-- PROFILE_LOAD (R208). Command validating and loading a waveform profile descriptor. -/
  | profileLoad (q : Req)
  /-- CODE_LOAD (R209). Command binding a preamble code to a code slot and profile. -/
  | codeLoad (q : Req)
  /-- PROFILE_ENABLE (R211). Command scheduling the profile and code enable masks. -/
  | profileEnable (q : Req)
  /-- DET_THR_SET (R214). Command setting detection thresholds of code slots. -/
  | detThrSet (q : Req)
  /-- TONGS_POLICY_SET (R234). Command writing placement policy parameters for one mode. -/
  | tongsPolicySet (q : Req)
  /-- TONGS_POLICY_GET (R234). Command returning a mode's placement policy. -/
  | tongsPolicyGet (q : Req)
  /-- PLACE_LOG_SET (R235). Command starting or stopping the placement log in a held region. -/
  | placeLogSet (q : Req)
  /-- CTX_READ (R235). Command returning one context's state and tracking values. -/
  | ctxRead (q : Req)
  /-- CTX_SUMMARY (R235). Command returning context counts, C_lim, abort counts and SIC counts. -/
  | ctxSummary (q : Req)
  /-- BG_LOAD (R257). Command validating and loading an LDPC base-graph slot. -/
  | bgLoad (q : Req)
  /-- DEC_CFG_SET (R265). Command setting max_iter and alpha of the LDPC decoder. -/
  | decCfgSet (q : Req)
  /-- BACKLOG_CFG_SET (R274). Command setting BL_TILES and the backlog drop policy. -/
  | backlogCfgSet (q : Req)
  /-- BACKLOG_STAT (R275). Command returning backlog configuration and counts. -/
  | backlogStat (q : Req)
  /-- PA_CFG_SET (R296). Command configuring PA sequencing, slew and bias codes of paths. -/
  | paCfgSet (q : Req)
  /-- PA_SEQ (R295). Command scheduling an on start or off start for STATIC paths. -/
  | paSeq (q : Req)
  /-- PA_BIAS_STROBE (R289). Command firing a BIAS_LOAD strobe at a compare time or at once. -/
  | paBiasStrobe (q : Req)
  /-- ACK_CFG_SET (R302). Command setting a profile's acknowledgement configuration and TC units. -/
  | ackCfgSet (q : Req)
  /-- ACK_STAT (R303). Command returning acknowledgement counts by outcome. -/
  | ackStat (q : Req)
  /-- DPD_CFG_SET (R315). Command setting bypass and adaptation parameters of paths. -/
  | dpdCfgSet (q : Req)
  /-- DPD_COEF_LOAD (R312). Command staging a coefficient set for one path from a held tile. -/
  | dpdCoefLoad (q : Req)
  /-- DPD_COEF_READ (R327). Command copying a path's active, target or settled set to a held tile. -/
  | dpdCoefRead (q : Req)
  /-- DPD_RESET (R327). Command staging the identity set for a path mask. -/
  | dpdReset (q : Req)
  /-- ORX_CAPTURE (R318). Command scheduling a host observation capture of one path. -/
  | orxCapture (q : Req)
  /-- DPD_STAT_GET (R327). Command returning per-path adaptation counts. -/
  | dpdStatGet (q : Req)
  /-- CAL_RUN (R485). Command validating and scheduling on-request calibrations. -/
  | calRun (q : Req)
  /-- CAL_CFG_SET (R504). Command setting Kettle and tracking parameters. -/
  | calCfgSet (q : Req)
  /-- CAL_STAT_GET (R504). Command returning per-quadrant calibration statistics. -/
  | calStatGet (q : Req)
  /-- CAL_RESTORE (R501). Command recalibrating a degraded path side and clearing its marking on success. -/
  | calRestore (q : Req)
  /-- CAL_NET_LOAD (R495). Command loading the CAL_NET table from a held tile. -/
  | calNetLoad (q : Req)
  /-- CAL_RESULT_READ (R622). Command copying stored calibration results to a held region. -/
  | calResultRead (q : Req)
  /-- LINK_CFG_SET (R391). Command setting link enable, rate mode, lanes, node_id and FFE. -/
  | linkCfgSet (q : Req)
  /-- LINK_STATE_GET (R389). Command returning link and per-lane status. -/
  | linkStateGet (q : Req)
  /-- LINK_RETRAIN (R390). Command retraining the link 1 ms after its response. -/
  | linkRetrain (q : Req)
  /-- LINK_LOOP_SET (R388). Command setting test loops and PRBS31 per lane while the link is disabled. -/
  | linkLoopSet (q : Req)
  /-- FRAME_CONTENT_SET (R422). Command setting m0, m_min, prune_log2 and drain_pct. -/
  | frameContentSet (q : Req)
  /-- FRAME_STAT_GET (R422). Command returning per-stream frame counts and credit. -/
  | frameStatGet (q : Req)
  /-- TIME_CFG_SET (R432). Command setting servo source, gains, PPS and mark settings and epoch_base. -/
  | timeCfgSet (q : Req)
  /-- TIME_STEP (R433). Command stepping the time counter at the next advance. -/
  | timeStep (q : Req)
  /-- TIME_GET (R429). Command returning the epoch, T48 and servo state. -/
  | timeGet (q : Req)
  /-- TC_ARM (R440). Command arming a held TC unit with action OUT or DMA. -/
  | tcArm (q : Req)
  /-- TC_DISARM (R445). Command disarming a held TC unit armed by TC_ARM or registers. -/
  | tcDisarm (q : Req)
  /-- TILE_SEAL (R477). Command sealing the OPEN tiles of a held range. -/
  | tileSeal (q : Req)
  /-- TILE_OPEN (R477). Command reopening the SEALED tiles of a held range. -/
  | tileOpen (q : Req)
  /-- TILE_VERIFY (R477). Command verifying the SEALED tiles of a held range. -/
  | tileVerify (q : Req)
  /-- MEM_STAT (R477). Command returning Pantry state, partition and quarantine counts. -/
  | memStat (q : Req)
  /-- QUAR_LIST (R477). Command copying the quarantine lists to a held region. -/
  | quarList (q : Req)
  /-- QUAR_RETEST (R459). Command march-testing QUARANTINED Larder tiles of a range. -/
  | quarRetest (q : Req)
  /-- DMA_CFG_SET (R477). Command setting the Ladle hop limit. -/
  | dmaCfgSet (q : Req)
  /-- PWR_DOMAIN_SET (R543). Command requesting ON, RET or OFF for a group of domains. -/
  | pwrDomainSet (q : Req)
  /-- PWR_OP_SET (R554). Command setting AUTO or FIXED_OPF for the clocked domains. -/
  | pwrOpSet (q : Req)
  /-- PWR_STAT_GET (R559). Command returning a domain's state, needs and block list. -/
  | pwrStatGet (q : Req)
  /-- VMON_CFG_SET (R557). Command setting supply monitor thresholds. -/
  | vmonCfgSet (q : Req)
  /-- FAULT_STAT_GET (R581). Command returning fault status, queue and counts. -/
  | faultStatGet (q : Req)
  /-- FAULT_INJECT (R581). Command raising a chosen fault in HOLD, which then runs its recovery. -/
  | faultInject (q : Req)
  /-- CSPI_WRITE (R62). CSPI WRITE frame; each complete word is written to successive addresses. -/
  | cspiWrite (addr : Nat) (nbits : Nat) (data : List Word)
  /-- CSPI_READ (R65). CSPI READ frame returning words after rd_wait idle clocks. -/
  | cspiRead (addr : Nat) (n : Nat) (late : Option Nat)
  /-- CSPI_STATUS (R60). CSPI STATUS frame returning SYS_CSPI_STAT. -/
  | cspiStatus
  /-- CSPI_UNKNOWN_OPCODE (R60). CSPI frame with an unknown opcode is ignored and sets bad_op. -/
  | cspiUnknownOpcode (op : Nat)
  /-- REG_WR (R68). Link management message writing words to registers or memory. -/
  | regWr (addr : Nat) (count : Nat) (data : List Word)
  /-- REG_RD (R68). Link management message reading words, answered by REG_RD_RSP. -/
  | regRd (addr : Nat) (count : Nat)
  /-- MBX_REQ (R82). Link management message writing a mailbox request area and ringing it. -/
  | mbxReq (mbx : Nat) (header : Word) (args : List Word)
  /-- REG_RD_RSP (R471). Baseband answer to a remote-window read or barrier, completing the Ladle transaction. -/
  | regRdRsp (addr : Nat) (count : Nat) (cause : Nat) (data : List Word)
  /-- REGISTER_WRITE (R12). Write to a direct register that has no row of its own, applied by field type. -/
  | registerWrite (port : Port) (addr : Nat) (v : Word)
  /-- RC_REGISTER_READ (R12). Read of a register with RC fields returns and clears them. -/
  | rcRegisterRead (port : Port) (addr : Nat)
  /-- TIME_NS_READ (R429). Read of TIME_NS latching TIME_SUBNS and TIME_WRAPS for the port. -/
  | timeNsRead (port : Port)
  /-- MAILBOX_RING (R82). Write of 1 to SYS_MBX_DBn submitting the request area. -/
  | mailboxRing (port : Port) (n : Nat)
  /-- MAILBOX_ACK (R82). Write of ack in DONE returning the mailbox to IDLE. -/
  | mailboxAck (port : Port) (n : Nat)
  /-- BEAM_SEL_WRITE (R76). Write of BEAM_SEL, ignored with BAD_SEL for a TX beam above 31. -/
  | beamSelWrite (port : Port) (v : Word)
  /-- TC_CTL_WRITE (R440). Host write of TC_CTL that arms, disarms or configures a TC unit. -/
  | tcCtlWrite (port : Port) (unit : Nat) (v : Word)
  /-- TS_OFFSET_WRITE (R432). Write of an offset sample to the rate servo. -/
  | tsOffsetWrite (port : Port) (v : Word)
  /-- DMA_CH_CTL_WRITE (R466). Write of DMA_CH_CTL enabling or disabling a Ladle channel. -/
  | dmaChCtlWrite (port : Port) (ch : Nat) (v : Word)
  /-- AUX_SEQ_CTL_WRITE (R474). Write of AUX_SEQ_CTL starting or stopping the auxiliary ADC sequencer. -/
  | auxSeqCtlWrite (port : Port) (v : Word)
  /-- WATCHDOG_KICK (R574). Tilin write of FLT_WDOG restarting the watchdog. -/
  | watchdogKick
  /-- COMMAND_TAKE (R85). Tilin takes the next BUSY mailbox round-robin and starts its command. -/
  | commandTake
  /-- COMMAND_FINISH (R82). A command finishes; the response is written and the mailbox enters DONE. -/
  | commandFinish (f : Finish)
  /-- RATE_LIMIT_WINDOW_END (R637). End of a 1 ms posting window posts the last suppressed occurrence with its count. -/
  | rateLimitWindowEnd (code : Nat) (scope : Nat)
  /-- POWER_ON_RESET (R597). VDD_CORE rises from below its power-on threshold and the fault log is cleared. -/
  | powerOnReset
  /-- RESET_N_RISE (R596). RESET_N rises; straps are sampled and SUPPLY_CHECK begins. -/
  | resetNRise (bootSrc : Nat) (refsel : Bool)
  /-- SUPPLY_CHECK_END (R596). Rails have been in range long enough; CSPI and MBX7 start serving. -/
  | supplyCheckEnd
  /-- HOSC_READY (R526). HOSC becomes ready; counter and clock monitor start and outputs are driven low. -/
  | hoscReady (heldNs : Nat)
  /-- IMAGE_LOAD_DONE (R109). Loading of a Tilin image from flash completes and verification begins. -/
  | imageLoadDone (answered : Bool)
  /-- IMAGE_VERIFY_DONE (R108). Image checks end: the management core starts, slot B is tried, or boot fails. -/
  | imageVerifyDone (img : ImageChecks)
  /-- CALIBRATING_ENTRY (R635). Tilin enters CALIBRATING and reads the configuration profile. -/
  | calibratingEntry (profile : List Byte)
  /-- STARTUP_CAL_STEP_DONE (R482). A startup calibration step completes and the next begins, up to READY. -/
  | startupCalStepDone (rs : List CalResult)
  /-- CLK_NO_REF_TICK (R533). Each second without valid REFCLK before READY posts CLK_NO_REF. -/
  | clkNoRefTick
  /-- RESET_N_ASSERT (R595). RESET_N held low past its filter resets the device. -/
  | resetNAssert
  /-- DEVICE_RESET_RELEASE (R579). Reset released after 10 µs and the cause has gone; boot restarts. -/
  | deviceResetRelease (bootSrc : Nat) (refsel : Bool)
  /-- REFCLK_ACTIVITY_LOSS (R529). The activity detector trips on missing REFCLK edges. -/
  | refclkActivityLoss
  /-- CLOCK_MONITOR_WINDOW (R528). A 10 µs window of REFCLK and LNK_REFCLK counts is evaluated. -/
  | clockMonitorWindow (ref : Nat) (lnk : Nat)
  /-- REF_OK_RESTORED (R534). After 100 passing windows ref_ok sets and a resume may start. -/
  | refOkRestored
  /-- CLOCK_RESUME_DONE (R534). A resume completes; sides take mode states and on_hosc clears. -/
  | clockResumeDone
  /-- HOSC_STOP (R527). HOSC stopped for 2 µs causes an S4 device reset. -/
  | hoscStop
  /-- SPLL_LOCK_LOSS (R513). A sample-clock PLL loses lock; its paths leave service and TX mutes. -/
  | spllLockLoss (q : Nat)
  /-- SPLL_RELOCK (R511). A sample-clock PLL relocks and its dividers are resynchronised. -/
  | spllRelock (q : Nat)
  /-- PACE_MONITOR_REFRESH (R524). The pace index refreshes from the ring monitors every 10 µs. -/
  | paceMonitorRefresh (index : Nat)
  /-- GATE_HANDSHAKE_TIMEOUT (R523). A clock gate without acknowledgement for 10 µs is forced. -/
  | gateHandshakeTimeout (d : Nat) (b : Nat) (who : Initiator)
  /-- LO_LOCK_LOSS (R340). An LO lock detector shows loss; RX flags settling, TX mutes and drops bursts. -/
  | loLockLoss (q : Nat) (tx : Bool)
  /-- LO_LOCK (R332). A synthesiser reaches lock after a wake, channel change or relock. -/
  | loLock (q : Nat) (tx : Bool)
  /-- OPERATING_POINT_STEP (R555). A supply or divider step of an operating-point change completes and the next starts. -/
  | operatingPointStep (d : Nat)
  /-- COL_DIVIDER_RAMP_STEP (R522). Each 1 µs step of the COL divider ramp between OPF and OPH. -/
  | colDividerRampStep
  /-- TIME_NS_WRAP (R428). TIME_NS wraps and TIME_WRAPS increments. -/
  | timeNsWrap
  /-- PPS_EDGE (R434). An active PPS_IN edge is captured, accepted or rejected, and may drive the servo. -/
  | ppsEdge (t : BitVec 48) (frac : Nat)
  /-- PPS_LOSS_TIMEOUT (R434). No accepted PPS edge for 1.5 s clears pps_valid. -/
  | ppsLossTimeout
  /-- TIME_MARK_SEND (R435). Every mark_ms a TIME_MARK row is sent and its departure captured. -/
  | timeMarkSend
  /-- TIME_MARK_RECEIVED (R436). A partner TIME_MARK row arrives and its arrival is captured. -/
  | timeMarkReceived (seq : Nat) (compl : Nat) (t : BitVec 48) (frac : Nat)
  /-- MARK_INFO_RECEIVED (R437). A partner MARK_INFO arrives and may complete a mark exchange. -/
  | markInfoReceived (info : List Word)
  /-- TC_FIRE (R439). An armed TC unit reaches its compare time and its action occurs. -/
  | tcFire (unit : Nat)
  /-- PREPARATION_DEADLINE (R25). The fabric deadline before a compare time passes with the preparation incomplete. -/
  | preparationDeadline (unit : Nat)
  /-- MODE_PREP_START (R52). At T − MODE_LEAD domains power up, LOs retune and banks are written. -/
  | modePrepStart
  /-- MODE_DRAIN_END (R52). Continuing contexts finish and unneeded domains settle. -/
  | modeDrainEnd
  /-- FORCED_MODE_CHANGE (R29). The device changes to HOLD by itself after Pantry loss, restart or THERM_CRIT. -/
  | forcedModeChange
  /-- SENTINEL_DWELL_BOUNDARY (R39). SENTINEL rotates to the next quadrant with a path in service. -/
  | sentinelDwellBoundary
  /-- SENTINEL_RUN_RESTART (R40). After a paused dwell, a new run of dwells starts at a 1 ms boundary. -/
  | sentinelRunRestart
  /-- SENTINEL_PREWAKE (R542). The next quadrant's domains wake 100 µs before its dwell. -/
  | sentinelPrewake
  /-- OVERLOAD_START (R126). A run of extreme codes starts an overload event on a component. -/
  | overloadStart (p : Nat) (c : Nat) (high : Bool) (r : CodeRun)
  /-- LOOP_FILTER_RELEASE (R127). After 16 FS cycles the loop filter is released. -/
  | loopFilterRelease (p : Nat) (c : Nat)
  /-- OVERLOAD_END (R126). The quiet interval passes and the overload event ends. -/
  | overloadEnd (p : Nat) (c : Nat) (t : BitVec 48)
  /-- DISTURBANCE_WINDOW_CLOSE (R131). A disturbance window closes 250 ns after its last t_end. -/
  | disturbanceWindowClose (p : Nat)
  /-- NOISE_FLOOR_BLOCK (R137). A block of 2^w path samples completes and the noise floor filter updates. -/
  | noiseFloorBlock (p : Nat) (clean : Computed) (sum : Nat) (residI : Int) (residQ : Int) (refEnd : Bool)
  /-- NOISE_FLOOR_STALE (R138). No counted block for stale_ms sets stale. -/
  | noiseFloorStale (beam : Bool) (n : Nat)
  /-- BEAM_METER_BLOCK (R194). A block of beam samples completes and the power meter updates. -/
  | beamMeterBlock (b : Nat) (sum : Nat) (m : Meter)
  /-- RFFE_TRANSACTION_DONE (R140). An RFFE transaction completes on the bus and the next may start. -/
  | rffeTransactionDone (q : Nat) (data : List Nat) (parityOk : Bool)
  /-- SIEVE_FADE_END (R160). A cross-fade reaches L samples and the old bank becomes shadow. -/
  | sieveFadeEnd (q : Nat)
  /-- RX_FIFO_OVERFLOW (R27). An RX crossing FIFO overflows; samples are discarded and contexts abort. -/
  | rxFifoOverflow (fifo : Nat) (n : Nat)
  /-- TX_FIFO_EMPTY (R28). A TX beam input FIFO runs empty during a burst and feeds zeros. -/
  | txFifoEmpty (beam : Nat)
  /-- BURST_AIR_END (R293). A burst reaches its air end; LO offset returns and units are released. -/
  | burstAirEnd (u : Nat)
  /-- PA_ON_START (R293). At A − L_on a path's bias slew toward the on code begins. -/
  | paOnStart (p : Nat)
  /-- PA_OFF_START (R293). At E + d_rf the driver mutes and the off order begins. -/
  | paOffStart (p : Nat)
  /-- PA_DELAY_EXPIRY (R292). d_bias, d_en or d_rf elapses and the PA sequencer advances. -/
  | paDelayExpiry (p : Nat)
  /-- BIAS_SLEW_TICK (R287). Each tick_us the bias output steps toward its target. -/
  | biasSlewTick (p : Nat)
  /-- BIAS_CURRENT_LIMIT_HOLD (R286). Current limit held 10 µs sets bias_sc and mutes the path. -/
  | biasCurrentLimitHold (p : Nat)
  /-- DAC_QUEUE_UNDERFLOW (R282). A DAC queue runs empty and the path outputs midscale. -/
  | dacQueueUnderflow (p : Nat)
  /-- DAC_QUEUE_REFILLED (R282). The queue holds 128 entries with no burst in progress and output resumes. -/
  | dacQueueRefilled (p : Nat)
  /-- LO_OFFSET_MOVE (R301). At A − 5 µs the TX LO moves to the pre-compensation offset. -/
  | loOffsetMove (u : Nat)
  /-- BURST_HOLD_POINT (R341). At A − d_rf a burst proceeds or holds for lock or grant. -/
  | burstHoldPoint (u : Nat)
  /-- COEX_GNT_RISE (R341). COEX_GNT rises and may release held bursts. -/
  | coexGntRise
  /-- BURST_HOLD_EXPIRY (R342). Lock or grant tolerance runs out and the held burst is dropped. -/
  | burstHoldExpiry (u : Nat)
  /-- COEX_GNT_FALL (R348). COEX_GNT falls during a burst, which mutes or continues. -/
  | coexGntFall
  /-- BURST_WAKE (R344). At A − L_lead − 65 µs a sleeping TX side is woken for a burst. -/
  | burstWake (u : Nat)
  /-- TX_RETURN_CHECK (R331). Each 1 µs tick a TX side evaluates Return to its RETURN_STATE. -/
  | txReturnCheck (q : Nat)
  /-- SIDE_TRANSITION_DONE (R332). A side state transition completes. -/
  | sideTransitionDone (q : Nat) (tx : Bool)
  /-- DPD_APPLY_STEP (R313). Every 2,458 samples the applier replaces one differing coefficient. -/
  | dpdApplyStep (p : Nat)
  /-- ADAPT_CAPTURE_START (R320). An adaptation capture starts 20 µs into a qualifying burst. -/
  | adaptCaptureStart (q : Nat) (u : Nat)
  /-- ORX_CAPTURE_END (R317). A capture of 8,192 samples ends and its tiles are sealed. -/
  | orxCaptureEnd (q : Nat) (words : List Word)
  /-- DPD_FIT_START (R322). A fit starts once Skillet capacity is granted. -/
  | dpdFitStart (q : Nat) (k : Nat)
  /-- DPD_FIT_STALE (R321). No capacity within 50 ms skips the capture as STALE. -/
  | dpdFitStale (q : Nat)
  /-- DPD_FIT_DONE (R323). A fit completes and its result is checked, staged or rejected. -/
  | dpdFitDone (q : Nat) (f : DpdFit)
  /-- DETECTION (R216). The correlator reports a preamble detection on a beam and code. -/
  | detection (d : BinReport)
  /-- PREAMBLE_TRAINING_DONE (R222). Sixteen preamble symbols trained; context enters SYNC. -/
  | preambleTrainingDone (c : Nat) (t : Computed)
  /-- SYNC_MATCH (R224). The sync word matches and the context enters HEADER. -/
  | syncMatch (c : Nat) (errs : Computed) (tSync : Computed) (frac : Computed) (t : Computed)
  /-- SYNC_WINDOW_END (R224). The sync window ends without a match; abort FALSE_LOCK. -/
  | syncWindowEnd (c : Nat)
  /-- CAPTURE_CHECK_END (R225). The capture-test symbols are measured; abort COLLIDED or continue flagged. -/
  | captureCheckEnd (c : Nat) (mean : Computed)
  /-- HEADER_COMPLETE (R253). The header is decided and checked; abort, deliver header-only, or take payload tiles. -/
  | headerComplete (c : Nat) (llr : Computed) (t : Computed)
  /-- LOCK_LOST (R239). SINR or NCO leaves its limits; abort TRACK_LOST. -/
  | lockLost (c : Nat) (mean : Computed) (freq : Computed)
  /-- LAST_PAYLOAD_SYMBOL (R222). The last payload symbol is stored and decoding is queued. -/
  | lastPayloadSymbol (c : Nat) (llr : Computed) (t : Computed)
  /-- LDPC_CONTEXT_START (R266). An LDPC assist starts the next context in DECODE order. -/
  | ldpcContextStart (k : Nat)
  /-- LDPC_BLOCK_END (R263). A code block converges or reaches max_iter. -/
  | ldpcBlockEnd (k : Nat)
  /-- LDPC_BLOCK_OVERRUN (R266). A block runs past four times its bound and raises SKL_FAULT. -/
  | ldpcBlockOverrun (k : Nat)
  /-- DECODING_END (R264). All blocks end and CRC-24 chooses DELIVER or CRC_FAIL. -/
  | decodingEnd (c : Nat)
  /-- SIC_RETRY_START (R244). A queued retry starts once contexts and capacity allow. -/
  | sicRetryStart
  /-- RETENTION_EXPIRY (R242). RET_HOLD_MS after the packet end, retention or regeneration tiles are released. -/
  | retentionExpiry
  /-- RECORD_COMMITTED (R270). A record is accepted by the framer or written to the backlog; context frees. -/
  | recordCommitted
  /-- BACKLOG_SEAL_TIMEOUT (R271). A backlog tile 10 ms after its first record is sealed. -/
  | backlogSealTimeout
  /-- FRAME_START (R404). At a frame boundary the framer starts the ready frame of highest priority. -/
  | frameStart
  /-- FRAME_SENT (R420). A frame's END block is sent; a drained backlog tile is released. -/
  | frameSent
  /-- CREDIT_FRAME (R401). A received CREDIT frame replaces stream credit limits. -/
  | creditFrame (ws : List Word)
  /-- BURST_FRAME (R418). A received BURST frame is validated and a LINK burst accepted. -/
  | burstFrame (beam : Nat) (ws : List Word)
  /-- BURST_SAMPLE_FRAME (R419). A received sample frame feeds its burst's TX beam FIFO. -/
  | burstSampleFrame (beam : Nat) (id : Nat) (m : Nat) (last : Bool) (b : FrameBody)
  /-- CREDIT_GRANT_TIMER (R402). Every 100 µs the device grants credit on its credited streams. -/
  | creditGrantTimer
  /-- EVENT_FRAME_CLOSE (R403). An event frame closes 20 µs after its first event. -/
  | eventFrameClose
  /-- IQ_FRAME_FORMED (R410). An IQ frame of k blocks is formed and buffered or dropped. -/
  | iqFrameFormed (stream : Nat) (t : BitVec 48) (blocks : Nat)
  /-- DEGRADE_MEASURE_WINDOW (R413). A 10 ms rate window under pruning may take the next step. -/
  | degradeMeasureWindow (rate : Computed)
  /-- LANE_SIGNAL_DETECT (R376). Signal is detected on a receive lane. -/
  | laneSignalDetect (lane : Nat)
  /-- BLOCK_LOCK_GAIN (R369). 64 valid headers give a lane block lock. -/
  | blockLockGain (lane : Nat) (inverted : Bool)
  /-- BLOCK_LOCK_LOSS (R381). A bonded lane loses lock; rows are discarded and LSTAT sent. -/
  | blockLockLoss (lane : Nat)
  /-- AM_ROW_RECEIVED (R370). An AM row gives AM lock, BIP check and deskew. -/
  | amRowReceived (ams : List LaneAm)
  /-- AM_LOCK_LOSS (R369). Three bad AM positions lose AM lock. -/
  | amLockLoss (lane : Nat)
  /-- AM_ROW_SEND (R368). Every 16,384 rows an AM row is sent, with LSTAT and any pending add. -/
  | amRowSend
  /-- HELLO_SEND (R373). A HELLO row is sent every 256 rows in HELLO or 1 ms in UP. -/
  | helloSend
  /-- HELLO_ROW_RECEIVED (R377). A valid partner HELLO is taken and may complete agreement. -/
  | helloRowReceived (row : BitVec 64)
  /-- LSTAT_RECEIVED (R382). A partner LSTAT is taken; lost lanes are dropped and rejoins qualified. -/
  | lstatReceived (row : BitVec 64)
  /-- BOND_ROW_RECEIVED (R375). A partner BOND row changes the receive bond. -/
  | bondRowReceived (row : BitVec 64)
  /-- FILLER_ROW_RECEIVED (R367). A FILLER row may be deleted or duplicated for rate matching. -/
  | fillerRowReceived (fill : Nat)
  /-- FILLER_ROW_SEND (R366). A FILLER row is sent at least once per 1,024 rows or when idle. -/
  | fillerRowSend
  /-- TRAINING_TIMEOUT (R376). A training state times out and the link enters LINK_DOWN. -/
  | trainingTimeout
  /-- HELLO_SILENCE (R376). No valid HELLO for 10 ms in UP takes the link down. -/
  | helloSilence
  /-- BACKOFF_END (R378). Backoff elapses and training restarts in DETECT. -/
  | backoffEnd
  /-- FALLBACK_EXPIRY (R378). After 60 s fallback clears and a retrain may be requested. -/
  | fallbackExpiry
  /-- LANE_RETRAIN_RESTART (R384). Every 5 ms a lane outside the bond restarts CDR and equaliser. -/
  | laneRetrainRestart (lane : Nat)
  /-- LNK_REFCLK_LOSS (R376). LNK_REFCLK lost at the lane PLLs takes the link down. -/
  | lnkRefclkLoss
  /-- DEFERRED_LINK_CHANGE (R390). 1 ms after the response a link change taking it down is applied. -/
  | deferredLinkChange
  /-- PANTRY_TRAINING_DONE (R462). Pantry training ends in READY, ABSENT or FAILED. -/
  | pantryTrainingDone (answered : Bool) (supported : Bool) (rate : Option Nat) (size : Nat)
  /-- DQS_RETRAIN (R461). Every 100 ms DQS is retrained; two failures fail the Pantry. -/
  | dqsRetrain (ok : Bool)
  /-- DESCRIPTOR_FETCHED (R466). A Ladle descriptor is read and checked; the channel halts, waits or runs. -/
  | descriptorFetched (ch : Nat)
  /-- DESCRIPTOR_COMPLETE (R468). A descriptor completes and the next is fetched or the chain ends. -/
  | descriptorComplete (ch : Nat)
  /-- DMA_RESPONSE_TIMEOUT (R467). No read data or write acknowledgement in 100 µs halts with NO_RESP. -/
  | dmaResponseTimeout (ch : Nat)
  /-- AUX_CONVERSION_DONE (R475). An auxiliary ADC conversion ends and its result enters the ring. -/
  | auxConversionDone (code : Nat)
  /-- AUX_PACED_SWEEP (R474). Every period_us a paced sweep starts or is skipped. -/
  | auxPacedSweep
  /-- CAL_ENTRY (R486). A calibration run takes its side into CAL once entry is permitted. -/
  | calEntry (q : Nat) (tx : Bool)
  /-- CAL_ENTRY_TIMEOUT (R486). Entry not permitted within 1 s ends the run with ST_TIMEOUT. -/
  | calEntryTimeout (q : Nat)
  /-- CAL_RUN_END (R498). A calibration run completes; results are checked and applied or rejected. -/
  | calRunEnd (q : Nat) (rs : List CalResult)
  /-- KETTLE_CHECK (R487). Every 10 ms Kettle reads temperatures and starts, forces or postpones sets. -/
  | kettleCheck (temps : List Int)
  /-- KETTLE_SET_END (R488). A Kettle set's measurement ends and the side returns to traffic. -/
  | kettleSetEnd (q : Nat) (tx : Bool) (rs : List CalResult)
  /-- PHASE_TRACKING_ROUND (R491). Every track_ms the inter-quadrant LO phase is measured and trimmed. -/
  | phaseTrackingRound (rs : List CalResult) (drive : Int)
  /-- CORRECTION_STEP (R502). Each interval a correction moves one step toward its new value. -/
  | correctionStep (q : Nat) (tx : Bool)
  /-- DOMAIN_BLOCK_ANSWER (R546). A block answers a stop request; the entry proceeds or rolls back. -/
  | domainBlockAnswer (d : Nat) (b : Nat)
  /-- DOMAIN_ANSWER_TIMEOUT (R547). No answer within 20 µs stops the entry with NO_ANSWER. -/
  | domainAnswerTimeout
  /-- DOMAIN_TRANSITION_DONE (R556). A domain completes its transition and waiting requests are evaluated. -/
  | domainTransitionDone (d : Nat)
  /-- MGMT_WAIT (R550). The management core executes WAIT, stalling or requesting RET. -/
  | mgmtWait (raced : Bool)
  /-- SKILLET_WAIT (R551). An idle Skillet control core WAITs into RET. -/
  | skilletWait (k : Nat) (raced : Bool)
  /-- HEADER_SAG (R557). A domain's local supply below setpoint − 50 mV for 2 µs stops its clocks. -/
  | headerSag (d : Nat)
  /-- VMON_WARN_CROSSING (R557). A rail below VMON_WARN drives PWR_WARN_N low. -/
  | vmonWarnCrossing (rail : Nat) (code : Nat)
  /-- VMON_WARN_RECOVERY (R575). All rails above warn + 1 % for 2 µs release PWR_WARN_N. -/
  | vmonWarnRecovery (rail : Nat) (code : Nat)
  /-- VMON_RST_CROSSING (R579). A rail below VMON_RST resets the device. -/
  | vmonRstCrossing (rail : Nat) (code : Nat)
  /-- TEMPERATURE_READ (R577). Every 10 ms Trivet reads the sensors and raises thermal faults. -/
  | temperatureRead (codes : List Nat)
  /-- THERM_HOLD_CLEAR (R577). All sensors below Tj_max − 5 °C for 1 s clear therm_hold. -/
  | thermHoldClear
  /-- SKILLET_PARITY_ERROR (R564). A parity error in a Skillet memory raises SKL_FAULT. -/
  | skilletParityError (k : Nat)
  /-- MGMT_EXCEPTION (R564). A management-core exception or internal check failure raises MGMT_EXC. -/
  | mgmtException
  /-- WATCHDOG_EXPIRY (R574). 250 ms without a watchdog write raises MGMT_WDOG. -/
  | watchdogExpiry
  /-- MGMT_RESUME_DONE (R573). Tilin resumes after a restart and the stage becomes READY. -/
  | mgmtResumeDone
  /-- RECOVERY_END (R566). A recovery ends and the next interrupted or queued recovery starts. -/
  | recoveryEnd (ok : Bool) (rs : List CalResult)
  /-- HEADER_GOOD_FLAG_RETURN (R571). After a header sag, the domain header's good flag has held for 10 µs and the sag recovery proceeds with its per-domain actions. -/
  | headerGoodFlagReturn (d : Nat)
  /-- LNK_REFCLK_RESTORED (R376). LNK_REFCLK returns at the lane PLLs after a loss, so training can leave LINK_DOWN without backoff. -/
  | lnkRefclkRestored
  /-- FRAME_DISCARD (R398). A received frame that fails a check of R398 (length, ABORT, CRC-32, type, stream or content) is discarded and counted. -/
  | frameDiscard (ended : Bool) (bytes : List Byte)
  /-- RETENTION_TILE_ALLOCATION (R241). As a context's retention writing reaches a new tile, Tongs takes a Pantry tile from RET_TILES or stops retention and logs RETAIN refused. -/
  | retentionTileAllocation (c : Nat)
  /-- BURST_PATH_SUM_START (R294). At the path-sum start T the burst's first sample reaches the path sum and the beam enters its burst. -/
  | burstPathSumStart (u : Nat)
  /-- UNNEEDED_DOMAIN_ENTRY (R52). At T + 100 µs of a mode change, the domains the new mode does not need begin entering RET or OFF. -/
  | unneededDomainEntry
  /-- TXB_OPF_RAISE (R554). Under AUTO, 100 µs before a burst compare, TXB is raised from OPH to OPF. -/
  | txbOpfRaise
  /-- BLOCK_LOCK_HELD (R376). Block lock has held for 100 µs on at least min_lanes ready lanes, and training moves from LOCK to ALIGN. -/
  | blockLockHeld
  /-- DEFERRED_TRIVET_RESET (R611). 1 ms after the response of TRV_MGMT_RESET or TRV_DEVICE_RESET, the management-core restart or device reset begins. -/
  | deferredTrivetReset
  /-- PATH_SUM_SATURATION (R201). A z_p sample saturates; TXS_SAT_CNT increments, TXS_STAT.sat sets, and TXS_SAT is posted, rate-limited. -/
  | pathSumSaturation (p : Nat)
  /-- ACTUATOR_SATURATION (R310). A DPD actuator output saturates; DPD_SAT_CNT increments, DPD_EVT.sat sets, and DPD_SAT is posted, rate-limited. -/
  | actuatorSaturation (p : Nat) (xs : Computed)
  deriving DecidableEq, Repr

end Sys2Proof
end

