-- ==== Sys2Proof/Decode.lean ====
section
/-! DEFINITION. The command that a word spells. The table gives no row any bits: a command reaches the block through its
queue, and a word spells none (log entry 8). -/

namespace Sys2Proof

/-- The command an instruction word of nbits bits spells: none, for the table gives no row bits. -/
def decodeTableWord (_nbits _w : Nat) : Option Instr := none

end Sys2Proof
end

