-- ==== Sys2Proof/Config.lean ====
section
/-! DEFINITION. What one part or one implementation fixes, and the free values the spec leaves open. An opaque
constant has no body: nothing can be proved of its value, so a claim holds for every value. -/

namespace Sys2Proof.Config

/-- SYS_ID.grade, set at manufacture (R3, R13 "fused"): true for CZ6464-A1-FE. Log entry 2. -/
opaque gradeFE : Bool

/-- HOSC_TRIM.code, set at manufacture (R526, R537 "fused"). Log entry 2. -/
opaque hoscTrim : BitVec 8

/-- A key slot is revoked by fuse (R108). Log entry 2. -/
opaque keyRevoked : Nat → Bool

/-- The fused SHA-256 of a key slot's public key, its first byte most significant (R108). Log entry 2. -/
opaque keyHash : Nat → BitVec 256

/-- The fused rollback counter (R108). Log entry 2. -/
opaque rollback : BitVec 32

/-- A fresh value for each read of the counter the step advances: stands where the spec says a value is undefined
or states none (for example DMA_CH_DESCS and DMA_CH_BYTES after en is cleared, R466). Log entry 3. -/
opaque freeValue : Nat → BitVec 32

/-- The opaque words of a CAL_RESULT_READ block after word 0 (R622): unit, word index. Log entry 3. -/
opaque calOpaque : Nat → Nat → BitVec 32

/-- How many words a CAL_RESULT_READ block holds (R622 states no count): unit code. Log entry 3. -/
opaque calWords : Nat → BitVec 12

/-- Whether a tile passes the march test of QUAR_RETEST (R459): the silicon decides; tile, how often free values were
taken. Log entry 3. -/
opaque marchPass : Nat → Nat → Bool

/-- SCLK periods of a RFFE read of n bytes (R140 counts writes only). Log entry 3. -/
opaque rffeReadPeriods : Nat → Nat

/-- Coefficient i of Tilin's default FIR set of a preset (R148, R163): signed 18 bits; the spec gives the response only.
Log entry 2. -/
opaque firDefault : Nat → Nat → BitVec 18

/-- The modulator's code at a corner of the DC-offset loop in Hz, of component c of path p at FS cycle n (R114, R124): what
comes in at the antennas. Log entry 2. -/
opaque code : Nat → Nat → Nat → Int → BitVec 4

/-- The coefficients after the first of a fixed Sieve stage, 1 to 4 HB1 to HB4, 5 D4 (R153). Log entry 2. -/
opaque stageTaps : Nat → List (BitVec 18)

/-- Tap of a phase of the delay trim (R155). Log entry 2. -/
opaque trimTap : Nat → Nat → BitVec 18

/-- Tap of a phase, not 0, of the resampler (R166). Log entry 2. -/
opaque rsTap : Nat → Nat → BitVec 18

/-- Tap of a phase of the interpolator at rate code k (R198). Log entry 2. -/
opaque txTap : Nat → Nat → Nat → BitVec 18

/-- Tap of a phase of the interpolation between beam samples (R213, R236). Log entry 2. -/
opaque chipTap : Nat → Nat → BitVec 18

/-- A regenerated chip's pulse at a roll-off in hundredths, in 1/64 chips from eight chips before its middle (R243). Log
entry 2. -/
opaque pulse : Nat → Nat → BitVec 18

/-- ε of the NLMS steps in 2^-32, less one unit (R237). Log entry 2. -/
opaque nlmsEps : BitVec 32

/-- Gains of the NCO's loop, 0 phase and 1 frequency, in training or after it, by chip rate and spreading factor (R239). Log
entry 2. -/
opaque loopGain : Bool → Nat → Nat → Nat → BitVec 32

/-- Magnitude of a soft value of |v| / den (R262). Log entry 2. -/
opaque softMag : Nat → Nat → BitVec 7

/-- Tap of a phase of the ×4 interpolator before the DACs (R279). Log entry 2. -/
opaque dacTap : Nat → Nat → BitVec 18

/-- Sample n of a chip sequence shaped and resampled: chip rate, roll-off in hundredths, rate code, the sample's number, the
chip's number (R297). Log entry 2. -/
opaque shapeTap : Nat → Nat → Nat → Nat → Nat → BitVec 18

/-- The current limit of a path's PA_BIAS output acts at an FS cycle (R286): what the board draws. Log entry 2. -/
opaque biasLimit : Nat → Int → Bool

/-- What pruned IQ content takes at its peak over the last 100 ms, in bit/s (R413): measured. Log entry 3. -/
opaque prunedPeak : Nat → Nat

/-- The space in 8-byte units behind a credit grant (R402, R416): the spec states no amount. Log entry 3. -/
opaque creditSpace : Nat → Nat

/-- A byte of a bank that has lost power and not been written since (R540): how often, address. Log entry 3. -/
opaque freeByte : Nat → Nat → BitVec 8

end Sys2Proof.Config
end

