-- ==== Sys2Proof/Machine/Bits.lean ====
section
/-! DEFINITION. Bit fields, sign extension, byte order (R7, R8, R12). -/

namespace Sys2Proof.Machine

/-- Bits [hi:lo] of a word, as a number (R7). -/
def bits (w : Word) (hi lo : Nat) : Nat := (w.toNat >>> lo) % 2 ^ (hi + 1 - lo)

/-- Bit n of a word. -/
def bitAt (w : Word) (n : Nat) : Bool := w.getLsbD n

/-- The mask of a field of `width` bits from bit `lo`. -/
def fieldMask (lo width : Nat) : Word := BitVec.ofNat 32 ((2 ^ width - 1) <<< lo)

/-- A word with the field of `width` bits at `lo` replaced by `v` (only the low `width` bits of v count). -/
def putField (w : Word) (lo width v : Nat) : Word :=
  (w &&& ~~~ (fieldMask lo width)) ||| BitVec.ofNat 32 ((v % 2 ^ width) <<< lo)

/-- A number as a word. -/
def toWord (n : Nat) : Word := BitVec.ofNat 32 n

/-- Two 16-bit halves packed, the lower-numbered item in the lower bits (R605). -/
def pack16 (lo hi : Nat) : Word := toWord (lo % 65536 + (hi % 65536) * 65536)

/-- A 32-bit word read as two's complement. -/
def sgn32 (w : Word) : Int := w.toInt

/-- The low `n` bits of a number, as two's complement. -/
def sgnN (n v : Nat) : Int := (BitVec.ofNat n v).toInt

/-- An integer in the low `n` bits, two's complement. -/
def unsN (n : Nat) (i : Int) : Nat := (BitVec.ofInt n i).toNat

/-- Saturate at the top of a width (R605). -/
def satN (width v : Nat) : Nat := if v < 2 ^ width then v else 2 ^ width - 1

/-- Clamp an integer to [lo, hi]. -/
def clampI (lo hi x : Int) : Int := if x < lo then lo else if hi < x then hi else x

/-- Division rounding half away from zero (R431, R432). -/
def divHalfAway (a : Int) (b : Nat) : Int :=
  if 0 ≤ a then (2 * a + b) / (2 * b) else - ((2 * (-a) + b) / (2 * b))

/-- Division rounding halves to even (R151, R183). -/
def divHalfEven (a : Int) (b : Nat) : Int :=
  let d := a / b
  let r := a % b
  if 2 * r < b ∨ (2 * r = b ∧ d % 2 = 0) then d else d + 1

/-- The square root of n rounded to an integer; n is never midway between two squares of halves (R182). -/
def isqrtRound (n : Nat) : Nat :=
  let r := (List.range 17).foldl (fun r i => if (r + 2 ^ (16 - i)) * (r + 2 ^ (16 - i)) ≤ n then r + 2 ^ (16 - i) else r) 0
  if r * r + r < n then r + 1 else r

/-- Division rounding up. -/
def ceilDiv (a b : Nat) : Nat := (a + b - 1) / b

/-- The four bytes of a word, lowest address first (R8). -/
def wordBytes (w : Word) : List Byte :=
  [w.extractLsb' 0 8, w.extractLsb' 8 8, w.extractLsb' 16 8, w.extractLsb' 24 8]

/-- The word of four bytes, lowest address first (R8). -/
def bytesWord (a b c d : Byte) : Word := d ++ c ++ b ++ a

/-- The positions of the 1 bits of a number below `n`, ascending. -/
def maskList (n m : Nat) : List Nat := (List.range n).filter fun i => m.testBit i

/-- A path mask of two words (R604): bit p of the first is Pp, of the second P(32 + p). -/
def pathMask (a b : Word) : Nat := a.toNat + b.toNat * 2 ^ 32

/-- How many bits of a mask are 1. -/
def popCount (n m : Nat) : Nat := (maskList n m).length

/-- A 48-bit time counts as at or after C (R439). -/
def atOrAfter (t c : T48) : Bool := decide ((t - c).toNat < 2 ^ 47)

/-- A time moved by whole nanoseconds. -/
def tAdd (t : T48) (ns : Int) : T48 := BitVec.ofInt 48 (t.toNat + ns)

end Sys2Proof.Machine
end

