-- ==== Sys2Proof/Machine/Reg.lean ====
section
/-! DEFINITION. The direct registers as the spec's register tables give them: name, address, bank, and for every
field its bits, type (R12) and reset value (R13). Each table is cited at its register. -/

namespace Sys2Proof.Machine

/-- Every direct register of the spec's tables. -/
inductive RegName
  | SYS_ID  -- 00_scope.md R3
  | SYS_MODE  -- 01_architecture.md R57
  | PATH_SEL  -- 02_control_mailboxes.md R74
  | BEAM_SEL  -- 02_control_mailboxes.md R75
  | SYS_MBX_DB  -- 02_control_mailboxes.md R81
  | SYS_MBX_STAT  -- 02_control_mailboxes.md R81
  | SYS_EVT_BASE  -- 02_control_mailboxes.md R101
  | SYS_EVT_CTL  -- 02_control_mailboxes.md R101
  | SYS_EVT_WR  -- 02_control_mailboxes.md R101
  | SYS_EVT_RD  -- 02_control_mailboxes.md R101
  | SYS_IRQ_STAT  -- 02_control_mailboxes.md R103
  | SYS_IRQ_EN  -- 02_control_mailboxes.md R103
  | SYS_ACC_ERR  -- 02_control_mailboxes.md R104
  | SYS_CSPI_CFG  -- 02_control_mailboxes.md R105
  | SYS_CSPI_STAT  -- 02_control_mailboxes.md R105
  | SYS_STATE  -- 02_control_mailboxes.md R111
  | RX_PATH_STAT  -- 03_receive_paths.md R145
  | RX_GAIN  -- 03_receive_paths.md R145
  | RX_OVR_CFG  -- 03_receive_paths.md R145
  | RX_OVR_STAT  -- 03_receive_paths.md R145
  | RX_OVR_CNT  -- 03_receive_paths.md R145
  | RX_NF  -- 03_receive_paths.md R145
  | RX_NF_CFG  -- 03_receive_paths.md R145
  | RX_DC_CFG  -- 03_receive_paths.md R145
  | RX_DC_STAT  -- 03_receive_paths.md R145
  | RFFE_CTL  -- 03_receive_paths.md R146
  | RFFE_STAT  -- 03_receive_paths.md R146
  | SIEVE_CFG  -- 04_sieve.md R175
  | SIEVE_RS_INC  -- 04_sieve.md R175
  | SIEVE_STAT  -- 04_sieve.md R175
  | SIEVE_TRIM  -- 04_sieve.md R175
  | BEAM_RX_STAT  -- 05_beamforming.md R204
  | BEAM_RX_CFG  -- 05_beamforming.md R204
  | BEAM_RX_AALL  -- 05_beamforming.md R204
  | BEAM_RX_RENORM  -- 05_beamforming.md R204
  | BEAM_RX_EVT  -- 05_beamforming.md R204
  | BEAM_RX_EXCL_CNT  -- 05_beamforming.md R204
  | BEAM_RX_EXCL_SMP  -- 05_beamforming.md R204
  | BEAM_RX_PWR  -- 05_beamforming.md R204
  | BEAM_RX_NF  -- 05_beamforming.md R204
  | BEAM_RX_NF_CFG  -- 05_beamforming.md R204
  | TXB_STAT  -- 05_beamforming.md R204
  | TXB_CFG  -- 05_beamforming.md R204
  | TXB_EVT  -- 05_beamforming.md R204
  | TXS_STAT  -- 05_beamforming.md R205
  | TXS_SAT_CNT  -- 05_beamforming.md R205
  | BEAM_DET_STAT  -- 06_reception_contexts.md R247
  | BEAM_DET_CNT  -- 06_reception_contexts.md R247
  | BEAM_DET_LOSS  -- 06_reception_contexts.md R247
  | BEAM_DET_LAST  -- 06_reception_contexts.md R247
  | TX_PATH_STAT  -- 08_transmit_pa.md R304
  | TX_EVT  -- 08_transmit_pa.md R304
  | TX_UFL_CNT  -- 08_transmit_pa.md R304
  | PA_MODE  -- 08_transmit_pa.md R304
  | PA_DLY  -- 08_transmit_pa.md R304
  | PA_SLEW  -- 08_transmit_pa.md R304
  | PA_BIAS_CODE  -- 08_transmit_pa.md R304
  | PA_BIAS_STAGE  -- 08_transmit_pa.md R304
  | PA_BIAS_OUT  -- 08_transmit_pa.md R304
  | PA_LEAD  -- 08_transmit_pa.md R304
  | TX_LO_OFS  -- 08_transmit_pa.md R304
  | DPD_CFG  -- 09_dpd.md R328
  | DPD_STAT  -- 09_dpd.md R328
  | DPD_EVT  -- 09_dpd.md R328
  | DPD_SAT_CNT  -- 09_dpd.md R328
  | DPD_NMSE  -- 09_dpd.md R328
  | ORX_STAT  -- 09_dpd.md R328
  | ORX_ATT  -- 09_dpd.md R328
  | ORX_CNT  -- 09_dpd.md R328
  | RADIO_STAT  -- 10_radio_states.md R353
  | LO_RX_FREQ  -- 10_radio_states.md R353
  | LO_TX_FREQ  -- 10_radio_states.md R353
  | LO_RX_CTR  -- 10_radio_states.md R353
  | RADIO_TIMING  -- 10_radio_states.md R353
  | RADIO_EVT  -- 10_radio_states.md R353
  | COEX_CFG  -- 10_radio_states.md R353
  | COEX_STAT  -- 10_radio_states.md R353
  | COEX_CNT  -- 10_radio_states.md R353
  | LNK_CFG  -- 11_link_phy.md R393
  | LNK_STAT  -- 11_link_phy.md R393
  | LNK_TRAIN  -- 11_link_phy.md R393
  | LNK_EVT  -- 11_link_phy.md R393
  | LNK_PARTNER  -- 11_link_phy.md R393
  | LNK_RM_CNT  -- 11_link_phy.md R393
  | LNK_LANE_STAT  -- 11_link_phy.md R393
  | LNK_LANE_ERR  -- 11_link_phy.md R393
  | LNK_LANE_FFE  -- 11_link_phy.md R393
  | LNK_LANE_EQ  -- 11_link_phy.md R393
  | LNK_LANE_PRBS  -- 11_link_phy.md R393
  | LNK_FRM_STAT  -- 12_link_framing.md R423
  | LNK_FRM_ERR  -- 12_link_framing.md R423
  | LNK_FRM_DROP  -- 12_link_framing.md R423
  | LNK_CREDIT_STAT  -- 12_link_framing.md R423
  | LNK_BL_DRAIN  -- 12_link_framing.md R423
  | TIME_NS  -- 13_time.md R446
  | TIME_SUBNS  -- 13_time.md R446
  | TIME_WRAPS  -- 13_time.md R446
  | TIME_CFG  -- 13_time.md R446
  | TIME_GAIN  -- 13_time.md R446
  | TS_OFFSET  -- 13_time.md R446
  | TS_RATE  -- 13_time.md R446
  | TS_INTEG  -- 13_time.md R446
  | TIME_STAT  -- 13_time.md R446
  | TS_PPS_NS  -- 13_time.md R446
  | TS_PPS_WF  -- 13_time.md R446
  | TS_MARK_TX_NS  -- 13_time.md R446
  | TS_MARK_TX_WF  -- 13_time.md R446
  | TS_MARK_RX_NS  -- 13_time.md R446
  | TS_MARK_RX_WF  -- 13_time.md R446
  | TS_MARK_SEQ  -- 13_time.md R446
  | TC_CTL  -- 13_time.md R446
  | TC_CMP_NS  -- 13_time.md R446
  | TC_CMP_WP  -- 13_time.md R446
  | TC_PERIOD  -- 13_time.md R446
  | DMA_CFG  -- 14_memory_dma.md R478
  | DMA_STAT  -- 14_memory_dma.md R478
  | DMA_DONE  -- 14_memory_dma.md R478
  | DMA_HALT  -- 14_memory_dma.md R478
  | MEM_LAR_STAT  -- 14_memory_dma.md R478
  | MEM_PAN_STAT  -- 14_memory_dma.md R478
  | MEM_PAN_USABLE  -- 14_memory_dma.md R478
  | MEM_TILE_LAST  -- 14_memory_dma.md R478
  | DMA_CH_CTL  -- 14_memory_dma.md R478
  | DMA_CH_NEXT_LO  -- 14_memory_dma.md R478
  | DMA_CH_NEXT_HI  -- 14_memory_dma.md R478
  | DMA_CH_STAT  -- 14_memory_dma.md R478
  | DMA_CH_ERR_LO  -- 14_memory_dma.md R478
  | DMA_CH_ERR_HI  -- 14_memory_dma.md R478
  | DMA_CH_DESCS  -- 14_memory_dma.md R478
  | DMA_CH_BYTES  -- 14_memory_dma.md R478
  | AUX_SEQ_MASK  -- 14_memory_dma.md R479
  | AUX_SEQ_CTL  -- 14_memory_dma.md R479
  | AUX_BUF_BASE  -- 14_memory_dma.md R479
  | AUX_BUF_CTL  -- 14_memory_dma.md R479
  | AUX_BUF_WR  -- 14_memory_dma.md R479
  | AUX_BUF_RD  -- 14_memory_dma.md R479
  | AUX_STAT  -- 14_memory_dma.md R479
  | GPIO_PIN  -- 14_memory_dma.md R479
  | CAL_PATH_STAT  -- 15_calibration.md R505
  | CAL_Q_STAT  -- 15_calibration.md R505
  | CAL_PHASE  -- 15_calibration.md R505
  | CAL_TX_TRIM  -- 15_calibration.md R505
  | CAL_CFG  -- 15_calibration.md R505
  | CLK_CFG  -- 16_clocks.md R537
  | CLK_STAT  -- 16_clocks.md R537
  | CLK_MON  -- 16_clocks.md R537
  | CLK_EVT  -- 16_clocks.md R537
  | CLK_PACE  -- 16_clocks.md R537
  | HOSC_TRIM  -- 16_clocks.md R537
  | CLK_SRC  -- 16_clocks.md R537
  | CLK_GATE_CNT  -- 16_clocks.md R537
  | SYN_FRAC  -- 16_clocks.md R537
  | SYN_CTL  -- 16_clocks.md R537
  | SYN_FINE  -- 16_clocks.md R537
  | WHISK_SEED  -- 16_clocks.md R537
  | SPLL_STAT  -- 16_clocks.md R537
  | PWR_MODE  -- 17_power_domains.md R560
  | PWR_OP  -- 17_power_domains.md R560
  | PWR_SIEVE_OP  -- 17_power_domains.md R560
  | VMON_STAT  -- 17_power_domains.md R560
  | VMON_CFG  -- 17_power_domains.md R560
  | PWR_DOM  -- 17_power_domains.md R560
  | FLT_STAT  -- 18_faults.md R582
  | FLT_CUR  -- 18_faults.md R582
  | FLT_LAST  -- 18_faults.md R582
  | FLT_RESET  -- 18_faults.md R582
  | FLT_NMI  -- 18_faults.md R582
  | FLT_WDOG  -- 18_faults.md R582
  | FLT_LOG_WR  -- 18_faults.md R582
  | FLT_CNT  -- 18_faults.md R582
  | SYS_ACC_ADDR  -- 02_control_mailboxes.md R104
  | FLT_LOG  -- 18_faults.md R582
  deriving DecidableEq, Repr

/-- How a register is banked: one copy; a copy per port (R73); an array at a stride; one per path or per quadrant of
the path that PATH_SEL selects (R71, R74); one per RX or TX beam that BEAM_SEL selects (R75). -/
inductive Bank
  | one | port | direct | path | quad | rxBeam | txBeam
  deriving DecidableEq, Repr

/-- The access types of R12. -/
inductive Kind
  | ro | rw | w1c | w1s | wo | rc
  deriving DecidableEq, Repr

/-- One field of a register table: lowest bit, width, type, reset value (0 where the table says boot, fused, strap or x:
see `RegName.resetValue`). -/
structure FieldSpec where
  lo : Nat
  width : Nat
  kind : Kind
  reset : Nat
  deriving DecidableEq, Repr

/-- A field by name: its register and place. -/
structure Fld where
  reg : RegName
  lo : Nat
  width : Nat
  deriving DecidableEq, Repr

/-- The fields of a register, reserved bits left out (R14: they read 0 and ignore writes). -/
def RegName.fields : RegName → List FieldSpec
  | .SYS_ID => [⟨16, 16, .ro, 0x6464⟩, ⟨12, 4, .ro, 1⟩, ⟨8, 4, .ro, 1⟩, ⟨0, 1, .ro, 0⟩]
  | .SYS_MODE => [⟨22, 2, .ro, 0⟩, ⟨21, 1, .w1c, 0⟩, ⟨20, 1, .ro, 0⟩, ⟨16, 4, .ro, 0⟩, ⟨8, 8, .ro, 0⟩, ⟨7, 1, .ro, 0⟩, ⟨4, 3, .ro, 0⟩, ⟨0, 3, .ro, 0⟩]
  | .PATH_SEL => [⟨9, 1, .rw, 0⟩, ⟨8, 1, .rw, 0⟩, ⟨0, 6, .rw, 0⟩]
  | .BEAM_SEL => [⟨9, 1, .rw, 0⟩, ⟨8, 1, .rw, 0⟩, ⟨7, 1, .rw, 0⟩, ⟨0, 6, .rw, 0⟩]
  | .SYS_MBX_DB => [⟨0, 1, .wo, 0⟩]
  | .SYS_MBX_STAT => [⟨16, 8, .ro, 0⟩, ⟨8, 8, .ro, 0⟩, ⟨6, 1, .ro, 0⟩, ⟨5, 1, .w1c, 0⟩, ⟨4, 1, .wo, 0⟩, ⟨0, 2, .ro, 0⟩]
  | .SYS_EVT_BASE => [⟨0, 32, .ro, 0⟩]
  | .SYS_EVT_CTL => [⟨8, 1, .w1c, 0⟩, ⟨0, 5, .ro, 0⟩]
  | .SYS_EVT_WR => [⟨0, 16, .ro, 0⟩]
  | .SYS_EVT_RD => [⟨0, 16, .rw, 0⟩]
  | .SYS_IRQ_STAT => [⟨11, 1, .w1c, 0⟩, ⟨10, 1, .w1c, 0⟩, ⟨9, 1, .w1c, 0⟩, ⟨8, 1, .w1c, 0⟩, ⟨0, 8, .w1c, 0⟩]
  | .SYS_IRQ_EN => [⟨11, 1, .rw, 0⟩, ⟨10, 1, .rw, 0⟩, ⟨9, 1, .rw, 0⟩, ⟨8, 1, .rw, 0⟩, ⟨0, 8, .rw, 0⟩]
  | .SYS_ACC_ERR => [⟨24, 8, .ro, 0⟩, ⟨16, 8, .ro, 0⟩, ⟨5, 1, .ro, 0⟩, ⟨4, 1, .w1c, 0⟩, ⟨0, 4, .ro, 0⟩]
  | .SYS_CSPI_CFG => [⟨16, 15, .rw, 8⟩, ⟨0, 10, .rw, 0x10⟩]
  | .SYS_CSPI_STAT => [⟨2, 1, .ro, 0⟩, ⟨1, 1, .w1c, 0⟩, ⟨0, 1, .w1c, 0⟩]
  | .SYS_STATE => [⟨16, 4, .ro, 0⟩, ⟨13, 1, .ro, 0⟩, ⟨12, 1, .ro, 0⟩, ⟨8, 2, .ro, 0⟩, ⟨0, 4, .ro, 0⟩]
  | .RX_PATH_STAT => [⟨11, 1, .ro, 0⟩, ⟨10, 1, .ro, 0⟩, ⟨9, 1, .ro, 0⟩, ⟨8, 1, .ro, 0⟩, ⟨4, 2, .ro, 0⟩, ⟨3, 1, .ro, 0⟩, ⟨2, 1, .ro, 0⟩, ⟨0, 2, .ro, 0⟩]
  | .RX_GAIN => [⟨16, 1, .ro, 0⟩, ⟨8, 8, .ro, 0⟩, ⟨0, 7, .ro, 0⟩]
  | .RX_OVR_CFG => [⟨16, 13, .rw, 0x100⟩, ⟨0, 6, .rw, 8⟩]
  | .RX_OVR_STAT => [⟨4, 1, .w1c, 0⟩, ⟨3, 1, .w1c, 0⟩, ⟨2, 1, .w1c, 0⟩, ⟨1, 1, .w1c, 0⟩, ⟨0, 1, .w1c, 0⟩]
  | .RX_OVR_CNT => [⟨16, 16, .rc, 0⟩, ⟨0, 16, .rc, 0⟩]
  | .RX_NF => [⟨31, 1, .ro, 0⟩, ⟨30, 1, .ro, 0⟩, ⟨16, 14, .ro, 0⟩, ⟨0, 16, .ro, 0⟩]
  | .RX_NF_CFG => [⟨16, 14, .rw, 0x3e8⟩, ⟨8, 3, .rw, 3⟩, ⟨0, 5, .rw, 0xc⟩]
  | .RX_DC_CFG => [⟨8, 1, .rw, 0⟩, ⟨0, 2, .rw, 1⟩]
  | .RX_DC_STAT => [⟨16, 16, .ro, 0⟩, ⟨0, 16, .ro, 0⟩]
  | .RFFE_CTL => [⟨16, 1, .rw, 0⟩, ⟨0, 8, .rw, 0x14⟩]
  | .RFFE_STAT => [⟨9, 1, .w1c, 0⟩, ⟨8, 1, .w1c, 0⟩, ⟨1, 1, .ro, 0⟩, ⟨0, 1, .ro, 0⟩]
  | .SIEVE_CFG => [⟨20, 4, .ro, 0⟩, ⟨17, 1, .ro, 0⟩, ⟨16, 1, .ro, 0⟩, ⟨11, 1, .ro, 0⟩, ⟨10, 1, .ro, 0⟩, ⟨9, 1, .ro, 0⟩, ⟨0, 2, .ro, 0⟩]
  | .SIEVE_RS_INC => [⟨0, 32, .ro, 0x80000000⟩]
  | .SIEVE_STAT => [⟨2, 1, .w1c, 0⟩, ⟨1, 1, .w1c, 0⟩, ⟨0, 1, .w1c, 0⟩]
  | .SIEVE_TRIM => [⟨0, 8, .ro, 0x80⟩]
  | .BEAM_RX_STAT => [⟨11, 1, .ro, 0⟩, ⟨10, 1, .ro, 0⟩, ⟨9, 1, .ro, 0⟩, ⟨8, 1, .ro, 0⟩, ⟨7, 1, .ro, 0⟩, ⟨4, 1, .ro, 0⟩, ⟨3, 1, .ro, 0⟩, ⟨2, 1, .ro, 0⟩, ⟨1, 1, .ro, 0⟩, ⟨0, 1, .ro, 0⟩]
  | .BEAM_RX_CFG => [⟨8, 3, .ro, 0⟩, ⟨4, 1, .ro, 0⟩, ⟨0, 4, .ro, 0xf⟩]
  | .BEAM_RX_AALL => [⟨0, 22, .ro, 0⟩]
  | .BEAM_RX_RENORM => [⟨16, 7, .ro, 0⟩, ⟨0, 15, .ro, 0x1000⟩]
  | .BEAM_RX_EVT => [⟨3, 1, .w1c, 0⟩, ⟨2, 1, .w1c, 0⟩, ⟨1, 1, .w1c, 0⟩, ⟨0, 1, .w1c, 0⟩]
  | .BEAM_RX_EXCL_CNT => [⟨16, 16, .rc, 0⟩, ⟨0, 16, .rc, 0⟩]
  | .BEAM_RX_EXCL_SMP => [⟨0, 32, .rc, 0⟩]
  | .BEAM_RX_PWR => [⟨31, 1, .ro, 0⟩, ⟨30, 1, .ro, 0⟩, ⟨0, 16, .ro, 0⟩]
  | .BEAM_RX_NF => [⟨31, 1, .ro, 0⟩, ⟨30, 1, .ro, 0⟩, ⟨16, 14, .ro, 0⟩, ⟨0, 16, .ro, 0⟩]
  | .BEAM_RX_NF_CFG => [⟨16, 14, .rw, 0x3e8⟩, ⟨8, 3, .rw, 3⟩, ⟨0, 5, .rw, 0xc⟩]
  | .TXB_STAT => [⟨23, 1, .ro, 0⟩, ⟨16, 6, .ro, 0⟩, ⟨10, 3, .ro, 3⟩, ⟨8, 2, .ro, 0⟩, ⟨4, 1, .ro, 0⟩, ⟨3, 1, .ro, 0⟩, ⟨2, 1, .ro, 0⟩, ⟨1, 1, .ro, 0⟩, ⟨0, 1, .ro, 0⟩]
  | .TXB_CFG => [⟨0, 4, .ro, 0xf⟩]
  | .TXB_EVT => [⟨1, 1, .w1c, 0⟩, ⟨0, 1, .w1c, 0⟩]
  | .TXS_STAT => [⟨8, 1, .w1c, 0⟩, ⟨0, 3, .ro, 0⟩]
  | .TXS_SAT_CNT => [⟨0, 32, .rc, 0⟩]
  | .BEAM_DET_STAT => [⟨16, 1, .ro, 0⟩, ⟨0, 16, .ro, 0⟩]
  | .BEAM_DET_CNT => [⟨16, 16, .rc, 0⟩, ⟨0, 16, .rc, 0⟩]
  | .BEAM_DET_LOSS => [⟨16, 16, .rc, 0⟩, ⟨0, 16, .rc, 0⟩]
  | .BEAM_DET_LAST => [⟨16, 16, .ro, 0⟩, ⟨4, 1, .ro, 0⟩, ⟨0, 4, .ro, 0⟩]
  | .TX_PATH_STAT => [⟨8, 9, .ro, 0⟩, ⟨7, 1, .ro, 0⟩, ⟨6, 1, .ro, 0⟩, ⟨5, 1, .ro, 0⟩, ⟨4, 1, .ro, 0⟩, ⟨0, 3, .ro, 0⟩]
  | .TX_EVT => [⟨3, 1, .w1c, 0⟩, ⟨2, 1, .w1c, 0⟩, ⟨1, 1, .ro, 0⟩, ⟨0, 1, .w1c, 0⟩]
  | .TX_UFL_CNT => [⟨0, 32, .rc, 0⟩]
  | .PA_MODE => [⟨8, 1, .ro, 0⟩, ⟨0, 1, .ro, 0⟩]
  | .PA_DLY => [⟨20, 10, .ro, 0⟩, ⟨10, 10, .ro, 0⟩, ⟨0, 10, .ro, 0⟩]
  | .PA_SLEW => [⟨8, 10, .ro, 1⟩, ⟨0, 8, .ro, 1⟩]
  | .PA_BIAS_CODE => [⟨16, 12, .ro, 0⟩, ⟨0, 12, .ro, 0⟩]
  | .PA_BIAS_STAGE => [⟨16, 1, .rw, 0⟩, ⟨0, 12, .rw, 0⟩]
  | .PA_BIAS_OUT => [⟨16, 12, .ro, 0⟩, ⟨0, 12, .ro, 0⟩]
  | .PA_LEAD => [⟨16, 14, .ro, 0⟩, ⟨0, 14, .ro, 0⟩]
  | .TX_LO_OFS => [⟨24, 1, .ro, 0⟩, ⟨0, 18, .ro, 0⟩]
  | .DPD_CFG => [⟨16, 14, .ro, 0x64⟩, ⟨8, 6, .ro, 0x1e⟩, ⟨4, 3, .ro, 1⟩, ⟨1, 1, .ro, 0⟩, ⟨0, 1, .ro, 0⟩]
  | .DPD_STAT => [⟨16, 4, .ro, 0⟩, ⟨12, 2, .ro, 0⟩, ⟨10, 2, .ro, 0⟩, ⟨9, 1, .ro, 0⟩, ⟨8, 1, .ro, 0⟩, ⟨0, 5, .ro, 0⟩]
  | .DPD_EVT => [⟨4, 1, .w1c, 0⟩, ⟨3, 1, .w1c, 0⟩, ⟨2, 1, .w1c, 0⟩, ⟨1, 1, .w1c, 0⟩, ⟨0, 1, .w1c, 0⟩]
  | .DPD_SAT_CNT => [⟨0, 32, .rc, 0⟩]
  | .DPD_NMSE => [⟨31, 1, .ro, 0⟩, ⟨16, 14, .ro, 0⟩, ⟨0, 16, .ro, 0⟩]
  | .ORX_STAT => [⟨10, 1, .ro, 0⟩, ⟨9, 1, .ro, 0⟩, ⟨8, 1, .ro, 0⟩, ⟨0, 4, .ro, 0⟩]
  | .ORX_ATT => [⟨0, 5, .ro, 0⟩]
  | .ORX_CNT => [⟨16, 16, .rc, 0⟩, ⟨0, 16, .rc, 0⟩]
  | .RADIO_STAT => [⟨14, 1, .ro, 0⟩, ⟨13, 1, .ro, 1⟩, ⟨12, 1, .ro, 0⟩, ⟨10, 2, .ro, 0⟩, ⟨8, 2, .ro, 0⟩, ⟨7, 1, .ro, 0⟩, ⟨4, 3, .ro, 0⟩, ⟨3, 1, .ro, 0⟩, ⟨0, 3, .ro, 0⟩]
  | .LO_RX_FREQ => [⟨0, 32, .ro, 0⟩]
  | .LO_TX_FREQ => [⟨0, 32, .ro, 0⟩]
  | .LO_RX_CTR => [⟨0, 32, .ro, 0⟩]
  | .RADIO_TIMING => [⟨16, 16, .ro, 0⟩, ⟨0, 16, .ro, 0x1f4⟩]
  | .RADIO_EVT => [⟨2, 1, .w1c, 0⟩, ⟨1, 1, .w1c, 0⟩, ⟨0, 1, .w1c, 0⟩]
  | .COEX_CFG => [⟨16, 14, .ro, 0⟩, ⟨6, 10, .ro, 0xa⟩, ⟨5, 1, .ro, 0⟩, ⟨4, 1, .ro, 0⟩, ⟨3, 1, .ro, 0⟩, ⟨0, 1, .ro, 0⟩]
  | .COEX_STAT => [⟨10, 1, .w1c, 0⟩, ⟨9, 1, .w1c, 0⟩, ⟨8, 1, .w1c, 0⟩, ⟨2, 1, .ro, 0⟩, ⟨1, 1, .ro, 0⟩, ⟨0, 1, .ro, 0⟩]
  | .COEX_CNT => [⟨16, 16, .rc, 0⟩, ⟨0, 16, .rc, 0⟩]
  | .LNK_CFG => [⟨16, 16, .ro, 0⟩, ⟨8, 8, .ro, 0⟩, ⟨4, 3, .ro, 0⟩, ⟨1, 2, .ro, 0⟩, ⟨0, 1, .ro, 0⟩]
  | .LNK_STAT => [⟨28, 4, .ro, 0⟩, ⟨16, 8, .ro, 0⟩, ⟨8, 8, .ro, 0⟩, ⟨5, 1, .ro, 0⟩, ⟨4, 1, .ro, 0⟩, ⟨3, 1, .ro, 0⟩, ⟨0, 3, .ro, 0⟩]
  | .LNK_TRAIN => [⟨16, 11, .ro, 0⟩, ⟨0, 16, .ro, 0⟩]
  | .LNK_EVT => [⟨3, 1, .w1c, 0⟩, ⟨2, 1, .w1c, 0⟩, ⟨1, 1, .w1c, 0⟩, ⟨0, 1, .w1c, 0⟩]
  | .LNK_PARTNER => [⟨31, 1, .ro, 0⟩, ⟨28, 1, .ro, 0⟩, ⟨24, 4, .ro, 0⟩, ⟨16, 8, .ro, 0⟩, ⟨0, 16, .ro, 0⟩]
  | .LNK_RM_CNT => [⟨16, 16, .rc, 0⟩, ⟨0, 16, .rc, 0⟩]
  | .LNK_LANE_STAT => [⟨24, 8, .ro, 0⟩, ⟨16, 2, .ro, 0⟩, ⟨12, 1, .ro, 0⟩, ⟨11, 1, .ro, 0⟩, ⟨10, 1, .ro, 0⟩, ⟨9, 1, .ro, 0⟩, ⟨8, 1, .ro, 0⟩, ⟨4, 3, .ro, 0⟩, ⟨3, 1, .ro, 0⟩, ⟨2, 1, .ro, 0⟩, ⟨1, 1, .ro, 0⟩, ⟨0, 1, .ro, 0⟩]
  | .LNK_LANE_ERR => [⟨16, 16, .rc, 0⟩, ⟨0, 16, .rc, 0⟩]
  | .LNK_LANE_FFE => [⟨16, 5, .ro, 0xb⟩, ⟨8, 6, .ro, 0x30⟩, ⟨0, 4, .ro, 4⟩]
  | .LNK_LANE_EQ => [⟨8, 8, .ro, 0⟩, ⟨0, 4, .ro, 0⟩]
  | .LNK_LANE_PRBS => [⟨0, 32, .rc, 0⟩]
  | .LNK_FRM_STAT => [⟨16, 8, .ro, 0⟩, ⟨12, 4, .ro, 0⟩, ⟨11, 1, .ro, 0⟩, ⟨4, 7, .ro, 0⟩, ⟨3, 1, .w1c, 0⟩, ⟨2, 1, .w1c, 0⟩, ⟨1, 1, .w1c, 0⟩, ⟨0, 1, .w1c, 0⟩]
  | .LNK_FRM_ERR => [⟨16, 16, .rc, 0⟩, ⟨0, 16, .rc, 0⟩]
  | .LNK_FRM_DROP => [⟨16, 16, .rc, 0⟩, ⟨0, 16, .rc, 0⟩]
  | .LNK_CREDIT_STAT => [⟨4, 1, .ro, 0⟩, ⟨3, 1, .ro, 0⟩, ⟨2, 1, .ro, 0⟩, ⟨1, 1, .ro, 0⟩, ⟨0, 1, .ro, 0⟩]
  | .LNK_BL_DRAIN => [⟨8, 1, .ro, 0⟩, ⟨0, 7, .ro, 0x19⟩]
  | .TIME_NS => [⟨0, 32, .ro, 0⟩]
  | .TIME_SUBNS => [⟨0, 32, .ro, 0⟩]
  | .TIME_WRAPS => [⟨0, 16, .ro, 0⟩]
  | .TIME_CFG => [⟨16, 16, .ro, 0x7d⟩, ⟨2, 1, .ro, 0⟩, ⟨0, 2, .ro, 3⟩]
  | .TIME_GAIN => [⟨16, 16, .ro, 0⟩, ⟨0, 16, .ro, 0⟩]
  | .TS_OFFSET => [⟨0, 32, .wo, 0⟩]
  | .TS_RATE => [⟨0, 32, .ro, 0⟩]
  | .TS_INTEG => [⟨0, 32, .ro, 0⟩]
  | .TIME_STAT => [⟨16, 16, .rc, 0⟩, ⟨6, 1, .w1c, 0⟩, ⟨5, 1, .w1c, 0⟩, ⟨4, 1, .ro, 0⟩, ⟨3, 1, .w1c, 0⟩, ⟨2, 1, .w1c, 0⟩, ⟨1, 1, .w1c, 0⟩, ⟨0, 1, .ro, 1⟩]
  | .TS_PPS_NS => [⟨0, 32, .ro, 0⟩]
  | .TS_PPS_WF => [⟨16, 16, .ro, 0⟩, ⟨0, 16, .ro, 0⟩]
  | .TS_MARK_TX_NS => [⟨0, 32, .ro, 0⟩]
  | .TS_MARK_TX_WF => [⟨16, 16, .ro, 0⟩, ⟨0, 16, .ro, 0⟩]
  | .TS_MARK_RX_NS => [⟨0, 32, .ro, 0⟩]
  | .TS_MARK_RX_WF => [⟨16, 16, .ro, 0⟩, ⟨0, 16, .ro, 0⟩]
  | .TS_MARK_SEQ => [⟨16, 16, .ro, 0⟩, ⟨0, 16, .ro, 0⟩]
  | .TC_CTL => [⟨31, 1, .ro, 0⟩, ⟨30, 1, .w1c, 0⟩, ⟨29, 1, .w1c, 0⟩, ⟨16, 8, .rw, 1⟩, ⟨10, 2, .rw, 0⟩, ⟨8, 2, .rw, 0⟩, ⟨4, 4, .rw, 0⟩, ⟨1, 1, .rw, 0⟩, ⟨0, 1, .rw, 0⟩]
  | .TC_CMP_NS => [⟨0, 32, .rw, 0⟩]
  | .TC_CMP_WP => [⟨0, 16, .rw, 0⟩]
  | .TC_PERIOD => [⟨0, 32, .rw, 0⟩]
  | .DMA_CFG => [⟨0, 16, .ro, 0x1000⟩]
  | .DMA_STAT => [⟨0, 7, .ro, 0⟩]
  | .DMA_DONE => [⟨0, 32, .w1c, 0⟩]
  | .DMA_HALT => [⟨0, 32, .ro, 0⟩]
  | .MEM_LAR_STAT => [⟨16, 8, .ro, 0⟩, ⟨0, 13, .ro, 0⟩]
  | .MEM_PAN_STAT => [⟨16, 13, .ro, 0⟩, ⟨12, 4, .ro, 0⟩, ⟨8, 2, .ro, 0⟩, ⟨4, 2, .ro, 0⟩, ⟨0, 3, .ro, 1⟩]
  | .MEM_PAN_USABLE => [⟨0, 22, .ro, 0⟩]
  | .MEM_TILE_LAST => [⟨24, 4, .ro, 0⟩, ⟨23, 1, .w1c, 0⟩, ⟨22, 1, .ro, 0⟩, ⟨0, 22, .ro, 0⟩]
  | .DMA_CH_CTL => [⟨4, 4, .rw, 0⟩, ⟨1, 1, .rw, 0⟩, ⟨0, 1, .rw, 0⟩]
  | .DMA_CH_NEXT_LO => [⟨0, 32, .rw, 0⟩]
  | .DMA_CH_NEXT_HI => [⟨0, 8, .rw, 0⟩]
  | .DMA_CH_STAT => [⟨16, 16, .ro, 0⟩, ⟨10, 1, .ro, 0⟩, ⟨9, 1, .w1c, 0⟩, ⟨8, 1, .w1c, 0⟩, ⟨4, 4, .ro, 0⟩, ⟨0, 3, .ro, 0⟩]
  | .DMA_CH_ERR_LO => [⟨0, 32, .ro, 0⟩]
  | .DMA_CH_ERR_HI => [⟨0, 8, .ro, 0⟩]
  | .DMA_CH_DESCS => [⟨0, 32, .rc, 0⟩]
  | .DMA_CH_BYTES => [⟨0, 24, .ro, 0⟩]
  | .AUX_SEQ_MASK => [⟨0, 32, .rw, 0⟩]
  | .AUX_SEQ_CTL => [⟨8, 24, .rw, 0x3e8⟩, ⟨1, 1, .rw, 0⟩, ⟨0, 1, .rw, 0⟩]
  | .AUX_BUF_BASE => [⟨0, 32, .rw, 0⟩]
  | .AUX_BUF_CTL => [⟨8, 1, .w1c, 0⟩, ⟨0, 5, .rw, 9⟩]
  | .AUX_BUF_WR => [⟨0, 16, .ro, 0⟩]
  | .AUX_BUF_RD => [⟨0, 16, .rw, 0⟩]
  | .AUX_STAT => [⟨16, 16, .rc, 0⟩, ⟨1, 1, .w1c, 0⟩, ⟨0, 1, .ro, 0⟩]
  | .GPIO_PIN => [⟨8, 1, .ro, 0⟩, ⟨1, 1, .rw, 0⟩, ⟨0, 1, .rw, 0⟩]
  | .CAL_PATH_STAT => [⟨24, 8, .ro, 0⟩, ⟨16, 2, .ro, 0⟩, ⟨12, 2, .ro, 0⟩, ⟨8, 1, .ro, 0⟩, ⟨1, 1, .ro, 0⟩, ⟨0, 1, .ro, 0⟩]
  | .CAL_Q_STAT => [⟨24, 8, .ro, 0⟩, ⟨16, 8, .ro, 0⟩, ⟨12, 4, .ro, 0⟩, ⟨11, 1, .ro, 0⟩, ⟨10, 1, .ro, 0⟩, ⟨9, 1, .ro, 0⟩, ⟨8, 1, .ro, 0⟩, ⟨1, 1, .ro, 0⟩, ⟨0, 1, .ro, 0⟩]
  | .CAL_PHASE => [⟨16, 12, .ro, 0⟩, ⟨0, 12, .ro, 0⟩]
  | .CAL_TX_TRIM => [⟨16, 12, .ro, 0⟩, ⟨0, 10, .ro, 0⟩]
  | .CAL_CFG => [⟨22, 10, .ro, 0xa⟩, ⟨12, 10, .ro, 0xa⟩, ⟨9, 1, .ro, 1⟩, ⟨8, 1, .ro, 1⟩, ⟨0, 5, .ro, 6⟩]
  | .CLK_CFG => [⟨2, 1, .ro, 1⟩, ⟨0, 2, .ro, 0⟩]
  | .CLK_STAT => [⟨14, 2, .ro, 0⟩, ⟨12, 2, .ro, 0⟩, ⟨8, 4, .ro, 0⟩, ⟨7, 1, .ro, 0⟩, ⟨6, 1, .w1c, 0⟩, ⟨5, 1, .w1c, 0⟩, ⟨4, 1, .ro, 0⟩, ⟨3, 1, .ro, 0⟩, ⟨2, 1, .ro, 0⟩, ⟨1, 1, .ro, 0⟩, ⟨0, 1, .ro, 0⟩]
  | .CLK_MON => [⟨16, 16, .ro, 0⟩, ⟨0, 16, .ro, 0⟩]
  | .CLK_EVT => [⟨5, 1, .w1c, 0⟩, ⟨4, 1, .w1c, 0⟩, ⟨3, 1, .w1c, 0⟩, ⟨2, 1, .w1c, 0⟩, ⟨1, 1, .w1c, 0⟩, ⟨0, 1, .w1c, 0⟩]
  | .CLK_PACE => [⟨16, 16, .rc, 0xffff⟩, ⟨0, 16, .ro, 0⟩]
  | .HOSC_TRIM => [⟨8, 1, .ro, 0⟩, ⟨0, 8, .ro, 0⟩]
  | .CLK_SRC => [⟨18, 1, .ro, 0⟩, ⟨17, 1, .ro, 0⟩, ⟨16, 1, .ro, 0⟩, ⟨4, 2, .ro, 2⟩, ⟨2, 2, .ro, 2⟩, ⟨0, 2, .ro, 0⟩]
  | .CLK_GATE_CNT => [⟨0, 32, .rc, 0⟩]
  | .SYN_FRAC => [⟨0, 32, .ro, 0⟩]
  | .SYN_CTL => [⟨12, 2, .ro, 2⟩, ⟨10, 1, .ro, 0⟩, ⟨8, 2, .ro, 0⟩, ⟨0, 6, .ro, 0⟩]
  | .SYN_FINE => [⟨0, 32, .ro, 0⟩]
  | .WHISK_SEED => [⟨0, 31, .ro, 0⟩]
  | .SPLL_STAT => [⟨16, 16, .rc, 0⟩, ⟨1, 1, .ro, 0⟩, ⟨0, 1, .ro, 0⟩]
  | .PWR_MODE => [⟨0, 2, .rw, 0⟩]
  | .PWR_OP => [⟨4, 1, .ro, 0⟩, ⟨3, 1, .ro, 0⟩]
  | .PWR_SIEVE_OP => [⟨0, 4, .ro, 0⟩]
  | .VMON_STAT => [⟨16, 8, .w1c, 0⟩, ⟨0, 8, .ro, 0⟩]
  | .VMON_CFG => [⟨8, 5, .ro, 0x12⟩, ⟨0, 5, .ro, 0xa⟩]
  | .PWR_DOM => [⟨24, 6, .ro, 0x14⟩, ⟨20, 3, .ro, 0⟩, ⟨19, 1, .ro, 0⟩, ⟨18, 1, .w1c, 0⟩, ⟨17, 1, .w1c, 0⟩, ⟨16, 1, .w1c, 0⟩, ⟨12, 4, .ro, 0⟩, ⟨9, 1, .ro, 0⟩, ⟨8, 1, .ro, 0⟩, ⟨6, 2, .ro, 0⟩, ⟨4, 2, .ro, 0⟩, ⟨0, 2, .ro, 0⟩]
  | .FLT_STAT => [⟨23, 1, .ro, 0⟩, ⟨22, 1, .ro, 0⟩, ⟨21, 1, .w1c, 0⟩, ⟨16, 5, .ro, 0⟩, ⟨15, 1, .ro, 0⟩, ⟨3, 1, .ro, 0⟩, ⟨0, 3, .ro, 0⟩]
  | .FLT_CUR => [⟨24, 8, .ro, 0⟩, ⟨16, 3, .ro, 0⟩, ⟨0, 16, .ro, 0⟩]
  | .FLT_LAST => [⟨0, 32, .ro, 0⟩]
  | .FLT_RESET => [⟨24, 8, .ro, 0⟩, ⟨16, 1, .ro, 0⟩, ⟨0, 16, .ro, 0⟩]
  | .FLT_NMI => [⟨4, 1, .w1c, 0⟩, ⟨3, 1, .w1c, 0⟩, ⟨2, 1, .w1c, 0⟩, ⟨1, 1, .w1c, 0⟩, ⟨0, 1, .w1c, 0⟩]
  | .FLT_WDOG => [⟨0, 32, .wo, 0⟩]
  | .FLT_LOG_WR => [⟨0, 6, .ro, 0⟩]
  | .FLT_CNT => [⟨24, 8, .rc, 0⟩, ⟨0, 16, .rc, 0⟩]
  | .SYS_ACC_ADDR => [⟨0, 32, .ro, 0⟩]
  | .FLT_LOG => [⟨0, 32, .ro, 0⟩]

/-- Bank, base address, stride and count (R71). -/
def RegName.place : RegName → Bank × Nat × Nat × Nat
  | .SYS_ID => (.one, 0x0, 0x0, 1)
  | .SYS_MODE => (.one, 0x10, 0x0, 1)
  | .PATH_SEL => (.port, 0x2000, 0x0, 3)
  | .BEAM_SEL => (.port, 0xb000, 0x0, 3)
  | .SYS_MBX_DB => (.direct, 0x100, 0x8, 8)
  | .SYS_MBX_STAT => (.direct, 0x104, 0x8, 8)
  | .SYS_EVT_BASE => (.one, 0x50, 0x0, 1)
  | .SYS_EVT_CTL => (.one, 0x54, 0x0, 1)
  | .SYS_EVT_WR => (.one, 0x58, 0x0, 1)
  | .SYS_EVT_RD => (.one, 0x5c, 0x0, 1)
  | .SYS_IRQ_STAT => (.one, 0x20, 0x0, 1)
  | .SYS_IRQ_EN => (.one, 0x24, 0x0, 1)
  | .SYS_ACC_ERR => (.one, 0x30, 0x0, 1)
  | .SYS_CSPI_CFG => (.one, 0x40, 0x0, 1)
  | .SYS_CSPI_STAT => (.one, 0x44, 0x0, 1)
  | .SYS_STATE => (.one, 0x4, 0x0, 1)
  | .RX_PATH_STAT => (.path, 0x2010, 0x0, 64)
  | .RX_GAIN => (.path, 0x2014, 0x0, 64)
  | .RX_OVR_CFG => (.path, 0x2018, 0x0, 64)
  | .RX_OVR_STAT => (.path, 0x201c, 0x0, 64)
  | .RX_OVR_CNT => (.path, 0x2020, 0x0, 64)
  | .RX_NF => (.path, 0x2024, 0x0, 64)
  | .RX_NF_CFG => (.path, 0x2028, 0x0, 64)
  | .RX_DC_CFG => (.path, 0x202c, 0x0, 64)
  | .RX_DC_STAT => (.path, 0x2030, 0x0, 64)
  | .RFFE_CTL => (.direct, 0xa000, 0x100, 4)
  | .RFFE_STAT => (.direct, 0xa004, 0x100, 4)
  | .SIEVE_CFG => (.quad, 0x2100, 0x0, 4)
  | .SIEVE_RS_INC => (.quad, 0x2104, 0x0, 4)
  | .SIEVE_STAT => (.quad, 0x2108, 0x0, 4)
  | .SIEVE_TRIM => (.path, 0x210c, 0x0, 64)
  | .BEAM_RX_STAT => (.rxBeam, 0xb010, 0x0, 64)
  | .BEAM_RX_CFG => (.rxBeam, 0xb014, 0x0, 64)
  | .BEAM_RX_AALL => (.rxBeam, 0xb018, 0x0, 64)
  | .BEAM_RX_RENORM => (.rxBeam, 0xb01c, 0x0, 64)
  | .BEAM_RX_EVT => (.rxBeam, 0xb020, 0x0, 64)
  | .BEAM_RX_EXCL_CNT => (.rxBeam, 0xb024, 0x0, 64)
  | .BEAM_RX_EXCL_SMP => (.rxBeam, 0xb028, 0x0, 64)
  | .BEAM_RX_PWR => (.rxBeam, 0xb02c, 0x0, 64)
  | .BEAM_RX_NF => (.rxBeam, 0xb030, 0x0, 64)
  | .BEAM_RX_NF_CFG => (.rxBeam, 0xb034, 0x0, 64)
  | .TXB_STAT => (.txBeam, 0xb080, 0x0, 32)
  | .TXB_CFG => (.txBeam, 0xb084, 0x0, 32)
  | .TXB_EVT => (.txBeam, 0xb088, 0x0, 32)
  | .TXS_STAT => (.path, 0x2140, 0x0, 64)
  | .TXS_SAT_CNT => (.path, 0x2144, 0x0, 64)
  | .BEAM_DET_STAT => (.rxBeam, 0xb040, 0x0, 64)
  | .BEAM_DET_CNT => (.rxBeam, 0xb044, 0x0, 64)
  | .BEAM_DET_LOSS => (.rxBeam, 0xb048, 0x0, 64)
  | .BEAM_DET_LAST => (.rxBeam, 0xb04c, 0x0, 64)
  | .TX_PATH_STAT => (.path, 0x2180, 0x0, 64)
  | .TX_EVT => (.path, 0x2184, 0x0, 64)
  | .TX_UFL_CNT => (.path, 0x2188, 0x0, 64)
  | .PA_MODE => (.path, 0x218c, 0x0, 64)
  | .PA_DLY => (.path, 0x2190, 0x0, 64)
  | .PA_SLEW => (.path, 0x2194, 0x0, 64)
  | .PA_BIAS_CODE => (.path, 0x2198, 0x0, 64)
  | .PA_BIAS_STAGE => (.path, 0x219c, 0x0, 64)
  | .PA_BIAS_OUT => (.path, 0x21a0, 0x0, 64)
  | .PA_LEAD => (.path, 0x21a4, 0x0, 64)
  | .TX_LO_OFS => (.quad, 0x21a8, 0x0, 4)
  | .DPD_CFG => (.path, 0x21c0, 0x0, 64)
  | .DPD_STAT => (.path, 0x21c4, 0x0, 64)
  | .DPD_EVT => (.path, 0x21c8, 0x0, 64)
  | .DPD_SAT_CNT => (.path, 0x21cc, 0x0, 64)
  | .DPD_NMSE => (.path, 0x21d0, 0x0, 64)
  | .ORX_STAT => (.quad, 0x21d4, 0x0, 4)
  | .ORX_ATT => (.path, 0x21d8, 0x0, 64)
  | .ORX_CNT => (.quad, 0x21dc, 0x0, 4)
  | .RADIO_STAT => (.quad, 0x21e0, 0x0, 4)
  | .LO_RX_FREQ => (.quad, 0x21e4, 0x0, 4)
  | .LO_TX_FREQ => (.quad, 0x21e8, 0x0, 4)
  | .LO_RX_CTR => (.quad, 0x21ec, 0x0, 4)
  | .RADIO_TIMING => (.quad, 0x21f0, 0x0, 4)
  | .RADIO_EVT => (.quad, 0x21f4, 0x0, 4)
  | .COEX_CFG => (.one, 0xa400, 0x0, 1)
  | .COEX_STAT => (.one, 0xa404, 0x0, 1)
  | .COEX_CNT => (.one, 0xa408, 0x0, 1)
  | .LNK_CFG => (.one, 0x7000, 0x0, 1)
  | .LNK_STAT => (.one, 0x7004, 0x0, 1)
  | .LNK_TRAIN => (.one, 0x7008, 0x0, 1)
  | .LNK_EVT => (.one, 0x700c, 0x0, 1)
  | .LNK_PARTNER => (.one, 0x7010, 0x0, 1)
  | .LNK_RM_CNT => (.one, 0x7014, 0x0, 1)
  | .LNK_LANE_STAT => (.direct, 0x7100, 0x20, 8)
  | .LNK_LANE_ERR => (.direct, 0x7104, 0x20, 8)
  | .LNK_LANE_FFE => (.direct, 0x7108, 0x20, 8)
  | .LNK_LANE_EQ => (.direct, 0x710c, 0x20, 8)
  | .LNK_LANE_PRBS => (.direct, 0x7110, 0x20, 8)
  | .LNK_FRM_STAT => (.one, 0x7200, 0x0, 1)
  | .LNK_FRM_ERR => (.one, 0x7204, 0x0, 1)
  | .LNK_FRM_DROP => (.one, 0x7208, 0x0, 1)
  | .LNK_CREDIT_STAT => (.one, 0x720c, 0x0, 1)
  | .LNK_BL_DRAIN => (.one, 0x7210, 0x0, 1)
  | .TIME_NS => (.one, 0x5000, 0x0, 1)
  | .TIME_SUBNS => (.one, 0x5004, 0x0, 1)
  | .TIME_WRAPS => (.one, 0x5008, 0x0, 1)
  | .TIME_CFG => (.one, 0x500c, 0x0, 1)
  | .TIME_GAIN => (.one, 0x5010, 0x0, 1)
  | .TS_OFFSET => (.one, 0x5014, 0x0, 1)
  | .TS_RATE => (.one, 0x5018, 0x0, 1)
  | .TS_INTEG => (.one, 0x501c, 0x0, 1)
  | .TIME_STAT => (.one, 0x5020, 0x0, 1)
  | .TS_PPS_NS => (.one, 0x5024, 0x0, 1)
  | .TS_PPS_WF => (.one, 0x5028, 0x0, 1)
  | .TS_MARK_TX_NS => (.one, 0x502c, 0x0, 1)
  | .TS_MARK_TX_WF => (.one, 0x5030, 0x0, 1)
  | .TS_MARK_RX_NS => (.one, 0x5034, 0x0, 1)
  | .TS_MARK_RX_WF => (.one, 0x5038, 0x0, 1)
  | .TS_MARK_SEQ => (.one, 0x503c, 0x0, 1)
  | .TC_CTL => (.direct, 0x5100, 0x10, 16)
  | .TC_CMP_NS => (.direct, 0x5104, 0x10, 16)
  | .TC_CMP_WP => (.direct, 0x5108, 0x10, 16)
  | .TC_PERIOD => (.direct, 0x510c, 0x10, 16)
  | .DMA_CFG => (.one, 0x6000, 0x0, 1)
  | .DMA_STAT => (.one, 0x6004, 0x0, 1)
  | .DMA_DONE => (.one, 0x6008, 0x0, 1)
  | .DMA_HALT => (.one, 0x600c, 0x0, 1)
  | .MEM_LAR_STAT => (.one, 0x6010, 0x0, 1)
  | .MEM_PAN_STAT => (.one, 0x6014, 0x0, 1)
  | .MEM_PAN_USABLE => (.one, 0x6018, 0x0, 1)
  | .MEM_TILE_LAST => (.one, 0x601c, 0x0, 1)
  | .DMA_CH_CTL => (.direct, 0x6100, 0x20, 32)
  | .DMA_CH_NEXT_LO => (.direct, 0x6104, 0x20, 32)
  | .DMA_CH_NEXT_HI => (.direct, 0x6108, 0x20, 32)
  | .DMA_CH_STAT => (.direct, 0x610c, 0x20, 32)
  | .DMA_CH_ERR_LO => (.direct, 0x6110, 0x20, 32)
  | .DMA_CH_ERR_HI => (.direct, 0x6114, 0x20, 32)
  | .DMA_CH_DESCS => (.direct, 0x6118, 0x20, 32)
  | .DMA_CH_BYTES => (.direct, 0x611c, 0x20, 32)
  | .AUX_SEQ_MASK => (.one, 0x9000, 0x0, 1)
  | .AUX_SEQ_CTL => (.one, 0x9004, 0x0, 1)
  | .AUX_BUF_BASE => (.one, 0x9008, 0x0, 1)
  | .AUX_BUF_CTL => (.one, 0x900c, 0x0, 1)
  | .AUX_BUF_WR => (.one, 0x9010, 0x0, 1)
  | .AUX_BUF_RD => (.one, 0x9014, 0x0, 1)
  | .AUX_STAT => (.one, 0x9018, 0x0, 1)
  | .GPIO_PIN => (.direct, 0x9100, 0x4, 16)
  | .CAL_PATH_STAT => (.path, 0x2200, 0x0, 64)
  | .CAL_Q_STAT => (.quad, 0x2204, 0x0, 4)
  | .CAL_PHASE => (.quad, 0x2208, 0x0, 4)
  | .CAL_TX_TRIM => (.path, 0x220c, 0x0, 64)
  | .CAL_CFG => (.one, 0x2210, 0x0, 1)
  | .CLK_CFG => (.one, 0x3000, 0x0, 1)
  | .CLK_STAT => (.one, 0x3004, 0x0, 1)
  | .CLK_MON => (.one, 0x3008, 0x0, 1)
  | .CLK_EVT => (.one, 0x300c, 0x0, 1)
  | .CLK_PACE => (.one, 0x3010, 0x0, 1)
  | .HOSC_TRIM => (.one, 0x3014, 0x0, 1)
  | .CLK_SRC => (.one, 0x3018, 0x0, 1)
  | .CLK_GATE_CNT => (.one, 0x301c, 0x0, 1)
  | .SYN_FRAC => (.direct, 0x3100, 0x20, 8)
  | .SYN_CTL => (.direct, 0x3104, 0x20, 8)
  | .SYN_FINE => (.direct, 0x3108, 0x20, 8)
  | .WHISK_SEED => (.direct, 0x310c, 0x20, 8)
  | .SPLL_STAT => (.direct, 0x3200, 0x10, 4)
  | .PWR_MODE => (.one, 0x4000, 0x0, 1)
  | .PWR_OP => (.one, 0x4004, 0x0, 1)
  | .PWR_SIEVE_OP => (.one, 0x4008, 0x0, 1)
  | .VMON_STAT => (.one, 0x4010, 0x0, 1)
  | .VMON_CFG => (.direct, 0x4020, 0x4, 8)
  | .PWR_DOM => (.direct, 0x4100, 0x4, 48)
  | .FLT_STAT => (.one, 0x8000, 0x0, 1)
  | .FLT_CUR => (.one, 0x8004, 0x0, 1)
  | .FLT_LAST => (.one, 0x8008, 0x0, 1)
  | .FLT_RESET => (.one, 0x800c, 0x0, 1)
  | .FLT_NMI => (.one, 0x8010, 0x0, 1)
  | .FLT_WDOG => (.one, 0x8014, 0x0, 1)
  | .FLT_LOG_WR => (.one, 0x8018, 0x0, 1)
  | .FLT_CNT => (.one, 0x801c, 0x0, 1)
  | .SYS_ACC_ADDR => (.one, 0x34, 0x0, 1)
  | .FLT_LOG => (.direct, 0x8400, 0x4, 256)

/-- Every register, in the order of the declaration. -/
def RegName.all : List RegName :=
  [RegName.SYS_ID, RegName.SYS_MODE, RegName.PATH_SEL, RegName.BEAM_SEL, RegName.SYS_MBX_DB, RegName.SYS_MBX_STAT, RegName.SYS_EVT_BASE, RegName.SYS_EVT_CTL] ++
  [RegName.SYS_EVT_WR, RegName.SYS_EVT_RD, RegName.SYS_IRQ_STAT, RegName.SYS_IRQ_EN, RegName.SYS_ACC_ERR, RegName.SYS_CSPI_CFG, RegName.SYS_CSPI_STAT, RegName.SYS_STATE] ++
  [RegName.RX_PATH_STAT, RegName.RX_GAIN, RegName.RX_OVR_CFG, RegName.RX_OVR_STAT, RegName.RX_OVR_CNT, RegName.RX_NF, RegName.RX_NF_CFG, RegName.RX_DC_CFG] ++
  [RegName.RX_DC_STAT, RegName.RFFE_CTL, RegName.RFFE_STAT, RegName.SIEVE_CFG, RegName.SIEVE_RS_INC, RegName.SIEVE_STAT, RegName.SIEVE_TRIM, RegName.BEAM_RX_STAT] ++
  [RegName.BEAM_RX_CFG, RegName.BEAM_RX_AALL, RegName.BEAM_RX_RENORM, RegName.BEAM_RX_EVT, RegName.BEAM_RX_EXCL_CNT, RegName.BEAM_RX_EXCL_SMP, RegName.BEAM_RX_PWR, RegName.BEAM_RX_NF] ++
  [RegName.BEAM_RX_NF_CFG, RegName.TXB_STAT, RegName.TXB_CFG, RegName.TXB_EVT, RegName.TXS_STAT, RegName.TXS_SAT_CNT, RegName.BEAM_DET_STAT, RegName.BEAM_DET_CNT] ++
  [RegName.BEAM_DET_LOSS, RegName.BEAM_DET_LAST, RegName.TX_PATH_STAT, RegName.TX_EVT, RegName.TX_UFL_CNT, RegName.PA_MODE, RegName.PA_DLY, RegName.PA_SLEW] ++
  [RegName.PA_BIAS_CODE, RegName.PA_BIAS_STAGE, RegName.PA_BIAS_OUT, RegName.PA_LEAD, RegName.TX_LO_OFS, RegName.DPD_CFG, RegName.DPD_STAT, RegName.DPD_EVT] ++
  [RegName.DPD_SAT_CNT, RegName.DPD_NMSE, RegName.ORX_STAT, RegName.ORX_ATT, RegName.ORX_CNT, RegName.RADIO_STAT, RegName.LO_RX_FREQ, RegName.LO_TX_FREQ] ++
  [RegName.LO_RX_CTR, RegName.RADIO_TIMING, RegName.RADIO_EVT, RegName.COEX_CFG, RegName.COEX_STAT, RegName.COEX_CNT, RegName.LNK_CFG, RegName.LNK_STAT] ++
  [RegName.LNK_TRAIN, RegName.LNK_EVT, RegName.LNK_PARTNER, RegName.LNK_RM_CNT, RegName.LNK_LANE_STAT, RegName.LNK_LANE_ERR, RegName.LNK_LANE_FFE, RegName.LNK_LANE_EQ] ++
  [RegName.LNK_LANE_PRBS, RegName.LNK_FRM_STAT, RegName.LNK_FRM_ERR, RegName.LNK_FRM_DROP, RegName.LNK_CREDIT_STAT, RegName.LNK_BL_DRAIN, RegName.TIME_NS, RegName.TIME_SUBNS] ++
  [RegName.TIME_WRAPS, RegName.TIME_CFG, RegName.TIME_GAIN, RegName.TS_OFFSET, RegName.TS_RATE, RegName.TS_INTEG, RegName.TIME_STAT, RegName.TS_PPS_NS] ++
  [RegName.TS_PPS_WF, RegName.TS_MARK_TX_NS, RegName.TS_MARK_TX_WF, RegName.TS_MARK_RX_NS, RegName.TS_MARK_RX_WF, RegName.TS_MARK_SEQ, RegName.TC_CTL, RegName.TC_CMP_NS] ++
  [RegName.TC_CMP_WP, RegName.TC_PERIOD, RegName.DMA_CFG, RegName.DMA_STAT, RegName.DMA_DONE, RegName.DMA_HALT, RegName.MEM_LAR_STAT, RegName.MEM_PAN_STAT] ++
  [RegName.MEM_PAN_USABLE, RegName.MEM_TILE_LAST, RegName.DMA_CH_CTL, RegName.DMA_CH_NEXT_LO, RegName.DMA_CH_NEXT_HI, RegName.DMA_CH_STAT, RegName.DMA_CH_ERR_LO, RegName.DMA_CH_ERR_HI] ++
  [RegName.DMA_CH_DESCS, RegName.DMA_CH_BYTES, RegName.AUX_SEQ_MASK, RegName.AUX_SEQ_CTL, RegName.AUX_BUF_BASE, RegName.AUX_BUF_CTL, RegName.AUX_BUF_WR, RegName.AUX_BUF_RD] ++
  [RegName.AUX_STAT, RegName.GPIO_PIN, RegName.CAL_PATH_STAT, RegName.CAL_Q_STAT, RegName.CAL_PHASE, RegName.CAL_TX_TRIM, RegName.CAL_CFG, RegName.CLK_CFG] ++
  [RegName.CLK_STAT, RegName.CLK_MON, RegName.CLK_EVT, RegName.CLK_PACE, RegName.HOSC_TRIM, RegName.CLK_SRC, RegName.CLK_GATE_CNT, RegName.SYN_FRAC] ++
  [RegName.SYN_CTL, RegName.SYN_FINE, RegName.WHISK_SEED, RegName.SPLL_STAT, RegName.PWR_MODE, RegName.PWR_OP, RegName.PWR_SIEVE_OP, RegName.VMON_STAT] ++
  [RegName.VMON_CFG, RegName.PWR_DOM, RegName.FLT_STAT, RegName.FLT_CUR, RegName.FLT_LAST, RegName.FLT_RESET, RegName.FLT_NMI, RegName.FLT_WDOG] ++
  [RegName.FLT_LOG_WR, RegName.FLT_CNT, RegName.SYS_ACC_ADDR, RegName.FLT_LOG]

/-- A register's place in `RegName.all`: the low part of its key. -/
def RegName.idx : RegName → Nat
  | .SYS_ID => 0
  | .SYS_MODE => 1
  | .PATH_SEL => 2
  | .BEAM_SEL => 3
  | .SYS_MBX_DB => 4
  | .SYS_MBX_STAT => 5
  | .SYS_EVT_BASE => 6
  | .SYS_EVT_CTL => 7
  | .SYS_EVT_WR => 8
  | .SYS_EVT_RD => 9
  | .SYS_IRQ_STAT => 10
  | .SYS_IRQ_EN => 11
  | .SYS_ACC_ERR => 12
  | .SYS_CSPI_CFG => 13
  | .SYS_CSPI_STAT => 14
  | .SYS_STATE => 15
  | .RX_PATH_STAT => 16
  | .RX_GAIN => 17
  | .RX_OVR_CFG => 18
  | .RX_OVR_STAT => 19
  | .RX_OVR_CNT => 20
  | .RX_NF => 21
  | .RX_NF_CFG => 22
  | .RX_DC_CFG => 23
  | .RX_DC_STAT => 24
  | .RFFE_CTL => 25
  | .RFFE_STAT => 26
  | .SIEVE_CFG => 27
  | .SIEVE_RS_INC => 28
  | .SIEVE_STAT => 29
  | .SIEVE_TRIM => 30
  | .BEAM_RX_STAT => 31
  | .BEAM_RX_CFG => 32
  | .BEAM_RX_AALL => 33
  | .BEAM_RX_RENORM => 34
  | .BEAM_RX_EVT => 35
  | .BEAM_RX_EXCL_CNT => 36
  | .BEAM_RX_EXCL_SMP => 37
  | .BEAM_RX_PWR => 38
  | .BEAM_RX_NF => 39
  | .BEAM_RX_NF_CFG => 40
  | .TXB_STAT => 41
  | .TXB_CFG => 42
  | .TXB_EVT => 43
  | .TXS_STAT => 44
  | .TXS_SAT_CNT => 45
  | .BEAM_DET_STAT => 46
  | .BEAM_DET_CNT => 47
  | .BEAM_DET_LOSS => 48
  | .BEAM_DET_LAST => 49
  | .TX_PATH_STAT => 50
  | .TX_EVT => 51
  | .TX_UFL_CNT => 52
  | .PA_MODE => 53
  | .PA_DLY => 54
  | .PA_SLEW => 55
  | .PA_BIAS_CODE => 56
  | .PA_BIAS_STAGE => 57
  | .PA_BIAS_OUT => 58
  | .PA_LEAD => 59
  | .TX_LO_OFS => 60
  | .DPD_CFG => 61
  | .DPD_STAT => 62
  | .DPD_EVT => 63
  | .DPD_SAT_CNT => 64
  | .DPD_NMSE => 65
  | .ORX_STAT => 66
  | .ORX_ATT => 67
  | .ORX_CNT => 68
  | .RADIO_STAT => 69
  | .LO_RX_FREQ => 70
  | .LO_TX_FREQ => 71
  | .LO_RX_CTR => 72
  | .RADIO_TIMING => 73
  | .RADIO_EVT => 74
  | .COEX_CFG => 75
  | .COEX_STAT => 76
  | .COEX_CNT => 77
  | .LNK_CFG => 78
  | .LNK_STAT => 79
  | .LNK_TRAIN => 80
  | .LNK_EVT => 81
  | .LNK_PARTNER => 82
  | .LNK_RM_CNT => 83
  | .LNK_LANE_STAT => 84
  | .LNK_LANE_ERR => 85
  | .LNK_LANE_FFE => 86
  | .LNK_LANE_EQ => 87
  | .LNK_LANE_PRBS => 88
  | .LNK_FRM_STAT => 89
  | .LNK_FRM_ERR => 90
  | .LNK_FRM_DROP => 91
  | .LNK_CREDIT_STAT => 92
  | .LNK_BL_DRAIN => 93
  | .TIME_NS => 94
  | .TIME_SUBNS => 95
  | .TIME_WRAPS => 96
  | .TIME_CFG => 97
  | .TIME_GAIN => 98
  | .TS_OFFSET => 99
  | .TS_RATE => 100
  | .TS_INTEG => 101
  | .TIME_STAT => 102
  | .TS_PPS_NS => 103
  | .TS_PPS_WF => 104
  | .TS_MARK_TX_NS => 105
  | .TS_MARK_TX_WF => 106
  | .TS_MARK_RX_NS => 107
  | .TS_MARK_RX_WF => 108
  | .TS_MARK_SEQ => 109
  | .TC_CTL => 110
  | .TC_CMP_NS => 111
  | .TC_CMP_WP => 112
  | .TC_PERIOD => 113
  | .DMA_CFG => 114
  | .DMA_STAT => 115
  | .DMA_DONE => 116
  | .DMA_HALT => 117
  | .MEM_LAR_STAT => 118
  | .MEM_PAN_STAT => 119
  | .MEM_PAN_USABLE => 120
  | .MEM_TILE_LAST => 121
  | .DMA_CH_CTL => 122
  | .DMA_CH_NEXT_LO => 123
  | .DMA_CH_NEXT_HI => 124
  | .DMA_CH_STAT => 125
  | .DMA_CH_ERR_LO => 126
  | .DMA_CH_ERR_HI => 127
  | .DMA_CH_DESCS => 128
  | .DMA_CH_BYTES => 129
  | .AUX_SEQ_MASK => 130
  | .AUX_SEQ_CTL => 131
  | .AUX_BUF_BASE => 132
  | .AUX_BUF_CTL => 133
  | .AUX_BUF_WR => 134
  | .AUX_BUF_RD => 135
  | .AUX_STAT => 136
  | .GPIO_PIN => 137
  | .CAL_PATH_STAT => 138
  | .CAL_Q_STAT => 139
  | .CAL_PHASE => 140
  | .CAL_TX_TRIM => 141
  | .CAL_CFG => 142
  | .CLK_CFG => 143
  | .CLK_STAT => 144
  | .CLK_MON => 145
  | .CLK_EVT => 146
  | .CLK_PACE => 147
  | .HOSC_TRIM => 148
  | .CLK_SRC => 149
  | .CLK_GATE_CNT => 150
  | .SYN_FRAC => 151
  | .SYN_CTL => 152
  | .SYN_FINE => 153
  | .WHISK_SEED => 154
  | .SPLL_STAT => 155
  | .PWR_MODE => 156
  | .PWR_OP => 157
  | .PWR_SIEVE_OP => 158
  | .VMON_STAT => 159
  | .VMON_CFG => 160
  | .PWR_DOM => 161
  | .FLT_STAT => 162
  | .FLT_CUR => 163
  | .FLT_LAST => 164
  | .FLT_RESET => 165
  | .FLT_NMI => 166
  | .FLT_WDOG => 167
  | .FLT_LOG_WR => 168
  | .FLT_CNT => 169
  | .SYS_ACC_ADDR => 170
  | .FLT_LOG => 171

/-! The fields by name, one table after another. -/
namespace F

def SYS_ID_part : Fld := ⟨.SYS_ID, 16, 16⟩
def SYS_ID_rev_letter : Fld := ⟨.SYS_ID, 12, 4⟩
def SYS_ID_rev_num : Fld := ⟨.SYS_ID, 8, 4⟩
def SYS_ID_grade : Fld := ⟨.SYS_ID, 0, 1⟩
def SYS_MODE_awake_q : Fld := ⟨.SYS_MODE, 22, 2⟩
def SYS_MODE_sample_loss : Fld := ⟨.SYS_MODE, 21, 1⟩
def SYS_MODE_no_sic : Fld := ⟨.SYS_MODE, 20, 1⟩
def SYS_MODE_tc_unit : Fld := ⟨.SYS_MODE, 16, 4⟩
def SYS_MODE_degrade_step : Fld := ⟨.SYS_MODE, 8, 8⟩
def SYS_MODE_pending : Fld := ⟨.SYS_MODE, 7, 1⟩
def SYS_MODE_pending_mode : Fld := ⟨.SYS_MODE, 4, 3⟩
def SYS_MODE_mode : Fld := ⟨.SYS_MODE, 0, 3⟩
def PATH_SEL_all_bcast : Fld := ⟨.PATH_SEL, 9, 1⟩
def PATH_SEL_quad_bcast : Fld := ⟨.PATH_SEL, 8, 1⟩
def PATH_SEL_path : Fld := ⟨.PATH_SEL, 0, 6⟩
def BEAM_SEL_all_bcast : Fld := ⟨.BEAM_SEL, 9, 1⟩
def BEAM_SEL_group_bcast : Fld := ⟨.BEAM_SEL, 8, 1⟩
def BEAM_SEL_tx : Fld := ⟨.BEAM_SEL, 7, 1⟩
def BEAM_SEL_beam : Fld := ⟨.BEAM_SEL, 0, 6⟩
def SYS_MBX_DB_ring : Fld := ⟨.SYS_MBX_DB, 0, 1⟩
def SYS_MBX_STAT_last_status : Fld := ⟨.SYS_MBX_STAT, 16, 8⟩
def SYS_MBX_STAT_last_tag : Fld := ⟨.SYS_MBX_STAT, 8, 8⟩
def SYS_MBX_STAT_port : Fld := ⟨.SYS_MBX_STAT, 6, 1⟩
def SYS_MBX_STAT_collide : Fld := ⟨.SYS_MBX_STAT, 5, 1⟩
def SYS_MBX_STAT_ack : Fld := ⟨.SYS_MBX_STAT, 4, 1⟩
def SYS_MBX_STAT_state : Fld := ⟨.SYS_MBX_STAT, 0, 2⟩
def SYS_EVT_BASE_base : Fld := ⟨.SYS_EVT_BASE, 0, 32⟩
def SYS_EVT_CTL_overrun : Fld := ⟨.SYS_EVT_CTL, 8, 1⟩
def SYS_EVT_CTL_size_log2 : Fld := ⟨.SYS_EVT_CTL, 0, 5⟩
def SYS_EVT_WR_wr : Fld := ⟨.SYS_EVT_WR, 0, 16⟩
def SYS_EVT_RD_rd : Fld := ⟨.SYS_EVT_RD, 0, 16⟩
def SYS_IRQ_STAT_acc_err : Fld := ⟨.SYS_IRQ_STAT, 11, 1⟩
def SYS_IRQ_STAT_fault : Fld := ⟨.SYS_IRQ_STAT, 10, 1⟩
def SYS_IRQ_STAT_evt_overrun : Fld := ⟨.SYS_IRQ_STAT, 9, 1⟩
def SYS_IRQ_STAT_evt : Fld := ⟨.SYS_IRQ_STAT, 8, 1⟩
def SYS_IRQ_STAT_mbx_done : Fld := ⟨.SYS_IRQ_STAT, 0, 8⟩
def SYS_IRQ_EN_acc_err : Fld := ⟨.SYS_IRQ_EN, 11, 1⟩
def SYS_IRQ_EN_fault : Fld := ⟨.SYS_IRQ_EN, 10, 1⟩
def SYS_IRQ_EN_evt_overrun : Fld := ⟨.SYS_IRQ_EN, 9, 1⟩
def SYS_IRQ_EN_evt : Fld := ⟨.SYS_IRQ_EN, 8, 1⟩
def SYS_IRQ_EN_mbx_done : Fld := ⟨.SYS_IRQ_EN, 0, 8⟩
def SYS_ACC_ERR_count : Fld := ⟨.SYS_ACC_ERR, 24, 8⟩
def SYS_ACC_ERR_addr_hi : Fld := ⟨.SYS_ACC_ERR, 16, 8⟩
def SYS_ACC_ERR_port : Fld := ⟨.SYS_ACC_ERR, 5, 1⟩
def SYS_ACC_ERR_valid : Fld := ⟨.SYS_ACC_ERR, 4, 1⟩
def SYS_ACC_ERR_cause : Fld := ⟨.SYS_ACC_ERR, 0, 4⟩
def SYS_CSPI_CFG_win_base : Fld := ⟨.SYS_CSPI_CFG, 16, 15⟩
def SYS_CSPI_CFG_rd_wait : Fld := ⟨.SYS_CSPI_CFG, 0, 10⟩
def SYS_CSPI_STAT_ready : Fld := ⟨.SYS_CSPI_STAT, 2, 1⟩
def SYS_CSPI_STAT_rd_late : Fld := ⟨.SYS_CSPI_STAT, 1, 1⟩
def SYS_CSPI_STAT_bad_op : Fld := ⟨.SYS_CSPI_STAT, 0, 1⟩
def SYS_STATE_fail_cause : Fld := ⟨.SYS_STATE, 16, 4⟩
def SYS_STATE_slot_b_failed : Fld := ⟨.SYS_STATE, 13, 1⟩
def SYS_STATE_slot_a_failed : Fld := ⟨.SYS_STATE, 12, 1⟩
def SYS_STATE_boot_src : Fld := ⟨.SYS_STATE, 8, 2⟩
def SYS_STATE_stage : Fld := ⟨.SYS_STATE, 0, 4⟩
def RX_PATH_STAT_settling : Fld := ⟨.RX_PATH_STAT, 11, 1⟩
def RX_PATH_STAT_nbr_dirty : Fld := ⟨.RX_PATH_STAT, 10, 1⟩
def RX_PATH_STAT_ovr_q : Fld := ⟨.RX_PATH_STAT, 9, 1⟩
def RX_PATH_STAT_ovr_i : Fld := ⟨.RX_PATH_STAT, 8, 1⟩
def RX_PATH_STAT_lna_state : Fld := ⟨.RX_PATH_STAT, 4, 2⟩
def RX_PATH_STAT_degraded : Fld := ⟨.RX_PATH_STAT, 3, 1⟩
def RX_PATH_STAT_in_service : Fld := ⟨.RX_PATH_STAT, 2, 1⟩
def RX_PATH_STAT_state : Fld := ⟨.RX_PATH_STAT, 0, 2⟩
def RX_GAIN_pending : Fld := ⟨.RX_GAIN, 16, 1⟩
def RX_GAIN_pending_idx : Fld := ⟨.RX_GAIN, 8, 8⟩
def RX_GAIN_gain_idx : Fld := ⟨.RX_GAIN, 0, 7⟩
def RX_OVR_CFG_quiet : Fld := ⟨.RX_OVR_CFG, 16, 13⟩
def RX_OVR_CFG_run : Fld := ⟨.RX_OVR_CFG, 0, 6⟩
def RX_OVR_STAT_ovr : Fld := ⟨.RX_OVR_STAT, 4, 1⟩
def RX_OVR_STAT_settling : Fld := ⟨.RX_OVR_STAT, 3, 1⟩
def RX_OVR_STAT_nbr_dirty : Fld := ⟨.RX_OVR_STAT, 2, 1⟩
def RX_OVR_STAT_ovr_q : Fld := ⟨.RX_OVR_STAT, 1, 1⟩
def RX_OVR_STAT_ovr_i : Fld := ⟨.RX_OVR_STAT, 0, 1⟩
def RX_OVR_CNT_nbr_events : Fld := ⟨.RX_OVR_CNT, 16, 16⟩
def RX_OVR_CNT_ovr_events : Fld := ⟨.RX_OVR_CNT, 0, 16⟩
def RX_NF_valid : Fld := ⟨.RX_NF, 31, 1⟩
def RX_NF_stale : Fld := ⟨.RX_NF, 30, 1⟩
def RX_NF_age : Fld := ⟨.RX_NF, 16, 14⟩
def RX_NF_nf : Fld := ⟨.RX_NF, 0, 16⟩
def RX_NF_CFG_stale_ms : Fld := ⟨.RX_NF_CFG, 16, 14⟩
def RX_NF_CFG_alpha : Fld := ⟨.RX_NF_CFG, 8, 3⟩
def RX_NF_CFG_win_log2 : Fld := ⟨.RX_NF_CFG, 0, 5⟩
def RX_DC_CFG_hold : Fld := ⟨.RX_DC_CFG, 8, 1⟩
def RX_DC_CFG_corner : Fld := ⟨.RX_DC_CFG, 0, 2⟩
def RX_DC_STAT_resid_q : Fld := ⟨.RX_DC_STAT, 16, 16⟩
def RX_DC_STAT_resid_i : Fld := ⟨.RX_DC_STAT, 0, 16⟩
def RFFE_CTL_en : Fld := ⟨.RFFE_CTL, 16, 1⟩
def RFFE_CTL_div : Fld := ⟨.RFFE_CTL, 0, 8⟩
def RFFE_STAT_late : Fld := ⟨.RFFE_STAT, 9, 1⟩
def RFFE_STAT_parity_err : Fld := ⟨.RFFE_STAT, 8, 1⟩
def RFFE_STAT_seq_active : Fld := ⟨.RFFE_STAT, 1, 1⟩
def RFFE_STAT_busy : Fld := ⟨.RFFE_STAT, 0, 1⟩
def SIEVE_CFG_fade_log2 : Fld := ⟨.SIEVE_CFG, 20, 4⟩
def SIEVE_CFG_pending : Fld := ⟨.SIEVE_CFG, 17, 1⟩
def SIEVE_CFG_fading : Fld := ⟨.SIEVE_CFG, 16, 1⟩
def SIEVE_CFG_shadow_valid : Fld := ⟨.SIEVE_CFG, 11, 1⟩
def SIEVE_CFG_active_bank : Fld := ⟨.SIEVE_CFG, 10, 1⟩
def SIEVE_CFG_rs_en : Fld := ⟨.SIEVE_CFG, 9, 1⟩
def SIEVE_CFG_preset : Fld := ⟨.SIEVE_CFG, 0, 2⟩
def SIEVE_RS_INC_inc : Fld := ⟨.SIEVE_RS_INC, 0, 32⟩
def SIEVE_STAT_abandoned : Fld := ⟨.SIEVE_STAT, 2, 1⟩
def SIEVE_STAT_late : Fld := ⟨.SIEVE_STAT, 1, 1⟩
def SIEVE_STAT_load_fault : Fld := ⟨.SIEVE_STAT, 0, 1⟩
def SIEVE_TRIM_trim : Fld := ⟨.SIEVE_TRIM, 0, 8⟩
def BEAM_RX_STAT_settling : Fld := ⟨.BEAM_RX_STAT, 11, 1⟩
def BEAM_RX_STAT_nbr : Fld := ⟨.BEAM_RX_STAT, 10, 1⟩
def BEAM_RX_STAT_sat : Fld := ⟨.BEAM_RX_STAT, 9, 1⟩
def BEAM_RX_STAT_thin : Fld := ⟨.BEAM_RX_STAT, 8, 1⟩
def BEAM_RX_STAT_excl : Fld := ⟨.BEAM_RX_STAT, 7, 1⟩
def BEAM_RX_STAT_pending : Fld := ⟨.BEAM_RX_STAT, 4, 1⟩
def BEAM_RX_STAT_shadow_fresh : Fld := ⟨.BEAM_RX_STAT, 3, 1⟩
def BEAM_RX_STAT_shadow_valid : Fld := ⟨.BEAM_RX_STAT, 2, 1⟩
def BEAM_RX_STAT_active_bank : Fld := ⟨.BEAM_RX_STAT, 1, 1⟩
def BEAM_RX_STAT_enabled : Fld := ⟨.BEAM_RX_STAT, 0, 1⟩
def BEAM_RX_CFG_shift : Fld := ⟨.BEAM_RX_CFG, 8, 3⟩
def BEAM_RX_CFG_excl_nbr : Fld := ⟨.BEAM_RX_CFG, 4, 1⟩
def BEAM_RX_CFG_qmask : Fld := ⟨.BEAM_RX_CFG, 0, 4⟩
def BEAM_RX_AALL_a_all : Fld := ⟨.BEAM_RX_AALL, 0, 22⟩
def BEAM_RX_RENORM_n_excl : Fld := ⟨.BEAM_RX_RENORM, 16, 7⟩
def BEAM_RX_RENORM_r : Fld := ⟨.BEAM_RX_RENORM, 0, 15⟩
def BEAM_RX_EVT_swap_late : Fld := ⟨.BEAM_RX_EVT, 3, 1⟩
def BEAM_RX_EVT_sat : Fld := ⟨.BEAM_RX_EVT, 2, 1⟩
def BEAM_RX_EVT_thin : Fld := ⟨.BEAM_RX_EVT, 1, 1⟩
def BEAM_RX_EVT_excl : Fld := ⟨.BEAM_RX_EVT, 0, 1⟩
def BEAM_RX_EXCL_CNT_thin_episodes : Fld := ⟨.BEAM_RX_EXCL_CNT, 16, 16⟩
def BEAM_RX_EXCL_CNT_excl_episodes : Fld := ⟨.BEAM_RX_EXCL_CNT, 0, 16⟩
def BEAM_RX_EXCL_SMP_excl_samples : Fld := ⟨.BEAM_RX_EXCL_SMP, 0, 32⟩
def BEAM_RX_PWR_valid : Fld := ⟨.BEAM_RX_PWR, 31, 1⟩
def BEAM_RX_PWR_flagged : Fld := ⟨.BEAM_RX_PWR, 30, 1⟩
def BEAM_RX_PWR_pwr : Fld := ⟨.BEAM_RX_PWR, 0, 16⟩
def BEAM_RX_NF_valid : Fld := ⟨.BEAM_RX_NF, 31, 1⟩
def BEAM_RX_NF_stale : Fld := ⟨.BEAM_RX_NF, 30, 1⟩
def BEAM_RX_NF_age : Fld := ⟨.BEAM_RX_NF, 16, 14⟩
def BEAM_RX_NF_nf : Fld := ⟨.BEAM_RX_NF, 0, 16⟩
def BEAM_RX_NF_CFG_stale_ms : Fld := ⟨.BEAM_RX_NF_CFG, 16, 14⟩
def BEAM_RX_NF_CFG_alpha : Fld := ⟨.BEAM_RX_NF_CFG, 8, 3⟩
def BEAM_RX_NF_CFG_win_log2 : Fld := ⟨.BEAM_RX_NF_CFG, 0, 5⟩
def TXB_STAT_pair_valid : Fld := ⟨.TXB_STAT, 23, 1⟩
def TXB_STAT_pair : Fld := ⟨.TXB_STAT, 16, 6⟩
def TXB_STAT_rate_k : Fld := ⟨.TXB_STAT, 10, 3⟩
def TXB_STAT_source : Fld := ⟨.TXB_STAT, 8, 2⟩
def TXB_STAT_busy : Fld := ⟨.TXB_STAT, 4, 1⟩
def TXB_STAT_pending : Fld := ⟨.TXB_STAT, 3, 1⟩
def TXB_STAT_shadow_fresh : Fld := ⟨.TXB_STAT, 2, 1⟩
def TXB_STAT_shadow_valid : Fld := ⟨.TXB_STAT, 1, 1⟩
def TXB_STAT_active_bank : Fld := ⟨.TXB_STAT, 0, 1⟩
def TXB_CFG_qmask : Fld := ⟨.TXB_CFG, 0, 4⟩
def TXB_EVT_swap_late : Fld := ⟨.TXB_EVT, 1, 1⟩
def TXB_EVT_starved : Fld := ⟨.TXB_EVT, 0, 1⟩
def TXS_STAT_sat : Fld := ⟨.TXS_STAT, 8, 1⟩
def TXS_STAT_sum_shift : Fld := ⟨.TXS_STAT, 0, 3⟩
def TXS_SAT_CNT_sat_samples : Fld := ⟨.TXS_SAT_CNT, 0, 32⟩
def BEAM_DET_STAT_nf_hold : Fld := ⟨.BEAM_DET_STAT, 16, 1⟩
def BEAM_DET_STAT_codes : Fld := ⟨.BEAM_DET_STAT, 0, 16⟩
def BEAM_DET_CNT_duplicates : Fld := ⟨.BEAM_DET_CNT, 16, 16⟩
def BEAM_DET_CNT_detections : Fld := ⟨.BEAM_DET_CNT, 0, 16⟩
def BEAM_DET_LOSS_unplaced : Fld := ⟨.BEAM_DET_LOSS, 16, 16⟩
def BEAM_DET_LOSS_false_locks : Fld := ⟨.BEAM_DET_LOSS, 0, 16⟩
def BEAM_DET_LAST_snr : Fld := ⟨.BEAM_DET_LAST, 16, 16⟩
def BEAM_DET_LAST_valid : Fld := ⟨.BEAM_DET_LAST, 4, 1⟩
def BEAM_DET_LAST_code : Fld := ⟨.BEAM_DET_LAST, 0, 4⟩
def TX_PATH_STAT_q_fill : Fld := ⟨.TX_PATH_STAT, 8, 9⟩
def TX_PATH_STAT_degraded : Fld := ⟨.TX_PATH_STAT, 7, 1⟩
def TX_PATH_STAT_driver_on : Fld := ⟨.TX_PATH_STAT, 6, 1⟩
def TX_PATH_STAT_pa_en : Fld := ⟨.TX_PATH_STAT, 5, 1⟩
def TX_PATH_STAT_bias_drv : Fld := ⟨.TX_PATH_STAT, 4, 1⟩
def TX_PATH_STAT_pa_state : Fld := ⟨.TX_PATH_STAT, 0, 3⟩
def TX_EVT_seq_refused : Fld := ⟨.TX_EVT, 3, 1⟩
def TX_EVT_bias_sc : Fld := ⟨.TX_EVT, 2, 1⟩
def TX_EVT_bias_limit : Fld := ⟨.TX_EVT, 1, 1⟩
def TX_EVT_tx_ufl : Fld := ⟨.TX_EVT, 0, 1⟩
def TX_UFL_CNT_ufl_events : Fld := ⟨.TX_UFL_CNT, 0, 32⟩
def PA_MODE_configured : Fld := ⟨.PA_MODE, 8, 1⟩
def PA_MODE_mode : Fld := ⟨.PA_MODE, 0, 1⟩
def PA_DLY_d_rf : Fld := ⟨.PA_DLY, 20, 10⟩
def PA_DLY_d_en : Fld := ⟨.PA_DLY, 10, 10⟩
def PA_DLY_d_bias : Fld := ⟨.PA_DLY, 0, 10⟩
def PA_SLEW_tick_us : Fld := ⟨.PA_SLEW, 8, 10⟩
def PA_SLEW_step : Fld := ⟨.PA_SLEW, 0, 8⟩
def PA_BIAS_CODE_off : Fld := ⟨.PA_BIAS_CODE, 16, 12⟩
def PA_BIAS_CODE_on : Fld := ⟨.PA_BIAS_CODE, 0, 12⟩
def PA_BIAS_STAGE_arm : Fld := ⟨.PA_BIAS_STAGE, 16, 1⟩
def PA_BIAS_STAGE_code : Fld := ⟨.PA_BIAS_STAGE, 0, 12⟩
def PA_BIAS_OUT_target : Fld := ⟨.PA_BIAS_OUT, 16, 12⟩
def PA_BIAS_OUT_out : Fld := ⟨.PA_BIAS_OUT, 0, 12⟩
def PA_LEAD_l_off : Fld := ⟨.PA_LEAD, 16, 14⟩
def PA_LEAD_l_on : Fld := ⟨.PA_LEAD, 0, 14⟩
def TX_LO_OFS_active : Fld := ⟨.TX_LO_OFS, 24, 1⟩
def TX_LO_OFS_ofs : Fld := ⟨.TX_LO_OFS, 0, 18⟩
def DPD_CFG_period_ms : Fld := ⟨.DPD_CFG, 16, 14⟩
def DPD_CFG_nmse_max_db : Fld := ⟨.DPD_CFG, 8, 6⟩
def DPD_CFG_mu : Fld := ⟨.DPD_CFG, 4, 3⟩
def DPD_CFG_adapt_en : Fld := ⟨.DPD_CFG, 1, 1⟩
def DPD_CFG_bypass : Fld := ⟨.DPD_CFG, 0, 1⟩
def DPD_STAT_last_cause : Fld := ⟨.DPD_STAT, 16, 4⟩
def DPD_STAT_rej_consec : Fld := ⟨.DPD_STAT, 12, 2⟩
def DPD_STAT_src : Fld := ⟨.DPD_STAT, 10, 2⟩
def DPD_STAT_target_valid : Fld := ⟨.DPD_STAT, 9, 1⟩
def DPD_STAT_applying : Fld := ⟨.DPD_STAT, 8, 1⟩
def DPD_STAT_apply_pos : Fld := ⟨.DPD_STAT, 0, 5⟩
def DPD_EVT_skip : Fld := ⟨.DPD_EVT, 4, 1⟩
def DPD_EVT_superseded : Fld := ⟨.DPD_EVT, 3, 1⟩
def DPD_EVT_tile_bad : Fld := ⟨.DPD_EVT, 2, 1⟩
def DPD_EVT_reject : Fld := ⟨.DPD_EVT, 1, 1⟩
def DPD_EVT_sat : Fld := ⟨.DPD_EVT, 0, 1⟩
def DPD_SAT_CNT_sat_samples : Fld := ⟨.DPD_SAT_CNT, 0, 32⟩
def DPD_NMSE_valid : Fld := ⟨.DPD_NMSE, 31, 1⟩
def DPD_NMSE_age : Fld := ⟨.DPD_NMSE, 16, 14⟩
def DPD_NMSE_nmse : Fld := ⟨.DPD_NMSE, 0, 16⟩
def ORX_STAT_settling : Fld := ⟨.ORX_STAT, 10, 1⟩
def ORX_STAT_host_held : Fld := ⟨.ORX_STAT, 9, 1⟩
def ORX_STAT_busy : Fld := ⟨.ORX_STAT, 8, 1⟩
def ORX_STAT_input : Fld := ⟨.ORX_STAT, 0, 4⟩
def ORX_ATT_att : Fld := ⟨.ORX_ATT, 0, 5⟩
def ORX_CNT_skips : Fld := ⟨.ORX_CNT, 16, 16⟩
def ORX_CNT_captures : Fld := ⟨.ORX_CNT, 0, 16⟩
def RADIO_STAT_tx_hold : Fld := ⟨.RADIO_STAT, 14, 1⟩
def RADIO_STAT_tx_ret : Fld := ⟨.RADIO_STAT, 13, 1⟩
def RADIO_STAT_rx_ret : Fld := ⟨.RADIO_STAT, 12, 1⟩
def RADIO_STAT_tx_div : Fld := ⟨.RADIO_STAT, 10, 2⟩
def RADIO_STAT_rx_div : Fld := ⟨.RADIO_STAT, 8, 2⟩
def RADIO_STAT_tx_lock : Fld := ⟨.RADIO_STAT, 7, 1⟩
def RADIO_STAT_tx_state : Fld := ⟨.RADIO_STAT, 4, 3⟩
def RADIO_STAT_rx_lock : Fld := ⟨.RADIO_STAT, 3, 1⟩
def RADIO_STAT_rx_state : Fld := ⟨.RADIO_STAT, 0, 3⟩
def LO_RX_FREQ_freq : Fld := ⟨.LO_RX_FREQ, 0, 32⟩
def LO_TX_FREQ_freq : Fld := ⟨.LO_TX_FREQ, 0, 32⟩
def LO_RX_CTR_freq : Fld := ⟨.LO_RX_CTR, 0, 32⟩
def RADIO_TIMING_late_tol : Fld := ⟨.RADIO_TIMING, 16, 16⟩
def RADIO_TIMING_ret_hold : Fld := ⟨.RADIO_TIMING, 0, 16⟩
def RADIO_EVT_burst_drop : Fld := ⟨.RADIO_EVT, 2, 1⟩
def RADIO_EVT_burst_hold : Fld := ⟨.RADIO_EVT, 1, 1⟩
def RADIO_EVT_lock_lost : Fld := ⟨.RADIO_EVT, 0, 1⟩
def COEX_CFG_defer_max : Fld := ⟨.COEX_CFG, 16, 14⟩
def COEX_CFG_t_gnt : Fld := ⟨.COEX_CFG, 6, 10⟩
def COEX_CFG_ack_pri : Fld := ⟨.COEX_CFG, 5, 1⟩
def COEX_CFG_revoke : Fld := ⟨.COEX_CFG, 4, 1⟩
def COEX_CFG_link_policy : Fld := ⟨.COEX_CFG, 3, 1⟩
def COEX_CFG_en : Fld := ⟨.COEX_CFG, 0, 1⟩
def COEX_STAT_dropped : Fld := ⟨.COEX_STAT, 10, 1⟩
def COEX_STAT_deferred : Fld := ⟨.COEX_STAT, 9, 1⟩
def COEX_STAT_revoked : Fld := ⟨.COEX_STAT, 8, 1⟩
def COEX_STAT_gnt : Fld := ⟨.COEX_STAT, 2, 1⟩
def COEX_STAT_pri : Fld := ⟨.COEX_STAT, 1, 1⟩
def COEX_STAT_req : Fld := ⟨.COEX_STAT, 0, 1⟩
def COEX_CNT_drops : Fld := ⟨.COEX_CNT, 16, 16⟩
def COEX_CNT_defers : Fld := ⟨.COEX_CNT, 0, 16⟩
def LNK_CFG_node_id : Fld := ⟨.LNK_CFG, 16, 16⟩
def LNK_CFG_lane_en : Fld := ⟨.LNK_CFG, 8, 8⟩
def LNK_CFG_min_lanes : Fld := ⟨.LNK_CFG, 4, 3⟩
def LNK_CFG_rate_mode : Fld := ⟨.LNK_CFG, 1, 2⟩
def LNK_CFG_en : Fld := ⟨.LNK_CFG, 0, 1⟩
def LNK_STAT_down_cause : Fld := ⟨.LNK_STAT, 28, 4⟩
def LNK_STAT_rx_bond : Fld := ⟨.LNK_STAT, 16, 8⟩
def LNK_STAT_tx_bond : Fld := ⟨.LNK_STAT, 8, 8⟩
def LNK_STAT_loop : Fld := ⟨.LNK_STAT, 5, 1⟩
def LNK_STAT_fallback : Fld := ⟨.LNK_STAT, 4, 1⟩
def LNK_STAT_rate25 : Fld := ⟨.LNK_STAT, 3, 1⟩
def LNK_STAT_state : Fld := ⟨.LNK_STAT, 0, 3⟩
def LNK_TRAIN_backoff_ms : Fld := ⟨.LNK_TRAIN, 16, 11⟩
def LNK_TRAIN_attempts : Fld := ⟨.LNK_TRAIN, 0, 16⟩
def LNK_EVT_rate_change : Fld := ⟨.LNK_EVT, 3, 1⟩
def LNK_EVT_lane_join : Fld := ⟨.LNK_EVT, 2, 1⟩
def LNK_EVT_lane_drop : Fld := ⟨.LNK_EVT, 1, 1⟩
def LNK_EVT_down : Fld := ⟨.LNK_EVT, 0, 1⟩
def LNK_PARTNER_valid : Fld := ⟨.LNK_PARTNER, 31, 1⟩
def LNK_PARTNER_rate25_ok : Fld := ⟨.LNK_PARTNER, 28, 1⟩
def LNK_PARTNER_version : Fld := ⟨.LNK_PARTNER, 24, 4⟩
def LNK_PARTNER_lane_en : Fld := ⟨.LNK_PARTNER, 16, 8⟩
def LNK_PARTNER_node_id : Fld := ⟨.LNK_PARTNER, 0, 16⟩
def LNK_RM_CNT_deleted : Fld := ⟨.LNK_RM_CNT, 16, 16⟩
def LNK_RM_CNT_inserted : Fld := ⟨.LNK_RM_CNT, 0, 16⟩
def LNK_LANE_STAT_skew : Fld := ⟨.LNK_LANE_STAT, 24, 8⟩
def LNK_LANE_STAT_loop : Fld := ⟨.LNK_LANE_STAT, 16, 2⟩
def LNK_LANE_STAT_prbs_sync : Fld := ⟨.LNK_LANE_STAT, 12, 1⟩
def LNK_LANE_STAT_prbs_on : Fld := ⟨.LNK_LANE_STAT, 11, 1⟩
def LNK_LANE_STAT_partner_locked : Fld := ⟨.LNK_LANE_STAT, 10, 1⟩
def LNK_LANE_STAT_in_tx_bond : Fld := ⟨.LNK_LANE_STAT, 9, 1⟩
def LNK_LANE_STAT_in_rx_bond : Fld := ⟨.LNK_LANE_STAT, 8, 1⟩
def LNK_LANE_STAT_src_lane : Fld := ⟨.LNK_LANE_STAT, 4, 3⟩
def LNK_LANE_STAT_rx_inverted : Fld := ⟨.LNK_LANE_STAT, 3, 1⟩
def LNK_LANE_STAT_am_lock : Fld := ⟨.LNK_LANE_STAT, 2, 1⟩
def LNK_LANE_STAT_block_lock : Fld := ⟨.LNK_LANE_STAT, 1, 1⟩
def LNK_LANE_STAT_signal : Fld := ⟨.LNK_LANE_STAT, 0, 1⟩
def LNK_LANE_ERR_bip_errs : Fld := ⟨.LNK_LANE_ERR, 16, 16⟩
def LNK_LANE_ERR_hdr_errs : Fld := ⟨.LNK_LANE_ERR, 0, 16⟩
def LNK_LANE_FFE_post : Fld := ⟨.LNK_LANE_FFE, 16, 5⟩
def LNK_LANE_FFE_main : Fld := ⟨.LNK_LANE_FFE, 8, 6⟩
def LNK_LANE_FFE_pre : Fld := ⟨.LNK_LANE_FFE, 0, 4⟩
def LNK_LANE_EQ_dfe1 : Fld := ⟨.LNK_LANE_EQ, 8, 8⟩
def LNK_LANE_EQ_ctle : Fld := ⟨.LNK_LANE_EQ, 0, 4⟩
def LNK_LANE_PRBS_prbs_errs : Fld := ⟨.LNK_LANE_PRBS, 0, 32⟩
def LNK_FRM_STAT_step : Fld := ⟨.LNK_FRM_STAT, 16, 8⟩
def LNK_FRM_STAT_m_code : Fld := ⟨.LNK_FRM_STAT, 12, 4⟩
def LNK_FRM_STAT_prune : Fld := ⟨.LNK_FRM_STAT, 11, 1⟩
def LNK_FRM_STAT_carried : Fld := ⟨.LNK_FRM_STAT, 4, 7⟩
def LNK_FRM_STAT_iq_drop : Fld := ⟨.LNK_FRM_STAT, 3, 1⟩
def LNK_FRM_STAT_credit_stall : Fld := ⟨.LNK_FRM_STAT, 2, 1⟩
def LNK_FRM_STAT_fmt_err : Fld := ⟨.LNK_FRM_STAT, 1, 1⟩
def LNK_FRM_STAT_crc_err : Fld := ⟨.LNK_FRM_STAT, 0, 1⟩
def LNK_FRM_ERR_fmt_errs : Fld := ⟨.LNK_FRM_ERR, 16, 16⟩
def LNK_FRM_ERR_crc_errs : Fld := ⟨.LNK_FRM_ERR, 0, 16⟩
def LNK_FRM_DROP_unknown : Fld := ⟨.LNK_FRM_DROP, 16, 16⟩
def LNK_FRM_DROP_iq_frames : Fld := ⟨.LNK_FRM_DROP, 0, 16⟩
def LNK_CREDIT_STAT_c0 : Fld := ⟨.LNK_CREDIT_STAT, 4, 1⟩
def LNK_CREDIT_STAT_s04 : Fld := ⟨.LNK_CREDIT_STAT, 3, 1⟩
def LNK_CREDIT_STAT_s03 : Fld := ⟨.LNK_CREDIT_STAT, 2, 1⟩
def LNK_CREDIT_STAT_s01 : Fld := ⟨.LNK_CREDIT_STAT, 1, 1⟩
def LNK_CREDIT_STAT_s00 : Fld := ⟨.LNK_CREDIT_STAT, 0, 1⟩
def LNK_BL_DRAIN_draining : Fld := ⟨.LNK_BL_DRAIN, 8, 1⟩
def LNK_BL_DRAIN_drain_pct : Fld := ⟨.LNK_BL_DRAIN, 0, 7⟩
def TIME_NS_ns : Fld := ⟨.TIME_NS, 0, 32⟩
def TIME_SUBNS_subns : Fld := ⟨.TIME_SUBNS, 0, 32⟩
def TIME_WRAPS_wraps : Fld := ⟨.TIME_WRAPS, 0, 16⟩
def TIME_CFG_mark_ms : Fld := ⟨.TIME_CFG, 16, 16⟩
def TIME_CFG_pps_edge : Fld := ⟨.TIME_CFG, 2, 1⟩
def TIME_CFG_src : Fld := ⟨.TIME_CFG, 0, 2⟩
def TIME_GAIN_ki : Fld := ⟨.TIME_GAIN, 16, 16⟩
def TIME_GAIN_kp : Fld := ⟨.TIME_GAIN, 0, 16⟩
def TS_OFFSET_ofs : Fld := ⟨.TS_OFFSET, 0, 32⟩
def TS_RATE_r : Fld := ⟨.TS_RATE, 0, 32⟩
def TS_INTEG_i : Fld := ⟨.TS_INTEG, 0, 32⟩
def TIME_STAT_pps_rejects : Fld := ⟨.TIME_STAT, 16, 16⟩
def TIME_STAT_stepped : Fld := ⟨.TIME_STAT, 6, 1⟩
def TIME_STAT_pps_loss : Fld := ⟨.TIME_STAT, 5, 1⟩
def TIME_STAT_pps_valid : Fld := ⟨.TIME_STAT, 4, 1⟩
def TIME_STAT_ofs_ignored : Fld := ⟨.TIME_STAT, 3, 1⟩
def TIME_STAT_servo_sat : Fld := ⟨.TIME_STAT, 2, 1⟩
def TIME_STAT_gap : Fld := ⟨.TIME_STAT, 1, 1⟩
def TIME_STAT_on_hosc : Fld := ⟨.TIME_STAT, 0, 1⟩
def TS_PPS_NS_ns : Fld := ⟨.TS_PPS_NS, 0, 32⟩
def TS_PPS_WF_frac : Fld := ⟨.TS_PPS_WF, 16, 16⟩
def TS_PPS_WF_wraps : Fld := ⟨.TS_PPS_WF, 0, 16⟩
def TS_MARK_TX_NS_ns : Fld := ⟨.TS_MARK_TX_NS, 0, 32⟩
def TS_MARK_TX_WF_frac : Fld := ⟨.TS_MARK_TX_WF, 16, 16⟩
def TS_MARK_TX_WF_wraps : Fld := ⟨.TS_MARK_TX_WF, 0, 16⟩
def TS_MARK_RX_NS_ns : Fld := ⟨.TS_MARK_RX_NS, 0, 32⟩
def TS_MARK_RX_WF_frac : Fld := ⟨.TS_MARK_RX_WF, 16, 16⟩
def TS_MARK_RX_WF_wraps : Fld := ⟨.TS_MARK_RX_WF, 0, 16⟩
def TS_MARK_SEQ_rx_seq : Fld := ⟨.TS_MARK_SEQ, 16, 16⟩
def TS_MARK_SEQ_tx_seq : Fld := ⟨.TS_MARK_SEQ, 0, 16⟩
def TC_CTL_cmd_armed : Fld := ⟨.TC_CTL, 31, 1⟩
def TC_CTL_fired : Fld := ⟨.TC_CTL, 30, 1⟩
def TC_CTL_missed : Fld := ⟨.TC_CTL, 29, 1⟩
def TC_CTL_pulse_w : Fld := ⟨.TC_CTL, 16, 8⟩
def TC_CTL_out_mode : Fld := ⟨.TC_CTL, 10, 2⟩
def TC_CTL_out_sel : Fld := ⟨.TC_CTL, 8, 2⟩
def TC_CTL_action : Fld := ⟨.TC_CTL, 4, 4⟩
def TC_CTL_periodic : Fld := ⟨.TC_CTL, 1, 1⟩
def TC_CTL_arm : Fld := ⟨.TC_CTL, 0, 1⟩
def TC_CMP_NS_c_ns : Fld := ⟨.TC_CMP_NS, 0, 32⟩
def TC_CMP_WP_c_wraps : Fld := ⟨.TC_CMP_WP, 0, 16⟩
def TC_PERIOD_period : Fld := ⟨.TC_PERIOD, 0, 32⟩
def DMA_CFG_hop_max : Fld := ⟨.DMA_CFG, 0, 16⟩
def DMA_STAT_inflight : Fld := ⟨.DMA_STAT, 0, 7⟩
def DMA_DONE_done : Fld := ⟨.DMA_DONE, 0, 32⟩
def DMA_HALT_halted : Fld := ⟨.DMA_HALT, 0, 32⟩
def MEM_LAR_STAT_banks : Fld := ⟨.MEM_LAR_STAT, 16, 8⟩
def MEM_LAR_STAT_quar : Fld := ⟨.MEM_LAR_STAT, 0, 13⟩
def MEM_PAN_STAT_quar : Fld := ⟨.MEM_PAN_STAT, 16, 13⟩
def MEM_PAN_STAT_fail_cause : Fld := ⟨.MEM_PAN_STAT, 12, 4⟩
def MEM_PAN_STAT_rate : Fld := ⟨.MEM_PAN_STAT, 8, 2⟩
def MEM_PAN_STAT_size : Fld := ⟨.MEM_PAN_STAT, 4, 2⟩
def MEM_PAN_STAT_state : Fld := ⟨.MEM_PAN_STAT, 0, 3⟩
def MEM_PAN_USABLE_tiles : Fld := ⟨.MEM_PAN_USABLE, 0, 22⟩
def MEM_TILE_LAST_consumer : Fld := ⟨.MEM_TILE_LAST, 24, 4⟩
def MEM_TILE_LAST_valid : Fld := ⟨.MEM_TILE_LAST, 23, 1⟩
def MEM_TILE_LAST_pantry : Fld := ⟨.MEM_TILE_LAST, 22, 1⟩
def MEM_TILE_LAST_index : Fld := ⟨.MEM_TILE_LAST, 0, 22⟩
def DMA_CH_CTL_tc_unit : Fld := ⟨.DMA_CH_CTL, 4, 4⟩
def DMA_CH_CTL_tc_start : Fld := ⟨.DMA_CH_CTL, 1, 1⟩
def DMA_CH_CTL_en : Fld := ⟨.DMA_CH_CTL, 0, 1⟩
def DMA_CH_NEXT_LO_next_lo : Fld := ⟨.DMA_CH_NEXT_LO, 0, 32⟩
def DMA_CH_NEXT_HI_next_hi : Fld := ⟨.DMA_CH_NEXT_HI, 0, 8⟩
def DMA_CH_STAT_hop : Fld := ⟨.DMA_CH_STAT, 16, 16⟩
def DMA_CH_STAT_pace_pending : Fld := ⟨.DMA_CH_STAT, 10, 1⟩
def DMA_CH_STAT_pace_ovr : Fld := ⟨.DMA_CH_STAT, 9, 1⟩
def DMA_CH_STAT_ovl : Fld := ⟨.DMA_CH_STAT, 8, 1⟩
def DMA_CH_STAT_cause : Fld := ⟨.DMA_CH_STAT, 4, 4⟩
def DMA_CH_STAT_state : Fld := ⟨.DMA_CH_STAT, 0, 3⟩
def DMA_CH_ERR_LO_err_lo : Fld := ⟨.DMA_CH_ERR_LO, 0, 32⟩
def DMA_CH_ERR_HI_err_hi : Fld := ⟨.DMA_CH_ERR_HI, 0, 8⟩
def DMA_CH_DESCS_descs : Fld := ⟨.DMA_CH_DESCS, 0, 32⟩
def DMA_CH_BYTES_bytes : Fld := ⟨.DMA_CH_BYTES, 0, 24⟩
def AUX_SEQ_MASK_mask : Fld := ⟨.AUX_SEQ_MASK, 0, 32⟩
def AUX_SEQ_CTL_period_us : Fld := ⟨.AUX_SEQ_CTL, 8, 24⟩
def AUX_SEQ_CTL_paced : Fld := ⟨.AUX_SEQ_CTL, 1, 1⟩
def AUX_SEQ_CTL_run : Fld := ⟨.AUX_SEQ_CTL, 0, 1⟩
def AUX_BUF_BASE_base : Fld := ⟨.AUX_BUF_BASE, 0, 32⟩
def AUX_BUF_CTL_overrun : Fld := ⟨.AUX_BUF_CTL, 8, 1⟩
def AUX_BUF_CTL_size_log2 : Fld := ⟨.AUX_BUF_CTL, 0, 5⟩
def AUX_BUF_WR_wr : Fld := ⟨.AUX_BUF_WR, 0, 16⟩
def AUX_BUF_RD_rd : Fld := ⟨.AUX_BUF_RD, 0, 16⟩
def AUX_STAT_sweep_skips : Fld := ⟨.AUX_STAT, 16, 16⟩
def AUX_STAT_cfg_err : Fld := ⟨.AUX_STAT, 1, 1⟩
def AUX_STAT_busy : Fld := ⟨.AUX_STAT, 0, 1⟩
def GPIO_PIN_in : Fld := ⟨.GPIO_PIN, 8, 1⟩
def GPIO_PIN_oe : Fld := ⟨.GPIO_PIN, 1, 1⟩
def GPIO_PIN_out : Fld := ⟨.GPIO_PIN, 0, 1⟩
def CAL_PATH_STAT_last_cause : Fld := ⟨.CAL_PATH_STAT, 24, 8⟩
def CAL_PATH_STAT_tx_rej : Fld := ⟨.CAL_PATH_STAT, 16, 2⟩
def CAL_PATH_STAT_rx_rej : Fld := ⟨.CAL_PATH_STAT, 12, 2⟩
def CAL_PATH_STAT_tx_ext_pending : Fld := ⟨.CAL_PATH_STAT, 8, 1⟩
def CAL_PATH_STAT_tx_degraded : Fld := ⟨.CAL_PATH_STAT, 1, 1⟩
def CAL_PATH_STAT_rx_degraded : Fld := ⟨.CAL_PATH_STAT, 0, 1⟩
def CAL_Q_STAT_t_last_rx : Fld := ⟨.CAL_Q_STAT, 24, 8⟩
def CAL_Q_STAT_t_last_tx : Fld := ⟨.CAL_Q_STAT, 16, 8⟩
def CAL_Q_STAT_running : Fld := ⟨.CAL_Q_STAT, 12, 4⟩
def CAL_Q_STAT_kettle_tx : Fld := ⟨.CAL_Q_STAT, 11, 1⟩
def CAL_Q_STAT_kettle_rx : Fld := ⟨.CAL_Q_STAT, 10, 1⟩
def CAL_Q_STAT_tx_phase_valid : Fld := ⟨.CAL_Q_STAT, 9, 1⟩
def CAL_Q_STAT_rx_phase_valid : Fld := ⟨.CAL_Q_STAT, 8, 1⟩
def CAL_Q_STAT_network : Fld := ⟨.CAL_Q_STAT, 1, 1⟩
def CAL_Q_STAT_pilot_src : Fld := ⟨.CAL_Q_STAT, 0, 1⟩
def CAL_PHASE_tx_lo : Fld := ⟨.CAL_PHASE, 16, 12⟩
def CAL_PHASE_rx_lo : Fld := ⟨.CAL_PHASE, 0, 12⟩
def CAL_TX_TRIM_phase : Fld := ⟨.CAL_TX_TRIM, 16, 12⟩
def CAL_TX_TRIM_delay : Fld := ⟨.CAL_TX_TRIM, 0, 10⟩
def CAL_CFG_step_us : Fld := ⟨.CAL_CFG, 22, 10⟩
def CAL_CFG_track_ms : Fld := ⟨.CAL_CFG, 12, 10⟩
def CAL_CFG_track_en : Fld := ⟨.CAL_CFG, 9, 1⟩
def CAL_CFG_kettle_en : Fld := ⟨.CAL_CFG, 8, 1⟩
def CAL_CFG_cal_dt : Fld := ⟨.CAL_CFG, 0, 5⟩
def CLK_CFG_auto_resume : Fld := ⟨.CLK_CFG, 2, 1⟩
def CLK_CFG_master : Fld := ⟨.CLK_CFG, 0, 2⟩
def CLK_STAT_master_cur : Fld := ⟨.CLK_STAT, 14, 2⟩
def CLK_STAT_ref_rate : Fld := ⟨.CLK_STAT, 12, 2⟩
def CLK_STAT_spll_lock : Fld := ⟨.CLK_STAT, 8, 4⟩
def CLK_STAT_hosc_untrimmed : Fld := ⟨.CLK_STAT, 7, 1⟩
def CLK_STAT_hosc_suspect : Fld := ⟨.CLK_STAT, 6, 1⟩
def CLK_STAT_hold_first : Fld := ⟨.CLK_STAT, 5, 1⟩
def CLK_STAT_clk_hold : Fld := ⟨.CLK_STAT, 4, 1⟩
def CLK_STAT_resuming : Fld := ⟨.CLK_STAT, 3, 1⟩
def CLK_STAT_ref_ok : Fld := ⟨.CLK_STAT, 2, 1⟩
def CLK_STAT_on_hosc : Fld := ⟨.CLK_STAT, 1, 1⟩
def CLK_STAT_hosc_ready : Fld := ⟨.CLK_STAT, 0, 1⟩
def CLK_MON_lnk_count : Fld := ⟨.CLK_MON, 16, 16⟩
def CLK_MON_ref_count : Fld := ⟨.CLK_MON, 0, 16⟩
def CLK_EVT_pace_low : Fld := ⟨.CLK_EVT, 5, 1⟩
def CLK_EVT_gate_forced : Fld := ⟨.CLK_EVT, 4, 1⟩
def CLK_EVT_switch_refused : Fld := ⟨.CLK_EVT, 3, 1⟩
def CLK_EVT_spll_unlock : Fld := ⟨.CLK_EVT, 2, 1⟩
def CLK_EVT_failover : Fld := ⟨.CLK_EVT, 1, 1⟩
def CLK_EVT_ref_fail : Fld := ⟨.CLK_EVT, 0, 1⟩
def CLK_PACE_min : Fld := ⟨.CLK_PACE, 16, 16⟩
def CLK_PACE_index : Fld := ⟨.CLK_PACE, 0, 16⟩
def HOSC_TRIM_calibrated : Fld := ⟨.HOSC_TRIM, 8, 1⟩
def HOSC_TRIM_code : Fld := ⟨.HOSC_TRIM, 0, 8⟩
def CLK_SRC_rdy_ref : Fld := ⟨.CLK_SRC, 18, 1⟩
def CLK_SRC_rdy_tick : Fld := ⟨.CLK_SRC, 17, 1⟩
def CLK_SRC_rdy_hosc : Fld := ⟨.CLK_SRC, 16, 1⟩
def CLK_SRC_rffe : Fld := ⟨.CLK_SRC, 4, 2⟩
def CLK_SRC_pa_tick : Fld := ⟨.CLK_SRC, 2, 2⟩
def CLK_SRC_time_unit : Fld := ⟨.CLK_SRC, 0, 2⟩
def CLK_GATE_CNT_forced : Fld := ⟨.CLK_GATE_CNT, 0, 32⟩
def SYN_FRAC_frac : Fld := ⟨.SYN_FRAC, 0, 32⟩
def SYN_CTL_whisk_mode : Fld := ⟨.SYN_CTL, 12, 2⟩
def SYN_CTL_lock : Fld := ⟨.SYN_CTL, 10, 1⟩
def SYN_CTL_div : Fld := ⟨.SYN_CTL, 8, 2⟩
def SYN_CTL_n_int : Fld := ⟨.SYN_CTL, 0, 6⟩
def SYN_FINE_fine : Fld := ⟨.SYN_FINE, 0, 32⟩
def WHISK_SEED_seed : Fld := ⟨.WHISK_SEED, 0, 31⟩
def SPLL_STAT_unlocks : Fld := ⟨.SPLL_STAT, 16, 16⟩
def SPLL_STAT_synced : Fld := ⟨.SPLL_STAT, 1, 1⟩
def SPLL_STAT_lock : Fld := ⟨.SPLL_STAT, 0, 1⟩
def PWR_MODE_mode : Fld := ⟨.PWR_MODE, 0, 2⟩
def PWR_OP_txb_fixed : Fld := ⟨.PWR_OP, 4, 1⟩
def PWR_OP_col_fixed : Fld := ⟨.PWR_OP, 3, 1⟩
def PWR_SIEVE_OP_fixed : Fld := ⟨.PWR_SIEVE_OP, 0, 4⟩
def VMON_STAT_warn_seen : Fld := ⟨.VMON_STAT, 16, 8⟩
def VMON_STAT_warn : Fld := ⟨.VMON_STAT, 0, 8⟩
def VMON_CFG_rst : Fld := ⟨.VMON_CFG, 8, 5⟩
def VMON_CFG_warn : Fld := ⟨.VMON_CFG, 0, 5⟩
def PWR_DOM_v_on : Fld := ⟨.PWR_DOM, 24, 6⟩
def PWR_DOM_fbias : Fld := ⟨.PWR_DOM, 20, 3⟩
def PWR_DOM_fbias_held : Fld := ⟨.PWR_DOM, 19, 1⟩
def PWR_DOM_forced_gate : Fld := ⟨.PWR_DOM, 18, 1⟩
def PWR_DOM_wake_race : Fld := ⟨.PWR_DOM, 17, 1⟩
def PWR_DOM_refused : Fld := ⟨.PWR_DOM, 16, 1⟩
def PWR_DOM_refuse_cause : Fld := ⟨.PWR_DOM, 12, 4⟩
def PWR_DOM_oph : Fld := ⟨.PWR_DOM, 9, 1⟩
def PWR_DOM_busy : Fld := ⟨.PWR_DOM, 8, 1⟩
def PWR_DOM_host_req : Fld := ⟨.PWR_DOM, 6, 2⟩
def PWR_DOM_need : Fld := ⟨.PWR_DOM, 4, 2⟩
def PWR_DOM_state : Fld := ⟨.PWR_DOM, 0, 2⟩
def FLT_STAT_mgmt_halted : Fld := ⟨.FLT_STAT, 23, 1⟩
def FLT_STAT_therm_hold : Fld := ⟨.FLT_STAT, 22, 1⟩
def FLT_STAT_qovf : Fld := ⟨.FLT_STAT, 21, 1⟩
def FLT_STAT_q_depth : Fld := ⟨.FLT_STAT, 16, 5⟩
def FLT_STAT_interrupted : Fld := ⟨.FLT_STAT, 15, 1⟩
def FLT_STAT_running : Fld := ⟨.FLT_STAT, 3, 1⟩
def FLT_STAT_run_sev : Fld := ⟨.FLT_STAT, 0, 3⟩
def FLT_CUR_unit : Fld := ⟨.FLT_CUR, 24, 8⟩
def FLT_CUR_sev : Fld := ⟨.FLT_CUR, 16, 3⟩
def FLT_CUR_code : Fld := ⟨.FLT_CUR, 0, 16⟩
def FLT_LAST_last : Fld := ⟨.FLT_LAST, 0, 32⟩
def FLT_RESET_boots : Fld := ⟨.FLT_RESET, 24, 8⟩
def FLT_RESET_by_pin : Fld := ⟨.FLT_RESET, 16, 1⟩
def FLT_RESET_code : Fld := ⟨.FLT_RESET, 0, 16⟩
def FLT_NMI_hosc_suspect : Fld := ⟨.FLT_NMI, 4, 1⟩
def FLT_NMI_thermal : Fld := ⟨.FLT_NMI, 3, 1⟩
def FLT_NMI_sag : Fld := ⟨.FLT_NMI, 2, 1⟩
def FLT_NMI_mgmt : Fld := ⟨.FLT_NMI, 1, 1⟩
def FLT_NMI_refclk : Fld := ⟨.FLT_NMI, 0, 1⟩
def FLT_WDOG_kick : Fld := ⟨.FLT_WDOG, 0, 32⟩
def FLT_LOG_WR_wr : Fld := ⟨.FLT_LOG_WR, 0, 6⟩
def FLT_CNT_mgmt_restarts : Fld := ⟨.FLT_CNT, 24, 8⟩
def FLT_CNT_faults : Fld := ⟨.FLT_CNT, 0, 16⟩
def SYS_ACC_ADDR_addr : Fld := ⟨.SYS_ACC_ADDR, 0, 32⟩
def FLT_LOG_entry : Fld := ⟨.FLT_LOG, 0, 32⟩

end F

end Sys2Proof.Machine
end

