-- ==== Sys2Proof/Machine/Store.lean ====
section
/-! DEFINITION. A sparse map in ONE canonical form: keys strictly rising, and no entry equal to what an
unlisted key reads as. Registers, memory bytes, tiles, contexts and every other indexed piece of the state are
held this way, so that equal contents are equal data. -/

namespace Sys2Proof.Machine

/-- Entries of a sparse map, keys strictly rising. -/
abbrev Store (α : Type) := List (Nat × α)

/-- The value at a key; `d` says what an unlisted key reads as. -/
def Store.get {α : Type} (d : Nat → α) : List (Nat × α) → Nat → α
  | [], k => d k
  | (j, v) :: t, k => if j = k then v else Store.get d t k

/-- Remove a key. -/
def Store.erase {α : Type} : List (Nat × α) → Nat → List (Nat × α)
  | [], _ => []
  | (j, v) :: t, k => if j = k then Store.erase t k else (j, v) :: Store.erase t k

/-- Insert or replace a key, keeping the keys rising. -/
def Store.insert {α : Type} : List (Nat × α) → Nat → α → List (Nat × α)
  | [], k, x => [(k, x)]
  | (j, v) :: t, k, x =>
    if k < j then (k, x) :: (j, v) :: t
    else if j = k then (k, x) :: t
    else (j, v) :: Store.insert t k x

/-- Write a key, keeping the canonical form: writing what an unlisted key reads as removes the entry. -/
def Store.set {α : Type} [DecidableEq α] (d : Nat → α) (m : List (Nat × α)) (k : Nat) (x : α) :
    List (Nat × α) :=
  if x = d k then Store.erase m k else Store.insert m k x

/-- Keys above `lo`, strictly rising, and no entry equal to its default. -/
def Store.wfFrom {α : Type} [DecidableEq α] (d : Nat → α) : Option Nat → List (Nat × α) → Bool
  | _, [] => true
  | lo, (j, v) :: t =>
    (match lo with | none => true | some l => decide (l < j)) && decide (v ≠ d j) && Store.wfFrom d (some j) t

/-- The canonical form. -/
def Store.wf {α : Type} [DecidableEq α] (d : Nat → α) (m : List (Nat × α)) : Bool := Store.wfFrom d none m

/-- A store with every listed value changed, in canonical form. -/
def Store.mapVals {α : Type} [DecidableEq α] (d : Nat → α) (f : Nat → α → α) (m : List (Nat × α)) : List (Nat × α) :=
  m.foldl (fun acc p => Store.set d acc p.1 (f p.1 p.2)) []

/-- Entries of a store whose key lies in [lo, hi). -/
def Store.slice {α : Type} (m : List (Nat × α)) (lo hi : Nat) : List (Nat × α) :=
  m.filter fun p => decide (lo ≤ p.1) && decide (p.1 < hi)

end Sys2Proof.Machine
end

