-- ==== Sys2Proof/Machine/State.lean ====
section
/-! DEFINITION. The state of the block as plain data: the direct registers in one sparse store, and beside them what
the chapters of the spec give the block that no register shows. One record per chapter. -/

namespace Sys2Proof.Machine

/-- Why a step faults. -/
inductive Fault
  /-- Raised by no meaning of this model: the block of this spec never stops; its faults (18_faults.md) are state.
  Safe. -/
  | none
  deriving DecidableEq, Repr

/-- Why a step is refused. -/
inductive Refusal
  /-- Raised by an arm of Dispatch whose row has no meaning yet; safe. -/
  | notModelled (mnemonic : String)
  deriving DecidableEq, Repr

/-- The mailbox and tag of a command, for its completion event (R98). -/
structure Cmd where
  mbx : Nat
  tag : Nat
  deriving DecidableEq, Repr

/-- A response as staged until the command finishes (R80, R602). -/
structure Rsp where
  status : Nat
  words : List Word := []
  evtFollows : Bool := false
  trivet : Bool := false
  /-- Word 1 names the owner of a resource (R80): every ST_HELD, and RES_QUERY. -/
  holder : Bool := false
  deriving DecidableEq, Repr

/-- What a mailbox holds beside its registers and areas (R82, R83, R70): the request copied at the ring, whether it
has been taken, the staged response, and the last completed request where it came as a link MBX_REQ. -/
structure MbxSt where
  copied : List Word := []
  taken : Bool := false
  staged : Option Rsp := none
  /-- The words of the request being served, where it came as a link MBX_REQ (R70). -/
  viaReq : Option (List Word) := none
  lastLink : Option (List Word) := none
  deriving DecidableEq, Repr

/-- The owner of one claimed index (R92, R93); `id` numbers the RES_CLAIM that took it (R96). -/
structure Claim where
  mbx : Nat
  port : Nat
  internal : Bool
  sub : Nat
  id : Nat
  deriving DecidableEq, Repr

/-- An event record, four words (R98). -/
structure EvtRec where
  w0 : Word
  w1 : Word
  w2 : Word
  w3 : Word
  deriving DecidableEq, Repr

/-- A posting window (R637): when the last posting was made, how many occurrences it has suppressed, and the argument
and time of the last suppressed one. -/
structure RlWin where
  start : T48
  count : Nat
  arg : Word
  time : T48
  deriving DecidableEq, Repr

/-- The level of an output: high impedance, low or high (R20). -/
inductive Pin
  | z | low | high
  deriving DecidableEq, Repr

/-- Chapter 02: mailboxes, claims, events. -/
structure SysSt where
  /-- Request areas, word w of mailbox n at 64 n + w (R78). -/
  reqArea : Store Word := []
  /-- Response areas, same keys (R78). -/
  rspArea : Store Word := []
  mbx : Store MbxSt := []
  /-- The mailbox Tilin served last (R85). -/
  served : Nat := 6
  /-- Owner of index i of type t, at 8192 t + i (R91). -/
  claims : Store (Option Claim) := []
  claimSeq : Nat := 0
  evtSeq : BitVec 16 := 0
  /-- The ring exists (R101, R638). -/
  ringMade : Bool := false
  /-- Tile of entry 0 and the tiles the ring lies in (R450). -/
  ringTile : Nat := 0
  ringTiles : Nat := 16
  /-- Trivet's buffer in AON (R638). -/
  heldEvts : List EvtRec := []
  heldLost : Bool := false
  /-- Posting windows at 256 code + scope (R637). -/
  limits : Store (Option RlWin) := []
  /-- The oldest event not carried on stream 0x01 while UP that no EVT_RESYNC sent whole has named (R99, R100). -/
  firstUnsent : Option (BitVec 16) := none
  /-- Words the last CSPI frame drove on MISO (R60); empty while it stays high impedance. -/
  miso : List Word := []
  /-- The word the last register read on each port returned (R12). -/
  rdata : Store Word := []
  /-- The version of the running Tilin image (R107). -/
  version : Word := 0
  /-- The image that Trivet checks: 0 slot A, 1 slot B, 2 host (R108, R109). -/
  imageFrom : Nat := 0
  /-- Byte address of a host image in the Larder (R110). -/
  imageAddr : Nat := 0
  /-- LNK_REFSEL as sampled (R356). -/
  refsel : Bool := false
  /-- RESET_N is high (R595). -/
  resetN : Bool := false
  /-- A device reset waits for its release (R579). -/
  held : Bool := false
  /-- The reload of a management-core restart (R573): 0 none, 1 an image comes from flash, 2 one is checked, 3 TRV_BOOT_EXEC is
  awaited. -/
  reload : Nat := 0
  /-- The cause of the restart that MGMT_RESTART has yet to report (R99, R573). -/
  restartCause : Option Nat := none
  /-- The configuration profile that came with a host image, as Tilin keeps it (R635). -/
  profile : List Byte := []
  /-- The link words of the configuration profile that READY applies (R635). -/
  linkWords : List Word := []
  deriving DecidableEq, Repr

/-- What an armed TC unit does when it fires (R440); the payload is what the command scheduled. -/
inductive TcAction
  | mode
  | burst (beam : Nat)
  | ack (ctx : Nat)
  | capture (path att tile : Nat) (cmd : Cmd)
  | beamCfg (beams qmask shift : Nat) (excl : Bool) (cmd : Cmd)
  | beamSwap (tx : Bool) (beams : Nat) (cmd : Cmd)
  | txbCfg (beams source rateK pair : Nat) (pairValid : Bool) (qmask t : Nat) (cmd : Cmd)
  | rxGain (paths g : Nat) (cmd : Cmd)
  | sieveCfg (qmask preset : Nat) (rs : Bool) (inc : Word) (cmd : Cmd)
  | firSwap (qmask f : Nat) (cmd : Cmd)
  | rffe (q seq : Nat) (cmd : Cmd)
  | lo (qmask : Nat) (tx : Bool) (freq : Nat) (cmd : Cmd)
  | pa (paths : Nat) (off : Bool) (cmd : Cmd)
  | strobe (n : Nat) (cmd : Cmd)
  | side (qmask : Nat) (tx enable : Bool) (cmd : Cmd)
  | cal (cals qmask paths : Nat) (cmd : Cmd)
  | profile (profiles codes : Nat) (cmd : Cmd)
  deriving DecidableEq, Repr

/-- A TIME_EVT output: its level, when a pulse ends, and the compare time and unit that last drove it (R442). -/
structure OutPin where
  level : Pin := .z
  pulseEnd : Option Int := none
  last : Option (T48 × Nat) := none
  deriving DecidableEq, Repr

/-- Chapter 13: the counter, the servo, the TC units. -/
structure TimeSt where
  /-- The counter and its wraps since start, in units of 2^-56 ns: 32 visible and 24 hidden fraction bits (R425). -/
  ticks : Int := 0
  /-- The counter has started (R427). -/
  running : Bool := false
  epochBase : BitVec 64 := 0
  ppsPhase : Nat := 0
  /-- The last accepted PPS edge (R434). -/
  lastPps : Option T48 := none
  /-- TIME_SUBNS and TIME_WRAPS as latched for port p, at 2 p and 2 p + 1 (R429). -/
  latch : Store Word := []
  /-- C of each unit as its last arm took it (R439, R446). -/
  cmp : Store T48 := []
  /-- What each unit armed by a command will do (R440). -/
  act : Store (Option TcAction) := []
  /-- TIME_EVT outputs (R442). -/
  outs : Store OutPin := []
  /-- A BOND row or a retrain came since the last mark sent, since the last mark received (R436). -/
  staleTx : Bool := true
  staleRx : Bool := true
  /-- Last MARK_INFO sent (R437). -/
  markInfo : List Word := []
  /-- When CLK_HOLD began, before HOSC_READY (R427, R531). -/
  held : Bool := false
  deriving DecidableEq, Repr

/-- The three states of a tile (R452). -/
inductive TileState
  | open | sealed | quarantined
  deriving DecidableEq, Repr

/-- A tile: its state, its checksum (R453) and how many uses of R457 it has. -/
structure Tile where
  state : TileState := .open
  sum : BitVec 32 := 0
  uses : Nat := 0
  deriving DecidableEq, Repr

/-- A Ladle channel beside its registers (R464-R471). -/
structure DmaCh where
  /-- The descriptor in hand, eight words. -/
  desc : List Word := []
  /-- 0: words of a remote read are awaited; 1: ready to move; 2: a barrier's answer is awaited; 3: it came (R468, R471). -/
  phase : Nat := 1
  /-- Words of a remote read that have arrived (R471). -/
  remote : List Word := []
  /-- The remote read on its way: offset address and count in words; when its frame started (R467, R471). -/
  want : Option (Nat × Nat) := none
  issued : Option T48 := none
  /-- Offset address of the last word written to the remote window and not acknowledged (R466, R471). -/
  unacked : Option Nat := none
  /-- The tiles that the running descriptor reads or writes (R457). -/
  held : List Nat := []
  deriving DecidableEq, Repr

/-- Chapter 14: Larder, Pantry, Ladle, auxiliary ADC. -/
structure MemSt where
  /-- Bytes of the Larder and the Pantry by address (R448). -/
  bytes : Store Byte := []
  /-- Larder banks 0 to 7 and the Pantry (8) whose contents are undefined since they lost power (R540): the number under
  which their unwritten bytes are free values; 0: powered since reset. -/
  undef : Store Nat := []
  /-- Larder tile t at t, Pantry tile p at 2^22 + p. -/
  tiles : Store Tile := []
  /-- Mailbox-side partition of the Pantry (R450). -/
  blTiles : Nat := 0
  /-- DQS retraining has failed once (R462). -/
  dqsFailed : Bool := false
  /-- Pantry tiles held by Tilin users, by tile: 1 backlog, 2 retention, 3 regeneration. -/
  pantryUse : Store Nat := []
  ch : Store DmaCh := []
  /-- Inputs of the running sweep still to convert, the sweep number, and the sequencer's missed sweeps. -/
  auxLeft : List Nat := []
  auxSweep : Nat := 0
  deriving DecidableEq, Repr

/-- A fault with a recovery: its code, unit and severity, its log entry, and how many arrivals merged into it
(R564, R568). -/
structure FaultEnt where
  code : Nat
  unit : Nat
  sev : Nat
  log : Nat
  merges : Nat := 0
  deriving DecidableEq, Repr

/-- Chapter 18: Trivet. -/
structure FaultSt where
  running : Option FaultEnt := none
  interrupted : Option FaultEnt := none
  queue : List FaultEnt := []
  /-- Faults raised per code since reset (R581). -/
  counts : Store Nat := []
  /-- Times of the LATE faults of the last 100 ms, and of the last LATE_BURST (R564). -/
  lates : List T48 := []
  lateBurst : Option T48 := none
  /-- Times of unlock events of the last second, by synthesiser k, and by quadrant at 8 + q (R564). -/
  unlocks : Store (List T48) := []
  /-- Times of the counted management-core restarts (R574). -/
  restarts : List T48 := []
  /-- The watchdog runs, and the time of its last write (R574). -/
  wdogOn : Bool := false
  wdogLast : T48 := 0
  /-- THERM_WARN and THERM_CRIT have been raised and not rearmed (R577). -/
  warned : Bool := false
  crit : Bool := false
  /-- Since when every sensor has been below Tj_max - 5 °C (R577). -/
  coolSince : Option T48 := none
  /-- Temperature of sensor n in °C as last read: 0 to 3 quadrants, 4 core (R577). -/
  temps : Store Int := []
  /-- Recoveries of each Skillet since reset (R571). -/
  sklCount : Store Nat := []
  /-- A restart or a reset that TRV_MGMT_RESET (false) or TRV_DEVICE_RESET (true) asked for (R611). -/
  deferred : Option (Bool × Option T48) := none
  /-- Unit of the S4 fault of FLT_RESET, which the FAULT event after READY names (R579). -/
  resetUnit : Nat := 0
  deriving DecidableEq, Repr

/-- A mode change that waits for its compare time (R48-R52). -/
structure PendMode where
  target : Nat
  preset : Nat
  rsEn : Bool
  beams : Nat
  inc : Word
  paths : Nat
  unit : Nat
  at_ : T48
  cmd : Cmd
  /-- MODE_LEAD as it was at acceptance. -/
  lead : Nat
  prepared : Bool := false
  deriving DecidableEq, Repr

/-- A mode change past T whose drain point is not reached (R52). -/
structure DrainMode where
  target : Nat
  t : T48
  step : Nat
  cmd : Cmd
  /-- The contexts that continued, by number and detection time. -/
  ctxs : List (Nat × T48)
  /-- The domains the mode does not need have been asked to leave ON. -/
  entered : Bool := false
  /-- A forced change to HOLD (R29): nothing reports its drain point. -/
  forced : Bool := false
  deriving DecidableEq, Repr

/-- Chapter 01: the modes. -/
structure ModeSt where
  /-- MODE_LEAD and SENTINEL_DWELL in ms (R48, R39). -/
  lead : Nat := 5
  dwell : Nat := 250
  /-- SENTINEL_DWELL of the SENTINEL in force. -/
  dwellNow : Nat := 250
  pend : Option PendMode := none
  drains : List DrainMode := []
  /-- The parameters of the mode in force (R33). -/
  beams : Nat := 0
  preset : Nat := 0
  rsEn : Bool := false
  inc : Word := 0x80000000
  paths : Nat := 0
  /-- T_S and the number of the running dwell (R29). -/
  ts : T48 := 0
  dwellNo : Nat := 0
  /-- A detection has paused rotation (R40), and SENTINEL_WAKE has been posted in this dwell. -/
  paused : Bool := false
  woken : Bool := false
  /-- A forced change to HOLD: cause and effective time (R29, R58). -/
  forced : Option (Nat × T48) := none
  deriving DecidableEq, Repr

/-- The states of a context (R222), in the order of CTX_READ (R617). -/
inductive CState
  | free | acquire | sync | header | payload | decode | deliver
  deriving DecidableEq, Repr

/-- A PHY header as decided (R250). -/
structure Header where
  version : Nat
  profile : Nat
  rate : Nat
  length : Nat
  flags : Nat
  shortAddr : Nat
  crc8 : Nat
  deriving DecidableEq, Repr

/-- A reception context (R220). -/
structure Ctx where
  state : CState := .free
  retry : Bool := false
  skillet : Nat := 0
  code : Nat := 0
  profile : Nat := 0
  /-- Combined beams in strength order (R229). -/
  beams : List Nat := []
  /-- NCO frequency in 0.5 Hz units, timing in half chips modulo the symbol period, SNRs in 0.25 dB (R216, R240). -/
  freq : Int := 0
  timing : Nat := 0
  detSnr : Int := 0
  snr : Int := 0
  /-- Detection timestamp; t_sync with its fraction in 2^-16 ns (R240). -/
  det : T48 := 0
  tSync : T48 := 0
  tFrac : Nat := 0
  synced : Bool := false
  /-- Larder tiles: state and chips, record, payload (R220). -/
  chipTile : Nat := 0
  recTile : Nat := 0
  payTiles : List Nat := []
  /-- The record tile failed, so the record was built afresh (R223). -/
  rebuilt : Bool := false
  /-- Load in chip/s x beams x c (R227). -/
  load : Nat := 0
  /-- A capture test runs, or waits for SYNC (R225); its outcome flag. -/
  capture : Bool := false
  captured : Bool := false
  swapSeen : Bool := false
  hdr : Option Header := none
  bgSlot : Nat := 0
  blocks : Nat := 0
  iters : Nat := 0
  unconverged : Bool := false
  /-- Block being decoded, with max_iter and α as its decoding started (R265), and when DECODE was entered (R266). -/
  block : Nat := 0
  decCfg : Nat × Nat := (20, 12)
  decAt : Option T48 := none
  /-- Symbols received of the payload symbols (R230). -/
  symbols : Nat := 0
  paySymbols : Nat := 0
  payload : List Byte := []
  /-- CRC-24 and CRC-8 as received; tracking has reported `freq` and `snr` (R267, R268). -/
  crc24 : Nat := 0
  crc8 : Nat := 0
  measured : Bool := false
  /-- Retention (R241): intact, and its Pantry tiles; the end of the packet. -/
  retained : Bool := false
  retTiles : List Nat := []
  packetEnd : T48 := 0
  /-- Soft values of the coded payload, and the information bits decided so far (R262, R263). -/
  llr : List Int := []
  hard : List Bool := []
  /-- For a retry: the candidate's number, how many interferers it cancels, which attempt it is (R244). -/
  cand : Nat := 0
  interferers : Nat := 0
  attempt : Nat := 0
  /-- N_int of its detection (R213): from the first integrated symbol to `det`. -/
  nInt : Nat := 0
  deriving DecidableEq, Repr

/-- A waveform profile (R207). -/
structure Profile where
  chipRate : Nat
  sfLog2 : Nat
  modulation : Nat
  rolloff : Nat
  preLen : Nat
  syncLen : Nat
  syncTol : Nat
  syncWord : Nat
  maxPayload : Nat
  nFfe : Nat
  kChip : Nat
  kSym : Nat
  detSymbols : Nat
  sinrMin : Int
  priority : Nat
  bgMask : Nat
  code : List Word
  deriving DecidableEq, Repr

/-- A code slot (R209). -/
structure CodeSlot where
  profile : Nat
  code : List Word
  deriving DecidableEq, Repr

/-- A base graph (R256). -/
structure BaseGraph where
  kb : Nat
  mb : Nat
  mCore : Nat
  p : Nat
  rateMask : Nat
  /-- Bit Z - 1 set: lifting size Z is allowed. -/
  zMask : Nat
  /-- Row, column, shift. -/
  entries : List (Nat × Nat × Nat)
  deriving DecidableEq, Repr

/-- The placement policy of one mode (R233). -/
structure Policy where
  ctxMax : Nat
  combineMax : Nat
  combineDb : Nat
  captureDb : Nat
  sidelobeDb : Nat
  evictMargin : Nat
  sicEn : Bool
  retTiles : Nat
  retHoldMs : Nat
  sicRetryMax : Nat
  sicFree : Nat
  dpdMin : Nat
  recFalse : Bool
  deriving DecidableEq, Repr

/-- The placement log (R235): first tile, tiles, entries written, sequence number. -/
structure PlaceLog where
  tile : Nat
  count : Nat
  next : Nat := 0
  deriving DecidableEq, Repr

/-- A SIC candidate (R242): the context as it aborted, when its retention expires, its interferers by record number,
the number of interferers of its last retry, retries made, and whether a retry is queued (R244). -/
structure Cand where
  ctxNo : Nat
  ctx : Ctx
  expiry : T48
  interferers : List Nat := []
  attempts : Nat := 0
  queued : Bool := false
  /-- The key of its equaliser, 256 or above: its retention goes on to the packet end (R242). -/
  slot : Nat := 256
  deriving DecidableEq, Repr

/-- Regeneration data of a delivered packet (R243): its record number, beams, air interval, tiles, expiry; the profile, base
graph slot, header word and payload; position in 1/64 chips and frequency in 0.5 Hz of each symbol of header and payload; its
SINR. -/
structure Regen where
  rec_ : Nat
  profile : Nat := 0
  bgSlot : Nat := 0
  hdr : Nat := 0
  payload : List Byte := []
  track : List (Int × Int) := []
  sinr : Int := 0
  beams : List Nat
  start : T48
  fin : T48
  tiles : List Nat
  expiry : T48
  deriving DecidableEq, Repr

/-- A backlog tile (R271). -/
structure BlTile where
  tile : Nat
  isSealed : Bool := false
  draining : Bool := false
  firstAt : T48
  /-- rec_seq and words of each record. -/
  recs : List (Nat × List Word) := []
  deriving DecidableEq, Repr

/-- A record formed and not yet committed (R270): its context, number, words and destination. -/
structure PendRec where
  ctx : Nat
  seq : Nat
  words : List Word
  toBacklog : Bool
  /-- The context waits in DELIVER for it. -/
  delivers : Bool
  deriving DecidableEq, Repr

/-- Chapters 06 and 07: reception. -/
structure RxbSt where
  profiles : Store (Option Profile) := []
  codes : Store (Option CodeSlot) := []
  thr : Store Nat := []
  profMask : Nat := 0
  codeMask : Nat := 0
  policy : Store Policy := []
  /-- The placement log, and its next sequence number (R235). -/
  log : Option PlaceLog := none
  logSeq : Nat := 0
  ctx : Store Ctx := []
  aborts : Store Nat := []
  recLost : Nat := 0
  sicRetries : Nat := 0
  sicSuccess : Nat := 0
  /-- C_lim as last posted (R221). -/
  cLim : Nat := 256
  bg : Store (Option BaseGraph) := []
  maxIter : Nat := 20
  alpha : Nat := 12
  recSeq : Nat := 0
  recQ : List PendRec := []
  backlog : List BlTile := []
  blNewest : Bool := false
  blOver : Nat := 0
  blDropped : Nat := 0
  blLost : Nat := 0
  cands : List Cand := []
  /-- The context each LDPC assist works on (R266). -/
  assist : Store (Option Nat) := []
  regen : List Regen := []
  /-- Skillets out of service (R571). -/
  sklOut : Store Bool := []
  /-- The one Pantry partition counter for retention in use (R241). -/
  retUsed : Nat := 0
  deriving DecidableEq, Repr

/-- A frame for OPL (R396): the fields of its header and its payload bytes. `at_`: its time_ns where the content fixes
one (IQ frames); otherwise it is taken when the frame starts (R400). -/
structure Frame where
  stream : Nat
  typ : Nat := 1
  seq : Nat := 0
  first : Bool := false
  gap : Bool := false
  mCode : Nat := 0
  prune : Bool := false
  blocks : Nat := 0
  step : Nat := 0
  at_ : Option Word := none
  payload : List Byte := []
  deriving DecidableEq, Repr

/-- A change of LNK_CFG and of the FFE, or a retrain, that waits until 1 ms after its response (R390): the mailbox that
asked, LNK_CFG (none: a retrain), the lanes that take the FFE, the FFE, and when it falls due once the response is
written. -/
structure LinkChange where
  mbx : Nat
  cfg : Option Word
  lanes : Nat := 0
  ffe : Word := 0
  at_ : Option T48 := none
  deriving DecidableEq, Repr

/-- A transmit lane (R361, R362, R368): the last 58 bits its scrambler sent, the newest in bit 0; BIP-8 since its last AM; the
blocks the last command that sent any has sent: whether control, and the payload on the lane. -/
structure LaneTx where
  scr : BitVec 58 := 0
  bip : Byte := 0
  sent : List (Bool × BitVec 64) := []
  deriving DecidableEq, Repr

/-- Chapters 11 and 12: the link. -/
structure LinkSt where
  /-- The open event frame of stream 0x01 and when its first event came (R403). -/
  evtOpen : List EvtRec := []
  evtAt : T48 := 0
  /-- Frames ready to send, per stream, oldest first, and the frame being sent (R404). -/
  ready : Store (List Frame) := []
  sending : Option Frame := none
  /-- Next seq per stream (R400); frames sent and received, errors and drops per stream (R422, R624). -/
  seqTx : Store Nat := []
  sentN : Store Nat := []
  recvN : Store Nat := []
  errs : Store Nat := []
  drops : Store Nat := []
  /-- Credit limit and credit sent per stream, in 8-byte units modulo 2^32 (R401), and what records not yet framed
  reserve on stream 0x03 (R403). -/
  limit : Store Nat := []
  sent : Store Nat := []
  reserved : Nat := 0
  /-- Units received per stream, and the limit last granted on it (R402). -/
  got : Store Nat := []
  grant : Store Nat := []
  /-- IQ streams: frames were dropped since the last one sent; a run has begun (R396, R410). -/
  gap : Store Bool := []
  run : Store Bool := []
  /-- m0, m_min and prune_log2 of RELAY (4) and MIRROR (5), m as such (R422). -/
  content : Store (Nat × Nat × Nat) := []
  /-- IQ measured per 1 ms, the newest first (R413): the millisecond, the bits framed, and those that the same content would take
  at m_min with pruning. -/
  iqBins : List (Nat × Nat × Nat) := []
  /-- The present millisecond of draining and the bits drained in it (R420). -/
  drainBin : Nat × Nat := (0, 0)
  /-- A step has been taken for a drop since the last evaluation (R415). -/
  dropStep : Bool := false
  /-- Entry to the present training state (R376); a rate step runs; failed attempts with a backoff (R378). -/
  since : T48 := 0
  rateStep : Bool := false
  fails : Nat := 0
  /-- End of the fallback (R378), and that one HELLO with retrain = 1 is due. -/
  fallbackEnd : Option T48 := none
  retrainHello : Bool := false
  /-- In the present attempt: a valid HELLO came, one with seen = 1 came, own HELLOs sent with seen = 1, the partner's
  node_id (R373, R377); own HELLO number; the last valid HELLO in UP. -/
  helloGot : Bool := false
  /-- A valid HELLO came in the present or, in LINK_DOWN, the last attempt (R393). -/
  heard : Bool := false
  peerSeen : Bool := false
  helloSent : Nat := 0
  peerNode : Option Nat := none
  helloSeq : Nat := 0
  lastHello : T48 := 0
  /-- bond_seq, the LSTAT number, the partner's locked mask and since when it reports a lane (R374, R375, R384). -/
  bondSeq : Nat := 0
  lstatSeq : Nat := 0
  peerLocked : Nat := 0
  lockedSince : Store (Option T48) := []
  /-- Receive pairs aligned under R370, why a pair was lost (R394), and that rows are being discarded (R381). -/
  aligned : Nat := 0
  lossCause : Store Nat := []
  /-- Since when a pair has had block lock (R376), and its AM positions in a row without its AM (R369). -/
  lockAt : Store (Option T48) := []
  amBad : Store Nat := []
  discard : Bool := false
  /-- FFE settings that wait for their lane's next AM (R371). -/
  ffe : Store (Option Word) := []
  deferred : Option LinkChange := none
  /-- LNK_REFCLK is lost at the lane PLLs (R376). -/
  refLost : Bool := false
  /-- Whole rows the last command that sent any has sent, payload bits (R363), and the transmit lanes. -/
  rows : List (BitVec 64) := []
  lanes : Store LaneTx := []
  deriving DecidableEq, Repr

/-- An overload event on one component (R126), in FS cycles: t_det, the first cycle of each run so far with its code at
15, the cycle that completed the last run, the loop filter held. -/
structure OvrEv where
  det : Int
  runs : List (Int × Bool) := []
  last : Int
  held : Bool := true
  deriving DecidableEq, Repr

/-- A disturbance window (R131), in FS cycles: when it opened, how many events that opened or extended it still run, the
last t_end among them. -/
structure DistWin where
  opened : Int
  running : Nat
  last : Int
  deriving DecidableEq, Repr

/-- An interval of sample time in FS cycles, from `lo` and before `hi`; for a clip interval, the runs of its event. -/
structure Span where
  lo : Int
  hi : Int
  runs : List (Int × Bool) := []
  deriving DecidableEq, Repr

/-- A power as num / 2^exp, exact (R137). -/
structure Dyadic where
  num : Nat
  exp : Nat
  deriving DecidableEq, Repr

/-- A RFFE_XFER in hand (R143, R144): its request, and whether the verify read is running. -/
structure RffeXfer where
  mbx : Nat
  head : Word
  data : List Word
  verifying : Bool := false
  deriving DecidableEq, Repr

/-- Chapter 03: receive paths and the RFFE masters. -/
structure RxSt where
  /-- Overload event of component c of path p at 2 p + c (c: 0 I, 1 Q). -/
  ev : Store (Option OvrEv) := []
  /-- Clip intervals of the events that have ended, same keys (R128). -/
  clip : Store (List Span) := []
  /-- Disturbance windows, and the nbr_dirty intervals of those that have closed, by path (R131). -/
  win : Store (Option DistWin) := []
  dirty : Store (List Span) := []
  /-- Settling intervals by path (R120, R172, R173). -/
  settle : Store (List Span) := []
  /-- Up to which FS cycle the TX side of a quadrant was last in TX, and a context last combined a beam (R136, R195). -/
  lastTx : Store Int := []
  combined : Store Int := []
  /-- Noise filter F of path p at p, of beam b at 64 + b; none before the first counted block (R137, R195). -/
  floor : Store (Option Dyadic) := []
  /-- The counter's whole ns when the last block counted, same keys (R138). -/
  counted : Store (Option Int) := []
  /-- Timed sequence n of quadrant q at 8 q + n (R141). -/
  seq : Store (List Word) := []
  /-- Sequence running on a quadrant's bus and its transaction (R142). -/
  running : Store (Option (Nat × Nat)) := []
  /-- The RFFE_SEQ_ARM whose sequence runs on a quadrant's bus (R99). -/
  seqCmd : Store (Option Cmd) := []
  /-- RFFE_XFER on the bus, and those held (R143). -/
  xfer : Store (Option RffeXfer) := []
  xferHeld : Store (List RffeXfer) := []
  /-- When the transaction on a quadrant's bus began, and when the next may begin, after two idle periods (R140). -/
  busAt : Store T48 := []
  busFree : Store (Option T48) := []
  /-- DC-loop reference trim and correction d of path p, I at 2 p and Q at 2 p + 1 (R490). -/
  dcRef : Store Int := []
  dcOfs : Store Int := []
  deriving DecidableEq, Repr

/-- One radio side (R330-R337): the state a transition leads to; stored calibration words; the temperature and the
centre of the last calibration; an Off request waiting; the bindings of R350; since when locked. -/
structure SideSt where
  going : Option Nat := none
  /-- It goes on to the mode's state afterwards (R333). -/
  want : Bool := false
  words : Bool := false
  calTemp : Int := 0
  centre : Word := 0
  offReq : Bool := false
  bind : Nat := 0
  lockedAt : Option Int := none
  /-- An LO_REPEAT recovery discards the words at SLEEP (R571). -/
  discard : Bool := false
  /-- LO_TUNE pending on the side until T (R338). -/
  tuning : Bool := false
  /-- A move that came while the side was in CAL: it waits for Cal end (R503). -/
  tuneTo : Option Nat := none
  /-- Whisk register as last loaded, and the mode in effect (R517). -/
  whisk : Word := 0
  /-- Since when the register shifts; none: it holds (R517). -/
  whiskAt : Option Int := none
  whiskMode : Nat := 2
  /-- CLK_CFG_SET has named the synthesiser since: its seed is loaded at the next channel change or wake (R517). -/
  whiskNew : Bool := false
  deriving DecidableEq, Repr

/-- An LO_TUNE whose lock is awaited (R338): the quadrants left. -/
structure TuneCmd where
  cmd : Cmd
  tx : Bool
  quads : List Nat
  left : List Nat
  fine : Bool
  deriving DecidableEq, Repr

/-- A RADIO_SIDE_SET that has begun (R331): the sides left. -/
structure SideCmd where
  cmd : Cmd
  left : List Nat
  deriving DecidableEq, Repr

/-- Chapter 10: sides, moves, coexistence counts. Side t of quadrant q (t: 0 RX, 1 TX) at 2 q + t. -/
structure RadioSt where
  sides : Store SideSt := []
  tunes : List TuneCmd := []
  sideCmds : List SideCmd := []
  /-- Lock losses per synthesiser since reset (R536). -/
  unlocks : Store Nat := []
  /-- COEX_GNT is high, since when (R341, R345). -/
  gnt : Option Int := none
  cxDefers : Nat := 0
  cxNoGnt : Nat := 0
  cxOverlap : Nat := 0
  cxRevoked : Nat := 0
  cxLongest : Nat := 0
  deriving DecidableEq, Repr

/-- A path's PA sequencer beside its registers (R287, R292): the running delay, d_en elapsed while the burst holds, the
next slew tick, whether the off code has been made the target. -/
structure PaSt where
  timer : Option T48 := none
  enDone : Bool := false
  slewAt : Option T48 := none
  offSet : Bool := false
  deriving DecidableEq, Repr

/-- How far a burst has come (R294, R341). -/
inductive BPhase
  | waiting | compared | held | released | air
  deriving DecidableEq, Repr

/-- A scheduled burst (R293, R298, R417): the unit that carries it is its key. Times in ns. -/
structure Burst where
  beam : Nat
  ack : Bool
  id : Nat := 0
  pri : Bool := false
  /-- Samples of a LINK burst; for an acknowledgement its 40-bit word K. -/
  n : Nat := 0
  air : T48
  fin : T48
  lead : Nat
  phase : BPhase := .waiting
  /-- D in µs (R341). -/
  delay : Nat := 0
  /-- Paths whose on start has been taken. -/
  started : List Nat := []
  /-- Samples received for the burst, and its last frame seen (R419). -/
  got : Nat := 0
  gotLast : Bool := false
  starved : Bool := false
  underflow : List Nat := []
  /-- For an acknowledgement: context, TX LO offsets by quadrant, whether they are applied, uncompensated. -/
  ctx : Nat := 0
  profile : Nat := 0
  ofs : List Int := []
  moved : Bool := false
  uncomp : Bool := false
  deriving DecidableEq, Repr

/-- A burst past its air end: the paths whose off start is still due (R293, R346). -/
structure Tail where
  fin : T48
  pri : Bool
  paths : List Nat
  deriving DecidableEq, Repr

/-- Acknowledgement configuration of a profile (R302, R619). -/
structure AckCfg where
  enable : Bool
  uncomp : Bool
  flags : Nat
  preLen : Nat
  delay : Nat
  gain : Nat
  deriving DecidableEq, Repr

/-- A PA_SEQ under way (R295): paths still to arrive, paths that arrived. -/
structure PaCmd where
  cmd : Cmd
  off : Bool
  left : List Nat
  done : Nat := 0
  total : Nat
  deriving DecidableEq, Repr

/-- Chapter 08: transmit paths, bursts, acknowledgements. -/
structure TxSt where
  pa : Store PaSt := []
  bursts : Store (Option Burst) := []
  tails : List Tail := []
  /-- LINK and acknowledgement TC units: mailbox, first, count (R302, R416). -/
  linkTc : Option (Nat × Nat × Nat) := none
  ackTc : Option (Nat × Nat × Nat) := none
  ackCfg : Store (Option AckCfg) := []
  ackSent : Nat := 0
  ackUncomp : Nat := 0
  ackDrops : Store Nat := []
  seqs : List PaCmd := []
  /-- Paths whose queue underflowed and that output midscale until it refills (R282). -/
  dry : Store Bool := []
  deriving DecidableEq, Repr

/-- A configuration of RX beams staged with with_mode (R191). -/
structure ModeCfg where
  beams : Nat
  qmask : Nat
  shift : Nat
  excl : Bool
  cmd : Cmd
  deriving DecidableEq, Repr

/-- Chapter 05: weight banks. RX beam n is beam n, TX beam n is beam 64 + n. -/
structure BeamSt where
  /-- Weight of path p in bank k of a beam at 128 beam + 64 k + p (R181). -/
  w : Store Word := []
  /-- Configurations that wait for the pending mode change (R191). -/
  withMode : List ModeCfg := []
  /-- The FS cycle of an RX beam's last swap or configuration change (R185). -/
  swapAt : Store Int := []
  deriving DecidableEq, Repr

/-- A cross-fade that runs (R160): its compare time, f, its command (mailbox 8: silenced by a restart, R634). -/
structure Fade where
  t : T48
  f : Nat
  cmd : Cmd
  /-- The first FS cycle at or after t. -/
  cyc : Int := 0
  deriving DecidableEq, Repr

/-- Chapter 04: FIR banks and fades. -/
structure SieveSt where
  /-- Coefficients in bank k of quadrant q at 2 q + k, one word per tap (R162). -/
  bank : Store (List Word) := []
  /-- The set stored for preset r of quadrant q at 4 q + r; none: Tilin's default set (R163). -/
  stored : Store (Option (List Word)) := []
  fade : Store (Option Fade) := []
  deriving DecidableEq, Repr

/-- A group entry into RET or OFF that the sequencer runs (R546): who asked (none: the device itself), the state, the
blocks (domain, index) still to answer, when it was asked. -/
structure PwrEntry where
  cmd : Option Cmd
  target : Nat
  group : List Nat
  left : List (Nat × Nat)
  start : T48
  deriving DecidableEq, Repr

/-- A PWR_DOMAIN_SET whose transitions run: the domains still to arrive; `accepted`: PWR_DONE ends it. -/
structure PwrJob where
  cmd : Cmd
  target : Nat
  lowest : Nat
  left : List Nat
  accepted : Bool
  deriving DecidableEq, Repr

/-- A PWR_DOMAIN_SET that waits for a domain in transition (R548). -/
structure PwrReq where
  cmd : Cmd
  target : Nat
  vOn : Nat
  fbias : Nat
  group : List Nat
  deriving DecidableEq, Repr

/-- A change of operating point (R555): toward OPF, the second of its two steps runs, ramp steps of R522 done. -/
structure OpChange where
  toF : Bool
  second : Bool := false
  ramp : Nat := 0
  /-- A raise was asked for during a lowering and follows it (R554). -/
  again : Bool := false
  deriving DecidableEq, Repr

/-- Chapter 17. Domains by their codes. -/
structure PwrSt where
  entries : List PwrEntry := []
  /-- The state a transition that runs leads to. -/
  trans : Store (Option Nat) := []
  /-- A wake source came after isolation (R549). -/
  wake : Store Bool := []
  jobs : List PwrJob := []
  waiting : List PwrReq := []
  refusals : Store Nat := []
  forced : Store Nat := []
  op : Store (Option OpChange) := []
  /-- The management core stalls in WAIT (R550). -/
  stalled : Bool := false
  /-- Clocks stopped by a header shortfall, and whether the good flag has returned (R557, R571). -/
  sag : Store Bool := []
  /-- PWR_WARN_N is driven low (R557). -/
  warnLow : Bool := false
  /-- Forward bias is removed from every domain (R541). -/
  biasOff : Bool := false
  deriving DecidableEq, Repr

/-- Chapter 16. -/
structure ClkSt where
  /-- The next window is the first after HOSC_READY (R507, R534). -/
  firstWin : Bool := false
  /-- Consecutive windows passed since a failure, and their rate (R534). -/
  passes : Nat := 0
  passRate : Nat := 0
  /-- The CLK_RESUME that asked for the resume that runs. -/
  resume : Option Cmd := none
  /-- What calibrations 0x9 and 0xA of the resume that runs have found (R534). -/
  found : List CalResult := []
  /-- Since when PACE_INDEX has been below 1,024, whether it was reported, the lowest (R525). -/
  paceSince : Option T48 := none
  paceTold : Bool := false
  paceLowest : Nat := 0
  /-- CLK_NO_REF: seconds waited and when the present one began (R533). -/
  noRef : Nat := 0
  noRefAt : T48 := 0
  /-- Paths of quadrant q that a sample-clock loss took out of service, as a mask (R513). -/
  parked : Store Nat := []
  deriving DecidableEq, Repr


/-- The identity set of R311: c_0 = 1.0, every other coefficient 0. -/
def identitySet : List Word := (0x00100000 : Word) :: List.replicate 63 0

/-- A path's actuator and applier (R311-R314) and its record of results (R319, R324, R327). -/
structure DpdPath where
  active : List Word := identitySet
  settled : List Word := identitySet
  target : Option (List Word) := none
  /-- Source of the target and of the settled set: 0 identity, 1 host, 2 adaptation; the target is the former bank. -/
  targetSrc : Nat := 0
  settledSrc : Nat := 0
  reverting : Bool := false
  /-- The tile that stages the target, until the applier has opened it. -/
  stage : Option Nat := none
  /-- When the apply began, the sample intervals run since, the coefficients replaced. -/
  applyAt : T48 := 0
  steps : Nat := 0
  replaced : Nat := 0
  /-- When the last result was accepted or rejected, and when accepted. -/
  lastResult : Option Int := none
  lastAccept : Option Int := none
  accepts : Nat := 0
  applies : Nat := 0
  reversions : Nat := 0
  /-- The external observation loop delay is measured (R484). -/
  loopDone : Bool := false
  /-- The observation loop delay, ns (R317, R481). -/
  loopNs : Nat := 0
  deriving DecidableEq, Repr

/-- A capture that runs on a quadrant (R317, R318, R320): its path, the host command (none: adaptation), first tile,
start; for adaptation the burst's unit and the underflows of its path before. -/
structure OrxCap where
  path : Nat
  /-- The attenuation of the capture, dB (R316, R318). -/
  att : Nat := 0
  host : Option Cmd
  tile : Nat
  start : T48
  unit : Nat := 0
  before : Bool := false
  deriving DecidableEq, Repr

/-- A capture that waits for its fit, or is being fitted (R321, R322). -/
structure OrxFit where
  path : Nat
  tile : Nat
  ended : T48
  skillet : Option Nat := none
  /-- A DPD_COEF_LOAD has taken its place (R326). -/
  discard : Bool := false
  deriving DecidableEq, Repr

/-- Chapter 09. -/
structure DpdSt where
  path : Store DpdPath := []
  /-- Rejects of path p by check at 16 p + check, skips by cause 1 to 6 (R321, R323). -/
  rejects : Store Nat := []
  skips : Store Nat := []
  /-- By quadrant: the capture that runs, the capture in estimation, the path chosen, the path served last (R319). -/
  cap : Store (Option OrxCap) := []
  fit : Store (Option OrxFit) := []
  chosen : Store (Option Nat) := []
  served : Store Nat := []
  deriving DecidableEq, Repr

/-- A calibration run (R486, R488, R489, R501, R513): the calibrations by bit id - 1, quadrants, paths, sides that enter
CAL and those that have; `kind`: 0 on request, 1 Kettle, 2 CAL_RESTORE, 3 the return of a quadrant's paths. -/
structure CalRun where
  kind : Nat
  cals : Nat
  qmask : Nat
  paths : Nat
  sides : List Nat
  entered : List Nat := []
  cmd : Option Cmd := none
  /-- The unit of a run that waits for its compare time. -/
  unit : Option Nat := none
  /-- When it began, or will. -/
  start : T48
  begun : Bool := false
  temps : List Int := []
  /-- Its working tile (R93, R450). -/
  tile : Option Nat := none
  deriving DecidableEq, Repr

/-- Chapter 15. Side k = 2 q + t of quadrant q. -/
structure CalSt where
  runs : List CalRun := []
  /-- Results as last accepted, by calibration and unit (R481). -/
  stored : Store (List Int) := []
  /-- Corrections without a register of their own: present value, and the value an item steps toward (R502). -/
  present : Store Int := []
  target : Store (Option Int) := []
  /-- When the next step of a side's corrections is due. -/
  stepAt : Store (Option T48) := []
  /-- Consecutive rejects of a calibration by unit, rejects by quadrant and cause at 256 q + cause (R498, R621). -/
  rej : Store Nat := []
  causes : Store Nat := []
  accepts : Store Nat := []
  /-- Path sides marked degraded by a path-scoped calibration (path, or 64 + path for TX), and the quadrant-wide
  calibrations that mark side k (R499, R501). -/
  marks : Store Bool := []
  quadMarks : Store (List Nat) := []
  /-- Calibration 0x9 accepted since the sample clock came back, by side, as a mask of the quadrant's paths (R513). -/
  ok9 : Store Nat := []
  /-- KETTLE_WAIT in ms; per set k: the temperature of its last run in 1/8 °C, its start, since when it is pending, when
  it was last postponed, the postponements (R487-R489). -/
  wait : Nat := 1000
  tLast : Store Int := []
  lastRun : Store Word := []
  pendSince : Store (Option T48) := []
  postponedAt : Store (Option T48) := []
  postponed : Store Nat := []
  unaligned : Store Nat := []
  /-- The board's network table (R495), the pilot drive by quadrant in dBm (R491), the pilot source that R500 moved. -/
  net : Option (List Word) := none
  drive : Store Int := []
  source : Option Nat := none
  trackAt : T48 := 0
  /-- A run that radiates asks for COEX (R486). -/
  coex : Bool := false
  /-- Startup step that runs, 1 to 11 (R482); paths have entered service (R145). -/
  step : Nat := 0
  commissioned : Bool := false
  deriving DecidableEq, Repr

/-- A complex sample, I and Q. -/
abbrev Iq := Int × Int

/-- The CIC of one component (R158): input, integrators I1 to I7, differentiators C1 to C7 and their delay registers,
output; a path reset clears them. -/
structure Cic where
  x : BitVec 26 := 0
  ints : List (BitVec 26) := List.replicate 7 0
  difs : List (BitVec 26) := List.replicate 7 0
  dels : List (BitVec 26) := List.replicate 7 0
  y : BitVec 26 := 0
  deriving DecidableEq, Repr

/-- What a FIR filters with (R160): the active and the shadow set, and a fade as its first FS cycle and f. -/
structure FirSet where
  active : List Word
  shadow : List Word
  fade : Option (Int × Nat)
  deriving DecidableEq, Repr

/-- The position accumulator (R167): sample time of the input it started on, inputs since, position times 2^31. -/
structure RsPos where
  start : Int
  n : Nat
  acc : Nat
  deriving DecidableEq, Repr

/-- The back end of a path at one preset (R153 to R155, R166, R172): the sample times it serves, the inputs its stages
hold, newest first, the resampler's setting and since which sample time, its position; a chain that a preset change has
retired keeps the sets it filtered with. -/
structure Chain where
  preset : Nat
  lo : Int
  hi : Option Int := none
  lines : List (List Iq) := []
  fir : List Iq := []
  trim : List Iq := []
  rs : List Iq := []
  rsOn : Bool := false
  rsFrom : Int := 0
  pos : Option RsPos := none
  frozen : Option FirSet := none
  deriving DecidableEq, Repr

/-- An output sample at the input of stage 12 (R150, R156): its sample time, the FS cycle at which it leaves, I and Q. -/
structure Out where
  at_ : Int
  leave : Int
  o : Iq
  deriving DecidableEq, Repr

/-- A path that samples: both CICs, the 4,096 die-to-die words that the back end keeps (R172), its chains, its newest
outputs, and the LNA state before the last gain change with the sample time of that change (R156). -/
structure PathDp where
  i : Cic := {}
  q : Cic := {}
  hist : List Iq := []
  chains : List Chain := []
  outs : List Out := []
  lnaWas : Nat := 0
  lnaFrom : Int := 0
  deriving DecidableEq, Repr

/-- The samples of a burst in the transmit beamformer (R199): its beam, its input FIFO, the interpolator's inputs newest
first, 245.76 MS/s samples since the path-sum start; it is in its burst. -/
structure TxLine where
  beam : Nat
  fifo : List Iq := []
  line : List Iq := []
  j : Nat := 0
  on : Bool := false
  deriving DecidableEq, Repr

/-- A transmit path whose side is in TX (R279, R280, R307): its newest four path sums and the actuator outputs that the
interpolator holds, newest first; the queue of I and Q DAC codes, oldest first, and the codes at the DACs. -/
structure TxPath where
  z : List Iq := []
  ip : List Iq := []
  queue : List (Nat × Nat) := List.replicate 128 (8192, 8192)
  out : Nat × Nat := (8192, 8192)
  /-- The actuator's latest outputs y, the newest first: a capture and the longest loop delay before it (R317). -/
  ys : List (Int × Int) := []
  deriving DecidableEq, Repr

/-- A beam sample that has left Colander: its sample time, I and Q, its flags in the order of R409. -/
structure BeamSmp where
  at_ : Int
  v : Iq
  flags : Nat
  deriving DecidableEq, Repr

/-- What the correlator has of a beam for a code (R213): the number of the half chip after the newest, counted since the
counter started, and the newest half chips first, with whether they count for the noise term (R215). -/
structure DetLine where
  next : Int
  l : List (Iq × Bool) := []
  /-- The threshold in force on this beam since the code's last symbol boundary (R214). -/
  thr : Nat := 28
  deriving DecidableEq, Repr

/-- A complex number (re + j im) / den, exact. -/
structure Cq where
  re : Int
  im : Int
  den : Nat := 1
  deriving DecidableEq, Repr

/-- Symbols of a span with the sum of the NCO's increments and of the squared decision-feedback errors (R240). -/
structure Span3 where
  n : Nat := 0
  inc : Int := 0
  err : Cq := ⟨0, 0, 1⟩
  deriving DecidableEq, Repr

/-- A chip of the running symbol (R236, R237): each beam's filter inputs, newest first, and whether its taps are frozen;
the sum of the filters; the middle and the neighbouring half chips for timing; the chip is erased (R238). -/
structure EqChip where
  x : List (List Iq)
  frozen : List Bool
  z : Cq
  early : Iq
  late : Iq
  erased : Bool
  deriving DecidableEq, Repr

/-- What one half chip of a context was (R241): each beam's derotated value, the NCO's phase, its position. -/
structure RetHalf where
  v : List Iq
  phase : BitVec 32
  u : Int
  deriving DecidableEq, Repr

/-- What a retry reads (R244): the key of its candidate's equaliser, how many of the retained half chips were taken over, those
still to read, oldest first, and the FS cycle it began at. -/
structure Reread where
  key : Nat
  took : Nat
  rest : List RetHalf
  since : Int
  deriving DecidableEq, Repr

/-- A symbol of header or payload (R240, R243): its tracked position, the NCO's increment, the squared error. -/
structure SymTrk where
  pos : Int
  inc : Int
  err : Cq
  deriving DecidableEq, Repr

/-- The equaliser and tracking of a context (R220, R236 to R239). -/
structure EqSt where
  /-- Its beams in strength order, its profile, the preamble code of its slot. -/
  beams : List Nat
  prof : Nat
  preCode : List Word
  /-- Position of the first trained symbol, and the centre taps that it began with (R236, R241). -/
  first : Int
  centre : List Cq
  /-- NCO: phase, and increment per beam sample, in 2^-32 turns (R239). -/
  phase : BitVec 32 := 0
  inc : Int
  /-- Position of the next half chip in 1/64 chips since the counter started, and of the running symbol's first chip. -/
  u : Int
  sym : Int
  /-- The newest derotated samples of each beam, newest first, with the NCO's phase at each. -/
  lines : List (List BeamSmp)
  phases : List (Int × BitVec 32) := []
  /-- Newest half chips of each beam, and whether a beam's newest were flagged. -/
  halves : List (List (Iq × Bool)) := []
  /-- Feedforward taps of each beam; feedforward and feedback taps at symbol spacing; their inputs. -/
  w : List (List Cq)
  ff : List Cq
  fb : List Cq
  syms : List Cq := []
  decs : List Iq := []
  chips : List EqChip := []
  /-- Symbols until a beam's step exponent returns after a swap (R238). -/
  swapLeft : List Nat
  /-- Symbols so far, hard decisions newest first, the symbol count and position at a sync match (R224). -/
  count : Nat := 0
  bits : List Bool := []
  match_ : Option (Nat × Int) := none
  /-- Soft values of header and payload in order (R249, R262), and the tracking of each symbol (R240, R243). -/
  llr : List Int := []
  track : List SymTrk := []
  /-- Squared errors of the newest 64 symbols, newest first (R239); the span before the header. -/
  errs : List Cq := []
  pre : Span3 := {}
  /-- A capture test: symbols it still takes, its errors so far (R225). -/
  capLeft : Nat := 0
  capAcc : Span3 := {}
  /-- The retained half chips, newest first, while retention runs (R241); only these are still taken, up to a number (R242). -/
  retain : Bool := false
  ret : List RetHalf := []
  keepTo : Option Nat := none
  /-- A retry reads retained half chips in place of live beams (R244). -/
  src : Option Reread := none
  /-- Half chips taken. -/
  taken : Nat := 0
  deriving DecidableEq, Repr

/-- The sample paths of chapters 04 to 06, 08 and 09: FS cycles since the counter started, receive paths, the newest samples
of beams, what the correlator holds of beam b for code c at 16 b + c, equalisers by context (candidates' at 256 and above),
bursts by their TC unit, transmit paths. -/
structure DpSt where
  cycle : Int := 0
  paths : Store (Option PathDp) := []
  beams : Store (List BeamSmp) := []
  det : Store (Option DetLine) := []
  eq : Store (Option EqSt) := []
  tx : Store (Option TxLine) := []
  txp : Store (Option TxPath) := []
  deriving DecidableEq, Repr

/-- The state of the block. -/
structure State where
  /-- The direct registers: copy i of register r at 256 i + r.idx; unlisted copies hold their reset value. -/
  regs : Store Word := []
  sys : SysSt := {}
  mode : ModeSt := {}
  time : TimeSt := {}
  mem : MemSt := {}
  flt : FaultSt := {}
  rxb : RxbSt := {}
  link : LinkSt := {}
  rx : RxSt := {}
  radio : RadioSt := {}
  tx : TxSt := {}
  beam : BeamSt := {}
  sieve : SieveSt := {}
  pwr : PwrSt := {}
  clk : ClkSt := {}
  dpd : DpdSt := {}
  cal : CalSt := {}
  dp : DpSt := {}
  /-- How many free values have been taken (Config.freeValue): the model's own field. -/
  free : Nat := 0
  /-- The commands that wait, first in first out. -/
  pending : List Instr := []
  deriving DecidableEq, Repr

/-- The block as RESET_N rises for the first time after power-up: every register at the value its table gives
(`RegName.resetValue`), nothing in memory, nothing waiting. Log entries 1 and 2. -/
def State.reset : State := {}

end Sys2Proof.Machine
end

