-- ==== Sys2Proof/Machine/Registers.lean ====
section
/-! DEFINITION. Registers, their fields, and the reading of the counter: what every other operation is written over. -/

namespace Sys2Proof

/-- The copy of a per-port register (R73). -/
def Port.idx : Port → Nat
  | .cspi => 0
  | .link => 1
  | .tilin => 2

/-- Argument word n of a request, n from 1 (R17). -/
def Req.arg (q : Req) (n : Nat) : Word := q.args.getD (n - 1) 0

/-- The command of a request, for its events. -/
def Req.cmd (q : Req) : Machine.Cmd := ⟨q.mbx, q.tag⟩

end Sys2Proof

namespace Sys2Proof.Machine

/-- A side nothing has changed: its Whisk register holds the default seed (R517). -/
def sideDefault (k : Nat) : SideSt := { whisk := toWord (0x5A5A5A00 + k) }

/-! ### Registers -/

/-- The key of copy i of register r. -/
def regKey (r : RegName) (i : Nat) : Nat := 256 * i + r.idx

/-- The reset value of copy i of register r: its fields' reset values (R13), with the fused fields from Config and the
seed of synthesiser k (R517). Fields marked boot, strap or x are 0 until written (log entry 1). -/
def RegName.resetValue (r : RegName) (i : Nat) : Word :=
  match r with
  | .SYS_ID => if Config.gradeFE then 0x64641101 else 0x64641100
  | .HOSC_TRIM => BitVec.setWidth 32 Config.hoscTrim
  | .WHISK_SEED => toWord (0x5A5A5A00 + i)
  | r => r.fields.foldl (fun w f => w ||| toWord (f.reset <<< f.lo)) 0

/-- What an unlisted register key reads as. -/
def regDefault (k : Nat) : Word :=
  match RegName.all[k % 256]? with
  | some r => r.resetValue (k / 256)
  | none => 0

/-- The value of copy i of register r. -/
def State.reg (s : State) (r : RegName) (i : Nat) : Word := Store.get regDefault s.regs (regKey r i)

/-- Copy i of register r replaced. -/
def State.setReg (s : State) (r : RegName) (i : Nat) (w : Word) : State :=
  { s with regs := Store.set regDefault s.regs (regKey r i) w }

/-- A field of copy i of its register. -/
def State.fld (s : State) (f : Fld) (i : Nat := 0) : Nat := bits (s.reg f.reg i) (f.lo + f.width - 1) f.lo

/-- A field replaced; v counts modulo the field's width. -/
def State.setFld (s : State) (f : Fld) (i : Nat) (v : Nat) : State :=
  s.setReg f.reg i (putField (s.reg f.reg i) f.lo f.width v)

/-- A one-bit field. -/
def State.flag (s : State) (f : Fld) (i : Nat := 0) : Bool := decide (s.fld f i = 1)

/-- A one-bit field set. -/
def State.setFlag (s : State) (f : Fld) (i : Nat) (b : Bool) : State := s.setFld f i (if b then 1 else 0)

/-- A count that saturates at the top of its field (R605). -/
def State.bump (s : State) (f : Fld) (i : Nat) (n : Nat := 1) : State :=
  s.setFld f i (satN f.width (s.fld f i + n))

/-- A free value, and the counter advanced (Config.freeValue). -/
def State.takeFree (s : State) : Word × State := (Config.freeValue s.free, { s with free := s.free + 1 })

/-! ### Time -/

/-- T48 (R428): whole nanoseconds of the counter modulo 2^48. -/
def State.now (s : State) : T48 := BitVec.ofInt 48 (s.time.ticks / 2 ^ 56)

/-- A device time lies less than `ns` back. -/
def State.within (s : State) (t : T48) (ns : Nat) : Bool := decide ((s.now - t).toNat < ns)

/-- The moments of a list less than `ns` back, and the present one. -/
def State.recent (s : State) (l : List T48) (ns : Nat) : List T48 := (l.filter fun t => s.within t ns) ++ [s.now]

/-- Whole nanoseconds of the counter without its wraps: moments that may lie far back are noted in these. -/
def State.ns (s : State) : Int := s.time.ticks / 2 ^ 56

/-- A device time near the present one in the same units. -/
def State.nsAt (s : State) (t : T48) : Int := s.ns + (t - s.now).toInt

/-- TIME_NS (R425). -/
def State.timeNs (s : State) : Word := BitVec.ofInt 32 (s.time.ticks / 2 ^ 56)

/-- TIME_WRAPS (R428). -/
def State.timeWraps (s : State) : Nat := (s.now.toNat) / 2 ^ 32

/-- TIME_SUBNS (R425). -/
def State.timeSub (s : State) : Word := BitVec.ofInt 32 (s.time.ticks / 2 ^ 24)

/-- Milliseconds and microseconds in ns. -/
def msec (n : Nat) : Nat := n * 1000000
def usec (n : Nat) : Nat := n * 1000

/-- One advance of the counter in 2^-56 ns, with the rate word r (R425, R430). -/
def State.increment (s : State) : Int :=
  let r := sgn32 (s.reg .TS_RATE 0)
  if s.flag F.TIME_STAT_on_hosc then 10 * 2 ^ 56 + 10 * 2 ^ 24 * r
  else 879609302220800000 + 204800000 * r

/-- SYS_MODE.mode (R57), and the mode numbers of R33. -/
def State.modeNo (s : State) : Nat := s.fld F.SYS_MODE_mode
def mHold : Nat := 0
def mSentinel : Nat := 1
def mHarvest : Nat := 2
def mReach : Nat := 3
def mRelay : Nat := 4
def mMirror : Nat := 5
def mBroadcast : Nat := 6
def mSurvey : Nat := 7

/-- Quadrant of a path. -/
def quadOf (p : Nat) : Nat := p / 16

/-! ### TC units (R439) -/

/-- What a unit will do (R440). -/
def State.actOf (s : State) (u : Nat) : Option TcAction := Store.get (fun _ => none) s.time.act u

/-- C of a unit: the compare time its last arm took (R439). -/
def State.unitC (s : State) (u : Nat) : T48 := Store.get (fun _ => 0) s.time.cmp u

/-- The compare time as a unit's registers hold it. -/
def State.cmpTime (s : State) (u : Nat) : T48 :=
  BitVec.ofNat 48 ((s.reg .TC_CMP_NS u).toNat + 2 ^ 32 * bits (s.reg .TC_CMP_WP u) 15 0)

end Sys2Proof.Machine
end

