-- ==== Sys2Proof/Machine/Arith.lean ====
section
/-! DEFINITION. The arithmetic of samples: levels, rounding and saturation of the Sieve's stages, weights and sums of the
beamformers, the actuator's polynomial, DAC codes. -/

namespace Sys2Proof.Machine

/-! ### The Sieve (R114, R151, R152, R154, R156, R160) -/

/-- Quantiser level of a code (R114). -/
def codeLevel (c : Nat) : Int := 2 * c - 15

/-- Stage 2: round(y / 64), halves to even (R152). -/
def sieveRound (y : Int) : Int := divHalfEven y 64

/-- A value saturated to 24 bits (R151). -/
def sat24 (v : Int) : Int := clampI (-8388608) 8388607 v

/-- round(A / 2^13) of the FIR, before saturation (R154, R160). -/
def firRaw (a : Int) : Int := divHalfEven a 8192

/-- FIR output: round(A / 2^13), saturated to 24 bits (R154). -/
def firOut (a : Int) : Int := sat24 (firRaw a)

/-- Output k of a cross-fade of length 2^f (R160). -/
def fadeOut (f k : Nat) (old new : Int) : Int :=
  sat24 ((old * (2 ^ f - (k + 1 : Nat) : Int) + new * (k + 1 : Nat) + 2 ^ (f - 1)) / 2 ^ f)

/-- Stage 11 for one component: round(M (v - d) / 2^30), halves to even (R156). -/
def matrixOut (m1 m2 v1 v2 d1 d2 : Int) : Int := divHalfEven (m1 * (v1 - d1) + m2 * (v2 - d2)) (2 ^ 30)

/-- Σ c_i x_i of complex inputs, for each component. -/
def dotIq (c : List Int) (x : List Iq) : Iq :=
  (c.zip x).foldl (fun a p => (a.1 + p.1 * p.2.1, a.2 + p.1 * p.2.2)) (0, 0)

/-- A function of each component. -/
def mapIq (f : Int → Int) (x : Iq) : Iq := (f x.1, f x.2)

/-! ### Output words, beams, path sums (R128, R129, R181-R183, R200) -/

/-- Stage 12 outside a clip interval (R129, R157). -/
def sieveSat (o : Int) : Int := clampI (-32766) 32766 o

/-- The clip code at sample time t of runs (first cycle, at code 15), earliest first (R128). -/
def clipCode (runs : List (Int × Bool)) (t : Int) : Int :=
  match runs with
  | [] => 32767
  | r :: l => if l.foldl (fun b x => if x.1 ≤ t then x.2 else b) r.2 then 32767 else -32767

/-- I and Q of a weight word (R181). -/
def weightI (w : Word) : Int := sgnN 16 (bits w 15 0)
def weightQ (w : Word) : Int := sgnN 16 (bits w 31 16)

/-- Magnitude of a weight (R182). -/
def weightMag (w : Word) : Nat := isqrtRound ((weightI w * weightI w + weightQ w * weightQ w).toNat)

/-- r of R183. -/
def renormOf (all kept : Nat) : Nat :=
  if kept = 0 then 0 else if 4 * kept < all then 16384 else (divHalfEven (4096 * all) kept).toNat

/-- One component of a beam sample (R183): its value, and whether it saturated. -/
def beamOut (acc : Int) (r shift : Nat) : Int × Bool :=
  let v := divHalfEven (acc * r) (2 ^ (27 + shift))
  (clampI (-32767) 32767 v, decide (v < -32767 ∨ 32767 < v))

/-- One component of a path sum from its weighted sum (R200). -/
def pathSumOut (acc : Int) (t : Nat) : Int × Bool :=
  let v := divHalfEven acc (2 ^ (15 + t))
  (clampI (-32767) 32767 v, decide (v < -32767 ∨ 32767 < v))

/-- The complex product sum of weights and samples (R183, R200). -/
def weightedSum (l : List (Word × Int × Int)) : Int × Int :=
  l.foldl (fun a x =>
    (a.1 + weightI x.1 * x.2.1 - weightQ x.1 * x.2.2, a.2 + weightI x.1 * x.2.2 + weightQ x.1 * x.2.1)) (0, 0)

/-! ### Ratios in dB -/

/-- a / b is at least 10^(e / 80). -/
def ratioAtLeast (a b : Nat) (e : Int) : Bool :=
  if 0 ≤ e then decide (b ^ 80 * 10 ^ e.toNat ≤ a ^ 80) else decide (b ^ 80 ≤ a ^ 80 * 10 ^ (-e).toNat)

/-- round(40 log10(a / b)) among lo and the 2,047 values above it: n when a / b is at least 10^((2 n - 1) / 80). -/
def quarterDb (lo : Int) (a b : Nat) : Int :=
  (List.range 11).foldl (fun n i => if ratioAtLeast a b (2 * (n + 2 ^ (10 - i)) - 1) then n + 2 ^ (10 - i) else n) lo

/-- 10^(n / 40) in 2^-128, rounded down. -/
def pow40 (n : Int) : Nat :=
  (List.range 176).foldl (fun v i =>
    let w := v + 2 ^ (175 - i)
    let ok := if 0 ≤ n then decide (w ^ 40 ≤ 10 ^ n.toNat * 2 ^ 5120) else decide (w ^ 40 * 10 ^ (-n).toNat ≤ 2 ^ 5120)
    if ok then w else v) 0

/-! ### Phasors: e^(2πj f / d) with 2^30 for 1 (log entry 142) -/

/-- 2π x of a fraction x, in 2^-60. -/
def angleOf (f : Int) (d : Nat) : Int :=
  let c := f % d
  let c := if 2 * c < d then c else c - d
  c * 7244019458077122842 / d

/-- cos and sin by their series. -/
def cisQ (f : Int) (d : Nat) : Iq :=
  let x := angleOf f d
  let r := (List.range 30).foldl (fun (a : Iq × Iq) (k : Nat) =>
    let s : Iq := (a.1.1 + a.2.1, a.1.2 + a.2.2)
    let t : Iq := (-(a.2.2 * x) / 2 ^ 60 / (k + 1 : Nat), a.2.1 * x / 2 ^ 60 / (k + 1 : Nat))
    (s, t)) (((0, 0), (2 ^ 60, 0)) : Iq × Iq)
  mapIq (fun a => divHalfEven a (2 ^ 30)) r.1

/-- The product of two complex samples, the second with 2^30 for 1. -/
def mulQ (a b : Iq) : Iq :=
  (divHalfEven (a.1 * b.1 - a.2 * b.2) (2 ^ 30), divHalfEven (a.1 * b.2 + a.2 * b.1) (2 ^ 30))

/-- The conjugate. -/
def conjQ (a : Iq) : Iq := (a.1, -a.2)

/-! ### The actuator (R307-R310) -/

/-- u of R307. -/
def dpdU (x : Int × Int) : Nat := isqrtRound (x.1 * x.1 + x.2 * x.2).natAbs

/-- p_n of a u; p_0 stands for 1.0, so that the terms of k = 1 have the form of the others. -/
def dpdPow (u : Nat) : Nat → Int
  | 0 => 32768
  | 1 => u
  | n + 2 => divHalfEven (dpdPow u (n + 1) * u) 32768

/-- A component pair scaled by p / 2^15. -/
def dpdScale (x : Int × Int) (p : Int) : Int × Int := (divHalfEven (x.1 * p) 32768, divHalfEven (x.2 * p) 32768)

/-- The 32 basis terms of R308; xs holds x[n], x[n - 1], x[n - 2], x[n - 3]. -/
def dpdTerms (xs : List (Int × Int)) : List (Int × Int) :=
  let x (m : Nat) : Int × Int := xs.getD m (0, 0)
  let p (m k : Nat) : Int := dpdPow (dpdU (x m)) k
  ((List.range 28).map fun i => dpdScale (x (i % 4)) (p (i % 4) (i / 4))) ++
    [dpdScale (x 0) (p 1 2), dpdScale (x 0) (p 2 2), dpdScale (x 1) (p 0 2), dpdScale (x 0) (p 1 4)]

/-- A coefficient of a set (R309). -/
def coefOf (set : List Word) (i : Nat) : Int × Int := (sgn32 (set.getD (2 * i) 0), sgn32 (set.getD (2 * i + 1) 0))

/-- The output before saturation (R310). -/
def dpdSum (set : List Word) (xs : List (Int × Int)) : Int × Int :=
  let r := (dpdTerms xs).zipIdx.foldl (fun (a : Int × Int) b =>
    let c := coefOf set b.2
    (a.1 + c.1 * b.1.1 - c.2 * b.1.2, a.2 + c.1 * b.1.2 + c.2 * b.1.1)) (0, 0)
  (divHalfEven r.1 (2 ^ 20), divHalfEven r.2 (2 ^ 20))

/-- The output y of the actuator (R306, R310). -/
def dpdOut (bypass : Bool) (set : List Word) (xs : List (Int × Int)) : Int × Int :=
  if bypass then xs.getD 0 (0, 0)
  else
    let y := dpdSum set xs
    (clampI (-32767) 32767 y.1, clampI (-32767) 32767 y.2)

/-! ### DAC codes (R277, R278) -/

/-- DAC code of an interpolator output. -/
def dacCode (x : Int) : Nat := ((x + 32768) / 4).toNat

/-- Unit cells switched on, and the ladder's share. -/
def dacCells (x : Int) : Nat × Nat := (dacCode x / 256, dacCode x % 256)

end Sys2Proof.Machine
end

