-- ==== Sys2Proof/Machine/Samples.lean ====
section
/-! DEFINITION. Chapters 04 and 05, sample by sample: what the Sieve's registers and filters hold as FS cycles pass, from
the modulators' codes to the input of stage 12. The codes come from outside (Config.code); fixed coefficients the spec does not state are the implementation's (log entry 2). -/

namespace Sys2Proof.Machine

/-! ### Presets (R130, R148) -/

/-- Decimation from FS. -/
def decimation (preset : Nat) : Nat :=
  match preset with
  | 0 => 32
  | 1 => 64
  | 2 => 128
  | _ => 512

/-- Group delay in FS cycles. -/
def groupCycles (preset : Nat) : Nat :=
  match preset with
  | 0 => 1770
  | 1 => 3539
  | 2 => 7668
  | _ => 27918

/-- T_REC in FS cycles: output samples of the preset, and six more with the resampler (R130, R168). -/
def recCycles (preset : Nat) (rs : Bool) : Nat :=
  decimation preset * ((match preset with
    | 0 => 62
    | 1 => 59
    | 2 => 62
    | _ => 56) + if rs then 6 else 0)

/-- FIR taps of a preset. -/
def firTaps (preset : Nat) : Nat :=
  match preset with
  | 0 => 48
  | 1 => 64
  | 2 => 64
  | _ => 96

/-- FS cycles in n ns, rounded up: FS is 1,966.08 MHz. -/
def nsCycles (n : Nat) : Nat := ceilDiv (n * 6144) 3125

/-- ns of n FS cycles, rounded up. -/
def fsNs (n : Nat) : Nat := ceilDiv (3125 * n) 6144

/-! ### FS cycles and device time (R426, R441) -/

/-- FS cycles since the counter started. -/
def State.cyc (s : State) : Int := s.dp.cycle

/-- The first FS cycle at or after a device time: 24 cycles to an advance of the counter. -/
def State.cycleOf (s : State) (t : T48) : Int :=
  let d := (t - s.now).toInt * 2 ^ 56 - s.time.ticks % 2 ^ 56
  s.dp.cycle - (-(d * 24)) / s.increment

/-- The device time of an FS cycle. -/
def State.cycleTime (s : State) (c : Int) : T48 :=
  BitVec.ofInt 48 ((s.time.ticks + (c - s.dp.cycle) * s.increment / 24) / 2 ^ 56)

/-! ### Stage 1: the CIC (R158, R159) -/

/-- The integrators take an input, modulo 2^26. -/
def addChain (x : BitVec 26) : List (BitVec 26) → List (BitVec 26)
  | [] => []
  | i :: l => (i + x) :: addChain (i + x) l

/-- The differentiators of an input over their delay registers, modulo 2^26. -/
def difChain (x : BitVec 26) : List (BitVec 26) → List (BitVec 26)
  | [] => []
  | d :: l => (x - d) :: difChain (x - d) l

/-- One FS cycle at a code. -/
def Cic.clock (k : Cic) (code : Nat) : Cic :=
  let x := BitVec.ofInt 26 (codeLevel code)
  { k with x := x, ints := addChain x k.ints }

/-- One cycle at FS / 8. -/
def Cic.decimate (k : Cic) : Cic :=
  let i7 := k.ints.getLastD 0
  let c := difChain i7 k.dels
  { k with difs := c, dels := i7 :: c.dropLast, y := c.getLastD 0 }

/-- Eight FS cycles with their codes, and the output they give. -/
def Cic.run8 (k : Cic) (code : Nat → Nat) : Cic := ((List.range 8).foldl (fun k j => k.clock (code j)) k).decimate

/-- The die-to-die word of an output (R152). -/
def Cic.u (k : Cic) : Int := sieveRound k.y.toInt

/-! ### Stages 3 to 7: HB1 to HB4 and D4 (R153) -/

/-- Coefficients of a fixed stage with 2^17 for 1.0: the first makes the DC gain 1. Stage 5 is D4. -/
def stageCoefs (id : Nat) : List Int :=
  let l := (Config.stageTaps id).map BitVec.toInt
  (2 ^ 17 - l.sum) :: l

/-- Output of a fixed stage, saturated to 20 bits (R151). -/
def stageOut (c : List Int) (x : List Iq) : Iq :=
  mapIq (fun a => clampI (-524288) 524287 (divHalfEven a (2 ^ 17))) (dotIq c x)

/-- The fixed stages of a preset and what each decimates by. -/
def stagesOf (preset : Nat) : List (Nat × Nat) :=
  match preset with
  | 0 => [(1, 2), (2, 2)]
  | 1 => [(1, 2), (2, 2), (3, 2)]
  | 2 => [(1, 2), (2, 2), (3, 2), (4, 2)]
  | _ => [(1, 2), (2, 2), (3, 2), (4, 2), (5, 4)]

/-- Input number m goes through the fixed stages; the last one's output, when there is one. -/
def feedStages : List (Nat × Nat) → Int → List (List Iq) → Iq → List (List Iq) × Option Iq
  | [], _, l, x => (l, some x)
  | (id, f) :: t, m, l, x =>
    let c := stageCoefs id
    let line := (x :: l.headD []).take c.length
    if m % f = 0 then
      let r := feedStages t (m / f) l.tail (stageOut c line)
      (line :: r.1, r.2)
    else (line :: l.tail, none)

/-! ### Stages 8 to 11 (R154 to R156, R160, R166 to R168) -/

/-- Σ h_i x_i of a coefficient set (R154). -/
def firSum (w : List Word) (x : List Iq) : Iq := dotIq (w.map fun h => sgnN 18 h.toNat) x

/-- The FIR's output for the sample at sample time t, D cycles apart, through a fade (R154, R160). -/
def FirSet.out (k : FirSet) (x : List Iq) (t : Int) (d : Nat) : Iq :=
  let old := firSum k.active x
  match k.fade with
  | none => mapIq firOut old
  | some (t0, f) =>
    if t < t0 then mapIq firOut old
    else
      let n := ((t - t0) / d).toNat
      let new := firSum k.shadow x
      if n < 2 ^ f then (fadeOut f n (firRaw old.1) (firRaw new.1), fadeOut f n (firRaw old.2) (firRaw new.2))
      else mapIq firOut new

/-- Delay trim: trim / 64 samples, in whole samples and one of 64 phases of 8 taps (R155). -/
def trimOut (trim : Nat) (v : List Iq) : Iq :=
  mapIq (fun a => sat24 (divHalfEven a (2 ^ 17)))
    (dotIq ((List.range 8).map fun i => (Config.trimTap (trim % 64) i).toInt) (v.drop (trim / 64)))

/-- Coefficients of a phase of the resampler (R166): phase 0 passes its sample through. -/
def rsCoefs (phase : Nat) : List Int :=
  (List.range 12).map fun i => if phase = 0 then (if i = 6 then 2 ^ 17 else 0) else (Config.rsTap phase i).toInt

/-- Output of the resampler at a phase, from its 12 newest inputs. -/
def rsOut (phase : Nat) (v : List Iq) : Iq :=
  mapIq (fun a => sat24 (divHalfEven a (2 ^ 17))) (dotIq (rsCoefs phase) v)

/-- What the back end of a path works with besides its own state. -/
structure Env where
  firs : FirSet
  trim : Nat
  inc : Nat
  /-- Stage 11 at a sample time. -/
  corr : Int → Iq → Iq

/-- The resampler takes one input at sample time t (R167, R168): an output six inputs after the one it stands on. -/
def Chain.resample (k : Chain) (e : Env) (t : Int) (v : Iq) : Chain × Option Out :=
  let d : Int := decimation k.preset
  let l := (v :: k.rs).take 12
  let p : RsPos := match k.pos with
    | none => ⟨t, 0, 0⟩
    | some p => { p with n := p.n + 1 }
  if p.acc / 2 ^ 31 + 6 ≤ p.n then
    let at_ := p.start + p.acc * d / 2 ^ 31
    ({ k with rs := l, pos := some { p with acc := p.acc + e.inc } },
      some ⟨at_, at_ + groupCycles k.preset + 6 * d, e.corr at_ (rsOut (p.acc / 2 ^ 25 % 64) l)⟩)
  else ({ k with rs := l, pos := some p }, none)

/-- A chain takes the die-to-die word of FS cycle c (R148, R150, R172): samples leave on the grid of the preset, moved by
the trim, and count between the chain's sample times. -/
def Chain.feed (k : Chain) (e : Env) (c : Int) (u : Iq) : Chain × Option Out :=
  let r := feedStages (stagesOf k.preset) (c / 8) k.lines u
  let k := { k with lines := r.1 }
  match r.2 with
  | none => (k, none)
  | some x =>
    let d := decimation k.preset
    let leave := c + e.trim * d / 64
    let t := leave - groupCycles k.preset
    let fir := (x :: k.fir).take (firTaps k.preset)
    let v := ((k.frozen.getD e.firs).out fir t d :: k.trim).take 11
    let w := trimOut e.trim v
    let k := { k with fir := fir, trim := v }
    let r := if (if k.rsFrom ≤ t then k.rsOn else !k.rsOn) then k.resample e t w
      else ({ k with pos := none }, some ⟨t, leave, e.corr t w⟩)
    (r.1, match r.2 with
      | some o => if k.lo ≤ o.at_ ∧ k.hi.all (fun h => decide (o.at_ < h)) = true then some o else none
      | none => none)

/-- A chain has sent its last sample. -/
def Chain.over (k : Chain) (c : Int) : Bool :=
  match k.hi with
  | none => false
  | some h => decide (h + groupCycles k.preset + 12 * decimation k.preset < c)

/-- A chain primed from the words the back end keeps, oldest first, the newest at FS cycle c (R172). -/
def Chain.prime (k : Chain) (e : Env) (c : Int) (hist : List Iq) : Chain :=
  hist.zipIdx.reverse.foldl (fun k x => (k.feed e (c - 8 * x.2) x.1).1) k

/-! ### A path (R150, R156) -/

def State.dpPath (s : State) (p : Nat) : Option PathDp := Store.get (fun _ => none) s.dp.paths p

def State.setDpPath (s : State) (p : Nat) (x : Option PathDp) : State :=
  { s with dp := { s.dp with paths := Store.set (fun _ => none) s.dp.paths p x } }

/-- Coefficients in bank k of a quadrant (R162). -/
def State.bank (s : State) (q k : Nat) : List Word := Store.get (fun _ => []) s.sieve.bank (2 * q + k)

/-- What a quadrant's FIRs filter with. -/
def State.firSet (s : State) (q : Nat) : FirSet :=
  let a := s.fld F.SIEVE_CFG_active_bank q
  { active := s.bank q a, shadow := s.bank q (1 - a)
    fade := (Store.get (fun _ => none) s.sieve.fade q).map fun f => (f.cyc, f.f) }

/-- Key of a correction item (R502). Items: 0 RX delay; 1 to 12 entries of the three matrices M; 13, 14 DC-loop trims;
15, 16 the words d; 17 RX LO phase; 20 TX LO phase; 21 TX path phase; 22 TX path delay; 23, 24 TX gain and phase trims; 25, 26
TX offsets; 27 PA_BIAS offset; 32 to 94 the trims of the 63 DAC cells. Items 17 and 20 are a quadrant's, the others a path's. -/
def itemKey (kind unit : Nat) : Nat := 128 * kind + unit

/-- An item of a path without a register: the matrices are items 1 to 12, four to each LNA state (R156). -/
def State.corrItem (s : State) (kind p : Nat) : Int := Store.get (fun _ => 0) s.cal.present (itemKey kind p)

/-- Stage 11 of a path in an LNA state: the DC words and the matrix (R117, R156). -/
def State.correct (s : State) (p lna : Nat) (v : Iq) : Iq :=
  let m (j : Nat) := s.corrItem (1 + 4 * lna + j) p
  let d (c : Nat) : Int := Store.get (fun _ => 0) s.rx.dcOfs (2 * p + c)
  (matrixOut (m 0) (m 1) v.1 v.2 (d 0) (d 1), matrixOut (m 2) (m 3) v.1 v.2 (d 0) (d 1))

/-- What a path's back end works with: the matrix changes with the LNA state, at the sample time of the change. -/
def State.env (s : State) (p : Nat) (x : PathDp) : Env :=
  { firs := s.firSet (p / 16), trim := s.fld F.SIEVE_TRIM_trim p, inc := (s.reg .SIEVE_RS_INC (p / 16)).toNat
    corr := fun t v => s.correct p (if x.lnaFrom ≤ t then s.fld F.RX_PATH_STAT_lna_state p else x.lnaWas) v }

/-- High-pass corner of a path's DC-offset loop in Hz (R124, R145). DESIGN CHOICE (log entry 139): a changed corner acts at
once. -/
def State.dcCorner (s : State) (p : Nat) : Nat :=
  match s.fld F.RX_DC_CFG_corner p with
  | 0 => 100
  | 2 => 10000
  | _ => 1000

/-- Eight FS cycles of a path from cycle c. -/
def State.pathStep (s : State) (p : Nat) (c : Int) (x : PathDp) : PathDp :=
  let i := x.i.run8 fun j => (Config.code (s.dcCorner p) p 0 (c + j)).toNat
  let q := x.q.run8 fun j => (Config.code (s.dcCorner p) p 1 (c + j)).toNat
  let e := s.env p x
  let r := (x.chains.filter fun k => !k.over c).map fun k => k.feed e c (i.u, q.u)
  { x with i := i, q := q, hist := ((i.u, q.u) :: x.hist).take 4096, chains := r.map (·.1)
           outs := ((r.filterMap (·.2)).reverse ++ x.outs).take 8192 }

/-- A path begins to sample at the present time (R159, R173): its registers are cleared. -/
def State.openPath (s : State) (p : Nat) : State :=
  let q := p / 16
  s.setDpPath p (some { lnaWas := s.fld F.RX_PATH_STAT_lna_state p, lnaFrom := s.cyc
                        chains := [{ preset := s.fld F.SIEVE_CFG_preset q, lo := s.cyc
                                     rsOn := s.flag F.SIEVE_CFG_rs_en q, rsFrom := s.cyc - 2 ^ 20 }] })

/-- The chain that serves the present preset. -/
def PathDp.live (x : PathDp) : Option Chain := x.chains.find? fun k => k.hi.isNone

/-- At FS cycle c a path's resampler setting changes (R167). -/
def PathDp.resampler (x : PathDp) (c : Int) (on : Bool) : PathDp :=
  { x with chains := x.chains.map fun k =>
      if k.hi.isNone ∧ k.rsOn ≠ on then { k with rsOn := on, rsFrom := c, rs := [], pos := none } else k }

/-- At FS cycle c a path leaves a preset (R172): the chain that served it sends the samples before c with the sets it had,
and a new one starts from the words kept. -/
def PathDp.newPreset (x : PathDp) (c now : Int) (old : FirSet) (e : Env) (preset : Nat) (on : Bool) : PathDp :=
  let n : Chain := { preset := preset, lo := c, rsOn := on, rsFrom := if on then c else c - 2 ^ 20 }
  let n := { n.prime e (now - 8) x.hist with pos := none, rs := [] }
  { x with chains := n :: x.chains.map fun k =>
      if k.hi.isNone then { k with hi := some c, frozen := some old } else k }

end Sys2Proof.Machine
end

