-- ==== Sys2Proof/Machine/Views.lean ====
section
/-! DEFINITION. Chapters 03 and 05: the flags of a path's samples over sample time, the output words, and RX beams as they
exclude, renormalise and sum. Sample times are FS cycles. -/

namespace Sys2Proof.Machine

/-! ### Sides and paths (R133, R145, R353) -/

/-- Paths of a quadrant. -/
def pathsOfQuad (q : Nat) : List Nat := (List.range 16).map (16 * q + ·)

def sOff : Nat := 0
def sSleep : Nat := 1
def sStandby : Nat := 2
def sRun : Nat := 3
def sCal : Nat := 4

def State.side (s : State) (k : Nat) : SideSt := Store.get sideDefault s.radio.sides k

def State.setSide (s : State) (k : Nat) (x : SideSt) : State :=
  { s with radio := { s.radio with sides := Store.set sideDefault s.radio.sides k x } }

/-- State of a side as RADIO_STAT shows it (R353). -/
def State.sideState (s : State) (k : Nat) : Nat :=
  if k % 2 = 0 then s.fld F.RADIO_STAT_rx_state (k / 2) else s.fld F.RADIO_STAT_tx_state (k / 2)

/-- A path that lost its sample clock (R513). -/
def State.isParked (s : State) (p : Nat) : Bool := (Store.get (fun _ => 0) s.clk.parked (quadOf p)).testBit (p % 16)

/-- A path is fit for service but for a calibration that holds its side (R145, R499, R513). -/
def State.fitPath (s : State) (p : Nat) : Bool :=
  s.cal.commissioned && !s.flag F.RX_PATH_STAT_degraded p && !s.isParked p

/-- A quadrant has a path in service (R333); a calibration run does not count against it. -/
def State.quadServed (s : State) (q : Nat) : Bool := (pathsOfQuad q).any s.fitPath

/-- T_REC of a path's quadrant in FS cycles. -/
def State.recOf (s : State) (p : Nat) : Nat :=
  recCycles (s.fld F.SIEVE_CFG_preset (quadOf p)) (s.flag F.SIEVE_CFG_rs_en (quadOf p))

/-- Intervals of sample time with one more, without those that ended 20 ms ago: longer than any block of R137. -/
def addSpan (now : Int) (x : Span) (l : List Span) : List Span := x :: l.filter fun y => decide (now - 40000000 < y.hi)

/-- A sample time lies in one of the intervals. -/
def inSpans (l : List Span) (t : Int) : Bool := l.any fun x => decide (x.lo ≤ t ∧ t < x.hi)

/-- Some of the intervals meets [lo, hi]. -/
def meetSpans (l : List Span) (lo hi : Int) : Bool := l.any fun x => decide (x.lo ≤ hi ∧ lo < x.hi)

/-- Samples of a path settle from sample time lo and before hi (R120, R132, R172, R173); the sticky bit sets (R145). -/
def State.settleSpan (s : State) (p : Nat) (lo hi : Int) : State :=
  let l := addSpan s.cyc ⟨lo, hi, []⟩ (Store.get (fun _ => []) s.rx.settle p)
  let s := { s with rx := { s.rx with settle := Store.set (fun _ => []) s.rx.settle p l } }
  s.setFld F.RX_OVR_STAT_settling p 1

/-- Samples of a path settle for n FS cycles from now on. -/
def State.settleFor (s : State) (p n : Nat) : State := s.settleSpan p s.cyc (s.cyc + n)

/-- Samples of a path settle from now on until `settleClose` (R340, R513). -/
def State.settleOpen (s : State) (p : Nat) : State := s.settleSpan p s.cyc (2 ^ 100)

/-- What `settleOpen` began ends one T_REC from now. -/
def State.settleClose (s : State) (p : Nat) : State :=
  let l := (Store.get (fun _ => []) s.rx.settle p).map fun x => if x.hi = 2 ^ 100 then { x with hi := s.cyc + s.recOf p } else x
  { s with rx := { s.rx with settle := Store.set (fun _ => []) s.rx.settle p l } }

/-! ### Flags of a path at a sample time (R128, R131, R132) -/

def State.ovrEv (s : State) (k : Nat) : Option OvrEv := Store.get (fun _ => none) s.rx.ev k

def State.setOvrEv (s : State) (k : Nat) (e : Option OvrEv) : State :=
  { s with rx := { s.rx with ev := Store.set (fun _ => none) s.rx.ev k e } }

def State.distWin (s : State) (p : Nat) : Option DistWin := Store.get (fun _ => none) s.rx.win p

def State.setDistWin (s : State) (p : Nat) (w : Option DistWin) : State :=
  { s with rx := { s.rx with win := Store.set (fun _ => none) s.rx.win p w } }

/-- The runs of the events whose clip intervals hold sample time t on component c of a path, the oldest first (R128, R132). -/
def State.clipRuns (s : State) (p c : Nat) (t : Int) : List (List (Int × Bool)) :=
  (((Store.get (fun _ => []) s.rx.clip (2 * p + c)).filter fun x => decide (x.lo ≤ t ∧ t < x.hi)).reverse.map (·.runs)) ++
    match s.ovrEv (2 * p + c) with
    | some e => if e.det - s.recOf p ≤ t then [e.runs] else []
    | none => []

/-- The clip flag of component c of a path at sample time t (R128). -/
def State.clipAt (s : State) (p c : Nat) (t : Int) : Bool := !(s.clipRuns p c t).isEmpty

/-- When a disturbance window closes, in FS cycles: 250 ns after the last t_end (R131). -/
def DistWin.close (w : DistWin) : Int := w.last + nsCycles 250

/-- The nbr_dirty flag (R131). -/
def State.nbrAt (s : State) (p : Nat) (t : Int) : Bool :=
  (match s.distWin p with
    | some w => decide (w.opened - s.recOf p ≤ t ∧ (0 < w.running ∨ t < w.close + s.recOf p))
    | none => false) || inSpans (Store.get (fun _ => []) s.rx.dirty p) t

/-- A quadrant whose RX LO phase is not aligned yet, while another quadrant receives (R492); without a network table
nothing aligns it and R495 holds instead (log entry 30). -/
def State.unphased (s : State) (q : Nat) : Bool :=
  s.flag F.CAL_Q_STAT_network q && !s.flag F.CAL_Q_STAT_rx_phase_valid q &&
    (List.range 4).any fun o => decide (o ≠ q) && s.quadServed o && decide (s.sideState (2 * o) = sRun)

/-- Gain changes and preset changes that wait for their compare time on a path: the samples from T - T_REC on settle, T
being known in advance (R120, R172). -/
def State.settleAhead (s : State) (p : Nat) : List T48 :=
  ((List.range 16).filterMap fun u => match s.actOf u with
    | some (.rxGain paths _ _) => if paths.testBit p then some (s.cmpTime u) else none
    | some (.sieveCfg qm preset _ _ _) =>
      if qm.testBit (quadOf p) ∧ preset ≠ s.fld F.SIEVE_CFG_preset (quadOf p) then some (s.cmpTime u) else none
    | _ => none) ++
  match s.mode.pend with
  | some m => if m.preset ≠ s.fld F.SIEVE_CFG_preset (quadOf p) then [m.at_] else []
  | none => []

/-- The settling flag (R120, R172, R173, R492). -/
def State.settlingAt (s : State) (p : Nat) (t : Int) : Bool :=
  inSpans (Store.get (fun _ => []) s.rx.settle p) t || s.unphased (quadOf p) ||
    (s.settleAhead p).any fun c => decide (s.cycleOf c - s.recOf p ≤ t)

/-- Sample time of the newest output of a path that has left by FS cycle c: on the grid of its preset, moved by the trim,
with the resampler six samples and an alignment behind (R134, R150, R155, R168). -/
def State.newestAt (s : State) (p : Nat) (c : Int) : Int :=
  match (s.dpPath p).bind fun x => x.outs.find? fun o => decide (o.leave ≤ c) with
  | some o => o.at_
  | none =>
    let preset := s.fld F.SIEVE_CFG_preset (quadOf p)
    let d : Int := decimation preset
    let tr := s.fld F.SIEVE_TRIM_trim p * decimation preset / 64 + if s.flag F.SIEVE_CFG_rs_en (quadOf p) then 6 * d.toNat else 0
    (c - tr) / d * d + s.fld F.SIEVE_TRIM_trim p * decimation preset / 64 - groupCycles preset

/-- Sample time of the output sample a path has just produced. -/
def State.sampleNow (s : State) (p : Nat) : Int := s.newestAt p s.cyc

/-- The output word of a path for a sample (R129, R157): the clip code, or the saturated value. -/
def State.pathWord (s : State) (p : Nat) (x : Out) : Iq :=
  let comp (c : Nat) (v : Int) : Int := if s.clipAt p c x.at_ then clipCode (s.clipRuns p c x.at_).flatten x.at_ else sieveSat v
  (comp 0 x.o.1, comp 1 x.o.2)

/-- The sample of a path at a sample time, if it has left the Sieve. -/
def State.pathSample (s : State) (p : Nat) (t : Int) : Iq :=
  match (s.dpPath p).bind fun x => x.outs.find? fun o => decide (o.at_ = t) with
  | some o => s.pathWord p o
  | none => (0, 0)

/-- The path samples: ACTIVE or CAL (R133). -/
def State.sampling (s : State) (p : Nat) : Bool := decide (2 ≤ s.fld F.RX_PATH_STAT_state p)

/-- The live flags of RX_PATH_STAT as they stand now (R134, R145). -/
def State.refreshPath (s : State) (p : Nat) : State :=
  let t := s.sampleNow p
  let on := s.sampling p
  (((s.setFlag F.RX_PATH_STAT_settling p (on && s.settlingAt p t)).setFlag F.RX_PATH_STAT_nbr_dirty p
    (on && s.nbrAt p t)).setFlag F.RX_PATH_STAT_ovr_q p (on && s.clipAt p 1 t)).setFlag F.RX_PATH_STAT_ovr_i p
    (on && s.clipAt p 0 t)

/-! ### RX beams (R179, R182-R186). RX beam b is beam b of the weight store, TX beam n is beam 64 + n. -/

def weightKey (beam bank p : Nat) : Nat := 128 * beam + 64 * bank + p

def State.weight (s : State) (beam bank p : Nat) : Word := Store.get (fun _ => 0) s.beam.w (weightKey beam bank p)

/-- The active bank of a beam. -/
def State.activeBank (s : State) (beam : Nat) : Nat :=
  if beam < 64 then s.fld F.BEAM_RX_STAT_active_bank beam else s.fld F.TXB_STAT_active_bank (beam - 64)

/-- Write the 64 words of a bank. -/
def State.setWeights (s : State) (beam bank : Nat) (l : List Word) : State :=
  { s with beam := { s.beam with
      w := l.zipIdx.foldl (fun m x => Store.set (fun _ => 0) m (weightKey beam bank x.2) x.1) s.beam.w } }

/-- Quadrants an RX beam draws on: its qmask, in SENTINEL the awake quadrant (R179). -/
def State.beamQuads (s : State) (b : Nat) : List Nat :=
  if s.modeNo = mSentinel then [s.fld F.SYS_MODE_awake_q] else maskList 4 (s.fld F.BEAM_RX_CFG_qmask b)

def State.beamPaths (s : State) (b : Nat) : List Nat := (s.beamQuads b).flatMap pathsOfQuad

/-- Magnitude of path p in the active bank of RX beam b. -/
def State.beamMag (s : State) (b p : Nat) : Nat := weightMag (s.weight b (s.activeBank b) p)

def sumMag (s : State) (b : Nat) (l : List Nat) : Nat := l.foldl (fun n p => n + s.beamMag b p) 0

/-- A path is in E of an RX beam at a sample time (R184). -/
def State.excludedAt (s : State) (b p : Nat) (t : Int) : Bool :=
  s.clipAt p 0 t || s.clipAt p 1 t || (s.flag F.BEAM_RX_CFG_excl_nbr b && s.nbrAt p t) ||
    s.flag F.RX_PATH_STAT_degraded p || !s.flag F.RX_PATH_STAT_in_service p

/-- A path excluded for an ovr or nbr_dirty reason. -/
def State.dirtyAt (s : State) (b p : Nat) (t : Int) : Bool :=
  s.clipAt p 0 t || s.clipAt p 1 t || (s.flag F.BEAM_RX_CFG_excl_nbr b && s.nbrAt p t)

/-- What Colander sees of a beam at a sample time: the flags of R185 that E decides, |E|, A_all, A_kept. -/
structure BeamView where
  excl : Bool
  nbr : Bool
  settling : Bool
  n : Nat
  all : Nat
  kept : Nat

def State.beamView (s : State) (b : Nat) (t : Int) : BeamView :=
  let l := s.beamPaths b
  let out := l.filter fun p => s.excludedAt b p t
  let kept := l.filter fun p => !s.excludedAt b p t
  { excl := out.any fun p => s.dirtyAt b p t
    nbr := kept.any fun p => s.nbrAt p t
    settling := kept.any fun p => s.settlingAt p t
    n := out.length, all := sumMag s b l, kept := sumMag s b kept }

/-- thin (R185). -/
def BeamView.thin (v : BeamView) : Bool := decide (4 * v.kept < v.all ∨ v.kept = 0)

/-- A_all of the active bank in BEAM_RX_AALL (R182, R204). -/
def State.aallReg (s : State) (b : Nat) : State := s.setFld F.BEAM_RX_AALL_a_all b (sumMag s b (s.beamPaths b))

/-- Sample time of the beam sample that has just left Colander: 128 FS cycles after the last of its path samples left the
Sieve (R186). -/
def State.beamNow (s : State) (b : Nat) : Int :=
  match (s.beamPaths b).map fun p => s.newestAt p (s.cyc - 128) with
  | [] => s.cyc
  | a :: l => l.foldl min a

/-- A beam's first sample from a new bank or configuration: the first whose sample time is at or after the swap's T
(R185). -/
def State.swapFlag (s : State) (b : Nat) (t : Int) : Bool :=
  let q := (s.beamQuads b).headD 0
  let c := Store.get (fun _ => -(2 ^ 62)) s.beam.swapAt b
  decide (c ≤ t ∧ t < c + decimation (s.fld F.SIEVE_CFG_preset q))

/-- The sample of an RX beam at a sample time (R183): acc over the paths in qmask and not in E, renormalised; whether a
component saturated. -/
def State.beamSample (s : State) (b : Nat) (t : Int) : Iq × Bool :=
  let v := s.beamView b t
  let kept := (s.beamPaths b).filter fun p => !s.excludedAt b p t
  let acc := weightedSum (kept.map fun p => (s.weight b (s.activeBank b) p, s.pathSample p t))
  let r := renormOf v.all v.kept
  let i := beamOut acc.1 r (s.fld F.BEAM_RX_CFG_shift b)
  let q := beamOut acc.2 r (s.fld F.BEAM_RX_CFG_shift b)
  ((i.1, q.1), i.2 || q.2)

/-- BEAM_RX_EVT of the newest sample: excl and thin set again while they stand (R204). -/
def State.beamEvt (s : State) (b : Nat) (v : BeamView) : State :=
  let s := if v.excl then s.setFld F.BEAM_RX_EVT_excl b 1 else s
  if v.thin then s.setFld F.BEAM_RX_EVT_thin b 1 else s

/-- The live flags of BEAM_RX_STAT, and BEAM_RX_RENORM, as they stand now (R204). -/
def State.refreshBeam (s : State) (b : Nat) : State :=
  if s.flag F.BEAM_RX_STAT_enabled b then
    let v := s.beamView b (s.beamNow b)
    let s := ((s.setFlag F.BEAM_RX_STAT_settling b v.settling).setFlag F.BEAM_RX_STAT_nbr b v.nbr).setFlag
      F.BEAM_RX_STAT_thin b v.thin
    let s := s.beamEvt b v
    ((s.setFlag F.BEAM_RX_STAT_excl b v.excl).setFld F.BEAM_RX_RENORM_n_excl b v.n).setFld F.BEAM_RX_RENORM_r b
      (renormOf v.all v.kept)
  else s

/-! ### IQ streams (R399, R405, R409) -/

/-- A block of 16 complex samples (R405): components in sample order, the samples that carry a flag, the flag byte. -/
structure IqBlock where
  samples : List Iq
  mask : Nat
  flags : Nat
  deriving DecidableEq, Repr

/-- Flags as a number, the first the least significant. -/
def flagByte (l : List Bool) : Nat := l.foldr (fun b n => (if b then 1 else 0) + 2 * n) 0

/-- The four flags of a path sample (R132, R409): ovr_i, ovr_q, nbr_dirty, settling. -/
def State.pathFlags (s : State) (p : Nat) (t : Int) : Nat :=
  flagByte [s.clipAt p 0 t, s.clipAt p 1 t, s.nbrAt p t, s.settlingAt p t]

/-- The six flags of a beam sample (R185, R409): excl, thin, sat, nbr, settling, swap. -/
def State.beamFlags (s : State) (b : Nat) (t : Int) : Nat :=
  let v := s.beamView b t
  flagByte [v.excl, v.thin, (s.beamSample b t).2, v.nbr, v.settling, s.swapFlag b t]

/-- A sample of stream 0x10 to 0x4F or 0x80 to 0xBF with its flags. -/
def State.streamSample (s : State) (stream : Nat) (t : Int) : Iq × Nat :=
  if stream < 0x80 then ((s.beamSample (stream - 0x10) t).1, s.beamFlags (stream - 0x10) t)
  else (s.pathSample (stream - 0x80) t, s.pathFlags (stream - 0x80) t)

/-- The path whose sample times a stream has: its own, or the first that a beam draws on. -/
def State.streamPath (s : State) (stream : Nat) : Nat :=
  if stream < 0x80 then (s.beamPaths (stream - 0x10)).headD 0 else stream - 0x80

/-- The first n sample times of a path at or after c; the grid of its preset where State holds no sample of it. -/
def State.timesFrom (s : State) (p : Nat) (c : Int) (n : Nat) : List Int :=
  match s.dpPath p with
  | some x => ((x.outs.reverse.map (·.at_)).filter fun a => decide (c ≤ a)).take n
  | none => (List.range n).map fun (i : Nat) => c + i * decimation (s.fld F.SIEVE_CFG_preset (quadOf p))

/-- A block of samples with their flags (R405, R409). -/
def blockOf (l : List (Iq × Nat)) : IqBlock :=
  { samples := l.map (·.1), mask := flagByte (l.map fun x => decide (x.2 ≠ 0)), flags := l.foldl (fun n x => n ||| x.2) 0 }

/-- n blocks of a stream from sample time c, when their samples have all left. -/
def State.streamBlocks (s : State) (stream : Nat) (c : Int) (n : Nat) : Option (List IqBlock) :=
  let l := s.timesFrom (s.streamPath stream) c (16 * n)
  if l.length = 16 * n then
    some ((List.range n).map fun i => blockOf (((l.drop (16 * i)).take 16).map (s.streamSample stream)))
  else none

/-- FS cycles until n blocks of a stream have left: their samples, the alignment of the resampler, the group delay, and
Colander's latency. -/
def State.blockCycles (s : State) (stream n : Nat) : Nat :=
  let q := quadOf (s.streamPath stream)
  let d := decimation (s.fld F.SIEVE_CFG_preset q)
  let inc := if s.flag F.SIEVE_CFG_rs_en q then (s.reg .SIEVE_RS_INC q).toNat else 2 ^ 31
  16 * n * d * inc / 2 ^ 31 + 16 * d + groupCycles (s.fld F.SIEVE_CFG_preset q) + 128

end Sys2Proof.Machine
end

