-- ==== Sys2Proof/Machine/Waveform.lean ====
section
/-! DEFINITION. Chapters 06 to 08: what a packet is on the air: symbols, chips and half chips (R207, R249), and the samples of
an acknowledgement (R297). -/

namespace Sys2Proof.Machine

/-! ### Profiles (R207, R249, R252) -/

def Profile.sf (p : Profile) : Nat := 2 ^ p.sfLog2

/-- Coded bits per symbol (R249). -/
def Profile.bitsPerSym (p : Profile) : Nat := if p.modulation < 2 then 1 else 2

/-- Header symbols: 120 coded bits (R252). -/
def Profile.headerSymbols (p : Profile) : Nat := 120 / p.bitsPerSym

/-- Duration of a number of symbols in ns, rounded up. -/
def Profile.symNs (p : Profile) (n : Nat) : Nat := ceilDiv (n * p.sf * 1000000000) p.chipRate

/-- The n bits of v from bit 0. -/
def lowBits (v n : Nat) : List Bool := (List.range n).map fun i => v.testBit i

/-! ### Symbols (R207, R249). 1.0 is 2^30; 1 / √2 is held to the nearest of its units (log entry 139). -/

def symOne : Int := 2 ^ 30
def symRoot : Int := 759250125

/-- 1 - 2 b in a unit. -/
def signed (b : Bool) (v : Int) : Int := if b then -v else v

/-- A symbol times j^n. -/
def rotJ (n : Nat) (x : Iq) : Iq :=
  match n % 4 with
  | 0 => x
  | 1 => (-x.2, x.1)
  | 2 => (-x.1, -x.2)
  | _ => (x.2, -x.1)

/-- A symbol of the BPSK class: for π/2-BPSK symbol n from the first preamble symbol is rotated by j^n. -/
def bpskSymbol (modulation n : Nat) (b : Bool) : Iq :=
  rotJ (if modulation = 1 then n else 0) (signed b symOne, 0)

/-- Symbol n of header or payload for its bits. -/
def symbolOf (modulation n : Nat) (b0 b1 : Bool) : Iq :=
  if modulation < 2 then bpskSymbol modulation n b0 else (signed b0 symRoot, signed b1 symRoot)

/-- Coded bits as symbols, the first of them symbol n; an odd last bit goes with b1 = 0. -/
def symbolsOf (modulation : Nat) : Nat → List Bool → List Iq
  | _, [] => []
  | n, b :: l =>
    if modulation < 2 then symbolOf modulation n b false :: symbolsOf modulation (n + 1) l
    else match l with
      | [] => [symbolOf modulation n b false]
      | c :: t => symbolOf modulation n b c :: symbolsOf modulation (n + 1) t

/-! ### Chips -/

/-- Chip i of a code: +1 or -1 (R207). -/
def codeChip (code : List Word) (i : Nat) : Int := if (code.getD (i / 32) 0).getLsbD (i % 32) then -1 else 1

/-- Symbols spread by a code, one code period to a symbol. -/
def spread (code : List Word) (sf : Nat) (l : List Iq) : List Iq :=
  l.flatMap fun x => (List.range sf).map fun i => (codeChip code i * x.1, codeChip code i * x.2)

/-- Chips on the half-chip grid: for OQPSK the Q chips come half a chip later. -/
def halfChips (oqpsk : Bool) (l : List Iq) : List Iq :=
  l.flatMap fun c => if oqpsk then [(c.1, 0), (0, c.2)] else [c, (0, 0)]

/-- Chips of preamble and sync word: `pre` preamble symbols +1 on the preamble code, then the sync word, bit 0 first, on the
payload code. -/
def leadChips (p : Profile) (preCode : List Word) (pre : Nat) : List Iq :=
  spread preCode p.sf ((List.range pre).map fun n => bpskSymbol p.modulation n false) ++
    spread p.code p.sf ((List.range p.syncLen).map fun n => bpskSymbol p.modulation (pre + n) (p.syncWord.testBit n))

/-- The half chips of a packet of `pre` preamble symbols and coded bits. -/
def packetChips (p : Profile) (preCode : List Word) (pre : Nat) (coded : List Bool) : List Iq :=
  halfChips (decide (p.modulation = 3))
    (leadChips p preCode pre ++ spread p.code p.sf (symbolsOf p.modulation (pre + p.syncLen) coded))

/-- The 120 coded bits of a header word (R252). -/
def headerBits (h : Nat) : List Bool := lowBits h 40 ++ lowBits h 40 ++ lowBits h 40

/-! ### The samples of an acknowledgement (R297, R298) -/

/-- A chip sequence shaped and resampled to n samples at rate code k. -/
def shaped (p : Profile) (k n : Nat) (chips : List Iq) : List Iq :=
  (List.range n).map fun m => mapIq (fun a => divHalfEven a (2 ^ 17))
    (dotIq ((List.range chips.length).map fun i => (Config.shapeTap p.chipRate p.rolloff k m i).toInt) chips)

/-- The largest magnitude of a component. -/
def peakOf (l : List Iq) : Nat := l.foldl (fun m x => max m (max x.1.natAbs x.2.natAbs)) 0

/-- Samples scaled so that the larger component peak is gain × 32,767, gain in Q1.15 (R297; log entry 139). -/
def scaleTo (gain : Nat) (l : List Iq) : List Iq :=
  let m := peakOf l
  if m = 0 then l
  else l.map (mapIq fun a => clampI (-32767) 32767 (divHalfEven (a * (gain * 32767 : Nat)) (2 ^ 15 * m)))

/-- The samples of an acknowledgement at rate code k: word K on a preamble code. -/
def ackSamples (p : Profile) (preCode : List Word) (pre gain k word : Nat) : List Iq :=
  let sym := pre + p.syncLen + p.headerSymbols
  scaleTo gain (shaped p k (ceilDiv (sym * p.sf * (245760000 / 2 ^ k)) p.chipRate) (packetChips p preCode pre (headerBits word)))

end Sys2Proof.Machine
end

