-- ==== Sys2Proof/Machine/Bank.lean ====
section
/-! DEFINITION. Chapter 06: the correlator bank (R210, R212 to R217): half chips of beams, and the statistic of a
hypothesis. The taps that interpolate between beam samples are the implementation's (log entry 2). -/

namespace Sys2Proof.Machine

/-! ### Profiles and codes that are searched (R36, R210) -/

def State.profile (s : State) (n : Nat) : Option Profile := Store.get (fun _ => none) s.rxb.profiles n
def State.codeSlot (s : State) (n : Nat) : Option CodeSlot := Store.get (fun _ => none) s.rxb.codes n

/-- Two-sided passband of a preset in Hz (R36): Coarse, Medium, Fine, Superfine. -/
def passband (preset : Nat) : Nat :=
  match preset with
  | 0 => 40000000
  | 1 => 24000000
  | 2 => 12000000
  | _ => 3000000

/-- chip rate x (1 + roll-off) fits the preset (R36). -/
def Profile.fits (p : Profile) (preset : Nat) : Bool := decide (p.chipRate * (100 + p.rolloff) ≤ 100 * passband preset)

/-- Modes that open contexts (R210). -/
def opensContexts (mode : Nat) : Bool := decide (mode = 1 ∨ mode = 2 ∨ mode = 3 ∨ mode = 6)

/-- A code slot is searched (R210). -/
def State.searched (s : State) (c : Nat) : Bool :=
  match s.codeSlot c with
  | none => false
  | some k => match s.profile k.profile with
    | none => false
    | some p => s.rxb.codeMask.testBit c && s.rxb.profMask.testBit k.profile && opensContexts s.modeNo &&
        p.fits s.mode.preset

/-- N_int of a detection in the mode in force (R213). -/
def State.nInt (s : State) (p : Profile) : Nat :=
  if s.modeNo = mReach then min (4 * p.detSymbols) (p.preLen - 18) else p.detSymbols

/-- Threshold of a code slot, 28 until set (R214). -/
def State.thrOf (s : State) (c : Nat) : Nat := Store.get (fun _ => 28) s.rxb.thr c

/-! ### Beam samples and half chips (R186, R213, R236) -/

/-- How far back the beam history goes, in FS cycles: two symbols of the slowest profile and 100 µs, so that a context trains
on the symbol after a detection's last however late R216 lets it be reported. -/
def State.beamDepth (s : State) : Int :=
  nsCycles (100000 + 2 * s.rxb.profiles.foldl (fun m e => max m (match e.2 with
    | some p => p.symNs 1
    | none => 0)) 0)

def State.beamHist (s : State) (b : Nat) : List BeamSmp := Store.get (fun _ => []) s.dp.beams b

/-- A beam's newest samples with those that have left Colander since (R186). -/
def State.beamFeed (s : State) (b : Nat) (l : List BeamSmp) : List BeamSmp :=
  match (s.beamPaths b).head?.bind s.dpPath with
  | none => l
  | some x =>
    let last := (l.head?.map (·.at_)).getD (s.cyc - 4096)
    let new := (x.outs.filter fun o => decide (o.leave + 128 ≤ s.cyc)).takeWhile fun o => decide (last < o.at_)
    new.map (fun o => (⟨o.at_, (s.beamSample b o.at_).1, s.beamFlags b o.at_⟩ : BeamSmp)) ++
      l.takeWhile fun x => decide (s.cyc - s.beamDepth < x.at_)

/-- A sample carries thin, sat or settling (R215, R238). -/
def BeamSmp.bad (x : BeamSmp) : Bool := decide (x.flags &&& 22 ≠ 0)

/-- A sample that counts as zero where it is flagged. -/
def BeamSmp.used (x : BeamSmp) : Iq := if x.bad then (0, 0) else x.v

/-- FS cycles of 1/64 chip times the chip rate. -/
def chipCycles : Int := 30720000

/-- The value at position u in 1/64 chips of a chip rate, from samples newest first of which six are younger, and the sample
at or before it; none while they have not come. -/
def interpAt (l : List BeamSmp) (rate : Nat) (u : Int) : Option (Iq × BeamSmp) :=
  let i := l.findIdx fun x => decide (x.at_ * rate ≤ u * chipCycles)
  match l[i]?, l[i - 1]? with
  | some x, some y =>
    if i < 6 then none
    else
      let phase := ((u * chipCycles - x.at_ * rate) * 64 / ((y.at_ - x.at_) * rate)).toNat
      some (mapIq (fun a => divHalfEven a (2 ^ 17))
        (dotIq ((List.range 12).map fun j => (Config.chipTap phase j).toInt) (((l.drop (i - 6)).take 12).map BeamSmp.used)), x)
  | _, _ => none

/-- The half chips that beam samples complete for a code's line, at most n; a new threshold acts from a symbol boundary on
(R214). -/
def DetLine.feed (k : DetLine) (p : Profile) (keep thr : Nat) (l : List BeamSmp) : Nat → DetLine
  | 0 => k
  | n + 1 => match interpAt l p.chipRate (32 * k.next) with
    | none => k
    | some (v, x) =>
      DetLine.feed { next := k.next + 1, l := ((v, !x.bad) :: k.l).take keep
                     thr := if k.next % (2 * p.sf : Nat) = 0 then thr else k.thr } p keep thr l n

/-- The half chips of a beam for a code as new samples come; nothing while the code is not searched on the beam (R210,
R212). -/
def State.detFeed (s : State) (b c : Nat) : Option DetLine :=
  match s.codeSlot c with
  | none => none
  | some k => match s.profile k.profile with
    | none => none
    | some p =>
      if s.searched c = true ∧ s.flag F.BEAM_RX_STAT_enabled b = true ∧ s.flag F.BEAM_RX_NF_valid b = true then
        let l := s.beamHist b
        let x := (Store.get (fun _ => none) s.dp.det (16 * b + c)).getD
          { next := s.cyc * p.chipRate / (32 * chipCycles) + 1, thr := s.thrOf c }
        some (x.feed p (2 * p.sf * (s.nInt p + 1) + 8) (s.thrOf c) l 16)
      else none

/-! ### The statistic (R213 to R217) -/

/-- Δf in Hz as a fraction: min(symbol rate / 2, 12.5 kHz). -/
def Profile.binHz (p : Profile) : Nat × Nat :=
  if p.chipRate ≤ 25000 * p.sf then (p.chipRate, 2 * p.sf) else (12500, 1)

/-- The largest bin: ceil(25 kHz / Δf). -/
def Profile.maxBin (p : Profile) : Nat := ceilDiv (25000 * p.binHz.2) p.binHz.1

/-- Half chip n of a line. -/
def DetLine.at_ (k : DetLine) (n : Int) : Option (Iq × Bool) := if n < k.next then k.l[(k.next - 1 - n).toNat]? else none

/-- The chips of the symbol whose first chip is half chip n. -/
def DetLine.symbol (k : DetLine) (p : Profile) (n : Int) : Option (List (Iq × Bool)) :=
  (List.range p.sf).mapM fun (i : Nat) => k.at_ (n + 2 * i)

/-- C_k of a symbol's chips in bin f (R214). -/
def correlate (p : Profile) (code : List Word) (f : Int) (l : List (Iq × Bool)) : Iq :=
  l.zipIdx.foldl (fun (a : Iq) x =>
    let r := conjQ (cisQ (f * p.binHz.1 * x.2) (p.binHz.2 * p.chipRate))
    let c := codeChip code x.2
    (a.1 + c * (x.1.1.1 * r.1 - x.1.1.2 * r.2), a.2 + c * (x.1.1.1 * r.2 + x.1.1.2 * r.1))) (0, 0)

/-- Σ |C_k|² in 2^-60 and the chips that count for the noise, over n_int symbols of which the last begins at half chip n. -/
def DetLine.energy (k : DetLine) (p : Profile) (code : List Word) (nInt : Nat) (f n : Int) : Option (Nat × Nat) :=
  ((List.range nInt).mapM fun (j : Nat) => k.symbol p (n - 2 * p.sf * j)).map fun l =>
    l.foldl (fun (a : Nat × Nat) x =>
      let c := correlate p code f x
      (a.1 + (c.1 * c.1 + c.2 * c.2).toNat, a.2 + (x.filter (·.2)).length)) (0, 0)

/-- Λ as a fraction (R214): σ² is the floor's power over one chip's share of the beam's bandwidth (log entry 142). -/
def State.lambda (s : State) (p : Profile) (b : Nat) (e : Nat × Nat) : Nat × Nat :=
  let q := (s.beamQuads b).headD 0
  let d := decimation (s.fld F.SIEVE_CFG_preset q)
  let inc := if s.flag F.SIEVE_CFG_rs_en q then (s.reg .SIEVE_RS_INC q).toNat else 2 ^ 31
  (e.1 * (1966080000 * 2 ^ 31) * 2 ^ 128,
    2 ^ 60 * e.2 * (32767 * 32767) * p.chipRate * (d * inc) * pow40 (sgnN 16 (s.fld F.BEAM_RX_NF_nf b)))

/-- Λ of a hypothesis on a beam. -/
def State.lambdaAt (s : State) (p : Profile) (code : List Word) (b c : Nat) (f n : Int) : Option (Nat × Nat) :=
  (Store.get (fun _ => none) s.dp.det (16 * b + c)).bind fun k => (k.energy p code (s.nInt p) f n).map (s.lambda p b)

/-- 10 log10(Λ - 1) in 0.25 dB, at least -10 dB (R216, R217). -/
def snrOf (l : Nat × Nat) : Int := if l.1 ≤ l.2 ∨ l.2 = 0 then -40 else quarterDb (-40) (l.1 - l.2) l.2

/-- Λ meets a threshold in 0.25 dB (R214). -/
def lambdaMeets (l : Nat × Nat) (thr : Nat) : Bool := decide (l.2 ^ 40 * 10 ^ thr ≤ l.1 ^ 40 ∧ 0 < l.2)

/-- No hypothesis within one chip and one bin has a larger Λ (R214). -/
def State.isPeak (s : State) (p : Profile) (code : List Word) (b c : Nat) (f n : Int) (l : Nat × Nat) : Bool :=
  ([-1, 0, 1] : List Int).all fun df => ([-2, -1, 0, 1, 2] : List Int).all fun dn =>
    if (f + df).natAbs ≤ p.maxBin then
      match s.lambdaAt p code b c (f + df) (n + dn) with
      | some x => decide (x.1 * l.2 ≤ l.1 * x.2)
      | none => false
    else true

end Sys2Proof.Machine
end

