-- ==== Sys2Proof/Machine/Equaliser.lean ====
section
/-! DEFINITION. Chapter 06: the equaliser and the tracking of a context (R224, R225, R236 to R241). Numbers are exact but for
phasors (log entry 142); the loop's gains, ε and the soft values' scale, which the spec does not state, are the
implementation's (log entry 2). -/

namespace Sys2Proof.Machine

/-! ### Exact complex numbers -/

def Cq.zero : Cq := ⟨0, 0, 1⟩

/-- A pair of integers over d. -/
def Cq.ofIq (v : Iq) (d : Nat := 1) : Cq := ⟨v.1, v.2, d⟩

def Cq.add (a b : Cq) : Cq :=
  let g := Nat.gcd a.den b.den
  ⟨a.re * (b.den / g : Nat) + b.re * (a.den / g : Nat), a.im * (b.den / g : Nat) + b.im * (a.den / g : Nat), a.den * (b.den / g)⟩

def Cq.neg (a : Cq) : Cq := ⟨-a.re, -a.im, a.den⟩
def Cq.sub (a b : Cq) : Cq := a.add b.neg
def Cq.mul (a b : Cq) : Cq := ⟨a.re * b.re - a.im * b.im, a.re * b.im + a.im * b.re, a.den * b.den⟩
def Cq.conj (a : Cq) : Cq := ⟨a.re, -a.im, a.den⟩

/-- |a|². -/
def Cq.abs2 (a : Cq) : Cq := ⟨a.re * a.re + a.im * a.im, 0, a.den * a.den⟩

/-- a over a real number above 0; 0 where it is 0. -/
def Cq.over (a r : Cq) : Cq := if r.re = 0 then Cq.zero else ⟨a.re * r.den, a.im * r.den, a.den * r.re.toNat⟩

def sumCq (l : List Cq) : Cq := l.foldl Cq.add Cq.zero

/-- Σ w_i x_i. -/
def dotCq (w x : List Cq) : Cq := sumCq ((w.zip x).map fun p => p.1.mul p.2)

/-- w + 2^-k e x* / (ε + ‖x‖²) (R237). -/
def nlms (k : Nat) (e : Cq) (norm : Cq) (w x : List Cq) : List Cq :=
  let g := (e.mul ⟨1, 0, 2 ^ k⟩).over norm
  w.zipIdx.map fun p => p.1.add (g.mul (x.getD p.2 Cq.zero).conj)

/-- ε + ‖x‖². -/
def normOf (x : List Cq) : Cq := (sumCq (x.map Cq.abs2)).add ⟨Config.nlmsEps.toNat + 1, 0, 2 ^ 32⟩

/-! ### Spans (R240) -/

/-- A symbol counts in a span. -/
def Span3.add (a : Span3) (inc : Int) (err : Cq) : Span3 := { n := a.n + 1, inc := a.inc + inc, err := a.err.add err }

/-- Two spans together. -/
def Span3.join (a b : Span3) : Span3 := { n := a.n + b.n, inc := a.inc + b.inc, err := a.err.add b.err }

/-- Mean symbol SINR of n symbols from their summed squared errors, in 0.25 dB. -/
def sinrOf (n : Nat) (err : Cq) : Int := if n = 0 then 0 else quarterDb (-640) (n * err.den) err.re.toNat

def Span3.sinr (a : Span3) : Int := sinrOf a.n a.err

/-- A beam's sample rate in Hz as a fraction (R148, R166). -/
def State.beamHz (s : State) (b : Nat) : Nat × Nat :=
  let q := (s.beamQuads b).headD 0
  let inc := if s.flag F.SIEVE_CFG_rs_en q then (s.reg .SIEVE_RS_INC q).toNat else 2 ^ 31
  (1966080000 * 2 ^ 31, decimation (s.fld F.SIEVE_CFG_preset q) * inc)

/-- An NCO increment, or the mean of n of them, in 0.5 Hz (R239, R240). -/
def incHz (hz : Nat × Nat) (inc : Int) (n : Nat) : Int := if n = 0 then 0 else divHalfAway (2 * inc * hz.1) (n * hz.2 * 2 ^ 32)

/-! ### Symbols (R207, R224, R236, R237, R249) -/

/-- Training runs: in ACQUIRE, for 16 preamble symbols, until a sync match (R222). -/
def EqSt.training (e : EqSt) : Bool := decide (e.count < 16) && e.match_.isNone

/-- The symbol is turned back by the rotation of π/2-BPSK. -/
def turnBack (modulation n : Nat) (y : Cq) : Cq :=
  if modulation = 1 then
    match n % 4 with
    | 0 => y
    | 1 => ⟨y.im, -y.re, y.den⟩
    | 2 => ⟨-y.re, -y.im, y.den⟩
    | _ => ⟨-y.im, y.re, y.den⟩
  else y

/-- The hard decisions of a symbol: BPSK class before the match, by modulation after it. -/
def EqSt.decide_ (e : EqSt) (p : Profile) (y : Cq) : List Bool :=
  let v := turnBack p.modulation e.count y
  if e.match_.isSome ∧ 2 ≤ p.modulation then [decide (v.re < 0), decide (v.im < 0)] else [decide (v.re < 0)]

/-- The symbol of hard decisions. -/
def EqSt.symbol (e : EqSt) (p : Profile) (b : List Bool) : Iq :=
  match b with
  | [b0, b1] => symbolOf p.modulation e.count b0 b1
  | _ => bpskSymbol p.modulation e.count (b.headD false)

/-- A soft value of a component: its sign is the component's, 0 to 127 (R262). -/
def softOf (v : Int) (den : Nat) : Int :=
  let m : Int := (Config.softMag v.natAbs den).toNat
  if v < 0 then -m else m

/-- The soft values of a symbol. -/
def EqSt.soft (e : EqSt) (p : Profile) (y : Cq) : List Int :=
  let v := turnBack p.modulation e.count y
  if 2 ≤ p.modulation then [softOf v.re v.den, softOf v.im v.den] else [softOf v.re v.den]

/-- The last sync_len decisions differ from the sync word in at most sync_tol bits (R224). -/
def syncMatches (p : Profile) (l : List Bool) : Bool :=
  let bad := (List.range p.syncLen).filter fun j => l.getD j false != p.syncWord.testBit (p.syncLen - 1 - j)
  decide (p.syncLen ≤ l.length ∧ bad.length ≤ p.syncTol)

/-- The chip-level taps take one chip's error (R237, R238): frozen beams keep theirs, a beam that saw a swap steps with an
exponent less by 1. -/
def EqSt.chipAdapt (e : EqSt) (p : Profile) (ref : Cq) (code : List Word) (w : List (List Cq)) (c : EqChip × Nat) :
    List (List Cq) :=
  if c.1.erased then w
  else
    let xs := c.1.x.map fun l => l.map fun v => Cq.ofIq v
    let err := (ref.mul ⟨codeChip code c.2, 0, 1⟩).sub c.1.z
    w.zipIdx.map fun b =>
      if c.1.frozen.getD b.2 false then b.1
      else
        let k := if 0 < e.swapLeft.getD b.2 0 then max 1 (p.kChip - 1) else p.kChip
        nlms k err (normOf xs.flatten) b.1 (xs.getD b.2 [])

/-- The statistics of a symbol (R225, R239, R240). -/
def EqSt.measure (e : EqSt) (err : Cq) : EqSt :=
  let e := { e with errs := (err :: e.errs).take 64 }
  let e := if 0 < e.capLeft then { e with capLeft := e.capLeft - 1, capAcc := e.capAcc.add e.inc err } else e
  match e.match_ with
  | none => { e with pre := e.pre.add e.inc err }
  | some _ => { e with track := e.track ++ [⟨e.sym, e.inc, err⟩] }

/-- How many half chips a chip waits, so that its filter's centre tap lies on it: an odd number. -/
def chipLag (p : Profile) : Nat := 2 * ((p.nFfe / 2 + 1) / 2) + 1

/-- +1, 0 or -1. -/
def signOf (v : Int) : Int := if 0 < v then 1 else if v < 0 then -1 else 0

/-- A symbol of SF chips ends: despreading, the decision-feedback section, the reference, both adaptations, the loops
(R236 to R239). -/
def EqSt.endSymbol (e : EqSt) (p : Profile) : EqSt :=
  let code := if e.training then e.preCode else p.code
  let chips := e.chips.zipIdx
  let live := chips.filter fun c => !c.1.erased
  let d := (sumCq (live.map fun c => c.1.z.mul ⟨codeChip code c.2, 0, 1⟩)).mul ⟨1, 0, p.sf⟩
  let syms := (d :: e.syms).take 8
  let fbx := e.decs.map fun v => (Cq.ofIq v (2 ^ 30)).neg
  let y := (dotCq e.ff syms).add (dotCq e.fb fbx)
  let b := e.decide_ p y
  let refI := if e.training then bpskSymbol p.modulation e.count false else e.symbol p b
  let ref := Cq.ofIq refI (2 ^ 30)
  let err := ref.sub y
  let nrm := normOf (syms ++ fbx)
  let ff := if live = [] then e.ff else nlms p.kSym err nrm e.ff syms
  let fb := if live = [] then e.fb else nlms p.kSym err nrm e.fb fbx
  let w := chips.foldl (e.chipAdapt p ref code) e.w
  let pe := y.mul ref.conj
  let gain (i : Nat) : Int := (Config.loopGain e.training i p.chipRate p.sf).toNat
  let tm := sumCq (live.map fun c =>
    ((Cq.ofIq (c.1.late.1 - c.1.early.1, c.1.late.2 - c.1.early.2)).mul ⟨codeChip code c.2, 0, 1⟩))
  let tmv := (tm.mul ((e.w.headD []).getD (p.nFfe / 2) Cq.zero)).mul ref.conj
  let adj := if e.src.isSome then 0 else signOf tmv.re
  let bits := (b.headD false :: e.bits).take 64
  let n := e.count + 1
  let e := e.measure err.abs2
  let e := match e.match_ with
    | some _ => { e with llr := e.llr ++ e.soft p y }
    | none =>
      if syncMatches p bits then { e with match_ := some (n, e.sym - 64 * (p.sf * (p.syncLen - 1) : Nat)) } else e
  { e with
      count := n, bits := bits, chips := [], syms := syms, decs := (refI :: e.decs).take 4, ff := ff, fb := fb, w := w
      inc := e.inc + gain 1 * pe.im / pe.den
      phase := e.phase + BitVec.ofInt 32 (gain 0 * pe.im / pe.den)
      u := e.u + adj, sym := e.u + 32 - 32 * chipLag p + adj
      swapLeft := e.swapLeft.map (· - 1) }

/-! ### Chips and half chips (R236, R238) -/

/-- The filter inputs of each beam with the centre tap on the half chip `lag` back. -/
def EqSt.inputs (e : EqSt) (p : Profile) (lag : Nat) : List (List Iq) :=
  e.halves.map fun l => ((l.drop (lag - p.nFfe / 2)).take p.nFfe).map (·.1)

/-- The sum of the filters. -/
def EqSt.filter (e : EqSt) (x : List (List Iq)) : Cq :=
  sumCq ((e.w.zip x).map fun b => dotCq b.1 (b.2.map fun v => Cq.ofIq v))

/-- A chip is complete: for OQPSK its Q half comes half a chip later (R249). -/
def EqSt.endChip (e : EqSt) (p : Profile) : EqSt :=
  let g := chipLag p
  let x := e.inputs p g
  let z := e.filter x
  let z := if p.modulation = 3 then
      let q := e.filter (e.inputs p (g - 1))
      (⟨z.re, 0, z.den⟩ : Cq).add ⟨0, q.im, q.den⟩
    else z
  let frozen := e.halves.map fun l => (l.getD g ((0, 0), false)).2
  let first := e.halves.headD []
  let c : EqChip :=
    { x := x, frozen := frozen, z := z, early := (first.getD (g + 1) ((0, 0), false)).1
      late := (first.getD (g - 1) ((0, 0), false)).1, erased := frozen.all id }
  let e := { e with chips := e.chips ++ [c] }
  if e.chips.length = p.sf then e.endSymbol p else e

/-- A half chip of every beam, with whether it is flagged: zero where it is (R238). -/
def EqSt.half (e : EqSt) (p : Profile) (v : List (Iq × Bool)) : EqSt :=
  let hs := (List.range e.beams.length).map fun i =>
    let x := v.getD i ((0, 0), true)
    ((if x.2 then ((0, 0), true) else x) :: e.halves.getD i []).take (p.nFfe + 8)
  let e := { e with halves := hs, taken := e.taken + 1, u := e.u + 32 }
  if chipLag p < e.taken ∧ (e.taken - 1 - chipLag p) % 2 = 0 then e.endChip p else e

/-- A half chip in 16 bits, as retention keeps it (R241). -/
def half16 (v : Iq) : Iq := mapIq (clampI (-32768) 32767) v

/-- Half chips that the newest beam samples complete, at most n. -/
def EqSt.halvesOf (e : EqSt) (p : Profile) : Nat → EqSt
  | 0 => e
  | n + 1 =>
    match (e.lines.mapM (fun l => interpAt l p.chipRate e.u) : Option (List (Iq × BeamSmp))) with
    | none => e
    | some l =>
      let ph := ((e.phases.find? fun x => decide (x.1 * p.chipRate ≤ e.u * chipCycles)).getD (0, e.phase)).2
      let e : EqSt := if e.retain then { e with ret := ⟨l.map fun x => half16 x.1, ph, e.u⟩ :: e.ret } else e
      let swap (i : Nat) : Bool := match l[i]? with
        | some y => decide (y.2.flags / 32 % 2 = 1)
        | none => false
      let e : EqSt := { e with swapLeft := e.swapLeft.zipIdx.map fun x => bif swap x.2 then 32 else x.1 }
      let e : EqSt := if e.keepTo.isSome then { e with u := e.u + 32 } else e.half p (l.map fun x => (x.1, x.2.bad))
      EqSt.halvesOf e p n

/-- One sample of every beam, derotated by the NCO (R236, R239). -/
def EqSt.sample (e : EqSt) (p : Profile) (l : List BeamSmp) : EqSt :=
  let r := conjQ (cisQ e.phase.toNat (2 ^ 32))
  let t := (l.head?.map (·.at_)).getD 0
  let e := { e with
    lines := (List.range e.beams.length).map fun i =>
      let x := l.getD i ⟨t, (0, 0), 0⟩
      ({ x with v := mulQ x.v r } :: e.lines.getD i []).take 24
    phases := ((t, e.phase) :: e.phases).take 24
    phase := e.phase + BitVec.ofInt 32 e.inc }
  e.halvesOf p 16

/-- A retry takes one of the half chips it reads (R244): the phase that derotated it undone, its own applied. -/
def EqSt.reread (e : EqSt) (p : Profile) (x : RetHalf) : EqSt :=
  let r := mulQ (cisQ x.phase.toNat (2 ^ 32)) (conjQ (cisQ e.phase.toNat (2 ^ 32)))
  { e with phase := e.phase + BitVec.ofInt 32 e.inc, u := x.u }.half p (x.v.map fun v => (mulQ v r, false))

def State.eq (s : State) (n : Nat) : Option EqSt := Store.get (fun _ => none) s.dp.eq n

def State.setEq (s : State) (n : Nat) (e : Option EqSt) : State :=
  { s with dp := { s.dp with eq := Store.set (fun _ => none) s.dp.eq n e } }

/-- The samples of a context's beams since its newest, oldest first: one list of beams for each sample time. -/
def State.newSamples (s : State) (e : EqSt) : List (List BeamSmp) :=
  let first := e.beams.headD 0
  let last := (e.lines.headD []).head?.map (·.at_)
  let l := (s.beamHist first).takeWhile fun x => match last with
    | some t => decide (t < x.at_)
    | none => true
  l.reverse.map fun x => x :: (e.beams.drop 1).map fun b =>
    ((s.beamHist b).find? fun y => decide (y.at_ = x.at_)).getD ⟨x.at_, (0, 0), 0⟩

/-- The half chips a retry has before it: those left over, and those its candidate has retained since. -/
def State.toReread (s : State) (r : Reread) : Reread :=
  match s.eq r.key with
  | none => r
  | some k => { r with took := max r.took k.ret.length, rest := r.rest ++ k.ret.reverse.drop r.took }

/-- A context's equaliser takes what has come: live samples, or the half chips of a retry at the pace of the air. -/
def State.eqFeed (s : State) (e : EqSt) : EqSt :=
  match s.profile e.prof with
  | none => e
  | some p => match e.src with
    | some r0 =>
      let r := s.toReread r0
      let due := ((s.cyc - r.since) * p.chipRate / (32 * chipCycles)).toNat - e.taken
      (r.rest.take due).foldl (fun e x => e.reread p x) { e with src := some { r with rest := r.rest.drop due } }
    | none =>
      if e.keepTo.any (fun c => decide (c ≤ e.ret.length)) then e else (s.newSamples e).foldl (fun e x => e.sample p x) e

/-! ### Opening (R220, R236) -/

/-- The correlation peak of a beam for a symbol whose first chip is half chip n, in bin f, per chip. -/
def State.peakAt (s : State) (p : Profile) (code : List Word) (c b : Nat) (f n : Int) : Cq :=
  match (Store.get (fun _ => none) s.dp.det (16 * b + c)).bind fun k => k.symbol p n with
  | some l => Cq.ofIq (correlate p code f l) (2 ^ 30 * p.sf)
  | none => Cq.zero

/-- The taps that a context begins with. -/
def firstTaps (p : Profile) (centre : List Cq) : List (List Cq) :=
  centre.map fun k => (List.range p.nFfe).map fun i => if i = p.nFfe / 2 then k else Cq.zero

/-- The equaliser of a context that opens on a detection: each beam's centre tap is the conjugate of its peak, normalised to
maximal-ratio weights, all others 0; training begins with the symbol after the last integrated one. -/
def State.newEq (s : State) (p : Profile) (pn c : Nat) (beams : List Nat) (f n : Int) (freq : Int) (retain : Bool) : EqSt :=
  let code := match s.codeSlot c with
    | some k => k.code
    | none => []
  let peaks := beams.map fun b => s.peakAt p code c b f n
  let total := sumCq (peaks.map Cq.abs2)
  let centre := peaks.map fun k => k.conj.over total
  let hz := s.beamHz (beams.headD 0)
  let u := 32 * (n + 2 * p.sf)
  { beams := beams, prof := pn, preCode := code, first := u, centre := centre, inc := freq * 2 ^ 32 * hz.2 / hz.1, u := u, sym := u
    lines := beams.map fun _ => [], retain := retain, w := firstTaps p centre
    ff := (List.range 8).map fun i => if i = 0 then ⟨1, 0, 1⟩ else Cq.zero
    fb := List.replicate 4 Cq.zero, swapLeft := beams.map fun _ => 0 }

/-- The equaliser of a retry (R244): as its candidate's began, on the half chips it reads, at a frequency in 0.5 Hz. -/
def EqSt.again (e : EqSt) (p : Profile) (freq : Int) (r : Reread) : EqSt :=
  { beams := e.beams, prof := e.prof, preCode := e.preCode, first := e.first, centre := e.centre
    phase := (r.rest.head?.map (·.phase)).getD 0, inc := freq * 2 ^ 30 / p.chipRate, u := e.first, sym := e.first
    lines := [], src := some r, w := firstTaps p e.centre
    ff := (List.range 8).map fun i => if i = 0 then ⟨1, 0, 1⟩ else Cq.zero
    fb := List.replicate 4 Cq.zero, swapLeft := e.beams.map fun _ => 0 }

/-! ### What a context reports (R224, R225, R239, R240) -/

/-- A position in 1/64 chips as a reading of the counter in 2^-16 ns. -/
def State.stampOf (s : State) (rate : Nat) (u : Int) : Int :=
  (s.time.ticks + (u * chipCycles - s.dp.cycle * rate) * s.increment / (24 * rate)) / 2 ^ 40

/-- Tracked timing in half chips modulo the symbol period. -/
def EqSt.timing (e : EqSt) (p : Profile) : Nat := (e.sym / 32 % (2 * p.sf)).toNat

/-- The mean SINR of the newest 64 symbols (R239). -/
def EqSt.sinrNow (e : EqSt) : Int := sinrOf e.errs.length (sumCq e.errs)

/-- Symbols as a span. -/
def spanOf (l : List SymTrk) : Span3 := l.foldl (fun a x => a.add x.inc x.err) {}

/-- The span that a context reports (R240): the payload, or the header when there is none of it. -/
def EqSt.span (e : EqSt) (p : Profile) (pay : Nat) : Span3 :=
  let h := spanOf (e.track.take p.headerSymbols)
  let d := spanOf ((e.track.drop p.headerSymbols).take pay)
  if d.n = 0 then h else d

/-- Every symbol received, of a packet of `n` symbols after its sync word (R268). -/
def EqSt.spanAll (e : EqSt) (n : Nat) : Span3 := e.pre.join (spanOf (e.track.take n))

/-- Steps of the NCO's phase in a second: a sample of the beam each, or a half chip in a retry. -/
def State.eqHz (s : State) (e : EqSt) (p : Profile) : Nat × Nat :=
  if e.src.isSome then (2 * p.chipRate, 1) else s.beamHz (e.beams.headD 0)

end Sys2Proof.Machine
end

