-- ==== Sys2Proof/Machine/TxSamples.lean ====
section
/-! DEFINITION. Chapters 05, 08 and 09, sample by sample: the interpolators of the transmit beams, path sums, actuators and DAC
queues; and the advance of all sample paths with the counter. Interpolator taps are the implementation's (log entry 2). -/

namespace Sys2Proof.Machine

/-! ### Transmit beams (R198 to R200) -/

/-- Rate code of a TX beam (R198): k is 3 to 8, and the field of three bits shows 8 as 0. -/
def State.rateCode (s : State) (b : Nat) : Nat :=
  if s.fld F.TXB_STAT_rate_k b = 0 then 8 else s.fld F.TXB_STAT_rate_k b

def State.txLine (s : State) (u : Nat) : Option TxLine := Store.get (fun _ => none) s.dp.tx u

def State.setTxLine (s : State) (u : Nat) (x : Option TxLine) : State :=
  { s with dp := { s.dp with tx := Store.set (fun _ => none) s.dp.tx u x } }

/-- The burst reaches the path sum: the interpolator is primed with the samples around the first (R199). -/
def TxLine.start (x : TxLine) : TxLine :=
  { x with line := (x.fifo.take 17).reverse, fifo := x.fifo.drop 17, j := 0, on := true }

/-- One 245.76 MS/s sample of a beam at rate code k: every 2^k-th takes the next sample, zero from an empty FIFO (R28). -/
def TxLine.clock (k : Nat) (x : TxLine) : TxLine :=
  if x.on = false then x
  else if (x.j + 1) % 2 ^ k = 0 then
    { x with j := x.j + 1, line := (x.fifo.headD (0, 0) :: x.line).take 33, fifo := x.fifo.tail }
  else { x with j := x.j + 1 }

/-- u_b of a beam (R200): the interpolated sample, in 16 bits. -/
def TxLine.u (k : Nat) (x : TxLine) : Iq :=
  if x.on then
    mapIq (fun a => clampI (-32768) 32767 (divHalfEven a (2 ^ 17)))
      (dotIq ((List.range 33).map fun i => (Config.txTap k (x.j % 2 ^ k) i).toInt) x.line)
  else (0, 0)

/-- The line of a burst that reaches the path sum starts (R199). -/
def State.startLine (s : State) (u : Nat) : State :=
  match s.txLine u with
  | some x => s.setTxLine u (some x.start)
  | none => s

/-- Samples for a burst reach its FIFO (R416). -/
def State.feedLine (s : State) (u beam : Nat) (l : List Iq) : State :=
  let x := (s.txLine u).getD { beam := beam }
  s.setTxLine u (some { x with fifo := x.fifo ++ l })

/-- A burst's FIFO holds no sample. -/
def State.lineEmpty (s : State) (u : Nat) : Bool :=
  match s.txLine u with
  | some x => decide (x.fifo = [])
  | none => true

/-- A burst's interpolator and FIFO are cleared at its end (R199). -/
def State.endLine (s : State) (u : Nat) : State := s.setTxLine u none

/-- z_p (R200): the beams in a burst whose qmask holds the path's quadrant, at their active weights; nothing on a degraded
path. -/
def State.pathSum (s : State) (tx : Store (Option TxLine)) (p : Nat) : Iq × Bool :=
  let l := tx.filterMap fun e => e.2.bind fun x =>
    if x.on = true ∧ (s.fld F.TXB_CFG_qmask x.beam).testBit (p / 16) = true ∧ s.flag F.TX_PATH_STAT_degraded p = false then
      some (s.weight (64 + x.beam) (s.activeBank (64 + x.beam)) p, x.u (s.rateCode x.beam))
    else none
  let a := weightedSum l
  let i := pathSumOut a.1 (s.fld F.TXS_STAT_sum_shift p)
  let q := pathSumOut a.2 (s.fld F.TXS_STAT_sum_shift p)
  ((i.1, q.1), i.2 || q.2)

/-! ### Transmit paths: the actuator, the interpolator, the queue (R277-R282, R306-R310) -/

def State.txPath (s : State) (p : Nat) : Option TxPath := Store.get (fun _ => none) s.dp.txp p

def State.setTxPath (s : State) (p : Nat) (x : Option TxPath) : State :=
  { s with dp := { s.dp with txp := Store.set (fun _ => none) s.dp.txp p x } }

/-- Output k of the ×4 interpolator for one input (R279), as DAC codes. -/
def dacPair (ip : List Iq) (k : Nat) : Nat × Nat :=
  let x := mapIq (fun a => clampI (-32767) 32767 (divHalfEven a (2 ^ 17)))
    (dotIq ((List.range 32).map fun i => (Config.dacTap k i).toInt) ip)
  (dacCode x.1, dacCode x.2)

/-- A path takes a path sum: the actuator's output goes through the interpolator into the queue while the DAC drains as many
codes (R280, R306). -/
def TxPath.step (x : TxPath) (bypass : Bool) (set : List Word) (z : Iq) : TxPath :=
  let zs := (z :: x.z).take 4
  let y := dpdOut bypass set zs
  let ip := (y :: x.ip).take 32
  let l := x.queue ++ (List.range 4).map (dacPair ip)
  { z := zs, ip := ip, queue := l.drop 4, out := l.getD 3 (8192, 8192), ys := (y :: x.ys).take 9216 }

/-- One 245.76 MS/s sample of the transmit side; a path whose queue underflowed stays at midscale (R282). -/
def State.txStep (s : State) (d : DpSt) : DpSt :=
  let tx := Store.mapVals (fun _ => none)
    (fun _ (o : Option TxLine) => o.map fun x => x.clock (s.rateCode x.beam)) d.tx
  { d with
      tx := tx
      txp := Store.mapVals (fun _ => none)
        (fun p (o : Option TxPath) => o.map fun x =>
          if Store.get (fun _ => false) s.tx.dry p then x
          else x.step (s.flag F.DPD_CFG_bypass p) (Store.get (fun _ => {}) s.dpd.path p).active (s.pathSum tx p).1) d.txp }

/-! ### The unit cells (R278) -/

/-- A DAC cell's position in the order in which codes switch cells on, as the mismatch calibration left it (items 96 to 158);
before it has, the cells' own order. -/
def State.cellOrder (s : State) (p : Nat) : List Nat :=
  let l := (List.range 63).map fun i => (s.corrItem (96 + i) p).toNat
  if l.all (fun v => decide (v = 0)) then List.range 63 else l

/-- The cells that a code switches on, and the ladder's share. -/
def State.cellsOn (s : State) (p d : Nat) : List Nat × Nat := ((s.cellOrder p).take (d / 256), d % 256)

/-! ### The advance of the counter: 24 FS cycles, three samples at 245.76 MS/s -/

/-- Beams, the correlator and the contexts take the samples that have come (R186, R212, R236). -/
def State.rxStep (s : State) (d : DpSt) : DpSt :=
  let s : State := { s with dp := d }
  let beams := (List.range 64).foldl (fun (m : Store (List BeamSmp)) b =>
    Store.set (fun _ => []) m b (if s.flag F.BEAM_RX_STAT_enabled b then s.beamFeed b (s.beamHist b) else [])) []
  let s : State := { s with dp := { s.dp with beams := beams } }
  { s.dp with
      det := (List.range 1024).foldl (fun (m : Store (Option DetLine)) k =>
        Store.set (fun _ => none) m k (s.detFeed (k / 16) (k % 16))) []
      eq := Store.mapVals (fun _ => none) (fun _ (o : Option EqSt) => o.map s.eqFeed) s.dp.eq }

/-- One advance of the sample paths. -/
def State.dpStep (s : State) (d : DpSt) : DpSt :=
  let paths := Store.mapVals (fun _ => none)
    (fun p (o : Option PathDp) => o.map fun x =>
      (List.range 3).foldl (fun x j => s.pathStep p (d.cycle + 8 * j) x) x) d.paths
  s.rxStep (s.txStep (s.txStep (s.txStep { d with cycle := d.cycle + 24, paths := paths })))

/-- n advances of the sample paths. -/
def State.dpRun (s : State) : Nat → DpSt → DpSt
  | 0, d => d
  | n + 1, d => State.dpRun s n (s.dpStep d)

/-- FS cycles pass with n advances of the counter; on HOSC the sample clock stands still (R530). -/
def State.pass (s : State) (n : Nat) : State :=
  if s.flag F.TIME_STAT_on_hosc then s
  else if s.dp.paths = [] ∧ s.dp.tx = [] ∧ s.dp.txp = [] ∧ s.dp.eq = [] then { s with dp := { s.dp with cycle := s.dp.cycle + 24 * n } }
  else { s with dp := s.dpRun n s.dp }

end Sys2Proof.Machine
end

