-- ==== Sys2Proof/Machine/Ops.lean ====
section
/-! DEFINITION. The operations every meaning is written over: registers, time, events, interrupts, access errors,
claims, memory and tiles, faults, responses. Each is written once, from the rule it cites. -/

namespace Sys2Proof.Machine

/-! ### Interrupts and access errors -/

/-- IRQ_N is driven low while an enabled interrupt stands (R103). -/
def State.irqLow (s : State) : Bool := decide (s.reg .SYS_IRQ_STAT 0 &&& s.reg .SYS_IRQ_EN 0 ≠ 0)


/-- Causes of SYS_ACC_ERR (R104). -/
def errClaim : Nat := 1
def errBadSel : Nat := 2
def errWin : Nat := 3
def errUnmapped : Nat := 4
def errTile : Nat := 5
def errRdLate : Nat := 6
def errGate : Nat := 7

/-- An access error: the first since the last clear is recorded, later ones are counted; Tilin's own accesses are never
recorded (R104). DESIGN CHOICE (log entry 139): a counted error sets SYS_IRQ_STAT.acc_err again. -/
def State.accErr (s : State) (p : Port) (addr cause : Nat) : State :=
  if p = .tilin then s
  else if s.flag F.SYS_ACC_ERR_valid then
    (s.bump F.SYS_ACC_ERR_count 0).setFld F.SYS_IRQ_STAT_acc_err 0 1
  else
    ((s.setReg .SYS_ACC_ERR 0
        (toWord (cause % 16 + 16 + 32 * p.idx + 65536 * ((addr / 2 ^ 32) % 256)))).setReg .SYS_ACC_ADDR 0
      (toWord addr)).setFld F.SYS_IRQ_STAT_acc_err 0 1

/-! ### Memory and tiles -/

def larBase : Nat := 0x10000000
def panBase : Nat := 0x200000000
def remBase : Nat := 0x800000000

/-- The bank of an address: Larder banks 0 to 7, the Pantry 8. -/
def bankOfAddr (a : Nat) : Nat := if panBase ≤ a then 8 else (a - larBase) / 0x300000

/-- What a byte nothing has written reads as: 0 (log entry 4), or a free value in a bank that has lost power (R540). -/
def byteDefault (u : Store Nat) (a : Nat) : Byte :=
  let g := Store.get (fun _ => 0) u (bankOfAddr a)
  if g = 0 then 0 else Config.freeByte g a

/-- A byte of memory. -/
def State.byte (s : State) (a : Nat) : Byte := Store.get (byteDefault s.mem.undef) s.mem.bytes a

/-- A byte of memory written. -/
def State.setByte (s : State) (a : Nat) (b : Byte) : State :=
  { s with mem := { s.mem with bytes := Store.set (byteDefault s.mem.undef) s.mem.bytes a b } }

/-- A bank loses power: its contents are undefined from now on (R540, R451). -/
def State.loseBank (s : State) (b : Nat) : State :=
  { s with
    mem := { s.mem with
      bytes := s.mem.bytes.filter fun x => decide (bankOfAddr x.1 ≠ b)
      undef := Store.set (fun _ => 0) s.mem.undef b (s.free + 1) }
    free := s.free + 1 }

/-- A little-endian word of memory (R8). -/
def State.memWord (s : State) (a : Nat) : Word :=
  bytesWord (s.byte a) (s.byte (a + 1)) (s.byte (a + 2)) (s.byte (a + 3))

/-- A little-endian word written. -/
def State.setMemWord (s : State) (a : Nat) (w : Word) : State :=
  (((s.setByte a (w.extractLsb' 0 8)).setByte (a + 1) (w.extractLsb' 8 8)).setByte (a + 2)
    (w.extractLsb' 16 8)).setByte (a + 3) (w.extractLsb' 24 8)

/-- n words from an address. -/
def State.memWords (s : State) (a n : Nat) : List Word := (List.range n).map fun i => s.memWord (a + 4 * i)

/-- Words written from an address, ascending. -/
def State.setMemWords (s : State) (a : Nat) : List Word → State
  | [] => s
  | w :: t => State.setMemWords (s.setMemWord a w) (a + 4) t

/-- Key of Pantry tile p in the tile store. -/
def panKey (p : Nat) : Nat := 0x400000 + p

/-- A tile. -/
def State.tile (s : State) (k : Nat) : Tile := Store.get (fun _ => {}) s.mem.tiles k

def State.setTile (s : State) (k : Nat) (t : Tile) : State :=
  { s with mem := { s.mem with tiles := Store.set (fun _ => {}) s.mem.tiles k t } }

/-- First byte address of a tile (R448). -/
def tileAddr (k : Nat) : Nat :=
  if k < 0x400000 then larBase + 4096 * k else panBase + 4096 * (k - 0x400000)

/-- One bit of a reflected CRC of polynomial `poly`. -/
def crcBit (poly r : Nat) : Nat := if r % 2 = 1 then (r / 2) ^^^ poly else r / 2

/-- One byte of a reflected 32-bit CRC. -/
def crcByte (poly r : Nat) (b : Byte) : Nat :=
  (List.range 8).foldl (fun r _ => crcBit poly r) (r ^^^ b.toNat)

/-- A reflected 32-bit CRC, preset and final XOR all ones. -/
def crc32r (poly : Nat) (l : List Byte) : Nat := (l.foldl (crcByte poly) 0xFFFFFFFF) ^^^ 0xFFFFFFFF

/-- CRC-32C, polynomial 0x1EDC_6F41 reflected (R453). -/
def crc32c (l : List Byte) : Nat := crc32r 0x82F63B78 l

/-- CRC-32 as in IEEE 802.3 (R107, R395, R635). -/
def crc32 (l : List Byte) : Nat := crc32r 0xEDB88320 l

/-- The bytes of a tile. -/
def State.tileBytes (s : State) (k : Nat) : List Byte := (List.range 4096).map fun i => s.byte (tileAddr k + i)

/-- The checksum of a tile's present contents (R453). -/
def State.tileSum (s : State) (k : Nat) : BitVec 32 := BitVec.ofNat 32 (crc32c (s.tileBytes k))

/-- Seal an OPEN tile (R452). -/
def State.sealTile (s : State) (k : Nat) : State :=
  let t := s.tile k
  if t.state = .open then s.setTile k { t with state := .sealed, sum := s.tileSum k } else s

/-- Reopen a SEALED tile. -/
def State.reopenTile (s : State) (k : Nat) : State :=
  let t := s.tile k
  if t.state = .sealed then s.setTile k { t with state := .open, sum := 0 } else s

/-- Pantry present and usable: READY (R462, R463). -/
def State.pantryReady (s : State) : Bool := decide (s.fld F.MEM_PAN_STAT_state = 2)

/-- A Pantry in READY or SELF_REFRESH: in the other states the device runs as one without (R463). -/
def State.panFitted (s : State) : Bool := decide (s.fld F.MEM_PAN_STAT_state = 2 ∨ s.fld F.MEM_PAN_STAT_state = 3)

/-- What an address names (R448, R449). -/
inductive Target
  | direct (a : Nat)
  | larder (tile : Nat)
  | pantry (tile : Nat)
  | remote
  | nowhere
  deriving DecidableEq, Repr

/-- The region of a byte address; the Pantry's side words, and all of it without a usable Pantry, are nowhere (R448,
R463). -/
def State.target (s : State) (a : Nat) : Target :=
  if a < 0x10000 then .direct a
  else if larBase ≤ a ∧ a < larBase + 4096 * 6144 then .larder ((a - larBase) / 4096)
  else if panBase ≤ a ∧ a < panBase + 4096 * s.fld F.MEM_PAN_USABLE_tiles ∧
      (s.fld F.MEM_PAN_STAT_state = 2 ∨ s.fld F.MEM_PAN_STAT_state = 3) then .pantry ((a - panBase) / 4096)
  else if remBase ≤ a ∧ a < remBase + 0x100000000 then .remote
  else .nowhere

/-! ### Events -/

/-- Event classes (R98). -/
def clsInfo : Nat := 0
def clsDone : Nat := 1
def clsWarn : Nat := 2
def clsLate : Nat := 3
def clsFault : Nat := 4

/-- LNK_STAT.state reads UP (R376, R393). -/
def State.linkUp (s : State) : Bool := decide (s.fld F.LNK_STAT_state = 5)

/-- The record of an event (R98). -/
def evtRec (code cls : Nat) (arg : Word) (cmd : Option Cmd) (sw : Bool) (t : T48) (seq : BitVec 16) : EvtRec :=
  { w0 := toWord (code % 65536 + (match cmd with
        | some c => 65536 * (c.tag % 256) + 2 ^ 24 * (c.mbx % 8) + 2 ^ 27
        | none => 0) + (if sw then 2 ^ 28 else 0) + 2 ^ 29 * (cls % 8))
    w1 := toWord t.toNat
    w2 := toWord (t.toNat / 2 ^ 32 + 65536 * seq.toNat)
    w3 := arg }

/-- Write an entry into the event ring: on a full ring rd moves on and overrun sets; the entry is in memory before wr
moves (R102, R103). DESIGN CHOICE (log entry 139): an rd that host software wrote at or above the ring's entry count
counts modulo the ring's size. -/
def State.ringWrite (s : State) (e : EvtRec) : State :=
  let size := 2 ^ s.fld F.SYS_EVT_CTL_size_log2
  let wr := s.fld F.SYS_EVT_WR_wr % size
  let rd := s.fld F.SYS_EVT_RD_rd % size
  let a := (s.reg .SYS_EVT_BASE 0).toNat + 16 * wr
  let s := s.setMemWords a [e.w0, e.w1, e.w2, e.w3]
  let s := if (wr + 1) % size = rd then
      ((s.setFld F.SYS_EVT_RD_rd 0 ((rd + 1) % size)).setFld F.SYS_EVT_CTL_overrun 0 1).setFld
        F.SYS_IRQ_STAT_evt_overrun 0 1
    else s
  (s.setFld F.SYS_EVT_WR_wr 0 ((wr + 1) % size)).setFld F.SYS_IRQ_STAT_evt 0 1

/-- Keep an event until the ring exists, in Trivet's 64 entries (R638). -/
def State.holdEvt (s : State) (e : EvtRec) : State :=
  if s.sys.heldEvts.length < 64 then { s with sys := { s.sys with heldEvts := s.sys.heldEvts ++ [e] } }
  else { s with sys := { s.sys with heldLost := true } }

/-- A number kept per stream. -/
def perStream (m : Store Nat) (k : Nat) : Nat := Store.get (fun _ => 0) m k

/-- A frame formed on its stream while OPL is UP: it takes the stream's next seq (R400) and is ready to send. -/
def State.formFrame (s : State) (f : Frame) : State :=
  if s.linkUp then
    let n := perStream s.link.seqTx f.stream
    let q := Store.get (fun _ => []) s.link.ready f.stream ++ [{ f with seq := n % 65536 }]
    { s with link := { s.link with
        ready := Store.set (fun _ => []) s.link.ready f.stream q
        seqTx := Store.set (fun _ => 0) s.link.seqTx f.stream ((n + 1) % 65536) } }
  else s

/-- A DATA frame of words (R395). -/
def State.sendFrame (s : State) (stream : Nat) (ws : List Word) : State :=
  s.formFrame { stream := stream, payload := ws.flatMap wordBytes }

/-- Close the open event frame (R403). -/
def State.closeEvents (s : State) : State :=
  let l := s.link.evtOpen
  if l = [] then s
  else ({ s with link := { s.link with evtOpen := [] } } : State).sendFrame 1 (l.flatMap fun e => [e.w0, e.w1, e.w2, e.w3])

/-- Carry an event on stream 0x01 while OPL is UP, closing the frame at 64 events; otherwise remember the oldest one not
carried (R99, R100, R403). -/
def State.evtToLink (s : State) (e : EvtRec) : State :=
  if s.linkUp then
    let at_ := if s.link.evtOpen = [] then s.now else s.link.evtAt
    let s := { s with link := { s.link with evtOpen := s.link.evtOpen ++ [e], evtAt := at_ } }
    if 64 ≤ s.link.evtOpen.length then s.closeEvents else s
  else match s.sys.firstUnsent with
    | some _ => s
    | none => { s with sys := { s.sys with firstUnsent := some s.sys.evtSeq } }

/-- Post an event at time t (R98): numbered, written to the ring or held, and carried on stream 0x01. -/
def State.postAt (s : State) (t : T48) (code cls : Nat) (arg : Word) (cmd : Option Cmd := none) (sw : Bool := false) :
    State :=
  let e := evtRec code cls arg cmd sw t s.sys.evtSeq
  let s := if s.sys.ringMade then s.ringWrite e else s.holdEvt e
  let s := s.evtToLink e
  { s with sys := { s.sys with evtSeq := s.sys.evtSeq + 1 } }

/-- Post an event with the present time, stamped by Tilin (R438). -/
def State.post (s : State) (code cls : Nat) (arg : Word) (cmd : Option Cmd := none) : State :=
  s.postAt s.now code cls arg cmd true

/-- Where a rate-limited event keeps its count, and whether an event that is posted at once counts itself: "records dropped
since the last" does, "not posted since the last" does not (R147, R206, R248, R276, R305, R329, R424, R480, R538, R583;
log entry 6). -/
def limitField (code : Nat) : Option (Nat × Nat × Bool) :=
  match code with
  | 0x0401 => some (12, 16, false)
  | 0x0405 => some (0, 16, true)
  | 0x0406 => some (0, 16, true)
  | 0x0505 => some (12, 16, false)
  | 0x0707 => some (8, 16, false)
  | 0x0201 => some (8, 16, false)
  | 0x020F => some (16, 16, false)
  | 0x0302 => some (7, 16, false)
  | 0x0303 => some (6, 16, false)
  | 0x0501 => some (6, 16, false)
  | 0x0508 => some (6, 16, false)
  | 0x0607 => some (9, 16, false)
  | 0x0905 => some (0, 16, false)
  | 0x0B03 => some (0, 16, true)
  | _ => none

/-- The argument of an event that is posted at once for n occurrences that come together. -/
def limitArg (code : Nat) (arg : Word) (n : Nat) : Word :=
  match limitField code with
  | some (lo, w, incl) => putField arg lo w (satN w (if incl then n else n - 1))
  | none => arg

/-- The argument of the event at the end of a window that suppressed n occurrences: it stands for the last and carries
those before it (R273, R637). -/
def closeArg (code : Nat) (arg : Word) (n : Nat) : Word :=
  match limitField code with
  | some (lo, w, _) => putField arg lo w (satN w (n - 1))
  | none => arg

def limitKey (code scope : Nat) : Nat := 256 * code + scope

def State.window (s : State) (code scope : Nat) : Option RlWin :=
  Store.get (fun _ => none) s.sys.limits (limitKey code scope)

def State.setWindow (s : State) (code scope : Nat) (w : Option RlWin) : State :=
  { s with sys := { s.sys with limits := Store.set (fun _ => none) s.sys.limits (limitKey code scope) w } }

/-- A window has run its 1 ms. -/
def RlWin.over (w : RlWin) (t : T48) : Bool := decide (1000000 ≤ (t - w.start).toNat)

/-- The end of a posting window (R637): if it suppressed anything, one event for the last suppressed occurrence, which
starts a new window at t. -/
def State.closeWindow (s : State) (code scope : Nat) (t : T48) : State :=
  match s.window code scope with
  | none => s
  | some w =>
    if w.count = 0 then s.setWindow code scope none
    else (s.postAt w.time code clsWarn (closeArg code w.arg w.count)).setWindow code scope (some ⟨t, 0, 0, 0⟩)

/-- An occurrence, or n that come together, of an event posted at most once per 1 ms for its scope (R637). -/
def State.postLimited (s : State) (code scope : Nat) (arg : Word) (t : T48) (n : Nat := 1) : State :=
  let fresh (s : State) := (s.postAt t code clsWarn (limitArg code arg n)).setWindow code scope (some ⟨s.now, 0, 0, 0⟩)
  match s.window code scope with
  | none => fresh s
  | some w =>
    if w.over s.now then
      if w.count = 0 then fresh s
      else
        let s' := s.closeWindow code scope (w.start + 1000000)
        match s'.window code scope with
        | some w' =>
          if w'.over s.now then fresh s'
          else s'.setWindow code scope (some { w' with count := n, arg := arg, time := t })
        | none => fresh s'
    else s.setWindow code scope (some { w with count := w.count + n, arg := arg, time := t })

/-! ### The counter's advance (R425-R428) -/

/-- TIME_WRAP for every wrap of TIME_NS that an advance reaches (R428). -/
def State.postWraps (s : State) (first : Int) : Nat → State
  | 0 => s
  | n + 1 =>
    State.postWraps
      (s.postAt (BitVec.ofInt 48 (first * 2 ^ 32)) 0x0801 clsInfo (toWord ((first % 65536).toNat))) (first + 1) n

/-- Move the counter forward to a reading in 2^-56 ns, posting TIME_WRAP for the wraps reached. -/
def State.advanceTo (s : State) (ticks : Int) : State :=
  let w0 := s.time.ticks / 2 ^ 88
  let w1 := ticks / 2 ^ 88
  ({ s with time := { s.time with ticks := ticks } } : State).postWraps (w0 + 1) (w1 - w0).toNat

/-- One advance (R425), with the samples of its FS cycles. -/
def State.tick (s : State) : State := if s.time.running then (s.pass 1).advanceTo (s.time.ticks + s.increment) else s

/-- Time passes, by whole advances, up to the first at or after t; no time passes when t is past (log entry 5). -/
def State.elapseTo (s : State) (t : T48) : State :=
  if s.time.running = false ∨ atOrAfter s.now t = true then s
  else
    let ahead : Int := (t - s.now).toNat
    let goal := (s.time.ticks / 2 ^ 56 + ahead) * 2 ^ 56
    let n := (goal - s.time.ticks + s.increment - 1) / s.increment
    (s.pass n.toNat).advanceTo (s.time.ticks + n * s.increment)

/-- Time passes by a duration in ns. -/
def State.elapse (s : State) (ns : Nat) : State := s.elapseTo (tAdd s.now ns)

/-! ### Faults: raising, logging, queueing (R562-R568). What a recovery does stands in Faults.lean. -/

/-- Severity of a fault code (R564). -/
def faultSev (code : Nat) : Option Nat :=
  match code with
  | 0x0101 => some 1 | 0x0102 => some 4 | 0x0103 => some 2 | 0x0104 => some 3
  | 0x0201 => some 3 | 0x0202 => some 2 | 0x0203 => some 2 | 0x0204 => some 2
  | 0x0205 => some 4 | 0x0206 => some 1 | 0x0207 => some 1
  | 0x0301 => some 1 | 0x0302 => some 2 | 0x0303 => some 2
  | 0x0401 => some 2 | 0x0402 => some 1
  | 0x0501 => some 1 | 0x0502 => some 1 | 0x0503 => some 1 | 0x0504 => some 3
  | 0x0601 => some 0 | 0x0602 => some 1 | 0x0701 => some 0
  | 0x0901 => some 3 | 0x0902 => some 3 | 0x0903 => some 3 | 0x0904 => some 3 | 0x0905 => some 4
  | _ => none

/-- The 28 codes in table order (R564, R633). -/
def faultCodes : List Nat :=
  [0x0101, 0x0102, 0x0103, 0x0104, 0x0201, 0x0202, 0x0203, 0x0204, 0x0205, 0x0206, 0x0207, 0x0301, 0x0302, 0x0303,
   0x0401, 0x0402, 0x0501, 0x0502, 0x0503, 0x0504, 0x0601, 0x0602, 0x0701, 0x0901, 0x0902, 0x0903, 0x0904, 0x0905]

/-- Code, severity and unit as FLT_CUR lays them out (R582). -/
def faultWord (code sev unit : Nat) : Word := toWord (code % 65536 + 65536 * (sev % 8) + 2 ^ 24 * (unit % 256))

/-- Outcomes of a recovery (R580). -/
def outDone : Nat := 1
def outCleared : Nat := 2
def outInterrupted : Nat := 3
def outFailed : Nat := 4
def outPending : Nat := 5

/-- Write a log entry and move FLT_LOG_WR on (R580). -/
def State.logFault (s : State) (code sev unit outcome : Nat) (queued dropped merged : Bool) (arg : Word) : State :=
  let n := s.fld F.FLT_LOG_WR_wr
  let b (x : Bool) (k : Nat) : Nat := if x then 2 ^ k else 0
  let w2 := s.timeWraps + 65536 * s.fld F.FLT_RESET_boots + 2 ^ 24 * outcome + b queued 27 + b dropped 28 + b merged 29
  ((((s.setReg .FLT_LOG (4 * n) (faultWord code sev unit)).setReg .FLT_LOG (4 * n + 1) s.timeNs).setReg
    .FLT_LOG (4 * n + 2) (toWord w2)).setReg .FLT_LOG (4 * n + 3) arg).setFld F.FLT_LOG_WR_wr 0 ((n + 1) % 64)

/-- Set the outcome of a log entry (R580). -/
def State.logOutcome (s : State) (n outcome : Nat) : State :=
  s.setReg .FLT_LOG (4 * n + 2) (putField (s.reg .FLT_LOG (4 * n + 2)) 24 3 outcome)

/-- RECOVERY_DONE (R583). -/
def State.postRecovery (s : State) (e : FaultEnt) (outcome : Nat) : State :=
  (s.logOutcome e.log outcome).post 0x0B02 clsDone
    (toWord (e.code + 65536 * e.sev + 2 ^ 19 * outcome + 2 ^ 22 * (e.unit % 256)))

/-- FLT_STAT and FLT_CUR as the recoveries stand (R582). -/
def State.faultRegs (s : State) : State :=
  let s := (s.setFld F.FLT_STAT_q_depth 0 s.flt.queue.length).setFlag F.FLT_STAT_interrupted 0
    s.flt.interrupted.isSome
  match s.flt.running with
  | some e => ((s.setFld F.FLT_STAT_running 0 1).setFld F.FLT_STAT_run_sev 0 e.sev).setReg .FLT_CUR 0
      (faultWord e.code e.sev e.unit)
  | none => ((s.setFld F.FLT_STAT_running 0 0).setFld F.FLT_STAT_run_sev 0 0)

/-- FLT_NMI for a fault (R578, R582). -/
def State.nmi (s : State) (code : Nat) : State :=
  match code with
  | 0x0201 => s.setFld F.FLT_NMI_refclk 0 1
  | 0x0901 => s.setFld F.FLT_NMI_mgmt 0 1
  | 0x0902 => s.setFld F.FLT_NMI_mgmt 0 1
  | 0x0903 => s.setFld F.FLT_NMI_mgmt 0 1
  | 0x0104 => s.setFld F.FLT_NMI_sag 0 1
  | 0x0904 => s.setFld F.FLT_NMI_sag 0 1
  | 0x0504 => s.setFld F.FLT_NMI_thermal 0 1
  | 0x0204 => s.setFld F.FLT_NMI_hosc_suspect 0 1
  | _ => s

/-- FAULT (R583). -/
def State.postFault (s : State) (code sev unit : Nat) (queued preempted : Bool) : State :=
  s.postAt s.now 0x0B01 (if sev = 1 then clsWarn else clsFault)
    (toWord (code + 65536 * sev + 2 ^ 19 * (unit % 256) + (if queued then 2 ^ 27 else 0) +
      (if preempted then 2 ^ 28 else 0)))

/-- The newest of the lowest-ranking queued entries below a severity (R568). -/
def displaced (sev : Nat) (q : List FaultEnt) : Option FaultEnt :=
  let below := q.filter fun e => decide (e.sev < sev)
  let least := below.foldl (fun m e => min m e.sev) 5
  (below.filter fun e => e.sev = least).getLast?

/-- Remove the last entry equal to e. -/
def removeEnt (e : FaultEnt) (q : List FaultEnt) : List FaultEnt := (q.reverse.erase e).reverse

/-- A displaced fault (R568). -/
def State.displace (s : State) : State :=
  (s.setFld F.FLT_STAT_qovf 0 1).postLimited 0x0B03 0 0 s.now

/-- A fault of S2 or S3 meets the recoveries (R565, R568). -/
def State.recoverOrQueue (s : State) (code sev unit : Nat) (arg : Word) : State :=
  let n := s.fld F.FLT_LOG_WR_wr
  match s.flt.queue.find? fun e => e.code = code ∧ e.unit = unit with
  | some e =>
    let e' := { e with merges := e.merges + 1 }
    let s := s.logFault code sev unit outPending true false true (toWord (e.merges + 1))
    ({ s with flt := { s.flt with queue := s.flt.queue.map fun x => if x = e then e' else x } } : State).postFault
      code sev unit true false
  | none =>
    let ent : FaultEnt := { code := code, unit := unit, sev := sev, log := n }
    match s.flt.running with
    | none =>
      let s := s.logFault code sev unit outPending false false false arg
      ({ s with flt := { s.flt with running := some ent } } : State).postFault code sev unit false false
    | some r =>
      if r.sev < sev then
        let s := s.logFault code sev unit outPending false false false arg
        let s := s.postFault code sev unit false true
        let s := s.postRecovery r outInterrupted
        { s with flt := { s.flt with running := some ent, interrupted := some r } }
      else if s.flt.queue.length < 16 then
        let s := s.logFault code sev unit outPending true false false arg
        ({ s with flt := { s.flt with queue := s.flt.queue ++ [ent] } } : State).postFault code sev unit true false
      else match displaced sev s.flt.queue with
        | some d =>
          let s := s.logFault code sev unit outPending true false false arg
          let s := s.setReg .FLT_LOG (4 * d.log + 2)
            (putField (putField (s.reg .FLT_LOG (4 * d.log + 2)) 28 1 1) 24 3 0)
          let s := { s with flt := { s.flt with queue := removeEnt d s.flt.queue ++ [ent] } }
          (s.postFault code sev unit true false).displace
        | none =>
          let s := s.logFault code sev unit 0 false true false arg
          (s.postFault code sev unit true false).displace

/-- Raise a fault of S0 to S3 (R562-R568): counted, logged, posted, and its recovery started, queued or pre-empting.
The radio mute of S3 and what a recovery does are the caller's (Faults.lean). -/
def State.raiseFault (s : State) (code unit : Nat) (arg : Word := 0) : State :=
  match faultSev code with
  | none => s
  | some sev =>
    let n := Store.get (fun _ => 0) s.flt.counts code + 1
    let s := { s with flt := { s.flt with counts := Store.set (fun _ => 0) s.flt.counts code n } }
    let s := (s.bump F.FLT_CNT_faults 0).setReg .FLT_LAST 0 (faultWord code sev unit)
    match sev with
    | 0 => s.logFault code 0 unit 0 false false false arg
    | 1 => (s.logFault code 1 unit 0 false false false arg).postFault code 1 unit false false
    | _ => ((s.recoverOrQueue code sev unit arg).faultRegs.nmi code).setFld F.SYS_IRQ_STAT_fault 0 1

/-- LATE (R443, R447) with the faults it raises (R564): time_ns is C. -/
def State.postLate (s : State) (unit crossing : Nat) (c : T48) : State :=
  let s := s.postAt c 0x0803 clsLate (toWord (unit % 16 + 16 * (crossing % 16)))
  let s := s.raiseFault 0x0601 unit
  let times := s.recent s.flt.lates 100000000
  let quiet := match s.flt.lateBurst with
    | some t => decide (1000000000 ≤ (s.now - t).toNat)
    | none => true
  let s := { s with flt := { s.flt with lates := times } }
  if 16 ≤ times.length ∧ quiet = true then
    ({ s with flt := { s.flt with lateBurst := some s.now } } : State).raiseFault 0x0602 0
  else s

/-! ### Modes -/

/-! ### The placement policy per mode (R233) -/

/-- The defaults of R233; decibels in 0.25 dB steps, DPD_MIN in sixteenths of a Skillet. RET_TILES are those Tilin writes
before READY. -/
def policyDefault (mode : Nat) : Policy :=
  let base : Policy :=
    { ctxMax := 256, combineMax := 3, combineDb := 24, captureDb := 24, sidelobeDb := 52, evictMargin := 16,
      sicEn := false, retTiles := 0, retHoldMs := 2000, sicRetryMax := 2, sicFree := 8, dpdMin := 8, recFalse := false }
  match mode with
  | 1 => { base with ctxMax := 64, combineMax := 2, dpdMin := 0 }
  | 3 => { base with combineMax := 4, combineDb := 36, sicEn := true, retHoldMs := 5000 }
  | 6 => { base with ctxMax := 128, combineMax := 2, dpdMin := 32 }
  | _ => base

def State.policyOf (s : State) (mode : Nat) : Policy := Store.get policyDefault s.rxb.policy mode

def State.setPolicy (s : State) (mode : Nat) (p : Policy) : State :=
  { s with rxb := { s.rxb with policy := Store.set policyDefault s.rxb.policy mode p } }

/-- The modes that have a policy. -/
def policyModes : List Nat := [1, 2, 3, 6]

/-! ### The placement log (R235) -/

/-- Kinds of entry. -/
def lgOpen : Nat := 1
def lgExit : Nat := 2
def lgEvict : Nat := 3
def lgUnplaced : Nat := 4
def lgDest : Nat := 5
def lgRetain : Nat := 6
def lgSicJob : Nat := 7
def lgPolicy : Nat := 8
def lgLimit : Nat := 9

/-- Write an entry: words 1 to 3, then word 0. -/
def State.logPlace (s : State) (kind ctx : Nat) (t : T48) (a b : Nat) : State :=
  match s.rxb.log with
  | none => s
  | some l =>
    let at_ := tileAddr l.tile + 16 * (l.next % (256 * l.count))
    let s := s.setMemWords (at_ + 4) [toWord t.toNat, toWord a, toWord b]
    let s := s.setMemWord at_ (toWord (kind + 256 * ctx + 65536 * (s.rxb.logSeq % 65536)))
    { s with rxb := { s.rxb with log := some { l with next := l.next + 1 }, logSeq := s.rxb.logSeq + 1 } }

/-- QUARANTINED tiles in a key range. -/
def State.quarIn (s : State) (lo hi : Nat) : Nat :=
  (s.mem.tiles.filter fun p => decide (lo ≤ p.1 ∧ p.1 < hi ∧ p.2.state = .quarantined)).length

/-- C_lim of R221 for the mode in force: CTX_MAX, 256, and a sixteenth of the pool tiles not quarantined. -/
def State.cLimit (s : State) : Nat :=
  let ctxMax := if s.modeNo ∈ policyModes then (s.policyOf s.modeNo).ctxMax else 256
  min (min ctxMax 256) ((4096 - s.quarIn 2048 6144) / 16)

/-- CTX_LIMIT and a LIMIT entry when C_lim has changed (R221, R235, R248); `tiles` says whether tiles or policy changed it. -/
def State.updateLimit (s : State) (tiles : Bool) : State :=
  if s.cLimit = s.rxb.cLim then s
  else
    let n := s.cLimit
    let s := ({ s with rxb := { s.rxb with cLim := n } } : State).logPlace lgLimit 255 s.now n 0
    s.post 0x0402 clsInfo (toWord (n + if tiles then 512 else 0))

/-! ### Claims (R91-R97) -/

/-- Resource types (R91). -/
def resGpio : Nat := 1
def resTc : Nat := 2
def resDma : Nat := 3
def resOrx : Nat := 4
def resStrobe : Nat := 5
def resAux : Nat := 6
def resTile : Nat := 7

def claimKey (ty i : Nat) : Nat := 8192 * ty + i

/-- What Tilin holds at all times (R450, R464): the event ring's tiles, its own tiles, the pool, DMA channels 28 to
31. -/
def tilinHolds (ty i : Nat) : Option Claim :=
  if ty = resTile then
    if i < 16 then some ⟨0, 0, true, 4, 0⟩
    else if i < 128 then some ⟨0, 0, true, 15, 0⟩
    else if 2048 ≤ i ∧ i < 6144 then some ⟨0, 0, true, 6, 0⟩
    else none
  else if ty = resDma ∧ 28 ≤ i ∧ i < 32 then some ⟨0, 0, true, 15, 0⟩
  else none

/-- What an index reads as while no claim lists it. -/
def claimDefault (k : Nat) : Option Claim := tilinHolds (k / 8192) (k % 8192)

/-- The owner of an index (R92). -/
def State.owner (s : State) (ty i : Nat) : Option Claim := Store.get claimDefault s.sys.claims (claimKey ty i)

def State.setOwner (s : State) (ty i : Nat) (c : Option Claim) : State :=
  { s with sys := { s.sys with claims := Store.set claimDefault s.sys.claims (claimKey ty i) c } }

/-- An index is held by a mailbox. -/
def State.holds (s : State) (mbx ty i : Nat) : Bool :=
  match s.owner ty i with
  | some c => !c.internal && decide (c.mbx = mbx)
  | none => false

/-- An index is held by a mailbox whose claim came from this port (R72); Tilin's own port reaches everything. -/
def State.portHolds (s : State) (p : Port) (ty i : Nat) : Bool :=
  match p with
  | .tilin => true
  | _ => match s.owner ty i with
    | some c => !c.internal && decide (c.port = p.idx)
    | none => false

/-- Word 1 of R93 for an index. -/
def State.ownerWord (s : State) (ty i : Nat) : Word :=
  toWord (ty + 256 * (i % 256) + match s.owner ty i with
    | none => 0
    | some c => if c.internal then 2 ^ 20 + 2 ^ 21 + 2 ^ 24 * c.sub
      else 65536 * c.mbx + 2 ^ 19 * c.port + 2 ^ 21)

/-! ### Uses of a tile (R457) -/

/-- Larder bank of a tile (R448). -/
def bankOf (t : Nat) : Nat := t / 768

/-- QUARANTINED tiles of a Larder bank. -/
def State.bankQuar (s : State) (b : Nat) : Nat :=
  (s.mem.tiles.filter fun p => decide (768 * b ≤ p.1 ∧ p.1 < 768 * (b + 1) ∧ p.2.state = .quarantined)).length

/-- Quarantine counts in MEM_LAR_STAT and MEM_PAN_STAT (R478). -/
def State.quarRegs (s : State) : State :=
  ((s.setFld F.MEM_LAR_STAT_quar 0 (s.quarIn 0 6144)).setFld F.MEM_LAR_STAT_banks 0
    ((List.range 8).foldl (fun m b => if 32 ≤ s.bankQuar b then m + 2 ^ b else m) 0)).setFld
    F.MEM_PAN_STAT_quar 0 (s.quarIn 0x400000 0x800000)

/-- A use of a tile begins. -/
def State.useTile (s : State) (k : Nat) : State :=
  let t := s.tile k
  s.setTile k { t with uses := t.uses + 1 }

/-- A use of a tile ends and leaves it in a state; the last use ends a tile of a quarantined bank as QUARANTINED. -/
def State.endUse (s : State) (k : Nat) (t : Tile) : State :=
  let t := { t with uses := t.uses - 1 }
  if t.state ≠ .quarantined ∧ k < 6144 ∧ 32 ≤ s.bankQuar (bankOf k) ∧ t.uses = 0 then
    ((s.setTile k { t with state := .quarantined, sum := 0 }).quarRegs).updateLimit true
  else s.setTile k t

/-- A use of a tile ends; the tile keeps its state and its checksum. -/
def State.dropUse (s : State) (k : Nat) : State := s.endUse k (s.tile k)

/-- A use of a tile ends and the tile is OPEN again, unless it is QUARANTINED. -/
def State.releaseTile (s : State) (k : Nat) : State :=
  let t := s.tile k
  s.endUse k (if t.state = .quarantined then t else { t with state := .open, sum := 0 })

/-- Release a list of tiles. -/
def State.releaseTiles (s : State) (l : List Nat) : State := l.foldl State.releaseTile s

/-! ### The event ring's place (R101, R450, R609) -/

/-- The tiles of the ring, which are in use as long as it lies there. -/
def State.ringHas (s : State) (t : Nat) : Bool :=
  s.sys.ringMade && decide (s.sys.ringTile ≤ t ∧ t < s.sys.ringTile + s.sys.ringTiles)

/-- The ring leaves its tiles (R457). -/
def State.leaveRing (s : State) : State :=
  if s.sys.ringMade then (List.range s.sys.ringTiles).foldl (fun s i => s.dropUse (s.sys.ringTile + i)) s else s

/-- A Larder tile free for a claim: nobody holds it, and it is not QUARANTINED (R450). -/
def State.tileFree (s : State) (t : Nat) : Bool :=
  decide (128 ≤ t ∧ t < 2048) && (s.owner resTile t).isNone && decide ((s.tile t).state ≠ .quarantined)

/-- The lowest run of n free tiles from tile 128 upward. -/
def State.freeRun (s : State) (n : Nat) : Option Nat :=
  ((List.range 1920).map (128 + ·)).find? fun t => (List.range n).all fun i => s.tileFree (t + i)

/-- Where a ring of n tiles goes. -/
def State.ringSpot (s : State) (n : Nat) : Option Nat :=
  if n ≤ 16 ∧ (List.range 16).all (fun t => decide ((s.tile t).state ≠ .quarantined)) = true then some 0 else s.freeRun n

/-- A run of tiles changes hands. -/
def State.ownRun (s : State) (first n : Nat) (c : Option Claim) : State :=
  (List.range n).foldl (fun s i => s.setOwner resTile (first + i) c) s

/-- Place a ring of 2^k entries: it starts empty; unread entries of the old one set overrun. None: no room. -/
def State.placeRing (s : State) (k : Nat) : Option State :=
  let n := max 1 (2 ^ k / 256)
  let s := s.leaveRing
  match s.ringSpot n with
  | none => none
  | some t =>
    let unread := s.sys.ringMade && decide (s.fld F.SYS_EVT_WR_wr ≠ s.fld F.SYS_EVT_RD_rd)
    let s := if 128 ≤ s.sys.ringTile then s.ownRun s.sys.ringTile s.sys.ringTiles none else s
    let s := if 128 ≤ t then s.ownRun t n (some ⟨0, 0, true, 4, 0⟩) else s
    let s := (s.setReg .SYS_EVT_BASE 0 (toWord (tileAddr t))).setFld F.SYS_EVT_CTL_size_log2 0 k
    let s := (s.setFld F.SYS_EVT_WR_wr 0 0).setFld F.SYS_EVT_RD_rd 0 0
    let s := if unread then (s.setFld F.SYS_EVT_CTL_overrun 0 1).setFld F.SYS_IRQ_STAT_evt_overrun 0 1 else s
    some { s with sys := { s.sys with ringMade := true, ringTile := t, ringTiles := n } }

/-- The recovery of BANK_QUAR (R571): the ring is created afresh if it lay in the bank. -/
def State.bankMoved (s : State) (b : Nat) : State :=
  if s.sys.ringMade = true ∧ s.sys.ringTile / 768 ≤ b ∧ b ≤ (s.sys.ringTile + s.sys.ringTiles - 1) / 768 then
    (s.placeRing (s.fld F.SYS_EVT_CTL_size_log2)).getD s
  else s

/-- Raise a fault, and take `start` when its recovery starts at once (R565). -/
def State.raiseThen (s : State) (code unit : Nat) (arg : Word) (start : State → State) : State :=
  let n := s.raiseFault code unit arg
  if n.flt.running ≠ s.flt.running then start n else n

/-- A loss of lock of a PLL is noted: true for the third within 1 s (R564). Synthesiser k, and 8 + q for the sample-clock PLL of
quadrant q. -/
def State.thirdLoss (s : State) (k : Nat) : Bool × State :=
  let times := s.recent (Store.get (fun _ => []) s.flt.unlocks k) 1000000000
  if 3 ≤ times.length then
    (true, { s with flt := { s.flt with unlocks := Store.set (fun _ => []) s.flt.unlocks k [] } })
  else (false, { s with flt := { s.flt with unlocks := Store.set (fun _ => []) s.flt.unlocks k times } })

/-! ### Tile verification and quarantine (R452-R457) -/

/-- Quarantine every tile of a bank that is not in use (R457). -/
def State.quarIdle (s : State) (b : Nat) : State :=
  (List.range 768).foldl (fun s i =>
    let t := s.tile (768 * b + i)
    if t.uses = 0 ∧ t.state ≠ .quarantined ∧ s.ringHas (768 * b + i) = false then
      s.setTile (768 * b + i) { t with state := .quarantined }
    else s) s

/-- The contents of the Pantry are lost (R451, R463): backlog records are counted, candidates expire, regeneration data and
retention go, and SURVEY changes to HOLD at the next 1 ms boundary (R29). -/
def State.losePantry (s : State) : State :=
  let held := s.rxb.backlog.foldl (fun n t => n + t.recs.length) 0
  let s := s.loseBank 8
  let s := { s with mem := { s.mem with
      tiles := Store.mapVals (fun _ => ({} : Tile)) (fun k (t : Tile) =>
        if k < 0x400000 then t else if t.state = TileState.quarantined then { t with uses := 0 } else {}) s.mem.tiles
      pantryUse := [] } }
  let s := { s with rxb := { s.rxb with
      backlog := [], blLost := s.rxb.blLost + held, regen := [], retUsed := 0
      cands := (s.rxb.cands.filter fun (c : Cand) => s.rxb.ctx.any fun x => x.2.retry && decide (x.2.cand = c.ctxNo ∧ x.2.det = c.ctx.det)).map
        fun (c : Cand) => { c with expiry := s.now, queued := false, ctx := { c.ctx with retTiles := [] } }
      ctx := Store.mapVals (fun _ => ({} : Ctx)) (fun _ x => { x with retained := false, retTiles := [] }) s.rxb.ctx } }
  let s := { s with dp := { s.dp with
      eq := Store.mapVals (fun _ => none) (fun k (o : Option EqSt) => if 256 ≤ k then none else o.map fun e =>
        { e with retain := false, ret := [], src := e.src.map fun r => { r with rest := [] } }) s.dp.eq } }
  if s.modeNo = mSurvey ∧ s.mode.forced = none then
    { s with mode := { s.mode with forced := some (1, BitVec.ofNat 48 ((s.now.toNat / 1000000 + 1) * 1000000)) } }
  else s

/-- A change of the Pantry's state (R462): state and cause, no_sic in REACH (R41, R57, R463), what its loss loses,
MEM_PANTRY, and PANTRY_FAIL at FAILED (R480, R564). -/
def State.pantryTo (s : State) (st cause : Nat) : State :=
  let had := s.panFitted
  let s := (s.setFld F.MEM_PAN_STAT_state 0 st).setFld F.MEM_PAN_STAT_fail_cause 0 cause
  let s := s.setFlag F.SYS_MODE_no_sic 0 (decide (s.modeNo = mReach) && !s.panFitted)
  let s := if had = true ∧ (st = 4 ∨ st = 5) then s.losePantry.quarRegs else s
  let s := s.post 0x0904 clsInfo (toWord (st + 16 * cause + 256 * s.fld F.MEM_PAN_USABLE_tiles))
  if st = 5 then s.raiseFault 0x0303 cause else s

/-- Quarantine a tile for a consumer (R455): the tile, MEM_TILE_LAST, MEM_TILE_BAD, the TILE_BAD fault, and the bank or
the Pantry when that fills its share (R457, R458). -/
def State.quarantine (s : State) (k consumer : Nat) : State :=
  let t := s.tile k
  let s := (s.setTile k { t with state := .quarantined }).quarRegs
  let pan := decide (0x400000 ≤ k)
  let idx := if pan then k - 0x400000 else k
  let w := idx + (if pan then 2 ^ 22 else 0)
  let full := !pan && decide (s.bankQuar (bankOf k) = 32)
  let s := s.setReg .MEM_TILE_LAST 0 (toWord (w + 2 ^ 23 + 2 ^ 24 * consumer))
  let s := s.post 0x0903 clsFault (toWord (w + 2 ^ 23 * consumer + (if full then 2 ^ 27 else 0)))
  let s := s.raiseFault 0x0301 consumer
  let s := if full then ((s.quarIdle (bankOf k)).quarRegs).raiseThen 0x0302 (bankOf k) 0 (fun s => s.bankMoved (bankOf k))
    else s
  let s := if pan ∧ s.quarIn 0x400000 0x800000 = 4096 ∧ s.pantryReady = true then s.pantryTo 5 4 else s
  s.updateLimit true

/-- Open a tile for a consumer (R454, R455): true when its contents may be used. An OPEN tile is sealed first when it
is a command input. -/
def State.openTile (s : State) (k consumer : Nat) (sealFirst : Bool) : Bool × State :=
  match (s.tile k).state with
  | .open => (true, if sealFirst then s.sealTile k else s)
  | .quarantined => (false, s)
  | .sealed => if (s.tile k).sum = s.tileSum k then (true, s) else (false, s.quarantine k consumer)

/-- The first tile of a run that does not open; opening a tile seals no other. -/
def State.badTile (s : State) (first consumer n : Nat) : Option Nat :=
  ((List.range n).map (first + ·)).find? fun k => !(s.openTile k consumer false).1

/-- Open the tiles [first, first + n) for a consumer; at the first that fails the others stay as they are. -/
def State.openTiles (s : State) (first consumer : Nat) (sealFirst : Bool) (n : Nat) : Bool × State :=
  match s.badTile first consumer n with
  | some k => (false, (s.openTile k consumer false).2)
  | none => (true, ((List.range n).map (first + ·)).foldl (fun s k => (s.openTile k consumer sealFirst).2) s)

/-! ### Responses (R80, R87, R602) -/

def stOk : Nat := 0
def stAccepted : Nat := 1
def stBusy : Nat := 2
def stBadOpcode : Nat := 3
def stBadArg : Nat := 4
def stHeld : Nat := 5
def stNotReady : Nat := 6
def stLate : Nat := 7
def stMode : Nat := 8
def stNoMem : Nat := 9
def stCalReject : Nat := 10
def stLocked : Nat := 11
def stFault : Nat := 12
def stTimeout : Nat := 13

/-- ST_OK with result words. -/
def rspOk (ws : List Word := []) : Rsp := { status := stOk, words := ws }

/-- ST_ACCEPTED: an event reports the outcome (R86). -/
def rspAccepted : Rsp := { status := stAccepted, evtFollows := true }

/-- A status with length 0 (R602). -/
def rspErr (st : Nat) : Rsp := { status := st }

/-- ST_HELD naming an index (R93, R97). -/
def State.rspHeld (s : State) (ty i : Nat) : Rsp := { status := stHeld, words := [s.ownerWord ty i] }

/-- CMD_DONE (R99). -/
def State.cmdDone (s : State) (c : Cmd) (status specific : Nat) : State :=
  s.post 0x0101 clsDone (toWord (status + 256 * specific)) (some c)

/-- The stage of SYS_STATE (R111). -/
def State.stage (s : State) : Nat := s.fld F.SYS_STATE_stage

/-- An S3 recovery runs (R570). -/
def State.s3Running (s : State) : Bool :=
  match s.flt.running with
  | some e => decide (e.sev = 3)
  | none => false

/-- A unit is under recovery by code (R570). -/
def State.underRecovery (s : State) (code unit : Nat) : Bool :=
  match s.flt.running with
  | some e => decide (e.code = code ∧ e.unit = unit)
  | none => false

/-- First index of [first, first + n) that a mailbox does not hold. -/
def State.firstUnheld (s : State) (mbx ty first n : Nat) : Option Nat :=
  ((List.range n).map (first + ·)).find? fun i => !s.holds mbx ty i

end Sys2Proof.Machine
end

