-- ==== Sys2Proof/Machine/Operands.lean ====
section
/-! DEFINITION. The forms of command arguments (R604), the tests every command makes before its own (R570, R602), and
staging the response. -/

namespace Sys2Proof.Machine

/-- What the command reference gives a command: opcode, argument words, the bits of each argument word that are not
reserved (words beyond the list: all), whether it is served before READY (R88), by Trivet (R89), and whether it
schedules a radio-visible action (R570). -/
structure CmdSpec where
  opcode : Nat
  minLen : Nat := 0
  maxLen : Nat := 0
  masks : List Nat := []
  early : Bool := false
  trivet : Bool := false
  radio : Bool := false
  /-- The units a request names, each with the code of the recovery that it would be under (R564, R570). -/
  units : Req → List (Nat × Nat) := fun _ => []

/-- Quadrants of a mask as units: of the sample-clock PLL's recovery. -/
def quadUnits (m : Nat) : List (Nat × Nat) := (maskList 4 m).map fun q => (0x0202, q)

/-- Sides of a mask of quadrants as units: their quadrants and their synthesisers (R517). -/
def sideUnits (m : Nat) (tx : Bool) : List (Nat × Nat) :=
  quadUnits m ++ (maskList 4 m).map fun q => (0x0203, 2 * q + if tx then 1 else 0)

/-- Masks of the shared forms (R604). -/
def mAll : Nat := 0xFFFFFFFF
def mSched : List Nat := [0x8000000F, 0xFFFFFFFF, 0x0000FFFF]
def mRegion : Nat := 0x1FFF1FFF

/-- Every reserved argument bit is 0 (R602). -/
def reservedOk (masks : List Nat) (args : List Word) : Bool :=
  (List.range args.length).all fun i =>
    decide (((args.getD i 0).toNat) &&& (0xFFFFFFFF ^^^ (masks.getD i mAll)) = 0)

/-- The block that serves a command can serve it (R88, R89): Tilin from READY, its early commands from
MGMT_START, Trivet from the end of SUPPLY_CHECK. -/
def State.served (s : State) (c : CmdSpec) : Bool :=
  if c.trivet then decide (2 ≤ s.stage)
  else decide (s.stage = 7) || (c.early && decide (s.stage = 5 ∨ s.stage = 6))

/-- The tests of R602 in their order, then R570: an S3 recovery, and a unit that the request names (log entry 129). -/
def State.precheck (s : State) (c : CmdSpec) (q : Req) : Option Nat :=
  if s.served c = false then some stNotReady
  else if q.args.length < c.minLen ∨ c.maxLen < q.args.length then some stBadArg
  else if reservedOk c.masks q.args = false then some stBadArg
  else if c.radio = true ∧ s.s3Running = true then some stFault
  else if (c.units q).any (fun u => s.underRecovery u.1 u.2) = true then some stFault
  else none

def State.mbx (s : State) (n : Nat) : MbxSt := Store.get (fun _ => {}) s.sys.mbx n

def State.setMbx (s : State) (n : Nat) (m : MbxSt) : State :=
  { s with sys := { s.sys with mbx := Store.set (fun _ => {}) s.sys.mbx n m } }

/-- Stage the response of a mailbox's command until it finishes (R82). -/
def State.stageRsp (s : State) (n : Nat) (r : Rsp) : State := s.setMbx n { s.mbx n with staged := some r }

/-- Serve a command: the common tests, then its own body, then its response staged. -/
def serve (c : CmdSpec) (q : Req) (body : State → State × Rsp) (s : State) : State :=
  match s.precheck c q with
  | some st => s.stageRsp q.mbx { status := st, trivet := c.trivet }
  | none =>
    let p := body s
    p.1.stageRsp q.mbx { p.2 with trivet := c.trivet }

/-- The first test that fails answers and changes nothing; with none, the effect. -/
def State.check (s : State) (tests : List (Bool × Rsp)) (effect : State × Rsp) : State × Rsp :=
  match tests.find? (·.1) with
  | some e => (s, e.2)
  | none => effect

/-- The schedule form at argument word n (R604). -/
structure Sched where
  unit : Nat
  now : Bool
  t : T48
  deriving DecidableEq, Repr

def schedOf (q : Req) (n : Nat) : Sched :=
  { unit := bits (q.arg n) 3 0, now := bitAt (q.arg n) 31,
    t := BitVec.ofNat 48 ((q.arg (n + 1)).toNat + 2 ^ 32 * bits (q.arg (n + 2)) 15 0) }

/-- TC_CTL.arm reads 1. -/
def State.armed (s : State) (u : Nat) : Bool := s.flag F.TC_CTL_arm u

/-- The tests a schedule adds in their order: now where it is not permitted, the unit held (R97), the unit free
(R440), the lead kept. -/
def State.schedNow (d : Sched) (nowOk : Bool) : Bool × Rsp := (d.now && !nowOk, rspErr stBadArg)
def State.schedHeld (s : State) (q : Req) (d : Sched) : Bool × Rsp :=
  (!d.now && !s.holds q.mbx resTc d.unit, s.rspHeld resTc d.unit)
def State.schedBusy (s : State) (d : Sched) : Bool × Rsp := (!d.now && s.armed d.unit, rspErr stBusy)
def State.schedLate (s : State) (d : Sched) (leadNs : Nat) : Bool × Rsp :=
  (!d.now && !atOrAfter d.t (s.now + BitVec.ofNat 48 leadNs), rspErr stLate)

/-- Arm a unit for a command (R440): action code, compare time, cmd_armed. -/
def State.armCmd (s : State) (u : Nat) (t : T48) (code : Nat) (a : TcAction) : State :=
  let s := (s.setReg .TC_CMP_NS u (toWord t.toNat)).setReg .TC_CMP_WP u (toWord (t.toNat / 2 ^ 32))
  let s := (((s.setFld F.TC_CTL_action u code).setFld F.TC_CTL_periodic u 0).setFld F.TC_CTL_arm u 1).setFld
    F.TC_CTL_cmd_armed u 1
  { s with time := { s.time with
      cmp := Store.set (fun _ => 0) s.time.cmp u t
      act := Store.set (fun _ => none) s.time.act u (some a) } }

/-- Disarm a unit. -/
def State.disarm (s : State) (u : Nat) : State :=
  let s := (s.setFld F.TC_CTL_arm u 0).setFld F.TC_CTL_cmd_armed u 0
  { s with time := { s.time with
      act := Store.set (fun _ => none) s.time.act u none } }

/-- The host registers arm a unit: C is taken (R446). -/
def State.takeC (s : State) (u : Nat) (t : T48) : State :=
  { s with time := { s.time with cmp := Store.set (fun _ => 0) s.time.cmp u t } }

/-- The region form at argument word n (R604): first tile, count. -/
def regionFirst (q : Req) (n : Nat) : Nat := bits (q.arg n) 12 0
def regionCount (q : Req) (n : Nat) : Nat := bits (q.arg n) 28 16

/-- A region that is empty, leaves the Larder, or is smaller than needed returns ST_BAD_ARG (R604). -/
def regionBad (q : Req) (n need : Nat) : Bool × Rsp :=
  (decide (regionCount q n < max 1 need ∨ 6144 < regionFirst q n + regionCount q n), rspErr stBadArg)

/-- A region must be held in full by the issuing mailbox (R97, R604). -/
def State.regionHeld (s : State) (q : Req) (n : Nat) : Bool × Rsp :=
  match s.firstUnheld q.mbx resTile (regionFirst q n) (regionCount q n) with
  | some t => (true, s.rspHeld resTile t)
  | none => (false, rspErr stHeld)

/-- Open the tiles of a command's region as input (R454, R455): with them, the effect; a tile that fails gives ST_FAULT
after its quarantine. A command that fails afterwards leaves the tiles as they were. -/
def State.withInput (s : State) (q : Req) (n tiles : Nat) (effect : State → State × Rsp) : State × Rsp :=
  match s.openTiles (regionFirst q n) 3 true tiles with
  | (true, s') =>
    let r := effect s'
    if r.2.status ≤ stAccepted then r else (s, r.2)
  | (false, s') => (s', rspErr stFault)

/-- Words of the Larder from the start of a tile. -/
def State.tileWords (s : State) (t n : Nat) : List Word := s.memWords (tileAddr t) n

/-- Write words from the start of a tile: a result a command copies to a held region (R188, R477). -/
def State.putTileWords (s : State) (t : Nat) (ws : List Word) : State := s.setMemWords (tileAddr t) ws

/-- A path mask at argument words n and n + 1 (R604). -/
def pathsOf (q : Req) (n : Nat) : Nat := pathMask (q.arg n) (q.arg (n + 1))

/-- A mask that names nothing returns ST_BAD_ARG (R604). -/
def maskEmpty (m : Nat) : Bool × Rsp := (decide (m = 0), rspErr stBadArg)

end Sys2Proof.Machine
end

