-- ==== Sys2Proof/Machine/Coding.lean ====
section
/-! DEFINITION. Chapters 06 and 07 as pure functions: profile and base-graph descriptors, the PHY header, CRC-8 and
CRC-24, base-graph selection, airtimes, min-sum decoding, records. -/

namespace Sys2Proof.Machine

/-! ### Descriptors (R207, R256) -/

/-- A profile from its descriptor words (R207). -/
def Profile.ofWords (l : List Word) : Profile :=
  let w (n : Nat) := l.getD n 0
  { chipRate := bits (w 0) 21 0, sfLog2 := bits (w 0) 27 24, modulation := bits (w 0) 29 28
    rolloff := bits (w 1) 5 0, preLen := bits (w 1) 18 8, syncLen := bits (w 1) 26 20, syncTol := bits (w 1) 29 27
    syncWord := (w 2).toNat + 2 ^ 32 * (w 3).toNat
    maxPayload := bits (w 4) 10 0, nFfe := bits (w 4) 20 16, kChip := bits (w 4) 27 24, kSym := bits (w 4) 31 28
    detSymbols := bits (w 5) 8 0, sinrMin := sgnN 8 (bits (w 5) 23 16), priority := bits (w 5) 26 24
    bgMask := bits (w 5) 31 28, code := l.drop 8 }

/-- Words of a descriptor's code: W = max(1, SF / 32). -/
def codeWords (sfLog2 : Nat) : Nat := max 1 (2 ^ sfLog2 / 32)

/-- Bits beyond chip SF - 1 are 0 (R207). -/
def codeTailOk (sfLog2 : Nat) (code : List Word) : Bool :=
  if 5 ≤ sfLog2 then true else decide ((code.getD 0 0).toNat < 2 ^ (2 ^ sfLog2))

/-- No reserved bit of a profile descriptor is set (R207). -/
def profileReservedOk (l : List Word) : Bool :=
  reservedOk [0x3F3FFFFF, 0x3FF7FF3F, mAll, mAll, 0xFF1F07FF, 0xF7FF01FF, 0, 0] l

/-- Every field of a profile descriptor lies in its range (R207, R208). -/
def Profile.valid (p : Profile) : Bool :=
  decide (62500 ≤ p.chipRate ∧ p.chipRate ≤ 4000000 ∧ 2 ≤ p.sfLog2 ∧ p.sfLog2 ≤ 12 ∧
    20 ≤ p.rolloff ∧ p.rolloff ≤ 50 ∧ 32 ≤ p.preLen ∧ p.preLen ≤ 1024 ∧ 16 ≤ p.syncLen ∧ p.syncLen ≤ 64 ∧
    1 ≤ p.nFfe ∧ p.nFfe ≤ 16 ∧ 1 ≤ p.kChip ∧ 1 ≤ p.kSym ∧ 4 ≤ p.detSymbols ∧ p.detSymbols ≤ 256 ∧
    p.bgMask ≠ 0 ∧ p.detSymbols + 18 ≤ p.preLen ∧ p.syncWord < 2 ^ p.syncLen) && codeTailOk p.sfLog2 p.code

/-- A base graph from its descriptor words (R256). -/
def BaseGraph.ofWords (l : List Word) : BaseGraph :=
  let w (n : Nat) := l.getD n 0
  let n := bits (w 1) 25 16
  { kb := bits (w 0) 5 0, mb := bits (w 0) 15 8, mCore := bits (w 0) 22 16, p := bits (w 0) 25 24
    rateMask := bits (w 1) 6 0
    zMask := (List.range 8).foldl (fun m i => m + (w (2 + i)).toNat * 2 ^ (32 * i)) 0
    entries := (List.range n).map fun i =>
      (bits (w (10 + i)) 7 0, bits (w (10 + i)) 15 8, bits (w (10 + i)) 23 16) }

/-- Lifting size Z is allowed. -/
def BaseGraph.allows (g : BaseGraph) (z : Nat) : Bool := decide (1 ≤ z) && g.zMask.testBit (z - 1)

/-- The allowed lifting sizes, ascending. -/
def BaseGraph.sizes (g : BaseGraph) : List Nat := (List.range 257).filter g.allows

/-- Z_max (R257). -/
def BaseGraph.zMax (g : BaseGraph) : Nat := g.sizes.getLastD 0

/-- Row r of the lifted parity block over rows and parity columns 0 to m - 1, as a bit mask of m Z columns. -/
def BaseGraph.parityRow (g : BaseGraph) (z m r i : Nat) : Nat :=
  g.entries.foldl (fun acc e =>
    if e.1 = r ∧ g.kb ≤ e.2.1 ∧ e.2.1 < g.kb + m then
      acc ^^^ 2 ^ ((e.2.1 - g.kb) * z + (i + e.2.2 % z) % z) else acc) 0

/-- Rank over GF(2) by elimination: each pivot row clears its lowest set column from the rest. -/
def gf2Rank : Nat → List Nat → Nat
  | 0, _ => 0
  | _, [] => 0
  | fuel + 1, r :: rows =>
    if r = 0 then gf2Rank fuel rows
    else
      let b := (List.range (r.log2 + 1)).find? fun i => r.testBit i
      1 + gf2Rank fuel (rows.map fun x => if x.testBit (b.getD 0) then x ^^^ r else x)

/-- The lifted block of rows 0 to m - 1 and parity columns 0 to m - 1 is nonsingular over GF(2) (R257). -/
def BaseGraph.nonsingular (g : BaseGraph) (z m : Nat) : Bool :=
  let rows := (List.range (m * z)).map fun k => g.parityRow z m (k / z) (k % z)
  decide (gf2Rank (m * z + 1) rows = m * z)

/-- No entry stands twice. -/
def noDup : List (Nat × Nat × Nat) → Bool
  | [] => true
  | e :: l => !(l.any fun x => decide (x.1 = e.1 ∧ x.2.1 = e.2.1 ∧ x.2.2 = e.2.2)) && noDup l

/-- Whether a base-graph descriptor passes R256 and R257. -/
def bgValid (l : List Word) : Bool :=
  let g := BaseGraph.ofWords l
  let n := bits (l.getD 1 0) 25 16
  reservedOk ([0x037FFF3F, 0x03FF007F] ++ List.replicate 8 mAll ++ List.replicate n 0x00FFFFFF) (l.take (10 + n)) &&
  decide (4 ≤ g.kb ∧ g.kb ≤ 33 ∧ 4 ≤ g.mb ∧ g.mb ≤ 104 ∧ g.kb + g.mb ≤ 136 ∧ g.p ≤ 2 ∧ g.p + 1 ≤ g.mCore ∧
    g.mCore ≤ g.mb ∧ 1 ≤ n ∧ n ≤ 1014 ∧ g.zMask % 2 = 0 ∧ 2050 ≤ g.kb * g.zMax ∧ g.kb * g.zMax ≤ 8448) &&
  (g.entries.all fun e => decide (e.1 < g.mb ∧ e.2.1 < g.kb + g.mb) &&
    decide (e.2.1 < g.kb ∨ e.2.1 - g.kb ≤ max e.1 (g.mCore - 1))) &&
  noDup g.entries &&
  (g.sizes.all fun z => (List.range (g.mb + 1 - g.mCore)).all fun i => g.nonsingular z (g.mCore + i))

/-! ### The header (R250-R252) -/

/-- One step of a left-shifting CRC register of `w` bits (R251). -/
def crcStep (w poly reg : Nat) (b : Bool) : Nat :=
  let sh := reg * 2 % 2 ^ w
  if reg.testBit (w - 1) != b then sh ^^^ poly else sh

/-- CRC-8 register after bits in order, preset 0xFF (R251). -/
def crc8 (l : List Bool) : Nat := l.foldl (crcStep 8 0x07) 0xFF

/-- CRC-24 register after bits in order, preset 0xFF_FFFF (R255). -/
def crc24 (l : List Bool) : Nat := l.foldl (crcStep 24 0x864CFB) 0xFFFFFF

/-- Number of a list of bits, first bit least significant. -/
def ofBits (l : List Bool) : Nat := l.foldr (fun b a => (if b then 1 else 0) + 2 * a) 0

/-- The bits of a register value, highest first. -/
def msbFirst (v n : Nat) : List Bool := (lowBits v n).reverse

/-- The CRC-8 field that H[31:0] calls for: register bit 7 is H[32], bit 0 is H[39] (R251). -/
def headerCrc (h : Nat) : Nat := ofBits (msbFirst (crc8 (lowBits h 32)) 8)

/-- H passes CRC-8. -/
def crc8Ok (h : Nat) : Bool := decide (h / 2 ^ 32 % 256 = headerCrc h)

/-- The fields of H (R250). -/
def Header.ofWord (h : Nat) : Header :=
  { version := h % 4, profile := h / 4 % 8, rate := h / 32 % 8, length := h / 256 % 2048,
    flags := h / 2 ^ 19 % 32, shortAddr := h / 2 ^ 24 % 256, crc8 := h / 2 ^ 32 % 256 }

/-- H[31:0] of a header. -/
def Header.low (h : Header) : Nat :=
  h.version + 4 * h.profile + 32 * h.rate + 256 * h.length + 2 ^ 19 * h.flags + 2 ^ 24 * h.shortAddr

/-- The header decided from 120 soft values: the three values of each bit are summed, and a sum of 0 or more gives 0
(R252). -/
def decideHeader (llr : List Int) : Nat :=
  ofBits ((List.range 40).map fun j =>
    decide (llr.getD j 0 + llr.getD (j + 40) 0 + llr.getD (j + 80) 0 < 0))

/-! ### Base-graph selection and airtime (R258-R261) -/

/-- Numerator and denominator of a rate code (R250). -/
def rateOf (r : Nat) : Nat × Nat :=
  match r with
  | 0 => (1, 4)
  | 1 => (1, 3)
  | 2 => (2, 5)
  | 3 => (1, 2)
  | 4 => (2, 3)
  | 5 => (3, 4)
  | _ => (5, 6)

/-- Information bits of a payload length (R255). -/
def infoBits (len : Nat) : Nat := 8 * len + 24

/-- How a slot codes a payload (R259): code blocks, bits per block, lifting size, rows, coded bits. -/
structure Fit where
  c : Nat
  ab : Nat
  z : Nat
  m : Nat
  e : Nat
  deriving DecidableEq, Repr

/-- R259 for one slot; none when the slot fails. -/
def BaseGraph.fit (g : BaseGraph) (len rate : Nat) : Option Fit :=
  let a := infoBits len
  let c := ceilDiv a (g.kb * g.zMax)
  let ab := ceilDiv a c
  let z := (g.sizes.find? fun z => decide (ab ≤ g.kb * z)).getD 0
  let (num, den) := rateOf rate
  let e (m : Nat) := a + c * (m - g.p) * z
  if z = 0 then none
  else match ((List.range (g.mb + 1 - g.mCore)).map (g.mCore + ·)).find? fun m => decide (den * a ≤ num * e m) with
    | some m => some ⟨c, ab, z, m, e m⟩
    | none => none

/-- The slots of a mask that hold a graph supporting a rate, ascending. -/
def slotsFor (slot : Nat → Option BaseGraph) (mask rate : Nat) : List (Nat × BaseGraph) :=
  (maskList 4 mask).filterMap fun i => match slot i with
    | some g => if g.rateMask.testBit rate then some (i, g) else none
    | none => none

/-- The selected slot and how it codes the payload (R259). -/
def selectGraph (slot : Nat → Option BaseGraph) (mask len rate : Nat) : Option (Nat × Fit) :=
  (slotsFor slot mask rate).findSome? fun p => (p.2.fit len rate).map fun f => (p.1, f)

/-- Payload symbols of a selection (R260). -/
def Profile.paySymbols (p : Profile) (f : Fit) : Nat := ceilDiv f.e p.bitsPerSym

/-- T_MAX in µs (R258, R261): the longest payload over every slot and rate that bg_mask admits. -/
def Profile.tMax (p : Profile) (slot : Nat → Option BaseGraph) : Nat :=
  if (maskList 4 p.bgMask).all fun i => (slot i).isNone then 0xFFFFFFFF
  else
    let pay := if p.maxPayload = 0 then 0 else
      (List.range 7).foldl (fun best r => (slotsFor slot p.bgMask r).foldl (fun best g =>
        match g.2.fit p.maxPayload r with
        | some f => max best (p.paySymbols f)
        | none => best) best) 0
    ceilDiv ((p.preLen + p.syncLen + p.headerSymbols + pay) * p.sf * 1000000) p.chipRate

/-! ### Decoding (R260, R262, R263) -/

def sat (lim x : Int) : Int := clampI (-lim) lim x

/-- Initial values of one block's positions (R260, R262): punctured 0, filler +127, the rest as received. Block c holds
`real` information bits of K. -/
def blockInit (g : BaseGraph) (f : Fit) (real : Nat) (coded : List Int) : List Int :=
  let k := g.kb * f.z
  let sentInfo := real - g.p * f.z
  (List.range ((g.kb + f.m) * f.z)).map fun v =>
    if v < g.p * f.z then (if v < real then 0 else 127)
    else if v < k then (if v < real then coded.getD (v - g.p * f.z) 0 else 127)
    else coded.getD (sentInfo + (v - k)) 0

/-- Edges of a lifted check: variable and message key, for check i of row r. -/
def BaseGraph.edges (g : BaseGraph) (z r i : Nat) : List (Nat × Nat) :=
  (g.entries.zipIdx.filter fun p => p.1.1 = r).map fun p =>
    (p.1.2.1 * z + (i + p.1.2.2 % z) % z, p.2 * z + i)

/-- Posteriors and check-to-variable messages of a block in decoding. -/
structure Bp where
  post : List Int
  msg : List (Nat × Int)

/-- One check of layered normalised min-sum (R263): magnitudes floor(|min| alpha / 16), messages to ±127, posteriors to
±511. -/
def Bp.check (b : Bp) (alpha : Nat) (edges : List (Nat × Nat)) : Bp :=
  let full := edges.map fun e => b.post.getD e.1 0 - Store.get (fun _ => 0) b.msg e.2
  let q := full.map (sat 127)
  edges.zipIdx.foldl (fun b p =>
    let others := q.eraseIdx p.2
    let least := others.foldl (fun m x => min m x.natAbs) 127
    let neg := (others.filter fun x => decide (x < 0)).length % 2 = 1
    let mag : Int := (least * alpha / 16 : Nat)
    let r := if neg then -mag else mag
    { post := b.post.set p.1.1 (sat 511 (full.getD p.2 0 + r)), msg := Store.set (fun _ => 0) b.msg p.1.2 r }) b

/-- One full iteration: rows 0 to m - 1 ascending. -/
def Bp.iterate (b : Bp) (g : BaseGraph) (f : Fit) (alpha : Nat) : Bp :=
  (List.range f.m).foldl (fun b r => (List.range f.z).foldl (fun b i => b.check alpha (g.edges f.z r i)) b) b

/-- The syndrome of the hard decisions over rows 0 to m - 1 is zero (R263): a posterior of 0 or more decides 0. -/
def Bp.clean (b : Bp) (g : BaseGraph) (f : Fit) : Bool :=
  (List.range f.m).all fun r => (List.range f.z).all fun i =>
    ((g.edges f.z r i).filter fun e => decide (b.post.getD e.1 0 < 0)).length % 2 == 0

/-- Iterate until the syndrome is zero or `left` iterations are used: decisions, iterations, converged (R263). -/
def Bp.run (g : BaseGraph) (f : Fit) (alpha : Nat) : Nat → Nat → Bp → Bp × Nat × Bool
  | 0, n, b => (b, n, false)
  | left + 1, n, b =>
    let b' := b.iterate g f alpha
    if b'.clean g f then (b', n + 1, true) else Bp.run g f alpha left (n + 1) b'

/-- Information bits that block c carries of the A bits (R260). -/
def Fit.real (f : Fit) (a c : Nat) : Nat := min f.ab (a - c * f.ab)

/-- Coded bits of block c (R260). -/
def Fit.blockLen (f : Fit) (g : BaseGraph) (a c : Nat) : Nat := f.real a c - g.p * f.z + f.m * f.z

/-- Decode block c of a payload (R260, R263): its information bits, iterations, converged. -/
def decodeBlock (g : BaseGraph) (f : Fit) (a c maxIter alpha : Nat) (llr : List Int) : List Bool × Nat × Bool :=
  let start := (List.range c).foldl (fun n i => n + f.blockLen g a i) 0
  let init := blockInit g f (f.real a c) ((llr.drop start).take (f.blockLen g a c))
  let (b, n, ok) := Bp.run g f alpha maxIter 0 { post := init, msg := [] }
  ((b.post.take (f.real a c)).map fun x => decide (x < 0), n, ok)

/-- The bound on a block of n iterations in ns: 2 µs + n W / 1,024 µs (R266). -/
def blockBoundNs (g : BaseGraph) (f : Fit) (n : Nat) : Nat :=
  let w := f.z * (g.entries.filter fun e => decide (e.1 < f.m)).length
  2000 + ceilDiv (n * w * 1000) 1024

/-- Payload bytes of decided bits, bit 0 of each byte first (R255). -/
def bytesOfBits (len : Nat) (l : List Bool) : List Byte :=
  (List.range len).map fun i => BitVec.ofNat 8 (ofBits ((l.drop (8 * i)).take 8))

/-- CRC-24 as received: the 24 bits after the payload, register bit 23 first (R255). -/
def crc24Received (len : Nat) (l : List Bool) : Nat := ofBits ((l.drop (8 * len)).take 24).reverse

/-- CRC-24 passes over H[31:0] and the payload (R255, R264). -/
def crc24Ok (h : Header) (l : List Bool) : Bool :=
  decide (crc24 (lowBits h.low 32 ++ l.take (8 * h.length)) = crc24Received h.length l)

/-! ### Records (R267, R268) -/

/-- Four bytes, or fewer padded with zeros, as a word (R8). -/
def wordOfBytes (l : List Byte) : Word := bytesWord (l.getD 0 0) (l.getD 1 0) (l.getD 2 0) (l.getD 3 0)

/-- Payload bytes padded with zeros to a multiple of 8, as words. -/
def payloadWords (l : List Byte) : List Word :=
  (List.range (2 * ceilDiv l.length 8)).map fun i => wordOfBytes (l.drop (4 * i))

/-- A record (R267): kind 1 decoded or 2 abort, status, sub-cause of R253. -/
def recordWords (ctxNo : Nat) (x : Ctx) (kind status sub seq : Nat) : List Word :=
  let pay := if kind = 1 then payloadWords x.payload else []
  let size8 := 6 + pay.length / 2
  let h := x.hdr.getD ⟨0, 0, 0, 0, 0, 0, 0⟩
  let b (c : Bool) (k : Nat) : Nat := if c then 2 ^ k else 0
  [toWord (kind + 16 * size8 + 2 ^ 13 * x.profile + 2 ^ 16 * ctxNo + 2 ^ 24 * status),
   if x.synced then toWord x.tSync.toNat else 0,
   if x.synced then pack16 (x.tSync.toNat / 2 ^ 32) x.tFrac else 0,
   toWord ((x.beams.zipIdx.foldl (fun n p => n + p.1 * 2 ^ (6 * p.2)) 0) + 2 ^ 24 * (x.beams.length - 1)),
   pack16 (if x.measured then unsN 16 x.snr else 0) (unsN 16 x.detSnr),
   if x.measured then BitVec.ofInt 32 x.freq else 0,
   toWord (h.length + 2 ^ 11 * h.rate + 2 ^ 14 * x.bgSlot + 2 ^ 16 * x.iters + 2 ^ 22 * (x.blocks - 1)),
   toWord (h.flags + 32 * sub + 256 * h.shortAddr + 2 ^ 16 * x.code + b x.hdr.isSome 20 + b x.captured 21 +
     b x.swapSeen 22 + b (decide (kind = 1) && x.retry) 23 + 2 ^ 24 * (x.interferers % 16) + b x.unconverged 28 + b x.rebuilt 29),
   toWord x.det.toNat, toWord (x.det.toNat / 2 ^ 32), toWord seq,
   toWord (x.crc24 + 2 ^ 24 * x.crc8)] ++ pay

end Sys2Proof.Machine
end

