-- ==== Sys2Proof/Machine/Flags.lean ====
section
/-! DEFINITION. Register access by field type (R12, R14, R15): what a write stores, what a read returns and clears. -/

namespace Sys2Proof.Machine

/-- The bits of a register whose fields have a type. -/
def RegName.maskOf (r : RegName) (k : Kind) : Word :=
  (r.fields.filter fun f => f.kind = k).foldl (fun m f => m ||| fieldMask f.lo f.width) 0

/-- What a write of v leaves in a register that reads old (R12): RW fields take v, a 1 clears a W1C bit and sets a W1S
bit, RO, RC and WO fields and reserved bits keep what they hold (R14). -/
def RegName.written (r : RegName) (old v : Word) : Word :=
  (((old &&& ~~~ (r.maskOf .rw)) ||| (v &&& r.maskOf .rw)) &&& ~~~ (v &&& r.maskOf .w1c)) ||| (v &&& r.maskOf .w1s)

/-- What a read returns (R12): WO fields read 0. -/
def RegName.readable (r : RegName) (w : Word) : Word := w &&& ~~~ (r.maskOf .wo)

/-- What a read leaves (R12): RC fields cleared. -/
def RegName.cleared (r : RegName) (w : Word) : Word := w &&& ~~~ (r.maskOf .rc)

/-- A register has RC fields. -/
def RegName.hasRc (r : RegName) : Bool := decide (r.maskOf .rc ≠ 0)

/-- Write copy i of a register by field type. -/
def State.writeTyped (s : State) (r : RegName) (i : Nat) (v : Word) : State := s.setReg r i (r.written (s.reg r i) v)

end Sys2Proof.Machine
end

