-- ==== Sys2Proof/Machine/Time.lean ====
section
/-! DEFINITION. Chapter 13: the counter's reads, the rate servo, PPS, link time marks, and arming TC units. What a
unit does when it fires stands in Fire.lean. -/

namespace Sys2Proof.Machine

open Host

/-! ### The servo (R430, R431) -/

/-- The clamp of R430. -/
def rateMax : Int := 2147483

/-- One product of the servo, UQ8.8 times ns, rounded half away from zero. -/
def servoTerm (k : Nat) (ofs : Int) : Int := divHalfAway ((k : Int) * ofs) 256

/-- One update from an offset sample (R431). -/
def State.servo (s : State) (ofs : Int) : State :=
  let i0 := sgn32 (s.reg .TS_INTEG 0) + servoTerm (s.fld F.TIME_GAIN_ki) ofs
  let i := clampI (-rateMax) rateMax i0
  let r0 := i + servoTerm (s.fld F.TIME_GAIN_kp) ofs
  let r := clampI (-rateMax) rateMax r0
  let s := (s.setReg .TS_INTEG 0 (BitVec.ofInt 32 i)).setReg .TS_RATE 0 (BitVec.ofInt 32 r)
  if i ≠ i0 ∨ r ≠ r0 then s.setFld F.TIME_STAT_servo_sat 0 1 else s

/-- TIME_CFG.src (R432). -/
def State.servoSrc (s : State) : Nat := s.fld F.TIME_CFG_src

/-- A write of TS_OFFSET (R432): a servo sample with src = HOST, or from Tilin with src = LINK; otherwise ignored. -/
def State.tsOffset (s : State) (p : Port) (v : Word) : State :=
  if s.servoSrc = 0 ∨ (s.servoSrc = 2 ∧ p = .tilin) then s.servo (sgn32 v)
  else s.setFld F.TIME_STAT_ofs_ignored 0 1

def execTsOffsetWrite (port : Port) (v : Word) (s : State) : Outcome State Fault Refusal :=
  .next (s.tsOffset port v)

/-! ### Reading the counter (R429) -/

/-- A read of TIME_NS latches the fraction and the wraps for its port. -/
def State.readTimeNs (s : State) (p : Port) : Word × State :=
  let l := Store.set (fun _ => 0) (Store.set (fun _ => 0) s.time.latch (2 * p.idx) s.timeSub) (2 * p.idx + 1)
    (toWord s.timeWraps)
  (s.timeNs, { s with time := { s.time with latch := l } })

/-- The word a port's register read returned. -/
def State.setRdata (s : State) (p : Port) (w : Word) : State :=
  { s with sys := { s.sys with rdata := Store.set (fun _ => 0) s.sys.rdata p.idx w } }

def execTimeNsRead (port : Port) (s : State) : Outcome State Fault Refusal :=
  let p := s.readTimeNs port
  .next (p.2.setRdata port p.1)

/-- TIME_NS wraps (R428): time passes to the next wrap, which posts TIME_WRAP. -/
def execTimeNsWrap (s : State) : Outcome State Fault Refusal :=
  .next (s.elapse (2 ^ 32 - s.timeNs.toNat))

/-! ### PPS (R432, R434) -/

/-- The offset sample of a PPS edge, reduced into (-5e8, +5e8] (R432). -/
def ppsOffset (phase : Nat) (t : T48) : Int :=
  let d := ((phase : Int) - (t.toNat % 1000000000 : Nat)) % 1000000000
  if 500000000 < d then d - 1000000000 else d

def execPpsEdge (t : BitVec 48) (frac : Nat) (s : State) : Outcome State Fault Refusal :=
  let s := s.elapseTo t
  let far := match s.time.lastPps with
    | some p => decide (900000000 ≤ (t - p).toNat)
    | none => true
  if far then
    let s := (s.setReg .TS_PPS_NS 0 (toWord t.toNat)).setReg .TS_PPS_WF 0 (pack16 (t.toNat / 2 ^ 32) frac)
    let s := { s with time := { s.time with lastPps := some t } }
    let s := s.setFld F.TIME_STAT_pps_valid 0 1
    .next (if s.servoSrc = 1 then s.servo (ppsOffset s.time.ppsPhase t) else s)
  else .next (s.bump F.TIME_STAT_pps_rejects 0)

/-- No accepted edge for 1.5 s (R434). -/
def execPpsLossTimeout (s : State) : Outcome State Fault Refusal :=
  match s.time.lastPps with
  | some p =>
    if s.flag F.TIME_STAT_pps_valid then
      let s := s.elapseTo (p + 1500000000)
      .next (((s.setFld F.TIME_STAT_pps_valid 0 0).setFld F.TIME_STAT_pps_loss 0 1).post 0x0802 clsWarn 0)
    else .next s
  | none => .next s

/-! ### Link time marks (R435-R437) -/

/-- The MARK_INFO message after a mark (R437). -/
def State.markInfo (s : State) : List Word :=
  [toWord (1 + 256 * s.fld F.TS_MARK_SEQ_tx_seq), s.reg .TS_MARK_TX_NS 0, s.reg .TS_MARK_TX_WF 0,
   toWord (s.fld F.TS_MARK_SEQ_rx_seq), s.reg .TS_MARK_RX_NS 0, s.reg .TS_MARK_RX_WF 0]

/-- A partner's mark arrives; it is taken only when the complement agrees (R435, R436). -/
def execTimeMarkReceived (seq compl : Nat) (t : BitVec 48) (frac : Nat) (s : State) :
    Outcome State Fault Refusal :=
  if s.linkUp = true ∧ compl % 65536 = 65535 - seq % 65536 then
    let s := s.elapseTo t
    let s := s.setFld F.TS_MARK_SEQ_rx_seq 0 seq
    let s := (s.setReg .TS_MARK_RX_NS 0 (toWord t.toNat)).setReg .TS_MARK_RX_WF 0 (pack16 (t.toNat / 2 ^ 32) frac)
    .next { s with time := { s.time with staleRx := false } }
  else .next s

/-- A capture in units of 2^-16 ns, from its ns word and its frac and wraps word. -/
def stamp (ns wf : Word) : BitVec 64 :=
  BitVec.ofNat 64 (bits wf 15 0 * 2 ^ 48 + ns.toNat * 2 ^ 16 + bits wf 31 16)

/-- ((t4 - t3) - (t2 - t1)) / 2 in ns, rounded half away from zero (R432). -/
def markOffset (t1 t2 t3 t4 : BitVec 64) : Int :=
  divHalfAway ((t4 - t3).toInt - (t2 - t1).toInt) (2 * 65536)

/-- A partner's MARK_INFO (R437): with its rx_seq our latest mark, and its tx_seq the mark we captured, the exchange
completes; with src = LINK its offset drives the servo. -/
def execMarkInfoReceived (info : List Word) (s : State) : Outcome State Fault Refusal :=
  let w (n : Nat) := info.getD n 0
  if s.linkUp = true ∧ bits (w 0) 7 0 = 1 ∧ bits (w 3) 15 0 = s.fld F.TS_MARK_SEQ_tx_seq ∧
      bits (w 0) 23 8 = s.fld F.TS_MARK_SEQ_rx_seq ∧ s.time.staleTx = false ∧ s.time.staleRx = false ∧
      s.servoSrc = 2 then
    let t1 := stamp (w 1) (w 2)
    let t4 := stamp (w 4) (w 5)
    let t2 := stamp (s.reg .TS_MARK_RX_NS 0) (s.reg .TS_MARK_RX_WF 0)
    let t3 := stamp (s.reg .TS_MARK_TX_NS 0) (s.reg .TS_MARK_TX_WF 0)
    .next (s.tsOffset .tilin (BitVec.ofInt 32 (markOffset t1 t2 t3 t4)))
  else .next s

/-! ### Commands (R445, R626) -/

def specTimeCfgSet : CmdSpec :=
  { opcode := 0x0801, minLen := 5, maxLen := 5, masks := [0xFFFF0007] }

def svcTimeCfgSet (q : Req) (s : State) : State × Rsp :=
  let w := q.arg 1
  s.check [(decide (bits w 31 16 < 1 ∨ 1000 < bits w 31 16), rspErr stBadArg),
           (decide (999999999 < (q.arg 3).toNat), rspErr stBadArg)]
    (let s := ((s.setFld F.TIME_CFG_src 0 (bits w 1 0)).setFld F.TIME_CFG_pps_edge 0 (bits w 2 2)).setFld
        F.TIME_CFG_mark_ms 0 (bits w 31 16)
     let s := s.setReg .TIME_GAIN 0 (q.arg 2)
     ({ s with time := { s.time with
          ppsPhase := (q.arg 3).toNat, epochBase := (q.arg 5) ++ (q.arg 4) } }, rspOk))

def execTimeCfgSet (q : Req) (s : State) : Outcome State Fault Refusal :=
  .next (serve specTimeCfgSet q (svcTimeCfgSet q) s)

/-- Some TC unit is armed. -/
def State.anyArmed (s : State) : Bool := (List.range 16).any s.armed

def specTimeStep : CmdSpec := { opcode := 0x0802, minLen := 2, maxLen := 2 }

/-- The step of TIME_STEP (R626), 48 bits signed. -/
def stepOf (q : Req) : Int := (BitVec.ofNat 48 ((q.arg 1).toNat + 2 ^ 32 * bits (q.arg 2) 15 0)).toInt

/-- Every value of a store through a function. -/
def mapStore {α : Type} [DecidableEq α] (d : Nat → α) (m : Store α) (f : α → α) : Store α := Store.mapVals d (fun _ => f) m

/-! What measures a duration does not see a TIME_STEP: a moment noted as device time moves with the counter (R287, R433).
DESIGN CHOICE (log entry 141). The functions below move the moments of one chapter each, by d ns. -/

def laterO (d : Int) (t : Option T48) : Option T48 := t.map fun x => tAdd x d
def laterI (d : Int) (t : Option Int) : Option Int := t.map (· + d)

def SysSt.later (x : SysSt) (d : Int) : SysSt :=
  { x with limits := mapStore (fun _ => none) x.limits fun w => w.map fun w => { w with start := tAdd w.start d } }

def TimeSt.later (x : TimeSt) (d : Int) : TimeSt :=
  { x with outs := mapStore (fun _ => {}) x.outs fun o => { o with pulseEnd := laterI d o.pulseEnd } }

def MemSt.later (x : MemSt) (d : Int) : MemSt :=
  { x with ch := mapStore (fun _ => {}) x.ch fun c => { c with issued := laterO d c.issued } }

def FaultSt.later (x : FaultSt) (d : Int) : FaultSt :=
  { x with
      lates := x.lates.map fun t => tAdd t d
      lateBurst := laterO d x.lateBurst
      unlocks := mapStore (fun _ => []) x.unlocks fun l => l.map fun t => tAdd t d
      restarts := x.restarts.map fun t => tAdd t d
      wdogLast := tAdd x.wdogLast d
      coolSince := laterO d x.coolSince
      deferred := x.deferred.map fun y => (y.1, laterO d y.2) }

def RxbSt.later (x : RxbSt) (d : Int) : RxbSt :=
  { x with
      ctx := mapStore (fun _ => {}) x.ctx fun c => { c with decAt := laterO d c.decAt }
      backlog := x.backlog.map fun b => { b with firstAt := tAdd b.firstAt d }
      cands := x.cands.map fun c => { c with expiry := tAdd c.expiry d }
      regen := x.regen.map fun r => { r with expiry := tAdd r.expiry d } }

def LinkSt.later (x : LinkSt) (d : Int) : LinkSt :=
  { x with
      evtAt := tAdd x.evtAt d
      since := tAdd x.since d
      fallbackEnd := laterO d x.fallbackEnd
      lastHello := tAdd x.lastHello d
      lockedSince := mapStore (fun _ => none) x.lockedSince (laterO d)
      lockAt := mapStore (fun _ => none) x.lockAt (laterO d)
      deferred := x.deferred.map fun c => { c with at_ := laterO d c.at_ } }

def RxSt.later (x : RxSt) (d : Int) : RxSt :=
  { x with
      counted := mapStore (fun _ => none) x.counted fun t => t.map (· + d)
      busAt := mapStore (fun _ => 0) x.busAt fun t => tAdd t d
      busFree := mapStore (fun _ => none) x.busFree (laterO d) }

def RadioSt.later (x : RadioSt) (d : Int) : RadioSt :=
  { x with
      sides := Store.mapVals sideDefault (fun _ y => { y with lockedAt := laterI d y.lockedAt }) x.sides
      gnt := laterI d x.gnt }

def TxSt.later (x : TxSt) (d : Int) : TxSt :=
  { x with
      pa := mapStore (fun _ => {}) x.pa fun y => { y with timer := laterO d y.timer, slewAt := laterO d y.slewAt }
      bursts := mapStore (fun _ => none) x.bursts fun b => b.map fun b => { b with air := tAdd b.air d, fin := tAdd b.fin d }
      tails := x.tails.map fun t => { t with fin := tAdd t.fin d } }

def DpdSt.later (x : DpdSt) (d : Int) : DpdSt :=
  { x with
      path := mapStore (fun _ => {}) x.path fun y =>
        { y with applyAt := tAdd y.applyAt d, lastResult := laterI d y.lastResult, lastAccept := laterI d y.lastAccept }
      cap := mapStore (fun _ => none) x.cap fun c => c.map fun c => { c with start := tAdd c.start d }
      fit := mapStore (fun _ => none) x.fit fun c => c.map fun c => { c with ended := tAdd c.ended d } }

def CalSt.later (x : CalSt) (d : Int) : CalSt :=
  { x with
      runs := x.runs.map fun r => { r with start := tAdd r.start d }
      stepAt := mapStore (fun _ => none) x.stepAt (laterO d)
      pendSince := mapStore (fun _ => none) x.pendSince (laterO d)
      postponedAt := mapStore (fun _ => none) x.postponedAt (laterO d)
      trackAt := tAdd x.trackAt d }

/-- The counter moves by d ns, and with it every moment from which a duration runs. -/
def State.stepBy (s : State) (d : Int) : State :=
  { s with
      sys := s.sys.later d
      time := { s.time.later d with ticks := s.time.ticks + d * 2 ^ 56 }
      mem := s.mem.later d
      flt := s.flt.later d
      rxb := s.rxb.later d
      link := s.link.later d
      rx := s.rx.later d
      radio := s.radio.later d
      tx := s.tx.later d
      pwr := { s.pwr with entries := s.pwr.entries.map fun e => { e with start := tAdd e.start d } }
      clk := { s.clk with paceSince := laterO d s.clk.paceSince, noRefAt := tAdd s.clk.noRefAt d }
      dpd := s.dpd.later d
      cal := s.cal.later d }

/-- TIME_STEP (R433): at the next advance the counter moves by the step, with no TIME_WRAP for the wraps it crosses. -/
def svcTimeStep (q : Req) (s : State) : State × Rsp :=
  s.check [(decide (bits (q.arg 2) 31 16 ≠ if bitAt (q.arg 2) 15 then 0xFFFF else 0), rspErr stBadArg),
           (s.anyArmed, rspErr stBusy)]
    (let s := s.tick.stepBy (stepOf q)
     ((s.setFld F.TIME_STAT_stepped 0 1).post 0x0804 clsInfo (q.arg 1) (some q.cmd), rspOk))

def execTimeStep (q : Req) (s : State) : Outcome State Fault Refusal :=
  .next (serve specTimeStep q (svcTimeStep q) s)

/-- The epoch (R429). -/
def State.epoch (s : State) : BitVec 64 := s.time.epochBase + BitVec.ofInt 64 (s.time.ticks / 2 ^ 56)

def specTimeGet : CmdSpec := { opcode := 0x0803 }

def svcTimeGet (_ : Req) (s : State) : State × Rsp :=
  (s, rspOk [s.epoch.setWidth 32, (s.epoch >>> 32).setWidth 32, s.timeNs, toWord s.timeWraps, s.timeSub,
    s.reg .TS_RATE 0, s.reg .TS_INTEG 0, s.reg .TIME_STAT 0])

def execTimeGet (q : Req) (s : State) : Outcome State Fault Refusal :=
  .next (serve specTimeGet q (svcTimeGet q) s)

/-- The time of the tick of R426 that follows. -/
def State.nextTick (s : State) : T48 :=
  let step := if s.flag F.TIME_STAT_on_hosc then s.increment else s.increment / 3
  BitVec.ofInt 48 ((s.time.ticks + step) / 2 ^ 56)

/-- A compare time that the tick after an arm has reached already (R441). -/
def State.cmpPast (s : State) (c : T48) : Bool := atOrAfter s.nextTick c

def specTcArm : CmdSpec :=
  { opcode := 0x0804, minLen := 5, maxLen := 5, masks := [0xF, 0x00FF0FF2, mAll, 0xFFFF] }

/-- TC_ARM (R440, R445): action OUT or DMA, exactly as the host registers arm. -/
def svcTcArm (q : Req) (s : State) : State × Rsp :=
  let u := bits (q.arg 1) 3 0
  let ctl := q.arg 2
  let c := BitVec.ofNat 48 ((q.arg 3).toNat + 2 ^ 32 * bits (q.arg 4) 15 0)
  s.check [(decide (bits ctl 7 4 ≠ 1 ∧ bits ctl 7 4 ≠ 2), rspErr stBadArg),
           (bitAt ctl 1 && decide ((q.arg 5).toNat < 100), rspErr stBadArg),
           (!s.holds q.mbx resTc u, s.rspHeld resTc u),
           (s.armed u, rspErr stBusy),
           (s.cmpPast c, rspErr stLate)]
    (let s := ((s.setReg .TC_CMP_NS u (q.arg 3)).setReg .TC_CMP_WP u (q.arg 4)).setReg .TC_PERIOD u (q.arg 5)
     let s := s.writeTyped .TC_CTL u ((ctl &&& 0x00FF0FF2) ||| 1)
     (s.takeC u c, rspOk))

def execTcArm (q : Req) (s : State) : Outcome State Fault Refusal := .next (serve specTcArm q (svcTcArm q) s)

def specTcDisarm : CmdSpec := { opcode := 0x0805, minLen := 1, maxLen := 1, masks := [0xF] }

/-- TC_DISARM (R445). -/
def svcTcDisarm (q : Req) (s : State) : State × Rsp :=
  let u := bits (q.arg 1) 3 0
  s.check [(!s.holds q.mbx resTc u, s.rspHeld resTc u), (s.flag F.TC_CTL_cmd_armed u, rspErr stLocked)]
    (s.disarm u, rspOk)

def execTcDisarm (q : Req) (s : State) : Outcome State Fault Refusal :=
  .next (serve specTcDisarm q (svcTcDisarm q) s)

/-- A write of TC_CTL (R72, R440, R441); action SKILLET is armed by Tilin alone. -/
def State.writeTcCtl (s : State) (p : Port) (u : Nat) (v : Word) : State :=
  if s.portHolds p resTc u = false then s.accErr p (0x5100 + 0x10 * u) errClaim
  else if s.flag F.TC_CTL_cmd_armed u then s
  else if bitAt v 0 then
    if bits v 7 4 = 1 ∨ bits v 7 4 = 2 ∨ (bits v 7 4 = 6 ∧ p = .tilin) then
      let s := s.writeTyped .TC_CTL u v
      if bitAt v 1 = true ∧ (s.reg .TC_PERIOD u).toNat < 100 then
        (s.setFld F.TC_CTL_arm u 0).setFld F.TC_CTL_missed u 1
      else if s.cmpPast (s.cmpTime u) then
        ((s.setFld F.TC_CTL_arm u 0).setFld F.TC_CTL_missed u 1).postLate u 7 (s.cmpTime u)
      else s.takeC u (s.cmpTime u)
    else s
  else s.writeTyped .TC_CTL u v

def execTcCtlWrite (port : Port) (unit : Nat) (v : Word) (s : State) : Outcome State Fault Refusal :=
  .next (if unit < 16 then s.writeTcCtl port unit v else s)

end Sys2Proof.Machine
end

