-- ==== Sys2Proof/Machine/Memory.lean ====
section
/-! DEFINITION. Chapter 14: the placement policy's memory shares, the tile commands, the Pantry, the control side of the
Ladle's channels, the auxiliary ADC. -/

namespace Sys2Proof.Machine

open Host

/-! ### Shares of the Pantry (R233, R450) -/

/-- The largest RET_TILES of any mode (R274, R450). -/
def State.maxRet (s : State) : Nat := policyModes.foldl (fun m i => max m (s.policyOf i).retTiles) 0

/-- BL_TILES, which is 0 while no Pantry can be used (R463). -/
def State.blTiles (s : State) : Nat := if s.panFitted then s.mem.blTiles else 0

/-- Pantry tiles SURVEY may use (R450). -/
def State.surveyTiles (s : State) : Nat := s.fld F.MEM_PAN_USABLE_tiles - s.blTiles - s.maxRet

/-! ### Tile commands (R477, R628) -/

def specTileSeal : CmdSpec := { opcode := 0x0901, minLen := 1, maxLen := 1, masks := [mRegion] }

/-- The tiles of a region form. -/
def regionTiles (q : Req) (n : Nat) : List Nat := (List.range (regionCount q n)).map (regionFirst q n + ·)

def svcTileSeal (q : Req) (s : State) : State × Rsp :=
  s.check [regionBad q 1 1, s.regionHeld q 1]
    (let l := (regionTiles q 1).filter fun t => (s.tile t).state = .open
     (l.foldl State.sealTile s, rspOk [toWord l.length]))

def execTileSeal (q : Req) (s : State) : Outcome State Fault Refusal := .next (serve specTileSeal q (svcTileSeal q) s)

def specTileOpen : CmdSpec := { opcode := 0x0902, minLen := 1, maxLen := 1, masks := [mRegion] }

def svcTileOpen (q : Req) (s : State) : State × Rsp :=
  s.check [regionBad q 1 1, s.regionHeld q 1]
    (let l := (regionTiles q 1).filter fun t => (s.tile t).state = .sealed
     (l.foldl State.reopenTile s, rspOk [toWord l.length]))

def execTileOpen (q : Req) (s : State) : Outcome State Fault Refusal := .next (serve specTileOpen q (svcTileOpen q) s)

def specTileVerify : CmdSpec := { opcode := 0x0903, minLen := 1, maxLen := 1, masks := [mRegion] }

/-- A tile of the range fails: QUARANTINED already, or SEALED with a wrong checksum. -/
def State.tileFails (s : State) (t : Nat) : Bool :=
  match (s.tile t).state with
  | .open => false
  | .quarantined => true
  | .sealed => decide ((s.tile t).sum ≠ s.tileSum t)

/-- A tile that failed when opened is quarantined, unless it was already (R455). -/
def State.quarantineOpen (s : State) (k consumer : Nat) : State :=
  if (s.tile k).state = .sealed then s.quarantine k consumer else s

/-- Verify every SEALED tile of a range; each that fails is quarantined once (R455, R477). -/
def State.verifyTiles (s : State) (l : List Nat) : State :=
  l.foldl (fun s t => if (s.tile t).state = .sealed ∧ s.tileFails t = true then s.quarantine t 7 else s) s

def svcTileVerify (q : Req) (s : State) : State × Rsp :=
  s.check [regionBad q 1 1, s.regionHeld q 1]
    (match (regionTiles q 1).find? s.tileFails with
     | none => (s, rspOk [0])
     | some t => (s.verifyTiles (regionTiles q 1), { status := stFault, words := [toWord (t + 2 ^ 31)] }))

def execTileVerify (q : Req) (s : State) : Outcome State Fault Refusal :=
  .next (serve specTileVerify q (svcTileVerify q) s)

def specMemStat : CmdSpec := { opcode := 0x0904 }

def State.freeTiles (s : State) : Nat := ((List.range 2048).filter s.tileFree).length

def svcMemStat (_ : Req) (s : State) : State × Rsp :=
  (s, rspOk [s.reg .MEM_PAN_STAT 0, s.reg .MEM_PAN_USABLE 0, s.reg .MEM_LAR_STAT 0, toWord s.blTiles,
    toWord s.maxRet, toWord s.surveyTiles,
    toWord ((if s.sys.ringMade then s.sys.ringTiles else 0) + 65536 * s.freeTiles)])

def execMemStat (q : Req) (s : State) : Outcome State Fault Refusal := .next (serve specMemStat q (svcMemStat q) s)

def specQuarList : CmdSpec := { opcode := 0x0905, minLen := 1, maxLen := 1, masks := [mRegion] }

/-- QUARANTINED tiles, in the layout of MEM_TILE_LAST [22:0] (R477): Larder first. -/
def State.quarList (s : State) (lo hi : Nat) : List Nat :=
  (s.mem.tiles.filter fun p => decide (lo ≤ p.1 ∧ p.1 < hi ∧ p.2.state = .quarantined)).map (·.1)

def svcQuarList (q : Req) (s : State) : State × Rsp :=
  let lar := s.quarList 0 6144
  let pan := (s.quarList 0x400000 0x800000).map (· - 0x400000)
  s.check [regionBad q 1 1, s.regionHeld q 1,
           (decide (1024 * regionCount q 1 < lar.length + pan.length), rspErr stNoMem)]
    (s.putTileWords (regionFirst q 1) (lar.map toWord ++ pan.map fun p => toWord (p + 2 ^ 22)),
     rspOk [toWord (lar.length + 65536 * pan.length)])

def execQuarList (q : Req) (s : State) : Outcome State Fault Refusal :=
  .next (serve specQuarList q (svcQuarList q) s)

def specQuarRetest : CmdSpec := { opcode := 0x0906, minLen := 1, maxLen := 1, masks := [mRegion] }

/-- One tile retested (R459): a pass leaves the last pattern written and the tile OPEN. -/
def State.retestTile (s : State) (t : Nat) : Bool × State :=
  if Config.marchPass t s.free then
    (true, ({ s with free := s.free + 1 } : State).putTileWords t (List.replicate 1024 0xAAAAAAAA) |>.setTile t
      { s.tile t with state := .open, sum := 0 })
  else (false, { s with free := s.free + 1 })

/-- Retest each QUARANTINED tile of a list, counting those that pass. -/
def State.retestTiles (s : State) : List Nat → Nat → Nat × State
  | [], n => (n, s)
  | t :: l, n =>
    match s.retestTile t with
    | (true, s') => State.retestTiles s' l (n + 1)
    | (false, s') => State.retestTiles s' l n

def svcQuarRetest (q : Req) (s : State) : State × Rsp :=
  let l := (regionTiles q 1).filter fun t => (s.tile t).state = .quarantined
  let hostHeld := l.find? fun t => match s.owner resTile t with
    | some c => !c.internal
    | none => false
  s.check [regionBad q 1 1,
           match hostHeld with
           | some t => (true, s.rspHeld resTile t)
           | none => (false, rspErr stHeld)]
    (let p := s.retestTiles l 0
     (p.2.quarRegs.updateLimit true, rspOk [toWord p.1]))

def execQuarRetest (q : Req) (s : State) : Outcome State Fault Refusal :=
  .next (serve specQuarRetest q (svcQuarRetest q) s)

def specDmaCfgSet : CmdSpec := { opcode := 0x0907, minLen := 1, maxLen := 1, masks := [0xFFFF] }

/-- Some Ladle channel is not IDLE. -/
def State.dmaBusy (s : State) : Bool := (List.range 32).any fun n => decide (s.fld F.DMA_CH_STAT_state n ≠ 0)

def svcDmaCfgSet (q : Req) (s : State) : State × Rsp :=
  s.check [(decide (bits (q.arg 1) 15 0 = 0), rspErr stBadArg), (s.dmaBusy, rspErr stBusy)]
    (s.setFld F.DMA_CFG_hop_max 0 (bits (q.arg 1) 15 0), rspOk)

def execDmaCfgSet (q : Req) (s : State) : Outcome State Fault Refusal :=
  .next (serve specDmaCfgSet q (svcDmaCfgSet q) s)

/-! ### The Pantry (R449, R461, R462) -/

/-- Usable tiles of a fitted size code (R449). -/
def usableTiles (size : Nat) : Nat :=
  match size with
  | 1 => 523776
  | 2 => 1047552
  | 3 => 2095104
  | _ => 0

/-- Pantry training ends (R461, R462): no device answers, the device is not one of R460, no rate passes, or READY. -/
def execPantryTrainingDone (answered supported : Bool) (rate : Option Nat) (size : Nat) (s : State) :
    Outcome State Fault Refusal :=
  if s.fld F.MEM_PAN_STAT_state = 1 then
    if answered = false then .next (s.pantryTo 0 1)
    else if supported = false ∨ usableTiles size = 0 then .next (s.pantryTo 5 3)
    else match rate with
      | none => .next (s.pantryTo 5 2)
      | some r =>
        let s := (s.setFld F.MEM_PAN_STAT_rate 0 r).setFld F.MEM_PAN_STAT_size 0 size
        .next ((s.setFld F.MEM_PAN_USABLE_tiles 0 (usableTiles size)).pantryTo 2 0)
  else .next s

/-- DQS is retrained (R461, R462): the second failure in succession fails the Pantry. -/
def execDqsRetrain (ok : Bool) (s : State) : Outcome State Fault Refusal :=
  if s.pantryReady then
    let again := s.mem.dqsFailed
    let s := { s with mem := { s.mem with dqsFailed := !ok && !again } }
    .next (if ok = false ∧ again = true then s.pantryTo 5 5 else s)
  else .next s

/-! ### The Ladle's channels: enabling, arming, pacing, halting (R466-R469) -/

def State.dma (s : State) (n : Nat) : DmaCh := Store.get (fun _ => {}) s.mem.ch n

def State.setDma (s : State) (n : Nat) (c : DmaCh) : State :=
  { s with mem := { s.mem with ch := Store.set (fun _ => {}) s.mem.ch n c } }

/-- DMA_STAT.inflight: remote reads on their way (R478). -/
def State.dmaStat (s : State) : State :=
  s.setFld F.DMA_STAT_inflight 0 ((List.range 32).filter fun n => (s.dma n).want.isSome).length

/-- States of a channel (R478). -/
def dIdle : Nat := 0
def dArmed : Nat := 1
def dFetch : Nat := 2
def dWait : Nat := 3
def dActive : Nat := 4
def dHalted : Nat := 5

/-- Descriptor address of a channel. -/
def State.dmaNext (s : State) (n : Nat) : Nat :=
  (s.reg .DMA_CH_NEXT_LO n).toNat + 2 ^ 32 * s.fld F.DMA_CH_NEXT_HI_next_hi n

/-- A descriptor's use of its tiles ends (R457). -/
def State.dmaUnuse (s : State) (n : Nat) : State :=
  let l := (s.dma n).held
  l.foldl State.dropUse (s.setDma n { s.dma n with held := [] })

/-- A channel halts (R466, R467): cause, descriptor address, DMA_HALT, and the status word under wb. -/
def State.dmaHalt (s : State) (n cause : Nat) : State :=
  let a := s.dmaNext n
  let s := (s.setFld F.DMA_CH_STAT_state n dHalted).setFld F.DMA_CH_STAT_cause n cause
  let s := (s.setReg .DMA_CH_ERR_LO n (toWord a)).setFld F.DMA_CH_ERR_HI_err_hi n (a / 2 ^ 32)
  let s := s.setReg .DMA_HALT 0 (s.reg .DMA_HALT 0 ||| toWord (2 ^ n))
  let s := if bitAt ((s.dma n).desc.getD 1 0) 20 then
      s.setMemWord (a + 28) (toWord (cause + if s.flag F.DMA_CH_STAT_ovl n then 256 else 0))
    else s
  let s := (s.setDma n { s.dma n with issued := none, want := none, phase := 1 }).dmaStat.dmaUnuse n
  s.post 0x0902 clsWarn (toWord (n + 32 * cause))

/-- The frame of a REG_RD starts: the channel that waits for it counts its time from here (R471). -/
def State.dmaIssued (s : State) (payload : List Byte) : State :=
  let b (i : Nat) : Nat := (payload.getD i 0).toNat
  if b 0 = 0x11 then
    let a := b 4 + 256 * b 5 + 65536 * b 6 + 2 ^ 24 * b 7
    match (List.range 32).find? fun n => decide ((s.dma n).issued = none) && (s.dma n).want.any fun w => decide (w.1 = a) with
    | some n => s.setDma n { s.dma n with issued := some s.now }
    | none => s
  else s

/-- The TC unit of a channel is held by the channel's owner (R467, R469). -/
def State.unitOfOwner (s : State) (ch u : Nat) : Bool :=
  match s.owner resDma ch, s.owner resTc u with
  | some c, some d => if c.internal then d.internal else !d.internal && decide (c.mbx = d.mbx)
  | _, _ => false

/-- FETCH entered from IDLE or ARMED. -/
def State.dmaStart (s : State) (n : Nat) : State :=
  (s.setFld F.DMA_CH_STAT_hop n 0).setFld F.DMA_CH_STAT_state n dFetch

/-- A write of DMA_CH_CTL (R72, R466). -/
def State.writeDmaCtl (s : State) (p : Port) (n : Nat) (v : Word) : State :=
  if s.portHolds p resDma n = false then s.accErr p (0x6100 + 0x20 * n) errClaim
  else
    let was := s.flag F.DMA_CH_CTL_en n
    let s := s.writeTyped .DMA_CH_CTL n v
    if bitAt v 0 = false then
      if s.fld F.DMA_CH_STAT_state n = dIdle then s
      else
        let f := s.takeFree
        let g := f.2.takeFree
        let s := (g.2.setReg .DMA_CH_DESCS n f.1).setFld F.DMA_CH_BYTES_bytes n g.1.toNat
        let s := s.setReg .DMA_HALT 0 (s.reg .DMA_HALT 0 &&& ~~~ (toWord (2 ^ n)))
        let s := ((s.setFld F.DMA_CH_STAT_state n dIdle).setFld F.DMA_CH_STAT_cause n 0).setFld
          F.DMA_CH_STAT_pace_pending n 0
        ((s.dmaUnuse n).setDma n {}).dmaStat
    else if was = true ∨ s.fld F.DMA_CH_STAT_state n ≠ dIdle then s
    else if s.flag F.DMA_CH_CTL_tc_start n then
      if s.unitOfOwner n (s.fld F.DMA_CH_CTL_tc_unit n) then s.setFld F.DMA_CH_STAT_state n dArmed
      else (s.setDma n { s.dma n with desc := [] }).dmaHalt n 5
    else s.dmaStart n

def execDmaChCtlWrite (port : Port) (ch : Nat) (v : Word) (s : State) : Outcome State Fault Refusal :=
  .next (if ch < 32 then s.writeDmaCtl port ch v else s)

/-- pace_sel of the descriptor in hand (R464). -/
def DmaCh.pace (c : DmaCh) : Nat := bits (c.desc.getD 1 0) 29 24

/-! ### Auxiliary ADC (R474, R475) -/

/-- The tiles of the auxiliary ring. -/
def State.auxTiles (s : State) : List Nat :=
  (List.range (8 * 2 ^ s.fld F.AUX_BUF_CTL_size_log2 / 4096)).map (((s.reg .AUX_BUF_BASE 0).toNat - larBase) / 4096 + ·)

/-- The sequencer stops, by its run bit or with its claim (R475); its ring is no longer in use (R457). -/
def State.auxStop (s : State) : State :=
  let s := if s.flag F.AUX_SEQ_CTL_run then s.auxTiles.foldl State.dropUse s else s
  let s := (s.setFld F.AUX_SEQ_CTL_run 0 0).setFld F.AUX_STAT_busy 0 0
  { s with mem := { s.mem with auxLeft := [] } }

/-- A sweep over the inputs of the mask begins. -/
def State.auxSweep (s : State) : State :=
  let s := s.setFld F.AUX_STAT_busy 0 1
  { s with mem := { s.mem with
      auxLeft := maskList 32 (s.reg .AUX_SEQ_MASK 0).toNat, auxSweep := s.mem.auxSweep + 1 } }

/-- The ring of the sequencer is tile-aligned, of a legal size, and in tiles its holder holds (R475). -/
def State.auxRingOk (s : State) : Bool :=
  let base := (s.reg .AUX_BUF_BASE 0).toNat
  let k := s.fld F.AUX_BUF_CTL_size_log2
  match s.owner resAux 0 with
  | some c =>
    decide (9 ≤ k ∧ k ≤ 16 ∧ base % 4096 = 0 ∧ larBase ≤ base ∧ base + 8 * 2 ^ k ≤ larBase + 4096 * 6144) &&
      s.auxTiles.all (s.holds c.mbx resTile)
  | none => false

/-- A write of AUX_SEQ_CTL (R72, R474): while run = 1 only run changes. -/
def State.writeAuxCtl (s : State) (p : Port) (v : Word) : State :=
  if s.portHolds p resAux 0 = false then s.accErr p 0x9004 errClaim
  else if s.flag F.AUX_SEQ_CTL_run then (if bitAt v 0 then s else s.auxStop)
  else
    let s := s.writeTyped .AUX_SEQ_CTL 0 (v &&& 0xFFFFFFFE)
    if bitAt v 0 = false then s
    else if s.reg .AUX_SEQ_MASK 0 = 0 ∨ s.auxRingOk = false then s.setFld F.AUX_STAT_cfg_err 0 1
    else (s.auxTiles.foldl State.useTile (s.setFld F.AUX_SEQ_CTL_run 0 1)).auxSweep

def execAuxSeqCtlWrite (port : Port) (v : Word) (s : State) : Outcome State Fault Refusal :=
  .next (s.writeAuxCtl port v)

/-- An entry enters the auxiliary ring under R102 (R475). -/
def State.auxEntry (s : State) (input code : Nat) : State :=
  let size := 2 ^ s.fld F.AUX_BUF_CTL_size_log2
  let wr := s.fld F.AUX_BUF_WR_wr % size
  let rd := s.fld F.AUX_BUF_RD_rd % size
  let w0 := toWord (code % 4096 + 65536 * input + 2 ^ 24 * (s.mem.auxSweep % 256))
  let s := s.setMemWords ((s.reg .AUX_BUF_BASE 0).toNat + 8 * wr) [w0, s.timeNs]
  let s := if (wr + 1) % size = rd then
      ((s.setFld F.AUX_BUF_RD_rd 0 ((rd + 1) % size)).setFld F.AUX_BUF_CTL_overrun 0 1).postLimited 0x0905 0 0 s.now
    else s
  s.setFld F.AUX_BUF_WR_wr 0 ((wr + 1) % size)

/-- A conversion ends (R473-R475): input 15 reads code 0; after the last input a continuous sweep follows. -/
def execAuxConversionDone (code : Nat) (s : State) : Outcome State Fault Refusal :=
  match s.mem.auxLeft with
  | [] => .next s
  | i :: l =>
    let s := s.auxEntry i (if i = 15 then 0 else code)
    let s := { s with mem := { s.mem with auxLeft := l } }
    if l = [] then
      if s.flag F.AUX_SEQ_CTL_paced then .next (s.setFld F.AUX_STAT_busy 0 0) else .next s.auxSweep
    else .next s

/-- A paced sweep falls due (R474). -/
def execAuxPacedSweep (s : State) : Outcome State Fault Refusal :=
  if s.flag F.AUX_SEQ_CTL_run = true ∧ s.flag F.AUX_SEQ_CTL_paced = true then
    if s.mem.auxLeft = [] then .next s.auxSweep else .next (s.bump F.AUX_STAT_sweep_skips 0)
  else .next s

end Sys2Proof.Machine
end

