-- ==== Sys2Proof/Machine/Contexts.lean ====
section
/-! DEFINITION. Chapters 06 and 07: the operations on contexts that rows of many chapters share: opening, aborting,
records and their destination, retention, the placement log, the backlog. -/

namespace Sys2Proof.Machine

/-- What the correlator and its neighbour report say (R216, R217): beam, code slot, timing in half chips modulo the symbol
period, frequency offset in Hz, SNR in 0.25 dB, timestamp, bin and half chip of the hypothesis, and the SNR at it on
B(b - 3) to B(b + 3). -/
structure Det where
  beam : Nat
  code : Nat
  timing : Nat
  freq : Int
  snr : Int
  at_ : T48
  bin : Int
  half : Int
  neigh : List Int

/-! ### Access -/

def ctxDefault (_ : Nat) : Ctx := {}

def State.ctx (s : State) (n : Nat) : Ctx := Store.get ctxDefault s.rxb.ctx n

def State.setCtx (s : State) (n : Nat) (x : Ctx) : State :=
  { s with rxb := { s.rxb with ctx := Store.set ctxDefault s.rxb.ctx n x } }

def State.graph (s : State) (n : Nat) : Option BaseGraph := Store.get (fun _ => none) s.rxb.bg n

/-- The contexts outside FREE, ascending. -/
def State.openCtxs (s : State) : List (Nat × Ctx) :=
  s.rxb.ctx.filter fun p => decide (p.2.state ≠ .free)

/-- A context with its tracking as it stands (R218, R225, R230): NCO frequency, timing, current SNR (that of its detection
until a symbol is received), payload symbols. -/
def State.trk (s : State) (n : Nat) : Ctx :=
  let x := s.ctx n
  match s.eq n, s.profile x.profile with
  | some e, some p =>
    { x with
        freq := incHz (s.eqHz e p) e.inc 1, timing := e.timing p
        snr := if e.errs = [] then x.detSnr else e.sinrNow
        symbols := min x.paySymbols (e.track.length - p.headerSymbols) }
  | _, _ => x

/-- The contexts outside FREE with their tracking. -/
def State.tracked (s : State) : List (Nat × Ctx) := s.openCtxs.map fun c => (c.1, s.trk c.1)

/-- A context with what it reports: f_meas and SINR over its payload or header (R240), for an abort over every symbol (R268).
-/
def State.report (s : State) (n : Nat) (aborted : Bool) : Ctx :=
  let x := s.ctx n
  match s.eq n, s.profile x.profile with
  | some e, some p =>
    let all := if x.hdr.isSome then p.headerSymbols + x.paySymbols else e.track.length
    let a := if aborted then e.spanAll all else e.span p x.paySymbols
    { x with freq := incHz (s.eqHz e p) a.inc a.n, snr := a.sinr, measured := decide (0 < a.n) }
  | _, _ => x

/-- Four states a live reception runs through (R222). -/
def CState.live (c : CState) : Bool :=
  match c with
  | .acquire | .sync | .header | .payload => true
  | .free | .decode | .deliver => false

/-- The states in the order CTX_READ numbers them (R617). -/
def CState.code (c : CState) : Nat :=
  match c with
  | .free => 0
  | .acquire => 1
  | .sync => 2
  | .header => 3
  | .payload => 4
  | .decode => 5
  | .deliver => 6

/-- The policy of the mode in force (R233). -/
def State.policy (s : State) : Policy := s.policyOf s.modeNo

/-- SIC runs: sic_en and a Pantry fitted (R241, R463). -/
def State.sicOn (s : State) : Bool := s.policy.sicEn && s.pantryReady

/-! ### Usability of a profile in a mode (R36, R210) -/

/-- The searched set and nf_hold of every beam, in BEAM_DET_STAT (R210, R212, R247). -/
def State.searchRegs (s : State) : State :=
  let codes := (List.range 16).foldl (fun m c => if s.searched c then m + 2 ^ c else m) 0
  (List.range 64).foldl (fun s b =>
    let on := s.flag F.BEAM_RX_STAT_enabled b
    let valid := s.flag F.BEAM_RX_NF_valid b
    let s := s.setFld F.BEAM_DET_STAT_codes b (if on && valid then codes else 0)
    s.setFlag F.BEAM_DET_STAT_nf_hold b (on && !valid)) s

/-! ### Tiles (R220, R241) -/

/-- A pool tile can be taken: in the pool, not in use, not QUARANTINED. -/
def State.poolFree (s : State) (t : Nat) : Bool :=
  decide ((s.tile t).uses = 0 ∧ (s.tile t).state = .open)

/-- Take n pool tiles, the lowest first; none when the pool cannot supply them. -/
def State.takePool (s : State) (n : Nat) : Option (List Nat × State) :=
  let l := (((List.range 4096).map (2048 + ·)).filter s.poolFree).take n
  if l.length = n then some (l, l.foldl State.useTile s) else none

/-- Who uses a Pantry tile: 0 nobody, 1 backlog, 2 retention, 3 regeneration (R450). -/
def State.panUse (s : State) (p : Nat) : Nat := Store.get (fun _ => 0) s.mem.pantryUse p

def State.setPanUse (s : State) (p u : Nat) : State :=
  { s with mem := { s.mem with pantryUse := Store.set (fun _ => 0) s.mem.pantryUse p u } }

/-- Lowest Pantry tile nobody uses and that is not QUARANTINED; at most as far as one beyond those listed. -/
def State.freePantry (s : State) : Option Nat :=
  (List.range (min (s.fld F.MEM_PAN_USABLE_tiles) (s.mem.pantryUse.length + s.mem.tiles.length + 1))).find? fun p =>
    decide (s.panUse p = 0 ∧ (s.tile (panKey p)).state ≠ .quarantined)

/-- Take a Pantry tile for a use. -/
def State.takePantry (s : State) (use : Nat) : Option (Nat × State) :=
  if s.pantryReady then
    match s.freePantry with
    | some p => some (p, (s.setPanUse p use).useTile (panKey p))
    | none => none
  else none

/-- Take a retention or regeneration tile from RET_TILES (R241, R243). -/
def State.takeRet (s : State) (use : Nat) : Option (Nat × State) :=
  if s.rxb.retUsed < s.policy.retTiles then
    match s.takePantry use with
    | some (p, s') => some (p, { s' with rxb := { s'.rxb with retUsed := s'.rxb.retUsed + 1 } })
    | none => none
  else none

/-- Take n of them, all or none. -/
def State.takeRets (s : State) (use : Nat) : Nat → Option (List Nat × State)
  | 0 => some ([], s)
  | n + 1 => match s.takeRet use with
    | none => none
    | some (p, s') => match State.takeRets s' use n with
      | none => none
      | some (l, s'') => some (p :: l, s'')

/-- Release Pantry tiles taken from RET_TILES. -/
def State.freeRets (s : State) (l : List Nat) : State :=
  let s := l.foldl (fun s p => (s.setPanUse p 0).releaseTile (panKey p)) s
  { s with rxb := { s.rxb with retUsed := s.rxb.retUsed - l.length } }

/-- Release a context's retention. -/
def State.dropRetention (s : State) (n : Nat) : State :=
  let x := s.ctx n
  ((s.freeRets x.retTiles).setCtx n { x with retained := false, retTiles := [] }).setEq n
    ((s.eq n).map fun e => { e with retain := false, ret := [] })

/-- Half chips of a context's retained span: from its first trained symbol to the packet end (R241). -/
def Ctx.retHalves (x : Ctx) (p : Profile) : Nat := 2 * ceilDiv ((x.packetEnd - x.det).toNat * p.chipRate) 1000000000

/-- Pantry tiles of that span: ceil(8 × chips × beams / 4,096) (R241). -/
def Ctx.retNeed (x : Ctx) (p : Profile) : Nat := ceilDiv (4 * x.retHalves p * x.beams.length) 4096

/-! ### Records and their destination (R223, R232, R267-R273, R403) -/

/-- Remaining credit of a stream in 8-byte units (R401). -/
def State.credit (s : State) (stream : Nat) : Nat :=
  let r := (2 ^ 32 + Store.get (fun _ => 0) s.link.limit stream - Store.get (fun _ => 0) s.link.sent stream % 2 ^ 32) %
    2 ^ 32
  if r < 2 ^ 31 then r else 0

/-- Reserve len_8 = size_8 + 3 for a record on stream 0x03 (R232, R403): true when the link is UP and the credit is
there. -/
def State.reserve (s : State) (size8 : Nat) : Bool × State :=
  if s.linkUp = true ∧ s.link.reserved + size8 + 3 ≤ s.credit 3 then
    (true, { s with link := { s.link with reserved := s.link.reserved + size8 + 3 } })
  else (false, s)

/-- Form a record of a context (R267-R270): numbered, its destination taken now. -/
def State.formRecord (s : State) (n kind status sub : Nat) (delivers : Bool) : State :=
  let x := s.ctx n
  let words := recordWords n x kind status sub (s.rxb.recSeq % 2 ^ 32)
  let p := s.reserve (words.length / 2)
  let s := p.2
  let r : PendRec := { ctx := n, seq := s.rxb.recSeq % 2 ^ 32, words := words, toBacklog := !p.1, delivers := delivers }
  let s := s.putTileWords x.recTile words
  let s := { s with rxb := { s.rxb with recSeq := s.rxb.recSeq + 1, recQ := s.rxb.recQ ++ [r] } }
  s.logPlace lgDest n s.now (if p.1 then 0 else 1) 0

/-! ### Leaving a context (R222, R223, R242) -/

/-- Every Larder tile of a context. -/
def Ctx.tiles (x : Ctx) : List Nat := x.chipTile :: x.recTile :: x.payTiles

/-- A context returns to FREE: its tiles, its Skillet load and the LDPC assist are released, and the exit is logged. -/
def State.freeCtx (s : State) (n cause : Nat) : State :=
  let x := s.ctx n
  let s := s.setEq n none
  let s := { s with rxb := { s.rxb with
      assist := Store.mapVals (fun _ => none) (fun _ o => if o = some n then none else o) s.rxb.assist } }
  let s := if x.state = .free then s else s.releaseTiles x.tiles
  let s := { s with rx := { s.rx with
      combined := x.beams.foldl (fun (m : Store Int) b => Store.set (fun _ => 0) m b s.cyc) s.rx.combined } }
  (s.setCtx n {}).logPlace lgExit n s.now cause 0

/-- Abort causes (R223). -/
def cFalseLock : Nat := 1
def cCollided : Nat := 2
def cEvicted : Nat := 3
def cLenOver : Nat := 4
def cHdrReject : Nat := 5
def cNoTiles : Nat := 6
def cTrackLost : Nat := 7
def cCrcFail : Nat := 8
def cModeChange : Nat := 9
def cSampleLoss : Nat := 10
def cTileBad : Nat := 11
def cFault : Nat := 12

/-- SIC_RESULT (R245, R248). -/
def State.sicResult (s : State) (x : Ctx) (success : Bool) : State :=
  s.post 0x0404 clsInfo
    (toWord (x.cand + (if success then 256 else 0) + 512 * (x.interferers % 16) + 2 ^ 13 * (x.attempt % 8)))

/-- A retry reads the samples of a candidate: the context number it came from, and its detection. -/
def retryOf (x : Ctx) (c : Cand) : Bool := x.retry && decide (c.ctxNo = x.cand ∧ c.ctx.det = x.det)

/-- The candidate of a retry. -/
def State.cand (s : State) (x : Ctx) : Option Cand := s.rxb.cands.find? (retryOf x)

/-- A retry of a candidate runs. -/
def State.retrying (s : State) (c : Cand) : Bool := s.openCtxs.any fun o => retryOf o.2 c

/-- A candidate leaves: its retention is released. -/
def State.endCand (s : State) (c : Cand) : State :=
  ((({ s with rxb := { s.rxb with cands := s.rxb.cands.filter fun d => d ≠ c } } : State)).freeRets c.ctx.retTiles).setEq
    c.slot none

/-- A moment a lies at least n ns before b. -/
def before (a b : T48) (n : Nat) : Bool := decide ((n : Int) ≤ (b - a).toInt)

/-- A delivered packet interferes with a candidate (R243): its air interval and the retained span overlap by at least one
symbol of the candidate, on an equal or adjacent beam. -/
def State.interferes (s : State) (r : Regen) (c : Cand) : Bool :=
  match s.profile c.ctx.profile with
  | none => false
  | some p =>
    let sym := p.symNs 1
    before r.start c.ctx.packetEnd sym && before c.ctx.det r.fin sym && before r.start r.fin sym &&
      before c.ctx.det c.ctx.packetEnd sym &&
      (r.beams.any fun a => c.ctx.beams.any fun b => decide (a ≤ b + 1 ∧ b ≤ a + 1))

/-- Candidates gain the interferers they now have; one that gains any has a retry queued (R244). -/
def State.updateCands (s : State) : State :=
  { s with rxb := { s.rxb with
      cands := s.rxb.cands.map fun c =>
        let l := (s.rxb.regen.filter fun r => s.interferes r c).map (·.rec_)
        if l.any fun i => !c.interferers.contains i then
          { c with
            interferers := c.interferers ++ (l.filter fun i => !c.interferers.contains i)
            queued := decide (c.attempts < s.policy.sicRetryMax) || c.queued }
        else c } }

/-- The lowest key that no candidate's equaliser has. -/
def State.candSlot (s : State) : Nat :=
  (((List.range (s.rxb.cands.length + 1)).map (256 + ·)).find? fun k => s.rxb.cands.all fun c => decide (c.slot ≠ k)).getD 256

/-- A context becomes a candidate (R242); its retention goes with it and continues to the packet end. -/
def State.makeCand (s : State) (n : Nat) : State :=
  let x := s.ctx n
  let k := s.candSlot
  let expiry := x.packetEnd + BitVec.ofNat 48 (msec s.policy.retHoldMs)
  let c : Cand := { ctxNo := n, ctx := x, expiry := expiry, slot := k }
  let need := match s.profile x.profile with
    | some p => x.retHalves p
    | none => 0
  let s := s.setEq k ((s.eq n).map fun e => { e with keepTo := some need })
  ({ s with rxb := { s.rxb with cands := s.rxb.cands ++ [c] } } : State).updateCands

/-- An abort forms a record (R223): a false lock only with rec_false; a retry unless it was the last, or its candidate has
expired (R245). -/
def State.abortRecords (s : State) (x : Ctx) (cause : Nat) : Bool :=
  if cause = cFalseLock ∧ s.policy.recFalse = false then false
  else if x.retry then
    match s.cand x with
    | some c => decide (c.attempts < s.policy.sicRetryMax)
    | none => false
  else true

/-- A retry that has not delivered reports its failure (R245, R248). -/
def State.retryFails (s : State) (x : Ctx) : State :=
  if x.retry = true ∧ x.state ≠ .deliver then s.sicResult x false else s

/-- Abort a context (R222, R223, R242, R245): counted by cause; FALSE_LOCK counted on its strongest beam; a retry's failure
reported; its record formed; with COLLIDED or CRC_FAIL and intact retention it becomes a SIC candidate, otherwise its
retention is released. -/
def State.abort (s : State) (n cause : Nat) (sub : Nat := 0) : State :=
  let x := s.ctx n
  if x.state = .free then s
  else
    let k := Store.get (fun _ => 0) s.rxb.aborts cause + 1
    let s := { s with rxb := { s.rxb with aborts := Store.set (fun _ => 0) s.rxb.aborts cause k } }
    let s := if cause = cFalseLock then s.bump F.BEAM_DET_LOSS_false_locks (x.beams.headD 0) else s
    let s := s.retryFails x
    let s := if s.abortRecords x cause then (s.setCtx n (s.report n true)).formRecord n 2 cause sub false else s
    let s := if (cause = cCollided ∨ cause = cCrcFail) ∧ x.retained = true then s.makeCand n else s.dropRetention n
    s.freeCtx n cause

/-- Abort every context of a list that still satisfies a test. -/
def State.abortWhere (s : State) (cause : Nat) (p : Ctx → Bool) : State :=
  (s.openCtxs.filter fun c => p c.2).foldl (fun s c => s.abort c.1 cause) s

/-- Abort every context outside FREE that satisfies a test, those in DELIVER too (R222, R530, R573): a record already formed
stays on its way (R270) and no longer holds its context. -/
def State.abortEvery (s : State) (cause : Nat) (p : Nat → Ctx → Bool) : State :=
  (s.openCtxs.filter fun c => p c.1 c.2).foldl (fun s c =>
    ({ s with rxb := { s.rxb with
      recQ := s.rxb.recQ.map fun (r : PendRec) => if r.ctx = c.1 then { r with delivers := false } else r } } : State).abort
        c.1 cause) s

/-- A context's tile failed when opened (R222, R223, R455): if it was the record tile, the record is built in a fresh
pool tile, or counted as lost when there is none. -/
def State.abortTileBad (s : State) (n : Nat) (recordTile : Bool) : State :=
  let x := s.ctx n
  if recordTile then
    match s.takePool 1 with
    | some (l, s') =>
      let s' := s'.setCtx n { x with rebuilt := true, recTile := l.headD 0, payTiles := x.recTile :: x.payTiles }
      s'.abort n cTileBad
    | none =>
      let k := Store.get (fun _ => 0) s.rxb.aborts cTileBad + 1
      let s := { s with rxb := { s.rxb with
          aborts := Store.set (fun _ => 0) s.rxb.aborts cTileBad k, recLost := s.rxb.recLost + 1 } }
      ((s.retryFails x).dropRetention n).freeCtx n cTileBad
  else s.abort n cTileBad

/-- A context opens its tiles (R222, R454): one that fails is quarantined and aborts it. -/
def State.ctxTileBad (s : State) (n : Nat) : Option State :=
  let x := s.ctx n
  (x.tiles.find? s.tileFails).map fun k => (s.quarantineOpen k 2).abortTileBad n (decide (k = x.recTile))

/-- A live context continues across a mode change (R53): same preset, its beams kept, its profile usable. -/
def State.continues (s : State) (x : Ctx) (target preset beams : Nat) : Bool :=
  opensContexts target && decide (preset = s.mode.preset) && (x.beams.all fun b => decide (b < beams)) &&
    match s.profile x.profile with
    | some p => p.fits preset
    | none => false

/-! ### Load and placement (R221, R227-R231) -/

/-- Load units x 10^6 of a context of a profile on n beams (R227). -/
def Profile.load (p : Profile) (n : Nat) : Nat := p.chipRate * n * (if p.nFfe ≤ 8 then 1 else 2)

/-- A Skillet recovers, or waits to, or its clocks are stopped: it offers no capacity (R557, R571). -/
def State.sklDown (s : State) (k : Nat) : Bool :=
  s.underRecovery 0x0401 k || s.underRecovery 0x0103 (2 + k) || Store.get (fun _ => false) s.pwr.sag (2 + k) ||
  match s.flt.interrupted with
    | some e => decide (e.code = 0x0401 ∧ e.unit = k)
    | none => false

/-- A Skillet offers capacity (R227, R544, R551, R571): it is ON, or in the RET of an idle WAIT, and in service. -/
def State.sklOn (s : State) (k : Nat) : Bool :=
  decide (s.fld F.PWR_DOM_state (2 + k) = 0 ∨ (s.fld F.PWR_DOM_state (2 + k) = 1 ∧ s.fld F.PWR_DOM_host_req (2 + k) ≤ 1)) &&
    !(Store.get (fun _ => false) s.rxb.sklOut k) && !s.sklDown k

/-- Skillets that are ON above k: DPD_MIN is taken downwards from the highest of them (R227, R544). -/
def State.sklAbove (s : State) (k : Nat) : Nat := ((List.range 12).filter fun j => decide (k < j) && s.sklOn j).length

/-- Capacity of a Skillet for contexts: 64 units less its share of DPD_MIN. -/
def State.sklCapacity (s : State) (k : Nat) : Nat :=
  64000000 - min 16 (s.policy.dpdMin - 16 * s.sklAbove k) * 4000000

/-- Load already placed on a Skillet, leaving out one context. -/
def State.sklLoad (s : State) (k : Nat) (without : Option Nat) : Nat :=
  (s.openCtxs.filter fun c => decide (c.2.skillet = k ∧ some c.1 ≠ without)).foldl (fun n c => n + c.2.load) 0

/-- The eligible Skillet whose free capacity after placement is smallest, the lowest number winning ties (R227). -/
def State.bestSkillet (s : State) (load : Nat) (without : Option Nat) : Option Nat :=
  ((List.range 12).filter fun k => s.sklOn k && decide (s.sklLoad k without + load ≤ s.sklCapacity k)).foldl
    (fun best k => match best with
      | none => some k
      | some j => if s.sklCapacity k - s.sklLoad k without < s.sklCapacity j - s.sklLoad j without then some k
        else some j) none

/-- SNR of the neighbour report on a beam; below -10 dB reads -10 dB (R217). -/
def detOn (d : Det) (b : Nat) : Int := max (-40) (d.neigh.getD (b + 3 - d.beam) (-40))

/-- The combined run of a detection (R228): candidates adjoin an end, the higher SNR first, the lower beam winning
ties. -/
def State.growRun (s : State) (d : Det) (limit : Int) : Nat → Nat → Nat → Nat × Nat
  | 0, lo, hi => (lo, hi)
  | n + 1, lo, hi =>
    let ok (b : Nat) := s.flag F.BEAM_RX_STAT_enabled b && decide (limit ≤ detOn d b ∧ b ≤ d.beam + 3 ∧ d.beam ≤ b + 3)
    let l := decide (0 < lo) && ok (lo - 1)
    let h := decide (hi < 63) && ok (hi + 1)
    if l && (!h || decide (detOn d (hi + 1) ≤ detOn d (lo - 1))) then State.growRun s d limit n (lo - 1) hi
    else if h then State.growRun s d limit n lo (hi + 1)
    else (lo, hi)

/-- The run of R228 at most COMBINE_MAX beams. -/
def State.run (s : State) (d : Det) : Nat × Nat :=
  s.growRun d (d.snr - s.policy.combineDb) (s.policy.combineMax - 1) d.beam d.beam

/-- Shrink a run by its weakest end, never b itself, until a Skillet takes it (R228). -/
def State.fitRun (s : State) (d : Det) (p : Profile) (without : Option Nat) : Nat → Nat → Nat → Option (Nat × Nat × Nat)
  | 0, _, _ => none
  | n + 1, lo, hi =>
    match s.bestSkillet (p.load (hi + 1 - lo)) without with
    | some k => some (k, lo, hi)
    | none =>
      if lo = hi then none
      else if lo = d.beam then State.fitRun s d p without n lo (hi - 1)
      else if hi = d.beam then State.fitRun s d p without n (lo + 1) hi
      else if detOn d lo < detOn d hi then State.fitRun s d p without n (lo + 1) hi
      else State.fitRun s d p without n lo (hi - 1)

/-- Beams of a run by descending SNR, ties to the lower number (R229). -/
def detOrder (d : Det) (lo hi : Nat) : List Nat :=
  ((List.range (hi + 1 - lo)).map (lo + ·)).foldl (fun l b =>
    (l.takeWhile fun c => decide (detOn d b ≤ detOn d c)) ++ b :: (l.dropWhile fun c => decide (detOn d b ≤ detOn d c))) []

/-- The eviction metric M of a context (R230). -/
def State.metric (s : State) (x : Ctx) : Int :=
  if x.retry then -1024
  else
    let pr : Nat := match s.profile x.profile with
      | some p => p.priority
      | none => 0
    let w : Int := match x.state with
      | .header => 256
      | .payload => 512 + (if x.paySymbols = 0 then 0 else 256 * x.symbols / x.paySymbols : Nat)
      | .free | .acquire | .sync | .decode | .deliver => 0
    w + 64 * pr + clampI (-128) 255 x.snr

/-- M of a new detection. -/
def detMetric (d : Det) (p : Profile) : Int := 64 * p.priority + clampI (-128) 255 d.snr

/-- The context to evict (R230, R231): among those whose exit lets the detection be placed, the smallest M, then the
oldest detection, then the higher number. -/
def State.victim (s : State) (p : Profile) : Option (Nat × Ctx) :=
  let open_ := s.openCtxs.length
  let cands := s.tracked.filter fun c =>
    c.2.state.live && decide (open_ ≤ s.cLimit) && (s.bestSkillet (p.load 1) (some c.1)).isSome &&
      (decide (open_ = s.cLimit) || (s.bestSkillet (p.load 1) none).isNone)
  let worse (a b : Nat × Ctx) : Bool :=
    decide (s.metric a.2 < s.metric b.2) ||
      (decide (s.metric a.2 = s.metric b.2) &&
        (decide (a.2.det ≠ b.2.det ∧ atOrAfter b.2.det a.2.det = true) || decide (a.2.det = b.2.det ∧ b.1 < a.1)))
  cands.foldl (fun best c => match best with
    | none => some c
    | some b => if worse c b then some c else some b) none

/-- The lowest-numbered FREE context. -/
def State.freeNo (s : State) : Option Nat := (List.range 256).find? fun n => (s.ctx n).state = .free

/-- The length of a retained span in ns at most: T_MAX from the first integrated symbol (R241). -/
def State.tMaxNs (s : State) (p : Profile) : Nat := 1000 * p.tMax s.graph

/-- Open a context (R220, R222, R241): two pool tiles, Skillet and beams bound, NCO and timing from the detection. -/
def State.openCtx (s : State) (d : Det) (p : Profile) (pn n k lo hi : Nat) : Option State :=
  match s.takePool 2 with
  | none => none
  | some (l, s') =>
    let beams := detOrder d lo hi
    let x : Ctx :=
      { state := .acquire, skillet := k, code := d.code, profile := pn, beams := beams, freq := 2 * d.freq,
        timing := d.timing, detSnr := d.snr, snr := d.snr, det := d.at_, chipTile := l.getD 0 0,
        recTile := l.getD 1 0, load := p.load (hi + 1 - lo), retained := s.sicOn,
        packetEnd := d.at_ + BitVec.ofNat 48 (s.tMaxNs p - p.symNs (s.nInt p)), nInt := s.nInt p }
    let s' := (s'.setCtx n x).setEq n (some (s.newEq p pn d.code beams d.bin d.half d.freq s.sicOn))
    some (s'.logPlace lgOpen n d.at_
      (k + 16 * lo + 1024 * (hi - lo) + 4096 * d.code + 65536 * 2 + (if s.sicOn then 2 ^ 24 else 0))
      (unsN 16 d.snr + 65536 * unsN 16 (detMetric d p)))

/-! ### The backlog (R271-R274) -/

/-- Bytes a backlog tile holds already, its end word left out. -/
def BlTile.used (t : BlTile) : Nat := t.recs.foldl (fun n r => n + 4 * r.2.length) 0

/-- Seal a backlog tile: its word of 0 written, its checksum taken (R271). -/
def State.sealBacklog (s : State) (t : BlTile) : State :=
  let a := tileAddr (panKey t.tile)
  let s := if t.used < 4096 then s.setMemWord (a + t.used) 0 else s
  let s := s.sealTile (panKey t.tile)
  { s with rxb := { s.rxb with
      backlog := s.rxb.backlog.map fun x => if x = t then { x with isSealed := true } else x } }

/-- The open backlog tile. -/
def State.openBacklog (s : State) : Option BlTile := s.rxb.backlog.find? fun t => !t.isSealed

/-- Seal the open tile, if there is one. -/
def State.sealOpenBacklog (s : State) : State :=
  match s.openBacklog with
  | some t => s.sealBacklog t
  | none => s

/-- A record is dropped (R272, R273): counted and reported. -/
def State.recDrop (s : State) (newest : Bool) : State :=
  ({ s with rxb := { s.rxb with blDropped := s.rxb.blDropped + 1 } } : State).postLimited 0x0405 0
    (if newest then 65536 else 0) s.now

/-- Discard the oldest sealed tile that is not being drained, with all its records (R272). -/
def State.discardOldest (s : State) : Option State :=
  match s.rxb.backlog.find? fun t => t.isSealed && !t.draining with
  | none => none
  | some t =>
    let s := (s.setPanUse t.tile 0).releaseTile (panKey t.tile)
    let s := { s with rxb := { s.rxb with
        backlog := s.rxb.backlog.filter fun x => decide (x ≠ t), blOver := s.rxb.blOver + t.recs.length } }
    some (s.postLimited 0x0406 0 0 s.now t.recs.length)

/-- A new backlog tile, if BL_TILES and the Pantry allow one. -/
def State.newBacklog (s : State) : Option State :=
  if s.rxb.backlog.length < s.blTiles then
    match s.takePantry 1 with
    | some (p, s') =>
      some { s' with rxb := { s'.rxb with backlog := s'.rxb.backlog ++ [{ tile := p, firstAt := s.now }] } }
    | none => none
  else none

/-- Put a record into the open tile, which has room for it. -/
def State.appendBacklog (s : State) (r : PendRec) : State :=
  match s.openBacklog with
  | none => s
  | some t =>
    let s := s.setMemWords (tileAddr (panKey t.tile) + t.used) r.words
    { s with rxb := { s.rxb with
        backlog := s.rxb.backlog.map fun x => if x = t then { x with recs := x.recs ++ [(r.seq, r.words)] } else x } }

/-- Commit a record to the backlog (R271-R273): into the open tile; when it does not fit, that tile is sealed and a new
one taken; when none is free, the drop policy applies; without a backlog it is dropped. -/
def State.toBacklog (s : State) (r : PendRec) : State :=
  if s.blTiles = 0 ∨ s.pantryReady = false then s.recDrop false
  else
    let room := match s.openBacklog with
      | some t => decide (t.used + 4 * r.words.length ≤ 4096)
      | none => false
    if room then s.appendBacklog r
    else
      let s := s.sealOpenBacklog
      match s.newBacklog with
      | some s' => s'.appendBacklog r
      | none =>
        if s.rxb.blNewest then s.recDrop true
        else match s.discardOldest with
          | none => s.recDrop false
          | some s' => match s'.newBacklog with
            | some s'' => s''.appendBacklog r
            | none => s'.recDrop false

end Sys2Proof.Machine
end

