-- ==== Sys2Proof/Machine/Points.lean ====
section
/-! DEFINITION. Operating points of the clocked domains (R553-R555): starting a change. -/

namespace Sys2Proof.Machine

/-- Domain codes (R539). -/
def dMgmt : Nat := 0x01
def dSkl : Nat := 0x02
def dCol : Nat := 0x0E
def dTxb : Nat := 0x0F
def dSieve : Nat := 0x10
def dLnk : Nat := 0x14
def dLnkPhy : Nat := 0x15
def dPan : Nat := 0x16
def dLar : Nat := 0x17
def dQuad : Nat := 0x20
/-- Qq_ORX. -/
def dOrx (q : Nat) : Nat := dQuad + 4 * q + 3

/-- The change of operating point that runs on a domain. -/
def State.opChange (s : State) (d : Nat) : Option OpChange := Store.get (fun _ => none) s.pwr.op d

def State.setOp (s : State) (d : Nat) (c : Option OpChange) : State :=
  { s with pwr := { s.pwr with op := Store.set (fun _ => none) s.pwr.op d c } }

/-- A domain under FIXED_OPF. -/
def State.opFixed (s : State) (d : Nat) : Bool :=
  if d = dCol then s.flag F.PWR_OP_col_fixed
  else if d = dTxb then s.flag F.PWR_OP_txb_fixed
  else (s.fld F.PWR_SIEVE_OP_fixed).testBit (d - dSieve)

/-- A clocked domain is ON: COL and TXB by the sequencer, a Sieve with its RX side (R542). -/
def State.opAwake (s : State) (d : Nat) : Bool :=
  if d = dCol ∨ d = dTxb then decide (s.fld F.PWR_DOM_state d = 0) else decide (2 ≤ s.fld F.RADIO_STAT_rx_state (d - dSieve))

/-- Raise a domain to OPF (R554, R555): at once from OPH, after the lowering when one runs; a domain outside ON takes its
operating point at its next exit to ON. -/
def State.raiseOp (s : State) (d : Nat) : State :=
  match s.opChange d with
  | some c => if c.toF then s else s.setOp d (some { c with again := true })
  | none => if s.flag F.PWR_DOM_oph d = true ∧ s.opAwake d = true then s.setOp d (some { toF := true }) else s

/-- A change that needs OPF is applied only after OPF is reached (R554): what runs on the domain is complete. -/
def State.reachOpf (s : State) (d : Nat) : State :=
  if s.flag F.PWR_DOM_oph d = true ∨ (s.opChange d).isSome = true then
    ((s.setOp d none).setFld F.PWR_DOM_oph d 0).setFld F.PWR_DOM_v_on d 50
  else s

end Sys2Proof.Machine
end

