-- ==== Sys2Proof/Machine/Edges.lean ====
section
/-! DEFINITION. Chapter 05: what changes of E and of a beam's bank count and post (R184, R196). -/

namespace Sys2Proof.Machine

/-- What a change of E or of the bank counts for a beam at sample time t, against the state before it (R196). -/
def State.beamEdges (old s : State) (t : Int) (b : Nat) : State :=
  let on := old.flag F.BEAM_RX_STAT_enabled b
  let o := old.beamView b t
  let v := s.beamView b t
  let s := s.beamEvt b v
  let s := if v.excl = true ∧ (on && o.excl) = false then s.bump F.BEAM_RX_EXCL_CNT_excl_episodes b else s
  if v.thin = true ∧ (on && o.thin) = false then
    (s.bump F.BEAM_RX_EXCL_CNT_thin_episodes b).postLimited 0x0302 b
      (toWord (b + if v.kept = 0 then 64 else 0)) s.now
  else s

/-- The enabled beams that draw on a quadrant. -/
def State.beamsOn (s : State) (q : Nat) : List Nat :=
  (List.range 64).filter fun b => s.flag F.BEAM_RX_STAT_enabled b && (s.beamQuads b).contains q

/-- What a change of a quadrant's paths other than by their flags counts for its beams, at the sample that has just left
Colander (R184, R196). -/
def State.pathsChanged (old s : State) (q : Nat) : State :=
  (s.beamsOn q).foldl (fun s b => State.beamEdges old s (s.beamNow b) b) s

end Sys2Proof.Machine
end

