-- ==== Sys2Proof/Machine/Rffe.lean ====
section
/-! DEFINITION. Chapter 03: the RFFE masters (R139-R144): single transactions, timed sequences. -/

namespace Sys2Proof.Machine

open Host

/-- Transactions of sequence n of quadrant q (R141). -/
def State.rffeSeq (s : State) (q n : Nat) : List Word := Store.get (fun _ => []) s.rx.seq (8 * q + n)

def State.setRffeSeq (s : State) (q n : Nat) (l : List Word) : State :=
  { s with rx := { s.rx with seq := Store.set (fun _ => []) s.rx.seq (8 * q + n) l } }

/-- The sequence running on a quadrant's bus, and its transaction. -/
def State.rffeRunning (s : State) (q : Nat) : Option (Nat × Nat) := Store.get (fun _ => none) s.rx.running q

def State.setRunning (s : State) (q : Nat) (r : Option (Nat × Nat)) : State :=
  { s with rx := { s.rx with running := Store.set (fun _ => none) s.rx.running q r } }

/-- The command that armed the running sequence. -/
def State.seqCmd (s : State) (q : Nat) : Option Cmd := Store.get (fun _ => none) s.rx.seqCmd q

def State.setSeqCmd (s : State) (q : Nat) (c : Option Cmd) : State :=
  { s with rx := { s.rx with seqCmd := Store.set (fun _ => none) s.rx.seqCmd q c } }

def State.rffeXfer (s : State) (q : Nat) : Option RffeXfer := Store.get (fun _ => none) s.rx.xfer q

def State.setXfer (s : State) (q : Nat) (x : Option RffeXfer) : State :=
  { s with rx := { s.rx with xfer := Store.set (fun _ => none) s.rx.xfer q x } }

def State.rffeHeld (s : State) (q : Nat) : List RffeXfer := Store.get (fun _ => []) s.rx.xferHeld q

def State.setHeld (s : State) (q : Nat) (l : List RffeXfer) : State :=
  { s with rx := { s.rx with xferHeld := Store.set (fun _ => []) s.rx.xferHeld q l } }

/-! ### Bus timing (R139, R140) -/

/-- SCLK divider of a quadrant, clamped to 10 to 205 (R146). -/
def State.rffeDiv (s : State) (q : Nat) : Nat := min 205 (max 10 (s.fld F.RFFE_CTL_div q))

/-- ns of a number of SCLK periods: SCLK is 245.76 MHz / div, or 100 MHz / div on HOSC (R139, R530). -/
def State.rffeNs (s : State) (q n : Nat) : Nat :=
  if s.flag F.CLK_STAT_on_hosc then n * s.rffeDiv q * 10 else ceilDiv (n * s.rffeDiv q * 100000) 24576

/-- SCLK of a quadrant exceeds 13 MHz, so that reads run at half of it (R139). -/
def State.rffeFast (s : State) (q : Nat) : Bool :=
  if s.flag F.CLK_STAT_on_hosc then decide (100000 > 13000 * s.rffeDiv q) else decide (245760 > 13000 * s.rffeDiv q)

/-- Fields of a RFFE_XFER's first word (R613). -/
def RffeXfer.kind (x : RffeXfer) : Nat := bits x.head 10 8
def RffeXfer.usid (x : RffeXfer) : Nat := bits x.head 7 4
def RffeXfer.addr (x : RffeXfer) : Nat := if x.kind = 0 then 0 else bits x.head 23 16
def RffeXfer.bytes (x : RffeXfer) : Nat := bits x.head 15 12 + 1
def RffeXfer.reads (x : RffeXfer) : Bool := decide (x.kind = 2 ∨ x.kind = 4)

/-- SCLK periods of a write of n bytes: 25, or 25 + 9 n for an extended write (R140). -/
def writePeriods (extended : Bool) (n : Nat) : Nat := if extended then 25 + 9 * n else 25

/-- ns of the transaction that a RFFE_XFER has on the bus, at the read clock for a read (R139, R140); the count of a read is
not stated (log entry 3). -/
def State.busNs (s : State) (q : Nat) (x : RffeXfer) : Nat :=
  if x.reads = true ∨ x.verifying = true then
    s.rffeNs q (Config.rffeReadPeriods x.bytes * if s.rffeFast q then 2 else 1)
  else s.rffeNs q (writePeriods (decide (x.kind = 3)) x.bytes)

/-- ns of all that a RFFE_XFER still does: a verified write with its two idle periods and its read (R144). -/
def State.xferNs (s : State) (q : Nat) (x : RffeXfer) : Nat :=
  if bitAt x.head 11 = true ∧ x.reads = false ∧ x.verifying = false then
    s.busNs q x + s.rffeNs q 2 + s.busNs q { x with verifying := true }
  else s.busNs q x

/-- ns of a sequence's transaction (R140, R613). -/
def State.entryNs (s : State) (q : Nat) (w : Word) : Nat := s.rffeNs q (writePeriods (decide (2 ≤ bits w 5 4)) (bits w 5 4 - 1))

def State.busAt (s : State) (q : Nat) : T48 := Store.get (fun _ => 0) s.rx.busAt q

/-- A transaction begins on a quadrant's bus at t, or once the two idle periods after the last are over (R140). -/
def State.beginBus (s : State) (q : Nat) (t : T48) : State :=
  let u := match Store.get (fun _ => none) s.rx.busFree q with
    | some f => if atOrAfter t f then t else f
    | none => t
  { s with rx := { s.rx with busAt := Store.set (fun _ => 0) s.rx.busAt q u } }

/-- Time passes to the end of the transaction on a quadrant's bus, ns after it began; two idle periods follow. -/
def State.endBus (s : State) (q ns : Nat) : State :=
  let s := s.elapseTo (tAdd (s.busAt q) ns)
  { s with rx := { s.rx with busFree := Store.set (fun _ => none) s.rx.busFree q (some (tAdd s.now (s.rffeNs q 2))) } }

/-- The first SCLK boundary at or after the present time: SCLK counts FS cycles (R140, R141). -/
def State.sclkEdge (s : State) (q : Nat) : T48 :=
  let d : Int := 8 * s.rffeDiv q
  s.cycleTime (-((-s.cyc) / d) * d)

/-! ### Sequences (R141, R142) -/

/-- Some unit is armed for a sequence of a quadrant. -/
def State.rffeArmed (s : State) (q n : Nat) : Bool :=
  (List.range 16).any fun u => match s.actOf u with
    | some (.rffe a b _) => decide (a = q ∧ b = n)
    | _ => false

/-- Some transition of a side of a quadrant triggers a sequence (R350). -/
def State.rffeBinds (s : State) (q : Nat) : Bool :=
  [2 * q, 2 * q + 1].any fun k => (List.range 4).any fun i => decide (8 ≤ (s.side k).bind / 16 ^ i % 16)

/-- The compare times of the armed triggers of a quadrant (R143): RFFE_SEQ_ARM, and with bound sequences what moves its
sides. -/
def State.rffeTriggers (s : State) (q : Nat) : List T48 :=
  let if_ (b : Bool) (u : Nat) : Option T48 := if b then some (s.cmpTime u) else none
  (List.range 16).filterMap fun u => match s.actOf u with
    | some (.rffe a _ _) => if_ (decide (a = q)) u
    | some (.side qm ..) => if_ (s.rffeBinds q && qm.testBit q) u
    | some (.cal _ qm ..) => if_ (s.rffeBinds q && qm.testBit q) u
    | some (.burst _) => if_ (s.rffeBinds q) u
    | some (.ack _) => if_ (s.rffeBinds q) u
    | some .mode => if_ (s.rffeBinds q) u
    | _ => none

/-- A single transaction may start: the bus is free, and it ends at least 1 µs before the next armed trigger (R143). -/
def State.xferMayStart (s : State) (q : Nat) (x : RffeXfer) : Bool :=
  (s.rffeRunning q).isNone && (s.rffeXfer q).isNone &&
    (s.rffeTriggers q).all fun t => atOrAfter t (tAdd s.now (s.rffeNs q 2 + s.xferNs q x + 1000))

/-- Put a single transaction on the bus. -/
def State.startXfer (s : State) (q : Nat) (x : RffeXfer) : State :=
  ((s.setXfer q (some x)).setFld F.RFFE_STAT_busy q 1).beginBus q s.now

/-- Start a transaction or hold it (R143). -/
def State.offerXfer (s : State) (q : Nat) (x : RffeXfer) : State :=
  if s.rffeHeld q = [] ∧ s.xferMayStart q x = true then s.startXfer q x else s.setHeld q (s.rffeHeld q ++ [x])

/-- A held transaction starts once it can. -/
def State.releaseXfer (s : State) (q : Nat) : State :=
  match s.rffeHeld q with
  | [] => s
  | x :: l => if s.xferMayStart q x then (s.setHeld q l).startXfer q x else s

/-- A trigger of a sequence (R141, R142): true when it starts, after a single transaction that is still on the bus; while
another runs it is dropped and reported. DESIGN CHOICE (log entry 139): so is a trigger of the sequence that is running. -/
def State.rffeTrigger (s : State) (q n : Nat) : Bool × State :=
  match s.rffeRunning q with
  | some (r, _) =>
    (false, (s.setFld F.RFFE_STAT_late q 1).post 0x0203 clsLate (toWord (q + 4 * n + 64 * r)))
  | none =>
    if s.rffeSeq q n = [] then (true, s)
    else
      let s := ((s.setRunning q (some (n, 0))).setFld F.RFFE_STAT_seq_active q 1).setFld F.RFFE_STAT_busy q 1
      (true, if (s.rffeXfer q).isSome then s else s.beginBus q (s.sclkEdge q))

/-- An armed sequence is triggered at its unit's compare time (R141): the command ends with the sequence, or with ST_BUSY
when the trigger is dropped. -/
def State.rffeArmedTrigger (s : State) (q n : Nat) (cmd : Cmd) : State :=
  match s.rffeTrigger q n with
  | (true, s) => s.setSeqCmd q (some cmd)
  | (false, s) => s.cmdDone cmd stBusy 0

/-- The RFFE_SEQ_ARM of a sequence that ends is done (R99). -/
def State.seqDone (s : State) (q : Nat) : State :=
  match s.seqCmd q with
  | some c => (s.setSeqCmd q none).cmdDone c stOk 0
  | none => s

/-- A sequence bound to a side's transition (R350): nibble k of the binding. -/
def State.rffeBound (s : State) (q bind k : Nat) : State :=
  let b := bind / 16 ^ k % 16
  if 8 ≤ b then (s.rffeTrigger q (b % 8)).2 else s

/-! ### Commands (R142, R143, R613) -/

def specRffeXfer : CmdSpec :=
  { opcode := 0x0220, minLen := 1, maxLen := 5, masks := [0x00FFFFF3], units := fun q => quadUnits (2 ^ bits (q.arg 1) 1 0) }

/-- The arguments of a RFFE_XFER (R139, R613); a verify of a broadcast would be a read of USID 0. -/
def rffeXferBad (q : Req) : Bool :=
  let x : RffeXfer := { mbx := q.mbx, head := q.arg 1, data := [] }
  decide (4 < x.kind ∨ (x.kind ≤ 2 ∧ x.bytes ≠ 1) ∨ ((x.kind = 1 ∨ x.kind = 2) ∧ 31 < x.addr) ∨
    (x.usid = 0 ∧ (x.reads = true ∨ bitAt x.head 11 = true)) ∨
    q.args.length ≠ (if x.reads then 1 else 1 + ceilDiv x.bytes 4))

/-- RFFE_XFER: refused at once, or its transaction offered to the master; the response is staged when it ends. DESIGN CHOICE
(log entry 139): a master with RFFE_CTL.en = 0 runs it, and its sequences, with SCLK and SDATA low. -/
def runRffeXfer (q : Req) (s : State) : State :=
  match s.precheck specRffeXfer q with
  | some st => s.stageRsp q.mbx (rspErr st)
  | none =>
    if rffeXferBad q then s.stageRsp q.mbx (rspErr stBadArg)
    else s.offerXfer (bits (q.arg 1) 1 0) { mbx := q.mbx, head := q.arg 1, data := q.args.drop 1 }

def execRffeXfer (q : Req) (s : State) : Outcome State Fault Refusal := .next (runRffeXfer q s)

def specRffeSeqLoad : CmdSpec :=
  { opcode := 0x0221, minLen := 2, maxLen := 63, masks := 0x00003F73 :: List.replicate 62 0xFFFFFF3F
    units := fun q => quadUnits (2 ^ bits (q.arg 1) 1 0) }

/-- Transactions the other sequences of a quadrant hold. -/
def State.rffeHeldWords (s : State) (q n : Nat) : Nat :=
  (List.range 8).foldl (fun t k => if k = n then t else t + (s.rffeSeq q k).length) 0

/-- An entry of a sequence is addressed as RFFE_XFER is (R613). -/
def rffeEntryBad (w : Word) : Bool := decide (bits w 5 4 = 1 ∧ 31 < bits w 15 8)

def svcRffeSeqLoad (q : Req) (s : State) : State × Rsp :=
  let qd := bits (q.arg 1) 1 0
  let n := bits (q.arg 1) 6 4
  let c := bits (q.arg 1) 13 8
  let running := match s.rffeRunning qd with
    | some (r, _) => decide (r = n)
    | none => false
  s.check [(decide (c < 1 ∨ 62 < c ∨ q.args.length ≠ 1 + c), rspErr stBadArg),
           ((q.args.drop 1).any rffeEntryBad, rspErr stBadArg),
           (running || s.rffeArmed qd n, rspErr stBusy),
           (decide (64 < s.rffeHeldWords qd n + c), rspErr stNoMem)]
    (s.setRffeSeq qd n (q.args.drop 1), rspOk)

def execRffeSeqLoad (q : Req) (s : State) : Outcome State Fault Refusal :=
  .next (serve specRffeSeqLoad q (svcRffeSeqLoad q) s)

def specRffeSeqArm : CmdSpec :=
  { opcode := 0x0222, minLen := 4, maxLen := 4, masks := 0x73 :: mSched, units := fun q => quadUnits (2 ^ bits (q.arg 1) 1 0) }

def svcRffeSeqArm (q : Req) (s : State) : State × Rsp :=
  let qd := bits (q.arg 1) 1 0
  let n := bits (q.arg 1) 6 4
  let d := schedOf q 2
  let running := match s.rffeRunning qd with
    | some (r, _) => decide (r = n)
    | none => false
  s.check [State.schedNow d false, (decide (s.rffeSeq qd n = []), rspErr stBadArg), s.schedHeld q d,
           (running || s.rffeArmed qd n, rspErr stBusy), s.schedBusy d, s.schedLate d 200000]
    (s.armCmd d.unit d.t 8 (.rffe qd n q.cmd), rspAccepted)

def execRffeSeqArm (q : Req) (s : State) : Outcome State Fault Refusal :=
  .next (serve specRffeSeqArm q (svcRffeSeqArm q) s)

/-! ### A transaction ends (R140, R143, R144) -/

/-- RFFE_ERR and the failed response (R144). -/
def State.rffeFail (s : State) (q : Nat) (x : RffeXfer) (verify : Bool) : State :=
  (((s.setFld F.RFFE_STAT_parity_err q 1).post 0x0204 clsWarn
    (toWord (q + 4 * x.usid + 64 * x.addr + (if verify then 2 ^ 22 else 0)))).stageRsp x.mbx (rspErr stFault))

/-- Bytes packed into words, byte 0 in [7:0]. -/
def packBytes (n : Nat) (l : List Nat) : List Word :=
  (List.range (ceilDiv n 4)).map fun i =>
    toWord ((List.range 4).foldl (fun w j => w + (if 4 * i + j < n then l.getD (4 * i + j) 0 % 256 else 0) * 256 ^ j) 0)

/-- What a write put into the register, by byte: kind 0 writes seven bits. -/
def RffeXfer.written (x : RffeXfer) : List Nat :=
  (List.range x.bytes).map fun i =>
    let b := bits (x.data.getD (i / 4) 0) (8 * (i % 4) + 7) (8 * (i % 4))
    if x.kind = 0 then b % 128 else b

/-- The end of a single transaction: a read answers its bytes, a verified write is followed by its read, which is
compared (R144). -/
def State.endXfer (s : State) (q : Nat) (x : RffeXfer) (data : List Nat) (parityOk : Bool) : State :=
  let s := (s.setXfer q none).setFlag F.RFFE_STAT_busy q (s.rffeRunning q).isSome
  if x.verifying = true ∨ x.reads = true then
    if parityOk = false then s.rffeFail q x false
    else if x.verifying then
      let got := (List.range x.bytes).map fun i => data.getD i 0 % (if x.kind = 0 then 128 else 256)
      if got = x.written then s.stageRsp x.mbx rspOk else s.rffeFail q x true
    else s.stageRsp x.mbx (rspOk (packBytes x.bytes data))
  else if bitAt x.head 11 then s.startXfer q { x with verifying := true }
  else s.stageRsp x.mbx rspOk

/-- After a single transaction the sequence that was triggered meanwhile begins, or one that was held (R142, R143). -/
def State.afterXfer (s : State) (q : Nat) : State :=
  if (s.rffeXfer q).isSome = false ∧ (s.rffeRunning q).isSome = true then s.beginBus q (s.sclkEdge q) else s.releaseXfer q

/-- A transaction completes on a quadrant's bus, and the next may start after two idle periods (R140, R143). -/
def execRffeTransactionDone (q : Nat) (data : List Nat) (parityOk : Bool) (s : State) : Outcome State Fault Refusal :=
  match s.rffeXfer q, s.rffeRunning q with
  | some x, _ => .next (((s.endBus q (s.busNs q x)).endXfer q x data parityOk).afterXfer q)
  | none, some (n, i) =>
    let s := s.endBus q (s.entryNs q ((s.rffeSeq q n).getD i 0))
    if i + 1 < (s.rffeSeq q n).length then .next ((s.setRunning q (some (n, i + 1))).beginBus q s.now)
    else
      .next (((((s.setRunning q none).setFld F.RFFE_STAT_seq_active q 0).setFld F.RFFE_STAT_busy q 0).seqDone q).releaseXfer q)
  | none, none => .next (s.releaseXfer q)

end Sys2Proof.Machine
end

