-- ==== Sys2Proof/Machine/Radio.lean ====
section
/-! DEFINITION. Chapter 10, and R514-R517: the radio sides, their synthesisers, and their commands. Bursts against lock
and grant stand in Tx.lean. -/

namespace Sys2Proof.Machine

open Host

/-! ### Presets, path samples (R120, R130, R148, R173) -/

/-- LNA state of a gain index (R116). -/
def lnaOf (g : Nat) : Nat := if g ≤ 47 then 0 else if g ≤ 71 then 1 else 2

/-- Gain of an LNA state in dB (R116). -/
def lnaGain (lna : Nat) : Nat := 12 * lna

/-- Baseband gain of a gain index in 0.5 dB steps: what the LNA does not give (R116). -/
def basebandGain (g : Nat) : Nat := g - 2 * lnaGain (lnaOf g)

/-- Bandwidth of the baseband filter per side in MHz (R115). -/
def basebandMHz (preset : Nat) : Nat :=
  match preset with
  | 0 => 28
  | 1 => 16
  | 2 => 9
  | _ => 4

/-- A path stops sampling (R133): its detectors, its windows and its sample path stop, its live flags read 0. -/
def State.parkPath (s : State) (p st : Nat) : State :=
  let s := s.setFld F.RX_PATH_STAT_state p st
  let s := (((s.setFld F.RX_PATH_STAT_settling p 0).setFld F.RX_PATH_STAT_nbr_dirty p 0).setFld F.RX_PATH_STAT_ovr_q p 0).setFld
    F.RX_PATH_STAT_ovr_i p 0
  let s := { s with dp := { s.dp with paths := Store.set (fun _ => none) s.dp.paths p none } }
  { s with rx := { s.rx with
      ev := Store.set (fun _ => none) (Store.set (fun _ => none) s.rx.ev (2 * p) none) (2 * p + 1) none
      clip := Store.set (fun _ => []) (Store.set (fun _ => []) s.rx.clip (2 * p) []) (2 * p + 1) []
      win := Store.set (fun _ => none) s.rx.win p none
      dirty := Store.set (fun _ => []) s.rx.dirty p []
      settle := Store.set (fun _ => []) s.rx.settle p []
      floor := Store.set (fun _ => none) s.rx.floor p none } }

/-- A path leaves PARKED at the present time (R119, R173): its stored gain index is used, its samples settle. -/
def State.startPath (s : State) (p st : Nat) : State :=
  let s := (s.setFld F.RX_PATH_STAT_state p st).setFld F.RX_PATH_STAT_lna_state p (lnaOf (s.fld F.RX_GAIN_gain_idx p))
  let s := { s with rx := { s.rx with floor := Store.set (fun _ => none) s.rx.floor p none } }
  (s.openPath p).settleFor p (nsCycles 1500 + s.recOf p)

/-! ### Sides (R330-R333). Side t of quadrant q (0 RX, 1 TX) is k = 2 q + t, which is also its synthesiser. -/

/-- A side is locked. -/
def State.locked (s : State) (k : Nat) : Bool :=
  if k % 2 = 0 then s.flag F.RADIO_STAT_rx_lock (k / 2) else s.flag F.RADIO_STAT_tx_lock (k / 2)

/-- RETURN_STATE of a side. -/
def State.retState (s : State) (k : Nat) : Nat :=
  if (if k % 2 = 0 then s.flag F.RADIO_STAT_rx_ret (k / 2) else s.flag F.RADIO_STAT_tx_ret (k / 2)) then sStandby
  else sSleep

/-- LO frequency of a side in 0.5 Hz, without pre-compensation. -/
def State.loFreq (s : State) (k : Nat) : Nat :=
  if k % 2 = 0 then (s.reg .LO_RX_FREQ (k / 2)).toNat else (s.reg .LO_TX_FREQ (k / 2)).toNat

/-- Modes whose TX side is not Off (R33). -/
def txMode (mode : Nat) : Bool := decide (mode = 2 ∨ mode = 3 ∨ mode = 4 ∨ mode = 6)

/-- The state in which a mode settles a side (R333). -/
def State.modeTarget (s : State) (mode awake k : Nat) : Nat :=
  if s.quadServed (k / 2) = false then sSleep
  else if k % 2 = 0 then
    if mode = mHold then s.retState k
    else if mode = mSentinel then (if awake = k / 2 then sRun else sSleep)
    else sRun
  else if mode = mHold ∨ txMode mode = true then s.retState k
  else sSleep

/-- The state of R333 for the mode in force. -/
def State.targetNow (s : State) (k : Nat) : Nat := s.modeTarget s.modeNo (s.fld F.SYS_MODE_awake_q) k

/-- Set or clear a side's lock. -/
def State.setLock (s : State) (k : Nat) (b : Bool) : State :=
  let s := if k % 2 = 0 then s.setFlag F.RADIO_STAT_rx_lock (k / 2) b else s.setFlag F.RADIO_STAT_tx_lock (k / 2) b
  let s := s.setFlag F.SYN_CTL_lock k b
  s.setSide k { s.side k with lockedAt := if b then some s.ns else none }

/-- The Sieve back end of a quadrant in OFF loses the contents of both FIR banks; the stored sets stay (R163, R540, R542). -/
def State.loseSieve (s : State) (q : Nat) : State :=
  let s : State := { s with sieve := { s.sieve with
      bank := Store.set (fun _ => []) (Store.set (fun _ => []) s.sieve.bank (2 * q) []) (2 * q + 1) [] } }
  s.setFld F.SIEVE_CFG_shadow_valid q 0

def State.setDry (s : State) (p : Nat) (b : Bool) : State :=
  { s with tx := { s.tx with dry := Store.set (fun _ => false) s.tx.dry p b } }

/-- A transmit path's queue starts with 128 midscale entries as its side enters TX, and stops as it leaves (R280). -/
def State.feedPath (s : State) (p : Nat) (on : Bool) : State :=
  (((s.setFld F.TX_PATH_STAT_q_fill p (if on then 128 else 0)).setDry p false).setTxPath p (if on then some {} else none))

/-- The paths follow their side's state (R280, R330). -/
def State.pathsFollow (s : State) (k st : Nat) : State :=
  if k % 2 = 0 then
    (pathsOfQuad (k / 2)).foldl (fun s p =>
      if st = sRun then s.startPath p 2
      else if st = sCal then s.startPath p 3
      else s.parkPath p (if st = sOff then 0 else 1)) (if st = sOff then s.loseSieve (k / 2) else s)
  else
    (pathsOfQuad (k / 2)).foldl (fun s p => s.feedPath p (decide (st = sRun))) s

/-- RX_PATH_STAT.in_service of a path: 0 while its RX side is in CAL (R486). -/
def State.serve (s : State) (p : Nat) : State :=
  let on := s.fitPath p && decide (s.sideState (2 * quadOf p) ≠ sCal)
  if s.flag F.RX_PATH_STAT_in_service p = on then s
  else State.pathsChanged s (s.setFlag F.RX_PATH_STAT_in_service p on) (quadOf p)

/-- The same for a quadrant. -/
def State.serveQuad (s : State) (q : Nat) : State := (pathsOfQuad q).foldl State.serve s

/-- One shift of a Whisk register, x^31 + x^28 + 1 (R517). -/
def lfsrStep (w : Nat) : Nat := (2 * w + if (w.testBit 30 ^^ w.testBit 27) then 1 else 0) % 2 ^ 31

/-- A linear map of 31-bit words, given by its columns, on a word. -/
def gfApply (m : List Nat) (w : Nat) : Nat := m.zipIdx.foldl (fun a x => if w.testBit x.2 then a ^^^ x.1 else a) 0

/-- The register n shifts on, by the powers 2^i of the shift. -/
def lfsrAfter (n w : Nat) : Nat :=
  ((List.range 64).foldl (fun (a : Nat × List Nat) i =>
    (if n.testBit i then gfApply a.2 a.1 else a.1, a.2.map (gfApply a.2))) (w, (List.range 31).map fun i => lfsrStep (2 ^ i))).1

/-- The Whisk register of a synthesiser now: one shift per phase-detector cycle, 122.88 MHz, while it runs (R517). -/
def State.whiskNow (s : State) (k : Nat) : Word :=
  let x := s.side k
  match x.whiskAt with
  | some t => toWord (lfsrAfter ((s.ns - t).toNat * 12288 / 100000) x.whisk.toNat)
  | none => x.whisk

/-- The side with its synthesiser stopped: the register holds. -/
def State.whiskHold (s : State) (k : Nat) : SideSt := { s.side k with whisk := s.whiskNow k, whiskAt := none }

/-- Enter a state (R330, R350): exit and entry sequences, paths, and the synthesiser with OFF and SLEEP. -/
def State.enterSide (s : State) (k st : Nat) : State :=
  let old := s.sideState k
  let x := s.side k
  let s := s.setSide k { x with going := none }
  if old = st then s
  else
    let s := if old = sRun then s.rffeBound (k / 2) x.bind 1 else if old = sCal then s.rffeBound (k / 2) x.bind 3 else s
    let s := if k % 2 = 0 then s.setFld F.RADIO_STAT_rx_state (k / 2) st else s.setFld F.RADIO_STAT_tx_state (k / 2) st
    let s := s.pathsFollow k st
    let s := if k % 2 = 0 ∧ old ≤ sSleep ∧ sStandby ≤ st ∧
        (s.opFixed (dSieve + k / 2) = true ∨ s.fld F.SIEVE_CFG_preset (k / 2) = 0) then s.reachOpf (dSieve + k / 2) else s
    let s := if k % 2 = 1 ∧ old = sRun then
        { s with rx := { s.rx with lastTx := Store.set (fun _ => 0) s.rx.lastTx (k / 2) s.cyc } }
      else s
    let s := if k % 2 = 0 ∧ (st = sCal ∨ old = sCal) then s.serveQuad (k / 2) else s
    let s := if st = sOff ∨ st = sSleep then
        let s := (s.setLock k false).setReg .SYN_FINE k 0
        let y := s.whiskHold k
        s.setSide k { y with words := if st = sOff ∨ y.discard = true then false else y.words, discard := false }
      else s
    if st = sRun then s.rffeBound (k / 2) x.bind 0 else if st = sCal then s.rffeBound (k / 2) x.bind 2 else s

/-! ### Synthesis (R334-R337, R514, R515) -/

/-- Divider N for a frequency in 0.5 Hz units (R334). -/
def loDiv (l : Nat) : Nat := if 1400000000 ≤ l then 4 else if 2800000000 ≤ 3 * l then 6 else 8

/-- Its code in RADIO_STAT and SYN_CTL. -/
def divCode (n : Nat) : Nat := if n = 4 then 0 else if n = 6 then 1 else 2

/-- n_int × 2^32 + frac for a frequency (R514), halves up. -/
def loWord (l : Nat) : Nat := (2 * loDiv l * l * 2 ^ 32 + 245760000) / 491520000

/-- The fine word of a move by d units (R515), halves away from zero. -/
def fineWord (n : Nat) (d : Int) : Int := divHalfAway (n * d * 2 ^ 32) 245760000

/-- A frequency is in range (R335). -/
def loOk (l : Nat) : Bool := decide (700000000 ≤ l ∧ l ≤ 2100000000)

/-- Store the frequency of a side; it is tuned at the next wake or move. -/
def State.storeFreq (s : State) (k l : Nat) : State :=
  if k % 2 = 0 then s.setReg .LO_RX_FREQ (k / 2) (toWord l) else s.setReg .LO_TX_FREQ (k / 2) (toWord l)

/-- Seed and mode of Whisk take effect at a channel change or a wake; RESEED reloads at a channel change or a full
calibration (R517). -/
def State.whiskLoad (s : State) (k : Nat) (reseed : Bool) : State :=
  let x := s.side k
  let mode := s.fld F.SYN_CTL_whisk_mode k
  s.setSide k { x with
    whiskMode := mode, whiskNew := false
    whisk := if (mode = 2 ∧ reseed = true) ∨ (mode = 1 ∧ x.whiskNew = true) then s.reg .WHISK_SEED k else s.whiskNow k
    whiskAt := if mode = 0 then none else some s.ns }

/-- The tuning word of a synthesiser: n_int, frac and the fine offset as one sum (R514, R515). -/
def State.tuneWord (s : State) (k : Nat) : Int :=
  s.fld F.SYN_CTL_n_int k * 2 ^ 32 + (s.reg .SYN_FRAC k).toNat + (s.reg .SYN_FINE k).toInt

/-- The modulator of R514: three first-order accumulators and the carries the cascade delays. -/
structure Mesh where
  a : Nat := 0
  b : Nat := 0
  c : Nat := 0
  carryB : Int := 0
  carryC : Int := 0
  olderC : Int := 0
  deriving DecidableEq, Repr

/-- One phase-detector cycle on a fraction with a dither bit: what is added to the integer part, and the accumulators. -/
def Mesh.cycle (m : Mesh) (frac dither : Nat) : Int × Mesh :=
  let x := m.a + frac + dither
  let y := m.b + x % 2 ^ 32
  let z := m.c + y % 2 ^ 32
  let cb : Int := (y / 2 ^ 32 : Nat)
  let cc : Int := (z / 2 ^ 32 : Nat)
  ((x / 2 ^ 32 : Nat) + (cb - m.carryB) + (cc - 2 * m.carryC + m.olderC),
    { a := x % 2 ^ 32, b := y % 2 ^ 32, c := z % 2 ^ 32, carryB := cb, carryC := cc, olderC := m.carryC })

/-- The divider ratios of the next n phase-detector cycles of a synthesiser, from the sum of R515, its accumulators `m` and the
Whisk register now; the dither bit is the one the register shifts out (R514, R517; log entry 147). -/
def State.ratios (s : State) (k n : Nat) (m : Mesh) : List Int :=
  let w := s.tuneWord k
  ((List.range n).foldl (fun (a : Mesh × Nat × List Int) _ =>
    let d := if (s.side k).whiskMode ≠ 0 ∧ a.2.1.testBit 30 = true then 1 else 0
    let r := a.1.cycle (w % 2 ^ 32).toNat d
    (r.2, lfsrStep a.2.1, (w / 2 ^ 32 + r.1) :: a.2.2)) (m, (s.whiskNow k).toNat, [])).2.2.reverse

/-- Calibrate a synthesiser at its frequency (R336): new centre, words stored, lock awaited. -/
def State.calibrateLo (s : State) (k : Nat) : State :=
  let l := s.loFreq k
  let n := loDiv l
  let s := ((s.setReg .SYN_FRAC k (toWord (loWord l))).setFld F.SYN_CTL_n_int k (loWord l / 2 ^ 32)).setFld F.SYN_CTL_div k
    (divCode n)
  let s := s.setReg .SYN_FINE k 0
  let s := if k % 2 = 0 then (s.setReg .LO_RX_CTR (k / 2) (toWord l)).setFld F.RADIO_STAT_rx_div (k / 2) (divCode n)
    else s.setFld F.RADIO_STAT_tx_div (k / 2) (divCode n)
  let s := s.setSide k { s.side k with
    words := true, centre := toWord l, calTemp := Store.get (fun _ => 0) s.flt.temps (k / 2) }
  (s.setLock k false).whiskLoad k true

/-- Stored words serve a wake (R337): the frequency is the calibrated centre, the temperature within CAL_DT. -/
def State.wordsServe (s : State) (k : Nat) : Bool :=
  let x := s.side k
  x.words && decide (x.centre = toWord (s.loFreq k)) &&
    decide ((Store.get (fun _ => 0) s.flt.temps (k / 2) - x.calTemp).natAbs ≤ s.fld F.CAL_CFG_cal_dt)

/-- Wake: SLEEP to STANDBY, the synthesiser started and its lock awaited (R331, R337). -/
def State.wakeSide (s : State) (k : Nat) : State :=
  if s.sideState k = sSleep then
    let s := s.enterSide k sStandby
    if s.wordsServe k then (s.setLock k false).whiskLoad k false else s.calibrateLo k
  else s

/-- Move a side toward a state through the rows of R331; each timed row ends at SIDE_TRANSITION_DONE (R332). -/
def State.toward (s : State) (k tgt : Nat) : State :=
  let st := s.sideState k
  let x := s.side k
  if st = tgt then s.setSide k { x with going := none, want := false }
  else if st = sCal then s.setSide k { x with want := true }
  else if st = sOff then s.setSide k { x with going := some sSleep, want := true }
  else if st = sSleep then
    if tgt = sOff then s.setSide k { x with going := some sOff }
    else
      let s := s.wakeSide k
      if tgt = sRun ∧ k % 2 = 0 then s.enterSide k sRun else s
  else if st = sStandby ∧ tgt = sRun then s.enterSide k sRun
  else s.setSide k { x with going := some tgt, want := false }

/-- A side takes the state its mode gives it (R333); a TX side in TX has no row but Return, whose guard lets its bursts
end (R54, R331). -/
def State.settleSide (s : State) (k : Nat) : State :=
  if k % 2 = 1 ∧ s.sideState k = sRun then s else s.toward k (s.targetNow k)

/-! ### Bursts and PA states as the sides see them -/

def State.burst (s : State) (u : Nat) : Option Burst := Store.get (fun _ => none) s.tx.bursts u

def State.setBurst (s : State) (u : Nat) (b : Option Burst) : State :=
  { s with tx := { s.tx with bursts := Store.set (fun _ => none) s.tx.bursts u b } }

/-- The scheduled and running bursts, by unit. -/
def State.bursts (s : State) : List (Nat × Burst) := s.tx.bursts.filterMap fun e => e.2.map fun b => (e.1, b)

/-- A burst is past its compare. -/
def State.burstsRun (s : State) : Bool := s.bursts.any fun x => decide (x.2.phase ≠ .waiting)

/-- Quadrants a burst drives: its TX beam's qmask (R293). -/
def State.burstQuads (s : State) (b : Burst) : List Nat := maskList 4 (s.fld F.TXB_CFG_qmask b.beam)

/-- A burst drives a quadrant. -/
def State.drives (s : State) (b : Burst) (q : Nat) : Bool := (s.fld F.TXB_CFG_qmask b.beam).testBit q

/-- A burst's actual air start, end and compare time (R294, R341). -/
def Burst.start (b : Burst) : T48 := tAdd b.air (1000 * b.delay)
def Burst.stop (b : Burst) : T48 := tAdd b.fin (1000 * b.delay)
def Burst.compare (b : Burst) : T48 := b.air - BitVec.ofNat 48 b.lead

def State.paState (s : State) (p : Nat) : Nat := s.fld F.TX_PATH_STAT_pa_state p

/-- Every PA sequence of a quadrant is in UNCONF or OFF (R331). -/
def State.paIdle (s : State) (q : Nat) : Bool := (pathsOfQuad q).all fun p => decide (s.paState p ≤ 1)

/-- A burst compare on a quadrant falls within ret_hold (R331, R352). -/
def State.compareNear (s : State) (q : Nat) : Bool :=
  s.bursts.any fun e => s.drives e.2 q && decide (e.2.phase = .waiting) &&
    atOrAfter (tAdd s.now (usec (s.fld F.RADIO_TIMING_ret_hold q))) e.2.compare

/-- Intervals [a, b] and [c, d] overlap. -/
def overlap (a b c d : T48) : Bool := atOrAfter b c && atOrAfter d a

/-- L_off of a burst in ns: the largest of the paths it drives (R291). -/
def State.loffOf (s : State) (b : Burst) : Nat :=
  (((s.burstQuads b).flatMap pathsOfQuad).filter fun p => !s.flag F.PA_MODE_mode p).foldl
    (fun m p => max m (usec (s.fld F.PA_LEAD_l_off p))) 0

/-! ### Requests (R331, R351) -/

/-- An Off request once the TX side's PA sequences allow it; otherwise it waits for them. -/
def State.offSide (s : State) (k : Nat) : State :=
  let x := s.side k
  if s.sideState k = sOff then s
  else if k % 2 = 1 ∧ s.paIdle (k / 2) = false then s.setSide k { x with offReq := true }
  else s.setSide k { x with going := some sOff, offReq := false, want := false }

/-- Enable (R331). -/
def State.enableSide (s : State) (k : Nat) : State :=
  if s.sideState k = sOff then s.setSide k { s.side k with going := some sSleep } else s

/-- RADIO_SIDE_SET ends when its last side has arrived. -/
def State.sideArrived (s : State) (k : Nat) : State :=
  let l := s.radio.sideCmds.map fun c => { c with left := c.left.erase k }
  let s := { s with radio := { s.radio with sideCmds := l.filter fun c => decide (c.left ≠ []) } }
  (l.filter fun c => decide (c.left = [])).foldl (fun s c => s.cmdDone c.cmd stOk 0) s

/-- Sides named by a quadrant mask. -/
def sidesOf (qmask : Nat) (tx : Bool) : List Nat := (maskList 4 qmask).map fun q => 2 * q + if tx then 1 else 0

/-! ### Commands (R338, R351, R352, R613) -/

/-- REFCLK-derived domains run from HOSC (R530). -/
def State.onHosc (s : State) : Bool := s.flag F.CLK_STAT_on_hosc

/-- A mode that opens contexts is current or pending (R210, R338). -/
def modeOpens (mode : Nat) : Bool := decide (mode = 1 ∨ mode = 2 ∨ mode = 3 ∨ mode = 6)

def State.opensNow (s : State) : Bool :=
  modeOpens s.modeNo || match s.mode.pend with
    | some p => modeOpens p.target
    | none => false

/-- A beam's quadrants would differ in RX frequency after a move (R338). -/
def State.rxSplit (s : State) (qmask l : Nat) : Bool :=
  let f (q : Nat) := if qmask.testBit q then l else s.loFreq (2 * q)
  (List.range 64).any fun b =>
    s.flag F.BEAM_RX_STAT_enabled b &&
      match (maskList 4 (s.fld F.BEAM_RX_CFG_qmask b)).map f with
      | [] => false
      | a :: t => t.any fun x => decide (x ≠ a)

/-- A burst on a quadrant meets the span of a TX move (R338). -/
def State.tuneMeets (s : State) (q : Nat) (t : T48) : Bool :=
  let e := tAdd t 60000
  s.bursts.any fun x =>
    let b := x.2
    s.drives b q &&
      ((decide (b.phase = .waiting) && overlap b.compare b.compare t e) ||
        overlap b.start (tAdd b.stop (s.loffOf b)) t e ||
        (b.ack && overlap (tAdd b.start (-5000)) (tAdd b.stop 2000) t e))

def specLoTune : CmdSpec :=
  { opcode := 0x0201, minLen := 5, maxLen := 5, masks := 0x10F :: mAll :: mSched, radio := true
    units := fun q => sideUnits (bits (q.arg 1) 3 0) (bitAt (q.arg 1) 8) }

def svcLoTune (q : Req) (s : State) : State × Rsp :=
  let qm := bits (q.arg 1) 3 0
  let tx := bitAt (q.arg 1) 8
  let l := (q.arg 2).toNat
  let d := schedOf q 3
  s.check [(s.onHosc, rspErr stNotReady), s.schedHeld q d, State.schedNow d false, maskEmpty qm,
           (!loOk l, rspErr stBadArg), (!tx && s.opensNow, rspErr stMode), (!tx && s.rxSplit qm l, rspErr stBadArg),
           ((sidesOf qm tx).any fun k => (s.side k).tuning, rspErr stBusy),
           (tx && (maskList 4 qm).any fun a => s.tuneMeets a d.t, rspErr stBusy), s.schedBusy d, s.schedLate d 200000]
    (((sidesOf qm tx).foldl (fun s k => s.setSide k { s.side k with tuning := true }) s).armCmd d.unit d.t 9
      (.lo qm tx l q.cmd), rspAccepted)

def execLoTune (q : Req) (s : State) : Outcome State Fault Refusal := .next (serve specLoTune q (svcLoTune q) s)

/-- Move one side to a frequency at the present time (R336, R338, R339): a fine move for an RX side near its centre,
otherwise a channel change; a side in OFF or SLEEP stores the frequency. -/
def State.moveLo (s : State) (k l : Nat) : Bool × State :=
  let c := (s.side k).centre.toNat
  let fine := decide (k % 2 = 0 ∧ ((l : Int) - c).natAbs ≤ 100000 ∧ loDiv l = loDiv c)
  let s := s.storeFreq k l
  if s.sideState k ≤ sSleep then (false, s)
  else
    let s := if fine then s.setReg .SYN_FINE k (BitVec.ofInt 32 (fineWord (loDiv c) ((l : Int) - c))) else s.calibrateLo k
    let s := if k % 2 = 0 then
        (pathsOfQuad (k / 2)).foldl (fun s p =>
          if 2 ≤ s.fld F.RX_PATH_STAT_state p then
            s.settleSpan p (s.cyc - s.recOf p) (s.cyc + (nsCycles (if fine then 2000 else 60000) + s.recOf p : Nat))
          else s) s
      else s
    (fine, s)

/-- LO_DONE (R354). -/
def State.loDone (s : State) (c : TuneCmd) : State :=
  s.post 0x0206 clsDone
    (toWord (256 * c.quads.foldl (fun m q => m + 2 ^ q) 0 + (if c.tx then 4096 else 0) + if c.fine then 8192 else 0))
    (some c.cmd)

/-- A move that T reaches; on a side in CAL it waits for Cal end (R503). -/
def State.moveAt (s : State) (k l : Nat) : Bool × State :=
  if s.sideState k = sCal then (false, s.setSide k { s.side k with tuneTo := some l })
  else
    let m := s.moveLo k l
    (m.1, m.2.setSide k { m.2.side k with tuning := false })

/-- The move that waited for Cal end (R503). -/
def State.moveWaiting (s : State) (k : Nat) : State :=
  match (s.side k).tuneTo with
  | none => s
  | some l =>
    let m := s.moveLo k l
    let s := m.2.setSide k { m.2.side k with tuning := false, tuneTo := none }
    let mark (c : TuneCmd) : TuneCmd :=
      if c.tx = decide (k % 2 = 1) ∧ c.left.contains (k / 2) = true then { c with fine := c.fine || m.1 } else c
    { s with radio := { s.radio with tunes := s.radio.tunes.map mark } }

/-- The moves of an LO_TUNE at T; LO_DONE follows the last lock, at once when no synthesiser runs. -/
def State.tuneAt (s : State) (qm : Nat) (tx : Bool) (l : Nat) (cmd : Cmd) : State :=
  let r := (sidesOf qm tx).foldl (fun (a : Bool × State) k =>
    let m := a.2.moveAt k l
    (a.1 || m.1, m.2)) (false, s)
  let s := r.2
  let left := (maskList 4 qm).filter fun q => decide (sStandby ≤ s.sideState (2 * q + if tx then 1 else 0))
  let c : TuneCmd := { cmd := cmd, tx := tx, quads := maskList 4 qm, left := left, fine := r.1 }
  if left = [] then s.loDone c else { s with radio := { s.radio with tunes := s.radio.tunes ++ [c] } }

/-- A synthesiser has locked (R332): the tunes that waited for it. -/
def State.tuneLocked (s : State) (k : Nat) : State :=
  let tx := decide (k % 2 = 1)
  let l := s.radio.tunes.map fun c => if c.tx = tx then { c with left := c.left.erase (k / 2) } else c
  let s := { s with radio := { s.radio with tunes := l.filter fun c => decide (c.left ≠ []) } }
  (l.filter fun c => decide (c.left = [])).foldl State.loDone s

def specRadioCfgSet : CmdSpec :=
  { opcode := 0x0202, minLen := 3, maxLen := 3, masks := [0xFFFF030F, 0x3FF, 0xFFFF]
    units := fun q => sideUnits (bits (q.arg 1) 3 0) (bitAt (q.arg 1) 8) }

/-- SENTINEL is current or pending. -/
def State.sentinelNow (s : State) : Bool :=
  decide (s.modeNo = mSentinel) || match s.mode.pend with
    | some p => decide (p.target = mSentinel)
    | none => false

/-- One side takes a RADIO_CFG_SET (R351, R352): when it sits in its former RETURN_STATE by R333 it moves to the new
one; a TX side's move to SLEEP waits for the bursts near it. -/
def State.cfgSide (s : State) (k ret hold tol bind : Nat) : State :=
  let old := s.retState k
  let sits := decide (s.sideState k = old ∧ s.targetNow k = old ∧ (s.side k).going.isNone) &&
    decide (if k % 2 = 0 then s.modeNo = mHold else s.modeNo = mHold ∨ txMode s.modeNo = true) && s.quadServed (k / 2)
  let s := if k % 2 = 0 then s.setFld F.RADIO_STAT_rx_ret (k / 2) ret
    else ((s.setFld F.RADIO_STAT_tx_ret (k / 2) ret).setFld F.RADIO_TIMING_ret_hold (k / 2) hold).setFld
      F.RADIO_TIMING_late_tol (k / 2) tol
  let s := s.setSide k { s.side k with bind := bind }
  if sits = true ∧ old ≠ s.retState k ∧ ¬ (k % 2 = 1 ∧ ret = 0 ∧ s.compareNear (k / 2) = true) then s.settleSide k else s

def svcRadioCfgSet (q : Req) (s : State) : State × Rsp :=
  let qm := bits (q.arg 1) 3 0
  let tx := bitAt (q.arg 1) 8
  let ret := bits (q.arg 1) 9 9
  let hold := bits (q.arg 1) 31 16
  let tol := bits (q.arg 2) 9 0
  s.check [maskEmpty qm, (decide (1000 < tol), rspErr stBadArg),
           (!tx && decide (hold ≠ 0 ∨ tol ≠ 0), rspErr stBadArg),
           (!tx && decide (ret = 1) && s.sentinelNow, rspErr stMode)]
    ((sidesOf qm tx).foldl (fun s k => s.cfgSide k ret hold tol (bits (q.arg 3) 15 0)) s, rspOk)

def execRadioCfgSet (q : Req) (s : State) : Outcome State Fault Refusal :=
  .next (serve specRadioCfgSet q (svcRadioCfgSet q) s)

def specRadioStateGet : CmdSpec := { opcode := 0x0203 }

def svcRadioStateGet (_ : Req) (s : State) : State × Rsp :=
  (s, rspOk ((List.range 4).flatMap fun q =>
    [s.reg .RADIO_STAT q, s.reg .LO_RX_FREQ q, s.reg .LO_TX_FREQ q, s.reg .LO_RX_CTR q]))

def execRadioStateGet (q : Req) (s : State) : Outcome State Fault Refusal :=
  .next (serve specRadioStateGet q (svcRadioStateGet q) s)

def specRadioSideSet : CmdSpec :=
  { opcode := 0x0204, minLen := 4, maxLen := 4, masks := 0x30F :: mSched
    units := fun q => sideUnits (bits (q.arg 1) 3 0) (bitAt (q.arg 1) 8) }

/-- The mode needs a side (R47, R351): the RX side where R333 puts it in RX, the TX side where the mode transmits. -/
def State.modeNeeds (s : State) (k : Nat) : Bool :=
  if k % 2 = 0 then decide (s.targetNow k = sRun) else txMode s.modeNo && s.quadServed (k / 2)

/-! ### Coexistence settings (R345, R351, R613) -/

def specCoexCfgSet : CmdSpec := { opcode := 0x0240, minLen := 1, maxLen := 1, masks := [0x3FFFFFF9] }

def svcCoexCfgSet (q : Req) (s : State) : State × Rsp :=
  let t := bits (q.arg 1) 15 6
  s.check [(decide (t < 1 ∨ 1000 < t ∨ 10000 < bits (q.arg 1) 29 16), rspErr stBadArg),
           (s.flag F.COEX_STAT_req, rspErr stBusy)]
    (s.setReg .COEX_CFG 0 (q.arg 1), rspOk)

def execCoexCfgSet (q : Req) (s : State) : Outcome State Fault Refusal :=
  .next (serve specCoexCfgSet q (svcCoexCfgSet q) s)

def specCoexStatGet : CmdSpec := { opcode := 0x0241 }

def svcCoexStatGet (_ : Req) (s : State) : State × Rsp :=
  (s, rspOk [s.reg .COEX_STAT 0, toWord (satN 32 s.radio.cxDefers),
    pack16 (satN 16 s.radio.cxNoGnt) (satN 16 s.radio.cxOverlap),
    pack16 (satN 16 s.radio.cxRevoked) (satN 16 s.radio.cxLongest)])

def execCoexStatGet (q : Req) (s : State) : Outcome State Fault Refusal :=
  .next (serve specCoexStatGet q (svcCoexStatGet q) s)

end Sys2Proof.Machine
end

