-- ==== Sys2Proof/Machine/Rx.lean ====
section
/-! DEFINITION. Chapters 03 and 05: overload, noise floors, beam meters, and RX_GAIN_SET. -/

namespace Sys2Proof.Machine

open Host

/-! ### Overload (R126-R135) -/

/-- The other paths of a quadrant. -/
def othersOf (p : Nat) : List Nat := (pathsOfQuad (quadOf p)).filter fun x => decide (x ≠ p)

/-- A disturbance window is open at an FS cycle. -/
def State.winOpen (s : State) (p : Nat) (c : Int) : Bool :=
  match s.distWin p with
  | some w => decide (0 < w.running ∨ c < w.close)
  | none => false

/-- The nbr_dirty interval of a closed window (R131). -/
def State.keepWin (s : State) (p : Nat) (w : DistWin) : State :=
  let l := addSpan s.cyc ⟨w.opened - s.recOf p, w.close + s.recOf p, []⟩ (Store.get (fun _ => []) s.rx.dirty p)
  { s with rx := { s.rx with dirty := Store.set (fun _ => []) s.rx.dirty p l } }

/-- A window opens for an event detected at FS cycle c (R131, R134). -/
def State.openWin (s : State) (c : Int) (x : Nat) : State :=
  ((s.setDistWin x (some ⟨c, 1, c⟩)).setFld F.RX_OVR_STAT_nbr_dirty x 1).bump F.RX_OVR_CNT_nbr_events x

/-- An overload event opens or extends the window of a neighbour (R131, R134). -/
def State.disturb (s : State) (c : Int) (x : Nat) : State :=
  match s.distWin x with
  | some w => if s.winOpen x c then s.setDistWin x (some { w with running := w.running + 1 }) else (s.keepWin x w).openWin c x
  | none => s.openWin c x

/-- An overload event starts on a component with a run whose first FS cycle is `first` and that completes at `det` (R126,
R131, R134, R135). -/
def State.overload (s : State) (p c : Nat) (high : Bool) (first det : Int) : State :=
  let old := s
  let s := s.setOvrEv (2 * p + c) (some { det := det, runs := [(first, high)], last := det })
  let s := (s.setFld F.RX_OVR_STAT_ovr p 1).setFld (if c = 0 then F.RX_OVR_STAT_ovr_i else F.RX_OVR_STAT_ovr_q) p 1
  let s := (s.bump F.RX_OVR_CNT_ovr_events p).postLimited 0x0201 p (toWord (p + 64 * 2 ^ c)) (s.cycleTime det)
  let s := (othersOf p).foldl (fun s x => s.disturb det x) s
  (s.beamsOn (quadOf p)).foldl (fun s b => State.beamEdges old s (det - s.recOf p) b) s

/-- Run length of a path in FS cycles, clamped (R126, R145). -/
def State.runOf (s : State) (p : Nat) : Nat := min 32 (max 4 (s.fld F.RX_OVR_CFG_run p))

/-- n codes at one extreme, the first at t: with the run length complete they start an event, or are a new run of the one in
progress (R126, R127). -/
def execOverloadStart (p c : Nat) (high : Bool) (r : CodeRun) (s : State) : Outcome State Fault Refusal :=
  if p < 64 ∧ c < 2 ∧ s.sampling p = true ∧ s.runOf p ≤ r.n then
    let s := s.elapseTo r.t
    let first := s.cycleOf r.t
    let det := first + (s.runOf p - 1 : Nat)
    match s.ovrEv (2 * p + c) with
    | some e => .next (s.setOvrEv (2 * p + c) (some { e with runs := e.runs ++ [(first, high)], last := det, held := true }))
    | none => .next (s.overload p c high first det)
  else .next s

/-- The loop filter is released 16 FS cycles after the run that reset it (R127). -/
def execLoopFilterRelease (p c : Nat) (s : State) : Outcome State Fault Refusal :=
  match s.ovrEv (2 * p + c) with
  | none => .next s
  | some e =>
    if e.held then
      .next ((s.elapseTo (s.cycleTime (e.last + 16))).setOvrEv (2 * p + c) (some { e with held := false }))
    else .next s

/-- Quiet interval of a path in FS cycles, clamped (R145). -/
def State.quietOf (s : State) (p : Nat) : Nat := min 4096 (max 64 (s.fld F.RX_OVR_CFG_quiet p))

/-- The clip interval of an event that ended at FS cycle e (R128). -/
def State.keepClip (s : State) (k : Nat) (ev : OvrEv) (e : Int) : State :=
  let r : Int := s.recOf (k / 2)
  let l := addSpan s.cyc ⟨ev.det - r, e + r + 1, ev.runs⟩ (Store.get (fun _ => []) s.rx.clip k)
  { s with rx := { s.rx with clip := Store.set (fun _ => []) s.rx.clip k l } }

/-- An event that ran on a neighbour of a path has ended at FS cycle e (R131). -/
def State.calm (s : State) (e : Int) (x : Nat) : State :=
  match s.distWin x with
  | some w => s.setDistWin x (some { w with running := w.running - 1, last := max w.last e })
  | none => s

/-- The quiet interval after the last extreme code, at t, ends the event (R126, R128, R131). -/
def execOverloadEnd (p c : Nat) (t : BitVec 48) (s : State) : Outcome State Fault Refusal :=
  match s.ovrEv (2 * p + c) with
  | none => .next s
  | some ev =>
    let s := s.elapseTo (tAdd t (fsNs (s.quietOf p)))
    let e := s.cycleOf t
    .next ((othersOf p).foldl (fun s x => s.calm e x) ((s.setOvrEv (2 * p + c) none).keepClip (2 * p + c) ev e))

/-- A disturbance window closes 250 ns after its last t_end (R131). -/
def execDisturbanceWindowClose (p : Nat) (s : State) : Outcome State Fault Refusal :=
  match s.distWin p with
  | none => .next s
  | some w =>
    if w.running = 0 then
      let s := s.elapseTo (s.cycleTime w.close)
      .next ((s.keepWin p w).setDistWin p none)
    else .next s

/-! ### Noise floors (R136-R138, R194, R195). Path p is unit p, RX beam b is unit 64 + b. -/

/-- nf of R138: round(40 log10(F / 32767^2)), at least -640. The floor lies below 640. -/
def nfOf (f : Dyadic) : Int := quarterDb (-640) f.num (32767 * 32767 * 2 ^ f.exp)

/-- F + (P - F) 2^-a, exact (R137). -/
def filterNf (f p : Dyadic) (a : Nat) : Dyadic :=
  let e := max f.exp p.exp
  ⟨f.num * 2 ^ (e - f.exp) * (2 ^ a - 1) + p.num * 2 ^ (e - p.exp), e + a⟩

def nfReg (u : Nat) : RegName := if u < 64 then .RX_NF else .BEAM_RX_NF
def nfCfgReg (u : Nat) : RegName := if u < 64 then .RX_NF_CFG else .BEAM_RX_NF_CFG

def State.nfWin (s : State) (u : Nat) : Nat := min 16 (max 8 (bits (s.reg (nfCfgReg u) (u % 64)) 4 0))
def State.nfAlpha (s : State) (u : Nat) : Nat := bits (s.reg (nfCfgReg u) (u % 64)) 10 8
def State.nfStale (s : State) (u : Nat) : Nat := min 10000 (max 10 (bits (s.reg (nfCfgReg u) (u % 64)) 29 16))

/-- The floor restarts (R137, R195). -/
def State.nfRestart (s : State) (u : Nat) : State :=
  { s with rx := { s.rx with floor := Store.set (fun _ => none) s.rx.floor u none } }

/-- A block of 2^w samples counts with this sum of squares (R137, R138). -/
def State.nfCount (s : State) (u sum : Nat) : State :=
  let p : Dyadic := ⟨sum, s.nfWin u⟩
  let f := match Store.get (fun _ => none) s.rx.floor u with
    | some f => filterNf f p (s.nfAlpha u)
    | none => p
  let s := { s with rx := { s.rx with
      floor := Store.set (fun _ => none) s.rx.floor u (some f)
      counted := Store.set (fun _ => none) s.rx.counted u (some s.ns) } }
  s.setReg (nfReg u) (u % 64) (toWord (unsN 16 (nfOf f) + 2 ^ 31))

/-- age and stale as they stand now (R138). -/
def State.refreshNf (s : State) (u : Nat) : State :=
  match Store.get (fun _ => none) s.rx.counted u with
  | none => s
  | some t =>
    let age := (s.ns - t).toNat / 1000000
    let w := putField (s.reg (nfReg u) (u % 64)) 16 14 (satN 14 age)
    s.setReg (nfReg u) (u % 64) (if s.nfStale u ≤ age then putField w 30 1 1 else w)

/-- No block has counted for stale_ms (R138). -/
def execNoiseFloorStale (beam : Bool) (n : Nat) (s : State) : Outcome State Fault Refusal :=
  let u := n + if beam then 64 else 0
  match Store.get (fun _ => none) s.rx.counted u with
  | none => .next s
  | some t =>
    .next (if n < 64 then (s.elapseTo (BitVec.ofInt 48 (t + (msec (s.nfStale u) : Nat)))).refreshNf u else s)

/-- Some context outside FREE combines a beam that a test picks. -/
def State.combines (s : State) (f : Nat → Bool) : Bool := s.openCtxs.any fun c => c.2.beams.any f

/-- The first FS cycle of the block of unit u that ends with the newest sample of a quadrant: 2^w samples (R137). -/
def State.blockFrom (s : State) (u q : Nat) (now : Int) : Int :=
  now - 2 ^ s.nfWin u * decimation (s.fld F.SIEVE_CFG_preset q)

/-- Beam b is combined by a context outside FREE, or was at or after FS cycle c. -/
def State.combinedSince (s : State) (c : Int) (b : Nat) : Bool :=
  s.combines (fun x => decide (x = b)) || decide (c < Store.get (fun _ => 0) s.rx.combined b)

/-- The TX side of a quadrant is in TX, or was at or after FS cycle c. -/
def State.txSince (s : State) (c : Int) (q : Nat) : Bool :=
  decide (s.sideState (2 * q + 1) = sRun ∨ c < Store.get (fun _ => 0) s.rx.lastTx q)

/-- Some sample of a path between two sample times carries a flag (R132). -/
def State.flaggedIn (s : State) (p : Nat) (lo hi : Int) : Bool :=
  let clip (c : Nat) : Bool := (s.ovrEv (2 * p + c)).any (fun e => decide (e.det - s.recOf p ≤ hi)) ||
    meetSpans (Store.get (fun _ => []) s.rx.clip (2 * p + c)) lo hi
  clip 0 || clip 1 || s.nbrAt p hi || meetSpans (Store.get (fun _ => []) s.rx.dirty p) lo hi ||
    s.settlingAt p hi || meetSpans (Store.get (fun _ => []) s.rx.settle p) lo hi

/-- Every sample of the block that a path has just completed qualifies (R136, R137). -/
def State.pathQualifies (s : State) (p : Nat) : Bool :=
  let hi := s.sampleNow p
  let lo := s.blockFrom p (quadOf p) hi
  decide (s.fld F.RX_PATH_STAT_state p = 2) && !s.txSince lo (quadOf p) && !s.flaggedIn p lo hi &&
    (List.range 64).all fun b => decide (s.weight b (s.activeBank b) p = 0) || !s.combinedSince lo b

/-- Every sample of the block that a beam has just completed qualifies, their flags apart (R195). -/
def State.beamQualifies (s : State) (b : Nat) : Bool :=
  let lo := s.blockFrom (64 + b) ((s.beamQuads b).headD 0) (s.beamNow b)
  s.flag F.BEAM_RX_STAT_enabled b && !s.combinedSince lo b && (s.beamQuads b).all fun q => !s.txSince lo q

/-- A block of beam samples completes (R194-R196, R212). -/
def execBeamMeterBlock (b sum : Nat) (m : Meter) (s : State) : Outcome State Fault Refusal :=
  if b < 64 ∧ s.flag F.BEAM_RX_STAT_enabled b = true then
    let any := decide (0 < m.excl) || m.thin || m.sat || m.nbr || m.settling || m.swap
    let s := s.setReg .BEAM_RX_PWR b
      (toWord (unsN 16 (nfOf ⟨sum, s.nfWin (64 + b)⟩) + (if any then 2 ^ 30 else 0) + 2 ^ 31))
    let s := s.bump F.BEAM_RX_EXCL_SMP_excl_samples b m.excl
    let s := if m.sat then s.setFld F.BEAM_RX_EVT_sat b 1 else s
    let s := s.setFlag F.BEAM_RX_STAT_sat b m.sat
    .next (if any = false ∧ s.beamQualifies b = true then (s.nfCount (64 + b) sum).searchRegs else s)
  else .next s

/-! ### Gain (R116-R121) -/

def specRxGainSet : CmdSpec :=
  { opcode := 0x0210, minLen := 6, maxLen := 6, masks := mAll :: mAll :: 0x7F :: mSched, radio := true }

def svcRxGainSet (q : Req) (s : State) : State × Rsp :=
  let l := maskList 64 (pathsOf q 1)
  let g := bits (q.arg 3) 6 0
  let d := schedOf q 4
  s.check [(s.onHosc, rspErr stNotReady), s.schedHeld q d, State.schedNow d false, maskEmpty (pathsOf q 1),
           (decide (120 < g), rspErr stBadArg),
           (l.any fun p => s.flag F.RX_PATH_STAT_degraded p, rspErr stLocked),
           (l.any fun p => s.flag F.RX_GAIN_pending p, rspErr stBusy), s.schedBusy d, s.schedLate d 200000]
    (l.foldl (fun s p => (s.setFld F.RX_GAIN_pending p 1).setFld F.RX_GAIN_pending_idx p g)
      (s.armCmd d.unit d.t 5 (.rxGain (pathsOf q 1) g q.cmd)), rspAccepted)

def execRxGainSet (q : Req) (s : State) : Outcome State Fault Refusal :=
  .next (serve specRxGainSet q (svcRxGainSet q) s)

/-- RX_GAIN_DONE (R147). -/
def State.rxGainDone (s : State) (t : T48) (st n : Nat) (cmd : Cmd) : State :=
  s.postAt t 0x0202 clsDone (toWord (st + 256 * n)) (some cmd)

/-- One path takes its new index at t (R119, R120): samples from T - T_REC settle, until the LNA or baseband time and T_REC
have passed; the matrix changes with the LNA state at the sample time T (R156). A parked path stores the index; a path
already at it does not settle. -/
def State.takeGain (s : State) (t : T48) (g p : Nat) : State :=
  let old := s.fld F.RX_GAIN_gain_idx p
  let s := (s.setFld F.RX_GAIN_gain_idx p g).setFld F.RX_GAIN_pending p 0
  if s.sampling p = true ∧ old ≠ g then
    let c := s.cycleOf t
    let s := match s.dpPath p with
      | some x => s.setDpPath p (some { x with lnaWas := s.fld F.RX_PATH_STAT_lna_state p, lnaFrom := c })
      | none => s
    (s.setFld F.RX_PATH_STAT_lna_state p (lnaOf g)).settleSpan p (c - s.recOf p)
      (c + (nsCycles (if lnaOf old = lnaOf g then 300 else 1500) + s.recOf p : Nat))
  else s

/-- A scheduled gain change at its T, or dropped late (R119). -/
def State.gainAt (s : State) (t : T48) (paths g : Nat) (cmd : Cmd) (late : Bool) : State :=
  let l := maskList 64 paths
  if late then (l.foldl (fun s p => s.setFld F.RX_GAIN_pending p 0) s).rxGainDone t stLate 0 cmd
  else (l.foldl (fun s p => s.takeGain t g p) s).rxGainDone (s.cycleTime (s.cycleOf t)) stOk l.length cmd

end Sys2Proof.Machine
end

