-- ==== Sys2Proof/Machine/Tx.lean ====
section
/-! DEFINITION. Chapter 08 and the bursts of chapter 10: the PA sequencers, bursts from compare to off order, lock and
grant, and the side rows that wait for the PAs. -/

namespace Sys2Proof.Machine

open Host

/-! ### PA sequencers (R287-R292) -/

def pUnconf : Nat := 0
def pOff : Nat := 1
def pBiasUp : Nat := 2
def pEn : Nat := 3
def pRfOn : Nat := 4
def pMuted : Nat := 5
def pBiasDown : Nat := 6

def State.pa (s : State) (p : Nat) : PaSt := Store.get (fun _ => {}) s.tx.pa p

def State.setPa (s : State) (p : Nat) (x : PaSt) : State :=
  { s with tx := { s.tx with pa := Store.set (fun _ => {}) s.tx.pa p x } }

def State.paTo (s : State) (p st : Nat) : State := s.setFld F.TX_PATH_STAT_pa_state p st

/-- The path runs in STATIC mode (R295). -/
def State.paStatic (s : State) (p : Nat) : Bool := s.flag F.PA_MODE_mode p

/-- A TX path is in service (R292, R499, R513): the RX side of the path does not count. -/
def State.txServed (s : State) (p : Nat) : Bool :=
  s.cal.commissioned && !s.isParked p && !s.flag F.TX_PATH_STAT_degraded p

/-- PA_SEQ_DONE (R305): ST_FAULT when a path did not arrive. -/
def State.paSeqDone (s : State) (c : PaCmd) (total : Nat) : State :=
  s.post 0x0503 clsDone
    (toWord ((if c.done = total then stOk else stFault) + 256 * (c.done % 128) + if c.off then 2 ^ 15 else 0)) (some c.cmd)

/-- A path leaves the PA_SEQ it is part of; `ok`: it reached the state asked for (R295). -/
def State.paArrived (s : State) (p : Nat) (off ok : Bool) : State :=
  let l := s.tx.seqs.map fun c =>
    if c.off = off ∧ c.left.contains p = true then
      { c with left := c.left.erase p, done := c.done + if ok then 1 else 0, total := c.total }
    else c
  let s := { s with tx := { s.tx with seqs := l.filter fun c => decide (c.left ≠ []) } }
  (l.filter fun c => decide (c.left = [])).foldl (fun s c => s.paSeqDone c c.total) s

/-- Start the off order of R292 on a path: the mute row, which RF_ON's off start equals. -/
def State.mutePath (s : State) (p : Nat) : State :=
  let st := s.paState p
  if st = pBiasUp ∨ st = pEn ∨ st = pRfOn then
    let s := (s.paTo p pMuted).setFld F.TX_PATH_STAT_driver_on p 0
    let s := s.setPa p { s.pa p with
      timer := some (tAdd s.now (usec (s.fld F.PA_DLY_d_en p))), enDone := false, offSet := false }
    s.paArrived p false false
  else s

/-- Off start (R292): only RF_ON has a row. -/
def State.paOffStart (s : State) (p : Nat) : State := if s.paState p = pRfOn then s.mutePath p else s

/-- Retake an Off request that waited for the PAs of a quadrant (R331). -/
def State.retakeOff (s : State) (q : Nat) : State :=
  if (s.side (2 * q + 1)).offReq = true ∧ s.paIdle q = true then s.offSide (2 * q + 1) else s

/-- The output stands at its target (R292): in BIAS_UP the wait of d_bias begins; in BIAS_DOWN the path is OFF. -/
def State.atTarget (s : State) (p : Nat) : State :=
  let x := s.pa p
  if s.paState p = pBiasUp then s.setPa p { x with timer := some (tAdd s.now (usec (s.fld F.PA_DLY_d_bias p))) }
  else if s.paState p = pBiasDown ∧ x.offSet = true then
    ((((s.paTo p pOff).setFld F.TX_EVT_bias_limit p 0).setPa p { x with offSet := false }).paArrived p true true).retakeOff
      (quadOf p)
  else s

/-- A slew target (R287): ticks count from the moment it changes. -/
def State.setTarget (s : State) (p code : Nat) : State :=
  let same := decide (s.fld F.PA_BIAS_OUT_target p = code)
  let s := s.setFld F.PA_BIAS_OUT_target p code
  let x := s.pa p
  if same = true ∧ x.slewAt.isSome = true then
    s.setPa p { x with timer := if s.paState p = pBiasUp then none else x.timer }
  else if s.fld F.PA_BIAS_OUT_out p = code then (s.setPa p { x with slewAt := none }).atTarget p
  else s.setPa p { x with
    slewAt := some (tAdd s.now (usec (s.fld F.PA_SLEW_tick_us p)))
    timer := if s.paState p = pBiasUp then none else x.timer }

/-- One slew tick (R287): step LSB toward the target, landing on it rather than passing it. -/
def State.slewTick (s : State) (p : Nat) : State :=
  let x := s.pa p
  match x.slewAt with
  | none => s
  | some t =>
    let s := s.elapseTo t
    let out := s.fld F.PA_BIAS_OUT_out p
    let tgt := s.fld F.PA_BIAS_OUT_target p
    let step := s.fld F.PA_SLEW_step p
    let new := if out < tgt then min tgt (out + step) else max tgt (out - step)
    let s := s.setFld F.PA_BIAS_OUT_out p new
    if new = tgt then (s.setPa p { x with slewAt := none }).atTarget p
    else s.setPa p { x with slewAt := some (tAdd t (usec (s.fld F.PA_SLEW_tick_us p))) }

def execBiasSlewTick (p : Nat) (s : State) : Outcome State Fault Refusal := .next (s.slewTick p)

/-- On start (R292): refused with bias_sc set or out of service. -/
def State.paOnStart (s : State) (p : Nat) : State :=
  if s.paState p = pOff then
    if s.flag F.TX_EVT_bias_sc p = false ∧ s.txServed p = true then
      (s.paTo p pBiasUp).setTarget p (s.fld F.PA_BIAS_CODE_on p)
    else (s.setFld F.TX_EVT_seq_refused p 1).paArrived p false false
  else s

/-- L_on and L_off of a path in ns (R291). -/
def State.leadOn (s : State) (p : Nat) : Nat := usec (s.fld F.PA_LEAD_l_on p)
def State.leadOff (s : State) (p : Nat) : Nat := usec (s.fld F.PA_LEAD_l_off p)
def State.dRf (s : State) (p : Nat) : Nat := usec (s.fld F.PA_DLY_d_rf p)

/-! ### Bursts and their paths (R293, R294) -/

/-- A burst takes PA action on a path: its quadrant is driven, the path is configured and in BURST mode. -/
def State.usesPath (s : State) (b : Burst) (p : Nat) : Bool :=
  s.drives b (quadOf p) && decide (s.paState p ≠ pUnconf) && !s.paStatic p

def State.burstPaths (s : State) (b : Burst) : List Nat := (List.range 64).filter (s.usesPath b)

/-- The largest d_rf of a burst's paths: its hold point is A - d_rf (R341). -/
def State.burstRf (s : State) (b : Burst) : Nat := (s.burstPaths b).foldl (fun m p => max m (s.dRf p)) 0

/-- L_lead of a TX beam: the larger of 5 µs and every L_on of the paths it drives (R294). -/
def State.leadOf (s : State) (b : Burst) : Nat := (s.burstPaths b).foldl (fun m p => max m (s.leadOn p)) 5000

/-- Some burst other than that of unit u keeps a path from going off (R293, R342): it is past its hold point, or its
on start comes before the off order ending at e + L_off would be complete. -/
def State.keptOn (s : State) (u p : Nat) (e : T48) : Bool :=
  s.bursts.any fun x =>
    decide (x.1 ≠ u) && s.usesPath x.2 p &&
      (decide (x.2.phase = .released ∨ x.2.phase = .air) ||
        !atOrAfter (x.2.start - BitVec.ofNat 48 (s.leadOn p)) (tAdd e (s.leadOff p)))

/-- COEX_REQ and COEX_PRI (R345, R346, R486). -/
def State.coexPins (s : State) : State :=
  let on := s.bursts.filter fun x => decide (x.2.phase ≠ .waiting)
  let en := s.flag F.COEX_CFG_en
  let req := en && (decide (on ≠ []) || decide (s.tx.tails ≠ []) || s.cal.coex)
  let pri := en && ((on.any fun x => x.2.pri) || s.tx.tails.any fun t => t.pri)
  (s.setFlag F.COEX_STAT_req 0 req).setFlag F.COEX_STAT_pri 0 pri

/-- Apply or remove a quadrant's pre-compensation (R301, R304, R515). -/
def State.setOfs (s : State) (q : Nat) (active : Bool) (d : Int) : State :=
  let n := loDiv (s.loFreq (2 * q + 1))
  ((s.setFlag F.TX_LO_OFS_active q active).setFld F.TX_LO_OFS_ofs q (unsN 18 (if active then d else 0))).setReg .SYN_FINE
    (2 * q + 1) (BitVec.ofInt 32 (if active then fineWord n d else 0))

/-- A burst's offsets return to 0 (R301). -/
def State.ofsBack (s : State) (b : Burst) : State :=
  if b.moved then (s.burstQuads b).foldl (fun s q => s.setOfs q false 0) s else s

/-- A burst's quadrants show a hold or not (R353). -/
def State.showHold (s : State) (b : Burst) (on : Bool) : State :=
  (s.burstQuads b).foldl (fun s q => s.setFlag F.RADIO_STAT_tx_hold q on) s

/-- ACK_DROP (R299, R305). -/
def State.ackDrop (s : State) (ctx cause : Nat) : State :=
  let n := Store.get (fun _ => 0) s.tx.ackDrops cause + 1
  ({ s with tx := { s.tx with ackDrops := Store.set (fun _ => 0) s.tx.ackDrops cause n } } : State).postLimited 0x0505 0
    (toWord (ctx % 256 + 256 * cause)) s.now

/-- Take a burst away (R342): a mute request on the paths no other burst holds, the unit freed. -/
def State.removeBurst (s : State) (u : Nat) (b : Burst) : State :=
  let s := (s.setBurst u none).endLine u
  let s := if s.armed u then s.disarm u else s
  let s := if b.phase = .air then s.setFld F.TXB_STAT_busy b.beam 0 else s
  let s := (s.showHold b false).ofsBack b
  let s := (s.burstPaths b).foldl (fun s p => if s.keptOn u p b.stop then s else s.mutePath p) s
  s.coexPins

/-- Drop a burst under R340, R342 or R348: BURST_DROP with a cause, or ACK_DROP with its own. -/
def State.dropBurst (s : State) (u cause ackCause : Nat) : State :=
  match s.burst u with
  | none => s
  | some b =>
    let s := s.removeBurst u b
    let s := (s.burstQuads b).foldl (fun s q => s.setFld F.RADIO_EVT_burst_drop q 1) s
    if b.ack then s.ackDrop b.ctx ackCause else s.post 0x0209 clsLate (toWord (b.beam + 32 * cause))

/-- Drop a burst that meets a mode whose TX side is Off (R37): reported with ST_MODE. -/
def State.dropMode (s : State) (u : Nat) : State :=
  match s.burst u with
  | none => s
  | some b =>
    let s := s.removeBurst u b
    if b.ack then s.ackDrop b.ctx 2
    else s.post 0x0706 clsWarn (toWord (stMode + 256 * b.beam + 2 ^ 13 * b.id))

/-- Cause LOCK_LOST of R340; an acknowledgement reports LATE (R342). -/
def State.dropLost (s : State) (u : Nat) : State := s.dropBurst u 5 9

/-- The radio mute (R530, R572): every path, every burst. -/
def State.radioMute (s : State) : State :=
  let s := (s.bursts.map (·.1)).foldl State.dropLost s
  (List.range 64).foldl State.mutePath s

/-- Raise a fault of S3 with its common actions (R562, R572), and `start` when its recovery starts at once. -/
def State.raiseS3 (s : State) (code unit : Nat) (arg : Word) (start : State → State) : State :=
  let n := (s.raiseFault code unit arg).radioMute
  if n.flt.running ≠ s.flt.running then start n else n

/-- A quadrant's paths mute and its running bursts drop (R340, R513). -/
def State.quadMute (s : State) (q : Nat) : State :=
  let l := (s.bursts.filter fun x => s.drives x.2 q && decide (x.2.phase ≠ .waiting)).map (·.1)
  (pathsOfQuad q).foldl State.mutePath (l.foldl State.dropLost s)

/-- At a mode's T whose TX side is Off (R37, R54, R295): bursts that start at or after T drop, STATIC paths go off. A
burst held at T has no moved start before it (R341, R349). -/
def State.modeTx (s : State) (mode : Nat) (t : T48) : State :=
  if txMode mode then s
  else
    let l := (s.bursts.filter fun x =>
      decide (x.2.phase ≠ .air) && (decide (x.2.phase = .held) || atOrAfter x.2.start t)).map (·.1)
    ((List.range 64).filter s.paStatic).foldl State.mutePath (l.foldl State.dropMode s)

/-! ### From the compare to the air (R293, R294, R331, R341, R342, R344) -/

/-- A burst's TC unit compares (R294): its TX sides enter TX, COEX_REQ rises. -/
def State.burstCompare (s : State) (u : Nat) : State :=
  match s.burst u with
  | none => s
  | some b =>
    let s := s.setBurst u (some { b with phase := .compared })
    let s := (s.burstQuads b).foldl (fun s q =>
      let st := s.sideState (2 * q + 1)
      if st = sStandby ∨ st = sRun then s.enterSide (2 * q + 1) sRun else s) s
    s.coexPins

/-- A path's driver unmutes once its burst may pass (R292, R341): at A + D - d_rf. -/
def State.passAt (s : State) (p : Nat) : Option T48 :=
  (s.bursts.filter fun x => s.usesPath x.2 p && decide (x.2.phase = .released ∨ x.2.phase = .air)).foldl
    (fun t x =>
      let u := x.2.start - BitVec.ofNat 48 (s.dRf p)
      match t with
      | none => some u
      | some v => some (if atOrAfter v u then u else v)) none

/-- EN to RF_ON (R292). -/
def State.rfOn (s : State) (p : Nat) : State :=
  let s := (s.paTo p pRfOn).setFld F.TX_PATH_STAT_driver_on p 1
  (s.setPa p { s.pa p with timer := none, enDone := false }).paArrived p false true

/-- A delay of the PA sequencer elapses (R292). -/
def State.paDelay (s : State) (p : Nat) : State :=
  let x := s.pa p
  match x.timer with
  | none => s
  | some t =>
    let s := s.elapseTo t
    let y := { x with timer := none }
    let st := s.paState p
    if st = pBiasUp then
      let s := (s.paTo p pEn).setFld F.TX_PATH_STAT_pa_en p 1
      s.setPa p { y with timer := some (tAdd t (usec (s.fld F.PA_DLY_d_en p))) }
    else if st = pEn then
      if s.paStatic p then s.rfOn p
      else match s.passAt p with
        | some v => if atOrAfter s.now v then s.rfOn p else s.setPa p { y with timer := some v }
        | none => s.setPa p { y with enDone := true }
    else if st = pMuted then
      let s := (s.paTo p pBiasDown).setFld F.TX_PATH_STAT_pa_en p 0
      s.setPa p { y with timer := some (tAdd t (usec (s.fld F.PA_DLY_d_bias p))), offSet := false }
    else if st = pBiasDown then
      (s.setPa p { y with offSet := true }).setTarget p (s.fld F.PA_BIAS_CODE_off p)
    else s.setPa p y

def execPaDelayExpiry (p : Nat) (s : State) : Outcome State Fault Refusal := .next (s.paDelay p)

/-- The earliest of a list of bursts by start. -/
def firstBurst (l : List (Nat × Burst)) : Option (Nat × Burst) :=
  l.foldl (fun best x => match best with
    | none => some x
    | some b => if x.2.start ≠ b.2.start ∧ atOrAfter b.2.start x.2.start = true then some x else some b) none

/-- On start of a path at A - L_on of a burst past its compare (R293). -/
def execPaOnStart (p : Nat) (s : State) : Outcome State Fault Refusal :=
  match firstBurst (s.bursts.filter fun x =>
      decide (x.2.phase ≠ .waiting) && s.usesPath x.2 p && !(x.2.started.contains p)) with
  | none => .next s
  | some (u, b) =>
    let s := s.elapseTo (b.air - BitVec.ofNat 48 (s.leadOn p))
    .next ((s.setBurst u (some { b with started := p :: b.started })).paOnStart p)

/-- The TX LOs of a burst have been locked since t; a side in CAL keeps it waiting (R349). -/
def State.lockSince (s : State) (b : Burst) (t : T48) : Bool :=
  (s.burstQuads b).all fun q => match (s.side (2 * q + 1)).lockedAt with
    | some v => s.locked (2 * q + 1) && decide (v ≤ s.nsAt t) && decide (s.sideState (2 * q + 1) ≠ sCal)
    | none => false

/-- T_GNT and the two tolerances in ns (R342, R347). -/
def State.tGnt (s : State) : Nat := usec (s.fld F.COEX_CFG_t_gnt)

def State.tolLock (s : State) (b : Burst) : Nat :=
  if b.ack then 0
  else match s.burstQuads b with
    | [] => 0
    | a :: l => l.foldl (fun m q => min m (usec (s.fld F.RADIO_TIMING_late_tol q))) (usec (s.fld F.RADIO_TIMING_late_tol a))

def State.tolCoex (s : State) (b : Burst) : Nat :=
  if b.ack = true ∨ s.flag F.COEX_CFG_link_policy = false then 0 else usec (s.fld F.COEX_CFG_defer_max)

/-- COEX_GNT has been high since t, or coexistence is off. -/
def State.grantSince (s : State) (t : T48) : Bool :=
  !s.flag F.COEX_CFG_en || match s.radio.gnt with
    | some v => decide (v ≤ s.nsAt t)
    | none => false

/-- Last moments of R342 for the lock and for the grant. -/
def State.lockLast (s : State) (b : Burst) : T48 := tAdd b.air ((s.tolLock b : Int) - s.burstRf b)
def State.grantLast (s : State) (b : Burst) : T48 := tAdd b.air ((s.tolCoex b : Int) - s.tGnt)

/-- How far a moment lies after another, in whole µs rounded up; 0 when it does not. -/
def usAfter (t a : Int) : Nat := ceilDiv (t - a).toNat 1000

/-- The D at which both conditions are met (R341): lock counted from A + D - d_rf, grant from A + D - T_GNT. -/
def State.deferOf (s : State) (b : Burst) : Nat :=
  let lock := (s.burstQuads b).foldl (fun m q => match (s.side (2 * q + 1)).lockedAt with
    | some v => max m (usAfter (v + s.burstRf b) (s.nsAt b.air))
    | none => m) 0
  match s.radio.gnt with
  | some v => if s.flag F.COEX_CFG_en then max lock (usAfter (v + s.tGnt) (s.nsAt b.air)) else lock
  | none => lock

/-- The moved air interval, widened by L_off, meets the widened interval of another burst on a shared quadrant (R342). -/
def State.deferMeets (s : State) (u : Nat) (b : Burst) : Bool :=
  let lo := b.start
  let hi := tAdd b.stop (s.loffOf b)
  s.bursts.any fun x =>
    decide (x.1 ≠ u) && ((s.burstQuads b).any fun q => s.drives x.2 q) &&
      overlap (x.2.start - BitVec.ofNat 48 x.2.lead) (tAdd x.2.stop (s.loffOf x.2)) lo hi

/-- A burst passes its hold point with delay d (R341): its waiting paths unmute at A + D - d_rf. -/
def State.passHold (s : State) (u : Nat) (b : Burst) (d : Nat) : State :=
  let b := { b with phase := BPhase.released, delay := d }
  let s := (s.setBurst u (some b)).showHold b false
  let s := (s.burstQuads b).foldl (fun s q =>
    if s.sideState (2 * q + 1) = sStandby then s.enterSide (2 * q + 1) sRun else s) s
  (s.burstPaths b).foldl (fun s p =>
    let x := s.pa p
    if s.paState p = pEn ∧ x.enDone = true then
      s.setPa p { x with enDone := false, timer := some (b.start - BitVec.ofNat 48 (s.dRf p)) }
    else s) s

/-- BURST_HOLD (R354). -/
def State.postHold (s : State) (b : Burst) (lock grant : Bool) (d : Nat) : State :=
  s.post 0x0208 clsInfo (toWord (b.beam + (if lock then 32 else 0) + (if grant then 64 else 0) + 128 * (d % 16384)))

/-- A held burst is released if lock and grant are both there in time (R341, R342). -/
def State.tryRelease (s : State) (u : Nat) : State :=
  match s.burst u with
  | none => s
  | some b =>
    if b.phase = .held ∧ s.lockSince b s.now = true ∧ s.grantSince s.now = true ∧
        s.lockSince b (s.lockLast b) = true ∧ s.grantSince (s.grantLast b) = true then
      let lock := !s.lockSince b (b.air - BitVec.ofNat 48 (s.burstRf b))
      let grant := !s.grantSince (b.air - BitVec.ofNat 48 s.tGnt)
      let d := s.deferOf b
      let moved := { b with delay := d }
      let s := s.postHold b lock grant d
      if s.deferMeets u moved then
        let s := { s with radio := { s.radio with cxOverlap := s.radio.cxOverlap + 1 } }
        (if grant then (s.bump F.COEX_CNT_drops 0).setFld F.COEX_STAT_dropped 0 1 else s).dropBurst u 3
          (if lock then 9 else 10)
      else
        let s := { s with radio := { s.radio with cxLongest := max s.radio.cxLongest d } }
        s.passHold u b d
    else s

/-- Every held burst. -/
def State.tryReleases (s : State) : State := (s.bursts.map (·.1)).foldl State.tryRelease s

/-- The hold point A - d_rf (R341): the burst proceeds or holds. -/
def execBurstHoldPoint (u : Nat) (s : State) : Outcome State Fault Refusal :=
  match s.burst u with
  | none => .next s
  | some b =>
    if b.phase = .compared then
      let hold := b.air - BitVec.ofNat 48 (s.burstRf b)
      let s := s.elapseTo hold
      let lock := s.lockSince b hold
      let grant := s.grantSince (b.air - BitVec.ofNat 48 s.tGnt)
      if lock && grant then .next (s.passHold u b 0)
      else
        let s := (s.setBurst u (some { b with phase := .held })).showHold b true
        let s := (s.burstQuads b).foldl (fun s q => s.setFld F.RADIO_EVT_burst_hold q 1) s
        let s := if grant then s
          else
            let s := { s with radio := { s.radio with cxDefers := s.radio.cxDefers + 1 } }
            (s.bump F.COEX_CNT_defers 0).setFld F.COEX_STAT_deferred 0 1
        .next (s.tryRelease u)
    else .next s

/-- The tolerance of a held burst runs out (R342): the earlier moment decides, the lock's on a tie. D of a hold that is
never released is not stated: a free value (log entry 3). -/
def execBurstHoldExpiry (u : Nat) (s : State) : Outcome State Fault Refusal :=
  match s.burst u with
  | none => .next s
  | some b =>
    if b.phase = .held then
      let tl := s.lockLast b
      let tg := s.grantLast b
      let noLock := !s.lockSince b tl
      let noGrant := !s.grantSince tg
      if noLock || noGrant then
        let byLock := noLock && (!noGrant || atOrAfter tg tl)
        let s := s.elapseTo (if byLock then tl else tg)
        let f := s.takeFree
        let s := f.2.postHold b noLock noGrant f.1.toNat
        if byLock then .next (s.dropBurst u 1 9)
        else
          let s := { s with radio := { s.radio with cxNoGnt := s.radio.cxNoGnt + 1 } }
          .next (((s.bump F.COEX_CNT_drops 0).setFld F.COEX_STAT_dropped 0 1).dropBurst u 2 10)
      else .next s
    else .next s

/-- A burst is sent over quadrants of which some are not aligned (R493): counted on each, one event. -/
def State.sentUnaligned (s : State) (b : Burst) : State :=
  let l := s.burstQuads b
  let bad := l.filter fun q => !s.flag F.CAL_Q_STAT_tx_phase_valid q
  if 2 ≤ l.length ∧ bad ≠ [] then
    let n (m : Store Nat) (q : Nat) : Store Nat := Store.set (fun _ => 0) m q (Store.get (fun _ => 0) m q + 1)
    let s := { s with cal := { s.cal with unaligned := bad.foldl n s.cal.unaligned } }
    s.postLimited 0x0607 0 (toWord (b.beam + 32 * bad.foldl (fun m q => m + 2 ^ q) 0)) s.now
  else s

/-- The path-sum start T = A + D - T_TXLAT (R281, R294). -/
def execBurstPathSumStart (u : Nat) (s : State) : Outcome State Fault Refusal :=
  match s.burst u with
  | none => .next s
  | some b =>
    if b.phase = .released then
      let s := s.elapseTo (tAdd b.start (-586))
      .next (((s.startLine u).setBurst u (some { b with phase := .air })).setFld F.TXB_STAT_busy b.beam 1 |>.sentUnaligned b)
    else .next s

/-- BURST_DONE (R424). -/
def State.burstDone (s : State) (b : Burst) : State :=
  let st := (if b.starved then 1 else 0) + if b.underflow = [] then 0 else 2
  if b.ack = true ∧ st = 0 then s
  else s.postAt b.stop 0x0708 clsDone
    (toWord (st + 4 * b.beam + 128 * (if b.ack then 0 else b.id) + 2 ^ 15 * b.underflow.length +
      if b.ack then 2 ^ 22 else 0))

/-- The air end (R293, R301, R302, R416, R419): offsets return, the unit is free, the off starts fall due. -/
def execBurstAirEnd (u : Nat) (s : State) : Outcome State Fault Refusal :=
  match s.burst u with
  | none => .next s
  | some b =>
    if b.phase = .air then
      let b := { b with starved := b.starved || (!b.ack && decide (b.got < b.n)) }
      let s := (s.elapseTo b.stop).ofsBack b
      let s := if b.starved then s.setFld F.TXB_EVT_starved b.beam 1 else s
      let s := (s.setFld F.TXB_STAT_busy b.beam 0).burstDone b
      let paths := s.burstPaths b
      let s := (s.setBurst u none).endLine u
      let tails := if paths = [] then s.tx.tails else s.tx.tails ++ [⟨b.stop, b.pri, paths⟩]
      let s := { s with tx := { s.tx with
          tails := tails
          ackSent := s.tx.ackSent + if b.ack then 1 else 0
          ackUncomp := s.tx.ackUncomp + if b.ack && b.uncomp then 1 else 0 } }
      .next s.coexPins
    else .next s

/-- Off start of a path at E + d_rf, unless another burst keeps it on (R293); COEX_REQ falls with the last (R346). -/
def execPaOffStart (p : Nat) (s : State) : Outcome State Fault Refusal :=
  match s.tx.tails.find? fun t => t.paths.contains p with
  | none => .next s
  | some t =>
    let s := s.elapseTo (tAdd t.fin (s.dRf p))
    let t' := { t with paths := t.paths.erase p }
    let s := { s with tx := { s.tx with
        tails := (s.tx.tails.map fun x => if x = t then t' else x).filter fun x => decide (x.paths ≠ []) } }
    let s := if s.keptOn 16 p t.fin then s else s.paOffStart p
    .next s.coexPins

/-- A TX beam's FIFO runs empty in a burst (R28, R203). -/
def execTxFifoEmpty (beam : Nat) (s : State) : Outcome State Fault Refusal :=
  match s.bursts.find? fun x => decide (x.2.beam = beam ∧ x.2.phase = .air) with
  | none => .next s
  | some (u, b) =>
    if s.lineEmpty u then .next ((s.setBurst u (some { b with starved := true })).setFld F.TXB_EVT_starved beam 1)
    else .next s

/-- Pre-compensation moves to its offset at A - 5 µs (R301). -/
def execLoOffsetMove (u : Nat) (s : State) : Outcome State Fault Refusal :=
  match s.burst u with
  | none => .next s
  | some b =>
    if b.ack = true ∧ b.uncomp = false ∧ b.moved = false ∧ b.phase ≠ .waiting ∧ b.phase ≠ .held then
      let s := s.elapseTo (tAdd b.start (-5000))
      let s := s.setBurst u (some { b with moved := true })
      .next ((s.burstQuads b).foldl (fun s q => s.setOfs q true (b.ofs.getD q 0)) s)
    else .next s

/-- The wake of a sleeping TX side at A - L_lead - 65 µs (R344). -/
def execBurstWake (u : Nat) (s : State) : Outcome State Fault Refusal :=
  match s.burst u with
  | none => .next s
  | some b =>
    if b.phase = .waiting ∧ ((s.burstQuads b).any fun q => decide (s.sideState (2 * q + 1) = sSleep)) = true then
      let s := s.elapseTo (tAdd b.compare (-65000))
      .next ((s.burstQuads b).foldl (fun s q => s.wakeSide (2 * q + 1)) s)
    else .next s

/-! ### Grant (R345, R348) -/

def execCoexGntRise (s : State) : Outcome State Fault Refusal :=
  let s := { s with radio := { s.radio with gnt := some (s.radio.gnt.getD s.ns) } }
  let s := s.setFld F.COEX_STAT_gnt 0 1
  .next (if s.flag F.COEX_CFG_en then s.tryReleases else s)

/-- The grant falls in a burst's air interval (R348). -/
def State.revoke (s : State) (u : Nat) : State :=
  let s := { s with radio := { s.radio with cxRevoked := s.radio.cxRevoked + 1 } }
  let s := s.setFld F.COEX_STAT_revoked 0 1
  if s.flag F.COEX_CFG_revoke then s else ((s.bump F.COEX_CNT_drops 0).setFld F.COEX_STAT_dropped 0 1).dropBurst u 4 10

def execCoexGntFall (s : State) : Outcome State Fault Refusal :=
  let s := ({ s with radio := { s.radio with gnt := none } } : State).setFld F.COEX_STAT_gnt 0 0
  if s.flag F.COEX_CFG_en then
    .next (((s.bursts.filter fun x => decide (x.2.phase = .air) && atOrAfter s.now x.2.start).map (·.1)).foldl State.revoke s)
  else .next s

/-! ### Sides (R331, R332, R340) -/

/-- Start the off order on every path of a quadrant (R331). -/
def State.offOrder (s : State) (q : Nat) : State := (pathsOfQuad q).foldl State.mutePath s

/-- An Off request taken in full (R331). -/
def State.requestOff (s : State) (k : Nat) : State :=
  if k % 2 = 1 then (s.offOrder (k / 2)).offSide k else s.offSide k

/-- RADIO_SIDE_SET acts (R331, R351). -/
def State.sideSet (s : State) (qm : Nat) (tx en : Bool) (cmd : Cmd) : State :=
  let l := sidesOf qm tx
  let s := l.foldl (fun s k => if en then s.enableSide k else s.requestOff k) s
  let left := l.filter fun k => decide (if en then s.sideState k = sOff else s.sideState k ≠ sOff)
  if left = [] then s.cmdDone cmd stOk 0
  else { s with radio := { s.radio with sideCmds := s.radio.sideCmds ++ [⟨cmd, left⟩] } }

def svcRadioSideSet (q : Req) (s : State) : State × Rsp :=
  let qm := bits (q.arg 1) 3 0
  let tx := bitAt (q.arg 1) 8
  let en := bitAt (q.arg 1) 9
  let d := schedOf q 2
  s.check [maskEmpty qm, s.schedHeld q d, (!en && (sidesOf qm tx).any s.modeNeeds, rspErr stMode), s.schedBusy d,
           s.schedLate d 200000]
    (if d.now then s.sideSet qm tx en q.cmd else s.armCmd d.unit d.t 0xB (.side qm tx en q.cmd), rspAccepted)

def execRadioSideSet (q : Req) (s : State) : Outcome State Fault Refusal :=
  .next (serve specRadioSideSet q (svcRadioSideSet q) s)

/-- A side's transition completes (R332); a side woken from OFF goes on to its mode's state, and one that a burst needs
wakes again (R344). -/
def execSideTransitionDone (q : Nat) (tx : Bool) (s : State) : Outcome State Fault Refusal :=
  let k := 2 * q + if tx then 1 else 0
  let x := s.side k
  match x.going with
  | none => .next s
  | some st =>
    let discard := x.discard
    let s := ((s.enterSide k st).setSide k { (s.enterSide k st).side k with want := false }).sideArrived k
    if st = sSleep ∧ (x.want = true ∨ discard = true) then .next (s.settleSide k)
    else if st = sSleep ∧ tx = true ∧ (s.bursts.any fun e =>
        s.drives e.2 q && decide (e.2.phase = .waiting) && atOrAfter (tAdd s.now 65000) e.2.compare) = true then
      .next (s.wakeSide k)
    else .next s

/-- Each 1 µs tick a TX side evaluates Return (R331, R349); a side kept in STANDBY for bursts goes to the SLEEP its mode
gives it (R333, R352). -/
def execTxReturnCheck (q : Nat) (s : State) : Outcome State Fault Refusal :=
  let k := 2 * q + 1
  let s := s.elapse (1000 - s.now.toNat % 1000)
  let busy := s.compareNear q || s.bursts.any fun e => s.drives e.2 q && decide (e.2.phase ≠ .waiting)
  if (s.side k).going.isSome = true ∨ busy = true ∨ s.paIdle q = false then .next s
  else if s.sideState k = sRun then .next (s.setSide k { s.side k with going := some (s.targetNow k) })
  else if s.sideState k = sStandby ∧ s.targetNow k = sSleep then .next (s.toward k sSleep)
  else .next s

/-- The recovery of LO_REPEAT (R571): the side goes to SLEEP after its off order, its words are discarded, and it wakes
again with a full calibration. -/
def State.relockLo (s : State) (k : Nat) : State :=
  let s := if k % 2 = 1 then s.quadMute (k / 2) else s
  let s := s.setSide k { s.side k with discard := true }
  if s.sideState k = sSleep then
    (s.setSide k { s.side k with words := false, discard := false }).settleSide k
  else if sStandby ≤ s.sideState k ∧ s.sideState k ≠ sCal then
    s.setSide k { s.side k with going := some sSleep, want := true }
  else s

/-- A lock detector shows loss (R340). Three within 1 s raise LO_REPEAT (R564). -/
def execLoLockLoss (q : Nat) (tx : Bool) (s : State) : Outcome State Fault Refusal :=
  let k := 2 * q + if tx then 1 else 0
  if q < 4 ∧ s.locked k = true then
    let s := (s.setLock k false).setFld F.RADIO_EVT_lock_lost q 1
    let s := { s with radio := { s.radio with
        unlocks := Store.set (fun _ => 0) s.radio.unlocks k (Store.get (fun _ => 0) s.radio.unlocks k + 1) } }
    let s := if tx then s.quadMute q
      else (pathsOfQuad q).foldl (fun s p =>
        if 2 ≤ s.fld F.RX_PATH_STAT_state p then s.settleOpen p else s) s
    let s := s.post 0x0207 clsWarn (toWord (q + if tx then 4 else 0))
    let r := s.thirdLoss k
    .next (if r.1 then r.2.raiseThen 0x0203 k 0 (fun s => s.relockLo k) else r.2)
  else .next s

/-- A synthesiser reaches lock after a wake, a channel change, a fine move or a loss (R332, R340): the moves that waited
for it end, held bursts may go. -/
def State.lockGained (s : State) (k : Nat) : State :=
  let s := if s.locked k then s else s.setLock k true
  let s := if k % 2 = 0 then
      (pathsOfQuad (k / 2)).foldl (fun s p =>
        if 2 ≤ s.fld F.RX_PATH_STAT_state p then s.settleClose p else s) s
    else s
  (s.tuneLocked k).tryReleases

/-! ### DAC queues (R282, R283) -/

def State.isDry (s : State) (p : Nat) : Bool := Store.get (fun _ => false) s.tx.dry p

/-- A burst is in progress on a path. -/
def State.burstOn (s : State) (p : Nat) : Bool :=
  s.bursts.any fun x => s.drives x.2 (quadOf p) && decide (x.2.phase = .air)

/-- A path's queue underflows (R282, R283): counted, posted, and noted with every burst in progress on the path. -/
def State.queueUnderflow (s : State) (p : Nat) : State :=
  let s := ((s.setFld F.TX_PATH_STAT_q_fill p 0).setFld F.TX_EVT_tx_ufl p 1).bump F.TX_UFL_CNT_ufl_events p
  let s := match s.txPath p with
    | some x => s.setTxPath p (some { x with queue := [], out := (8192, 8192) })
    | none => s
  let s := (s.setDry p true).postLimited 0x0501 p (toWord p) s.now
  s.bursts.foldl (fun s x =>
    if s.drives x.2 (quadOf p) = true ∧ x.2.phase = .air ∧ x.2.underflow.contains p = false then
      s.setBurst x.1 (some { x.2 with underflow := p :: x.2.underflow })
    else s) s

def execDacQueueUnderflow (p : Nat) (s : State) : Outcome State Fault Refusal :=
  .next (if p < 64 ∧ s.sideState (2 * quadOf p + 1) = sRun ∧ s.isDry p = false then s.queueUnderflow p else s)

/-- The queue holds 128 entries again and no burst is in progress: output resumes (R282). -/
def execDacQueueRefilled (p : Nat) (s : State) : Outcome State Fault Refusal :=
  .next (if p < 64 ∧ s.isDry p = true ∧ s.burstOn p = false ∧ s.sideState (2 * quadOf p + 1) = sRun then
    let s := match s.txPath p with
      | some x => s.setTxPath p (some { x with queue := List.replicate 128 (8192, 8192) })
      | none => s
    (s.setDry p false).setFld F.TX_PATH_STAT_q_fill p 128
  else s)

/-- TX_EVT.bias_limit shows the live limit state of a driven PA_BIAS output (R286); a limit that has just held for 10 µs
stands until the state is read again. -/
def State.refreshLimit (s : State) (p : Nat) : State :=
  s.setFlag F.TX_EVT_bias_limit p (s.flag F.TX_PATH_STAT_bias_drv p && Config.biasLimit p s.cyc)

/-- The current limit has held for 10 µs (R286, R564). -/
def execBiasCurrentLimitHold (p : Nat) (s : State) : Outcome State Fault Refusal :=
  if p < 64 ∧ s.flag F.TX_PATH_STAT_bias_drv p = true then
    let st := s.paState p
    let s := (s.setFld F.TX_EVT_bias_sc p 1).setFld F.TX_EVT_bias_limit p 1
    .next (((s.mutePath p).post 0x0502 clsWarn (toWord (p + 64 * st))).raiseFault 0x0502 p)
  else .next s

/-! ### Commands (R288-R291, R295, R296, R302, R303, R619) -/

/-- S of R291 in µs. -/
def slewUs (on off step tick : Nat) : Nat := ceilDiv ((max on off) - (min on off)) step * tick

/-- L_on = L_off of R291 in µs. -/
def leadUs (on off step tick dBias dEn dRf : Nat) : Nat := slewUs on off step tick + dBias + dEn + dRf

/-- PA_LEAD of a path, from its settings. -/
def State.setLead (s : State) (p : Nat) : State :=
  let l := leadUs (s.fld F.PA_BIAS_CODE_on p) (s.fld F.PA_BIAS_CODE_off p) (s.fld F.PA_SLEW_step p)
    (s.fld F.PA_SLEW_tick_us p) (s.fld F.PA_DLY_d_bias p) (s.fld F.PA_DLY_d_en p) (s.fld F.PA_DLY_d_rf p)
  (s.setFld F.PA_LEAD_l_on p (satN 14 l)).setFld F.PA_LEAD_l_off p (satN 14 l)

def specPaCfgSet : CmdSpec :=
  { opcode := 0x0501, minLen := 5, maxLen := 5, masks := [mAll, mAll, 0x3FFFFFFF, 0x8003FFFF, 0x0FFF0FFF] }

/-- One path takes a PA_CFG_SET (R290, R296). -/
def State.paConfigure (s : State) (p : Nat) (dly slew code : Word) : State :=
  let fresh := decide (s.paState p = pUnconf)
  let s := ((s.setReg .PA_DLY p dly).setFld F.PA_SLEW_step p (bits slew 7 0)).setFld F.PA_SLEW_tick_us p (bits slew 17 8)
  let s := (s.setReg .PA_BIAS_CODE p code).setFld F.PA_MODE_mode p (bits slew 31 31)
  let s := (s.setFld F.PA_MODE_configured p 1).setLead p
  let off := bits code 27 16
  if fresh then
    ((((s.paTo p pOff).setFld F.TX_PATH_STAT_bias_drv p 1).setFld F.TX_PATH_STAT_pa_en p 0).setFld F.PA_BIAS_OUT_target p
      off).setFld F.PA_BIAS_OUT_out p off
  else s.setTarget p off

def svcPaCfgSet (q : Req) (s : State) : State × Rsp :=
  let l := maskList 64 (pathsOf q 1)
  let dly := q.arg 3
  let slew := q.arg 4
  let code := q.arg 5
  let step := bits slew 7 0
  let tick := bits slew 17 8
  s.check [maskEmpty (pathsOf q 1),
           (decide (1000 < bits dly 9 0 ∨ 1000 < bits dly 19 10 ∨ 1000 < bits dly 29 20), rspErr stBadArg),
           (decide (step < 1 ∨ tick < 1 ∨ 1000 < tick), rspErr stBadArg),
           (decide (10000 < leadUs (bits code 11 0) (bits code 27 16) step tick (bits dly 9 0) (bits dly 19 10)
              (bits dly 29 20)), rspErr stBadArg),
           (l.any fun p => decide (1 < s.paState p), rspErr stBusy),
           (l.any fun p => s.flag F.TX_PATH_STAT_degraded p, rspErr stLocked)]
    (l.foldl (fun s p => s.paConfigure p dly slew code) s, rspOk)

def specPaSeq : CmdSpec :=
  { opcode := 0x0502, minLen := 6, maxLen := 6, masks := mAll :: mAll :: 1 :: mSched, radio := true }

def svcPaSeq (q : Req) (s : State) : State × Rsp :=
  let l := maskList 64 (pathsOf q 1)
  let off := bitAt (q.arg 3) 0
  let d := schedOf q 4
  s.check [maskEmpty (pathsOf q 1), State.schedNow d false, s.schedHeld q d,
           (l.any fun p => !s.paStatic p, rspErr stMode),
           (l.any fun p => s.flag F.TX_EVT_bias_sc p || s.flag F.TX_PATH_STAT_degraded p, rspErr stLocked),
           (l.any fun p => decide (s.paState p ≠ if off then pRfOn else pOff), rspErr stBusy), s.schedBusy d,
           s.schedLate d 200000]
    (s.armCmd d.unit d.t 0xA (.pa (pathsOf q 1) off q.cmd), rspAccepted)

def execPaSeq (q : Req) (s : State) : Outcome State Fault Refusal := .next (serve specPaSeq q (svcPaSeq q) s)

/-- The on start or off start of STATIC paths at T (R295). -/
def State.paSeqAt (s : State) (paths : Nat) (off : Bool) (cmd : Cmd) : State :=
  let l := maskList 64 paths
  let c : PaCmd := { cmd := cmd, off := off, left := l, total := l.length }
  let s := { s with tx := { s.tx with seqs := s.tx.seqs ++ [c] } }
  l.foldl (fun s p =>
    if off then (if s.paState p = pRfOn then s.paOffStart p else s.paArrived p true false)
    else if s.paState p = pOff then s.paOnStart p
    else s.paArrived p false false) s

/-- Paths of a strobe (R288). -/
def strobeScope (n : Nat) : List Nat := if n = 4 then List.range 64 else pathsOfQuad n

/-- A BIAS_LOAD strobe at the next 1 µs tick at or after now (R288, R289); an immediate one comes at the first tick after
acceptance. -/
def State.strobe (s : State) (n : Nat) (cmd : Cmd) : State :=
  let s := s.elapse ((1000 - s.now.toNat % 1000) % 1000)
  let l := (strobeScope n).filter fun p => s.flag F.PA_BIAS_STAGE_arm p
  let s := l.foldl (fun s p =>
    let s := (s.setFld F.PA_BIAS_CODE_on p (s.fld F.PA_BIAS_STAGE_code p)).setFld F.PA_BIAS_STAGE_arm p 0
    let s := s.setLead p
    let st := s.paState p
    if st = pBiasUp ∨ st = pEn ∨ st = pRfOn then s.setTarget p (s.fld F.PA_BIAS_CODE_on p) else s) s
  s.post 0x0504 clsDone (toWord (256 * n + 2 ^ 11 * l.length)) (some cmd)

def specPaBiasStrobe : CmdSpec := { opcode := 0x0503, minLen := 4, maxLen := 4, masks := 7 :: mSched }

def svcPaBiasStrobe (q : Req) (s : State) : State × Rsp :=
  let n := bits (q.arg 1) 2 0
  let d := schedOf q 2
  s.check [(decide (4 < n), rspErr stBadArg), (!s.holds q.mbx resStrobe n, s.rspHeld resStrobe n), s.schedHeld q d,
           s.schedBusy d, s.schedLate d 200000]
    (if d.now then (s.elapse 1).strobe n q.cmd else s.armCmd d.unit d.t 0xA (.strobe n q.cmd), rspAccepted)

def execPaBiasStrobe (q : Req) (s : State) : Outcome State Fault Refusal :=
  .next (serve specPaBiasStrobe q (svcPaBiasStrobe q) s)

def specAckCfgSet : CmdSpec :=
  { opcode := 0x0504, minLen := 4, maxLen := 4, masks := [0x07FF1F1F, 0x00FFFFFF, 0xFFFF, 0x7F] }

def State.ackCfg (s : State) (profile : Nat) : Option AckCfg := Store.get (fun _ => none) s.tx.ackCfg profile

def svcAckCfgSet (q : Req) (s : State) : State × Rsp :=
  let w := q.arg 1
  let first := bits (q.arg 4) 3 0
  let n := bits (q.arg 4) 6 4
  let pre := bits w 26 16
  let delay := bits (q.arg 2) 23 0
  let unheld := s.firstUnheld q.mbx resTc first n
  s.check [(decide (pre < 16 ∨ 1024 < pre ∨ delay < 500 ∨ 10000000 < delay ∨ 4 < n ∨ 16 < first + n), rspErr stBadArg),
           (unheld.isSome, s.rspHeld resTc (unheld.getD first)),
           (s.bursts.any fun x => x.2.ack && decide (x.2.profile = bits w 2 0), rspErr stBusy)]
    (let c : AckCfg :=
       { enable := bitAt w 3, uncomp := bitAt w 4, flags := bits w 12 8, preLen := pre, delay := delay
         gain := bits (q.arg 3) 15 0 }
     ({ s with tx := { s.tx with
          ackCfg := Store.set (fun _ => none) s.tx.ackCfg (bits w 2 0) (some c)
          ackTc := if n = 0 then s.tx.ackTc else some (q.mbx, first, n) } }, rspOk))

def execAckCfgSet (q : Req) (s : State) : Outcome State Fault Refusal :=
  .next (serve specAckCfgSet q (svcAckCfgSet q) s)

def specAckStat : CmdSpec := { opcode := 0x0505 }

def svcAckStat (_ : Req) (s : State) : State × Rsp :=
  let d (c : Nat) := satN 16 (Store.get (fun _ => 0) s.tx.ackDrops c)
  (s, rspOk ([toWord (satN 32 s.tx.ackSent), toWord (satN 32 s.tx.ackUncomp)] ++
    (List.range 5).map fun i => pack16 (d (2 * i + 1)) (d (2 * i + 2))))

def execAckStat (q : Req) (s : State) : Outcome State Fault Refusal := .next (serve specAckStat q (svcAckStat q) s)

end Sys2Proof.Machine
end

