-- ==== Sys2Proof/Machine/Beams.lean ====
section
/-! DEFINITION. Chapter 05: beam configurations, weight banks and swaps, the transmit beams, and their commands. -/

namespace Sys2Proof.Machine

open Host

/-! ### Rates (R35, R148, R166, R177) -/

/-- Output rate of a preset in kS/s (R148). -/
def presetKsps (preset : Nat) : Nat :=
  match preset with
  | 0 => 61440
  | 1 => 30720
  | 2 => 15360
  | _ => 3840

/-- What fixes a quadrant's rate: preset, resampler in use, increment. -/
structure Rate where
  preset : Nat
  rs : Bool
  inc : Nat
  deriving DecidableEq, Repr

/-- The increment that scales the rate (R166). -/
def Rate.step (r : Rate) : Nat := if r.rs then r.inc else 2 ^ 31

def State.quadRate (s : State) (q : Nat) : Rate :=
  { preset := s.fld F.SIEVE_CFG_preset q, rs := s.flag F.SIEVE_CFG_rs_en q, inc := (s.reg .SIEVE_RS_INC q).toNat }

/-- The sum of R177 in kbeam-sample/s is at most a limit, with n q beams at the rate of quadrant q. -/
def loadWithin (limit : Nat) (r : Nat → Rate) (n : Nat → Nat) : Bool :=
  let l := List.range 4
  let d := l.foldl (fun a q => a * (r q).step) 1
  decide (l.foldl (fun a q => a + n q * presetKsps (r q).preset * 2 ^ 31 * (d / (r q).step)) 0 ≤ limit * d)

/-- The limits of R177: the load, and the beams at 61.44 MS/s. -/
def loadOk (r : Nat → Rate) (n : Nat → Nat) : Bool :=
  loadWithin 1966080 r n &&
    decide ((List.range 4).foldl (fun a q => a + if (r q).preset = 0 ∧ (r q).step = 2 ^ 31 then n q else 0) 0 ≤ 32)

/-- The quadrants of a mask share one preset and increment. -/
def uniformMask (r : Nat → Rate) (qmask : Nat) : Bool :=
  match maskList 4 qmask with
  | [] => true
  | a :: t => t.all fun q => decide (r q = r a)

/-- Beams per quadrant that fixes their rate. -/
def beamsAt (beams : List Nat) (mask : Nat → Nat) (q : Nat) : Nat :=
  (beams.filter fun b => decide ((maskList 4 (mask b)).head? = some q)).length

/-- The rates r fit R177 for beams with these masks. -/
def ratesOk (r : Nat → Rate) (beams : List Nat) (mask : Nat → Nat) : Bool :=
  loadOk r (beamsAt beams mask)

/-- COL must run at OPF for these rates and masks (R180). -/
def colHeavy (r : Nat → Rate) (beams : List Nat) (mask : Nat → Nat) : Bool := !loadWithin 983040 r (beamsAt beams mask)

/-- COL and the Coarse quadrants of a mask are raised to OPF before the change that needs it (R554). -/
def State.raiseFor (s : State) (r : Nat → Rate) (beams : List Nat) (mask : Nat → Nat) (qm : Nat) : State :=
  let s := if colHeavy r beams mask then s.raiseOp dCol else s
  ((maskList 4 qm).filter fun q => decide ((r q).preset = 0)).foldl (fun s q => s.raiseOp (dSieve + q)) s

def State.enabledBeams (s : State) : List Nat := (List.range 64).filter fun b => s.flag F.BEAM_RX_STAT_enabled b

/-! ### What a change does (R182, R188, R191-R195, R203) -/

/-- BEAM_DONE (R206). -/
def State.beamDone (s : State) (t : T48) (st : Nat) (tx swap cfg : Bool) (n : Nat) (cmd : Cmd) : State :=
  let b (c : Bool) (k : Nat) : Nat := if c then 2 ^ k else 0
  s.postAt t 0x0301 clsDone (toWord (st + b tx 8 + b swap 9 + b cfg 10 + 2 ^ 11 * n)) (some cmd)

/-- Contexts that receive a beam have seen the swap flag (R185, R193, R238). -/
def State.markSwap (s : State) (b : Nat) : State :=
  (s.openCtxs.filter fun c => c.2.state.live && !c.2.retry && c.2.beams.contains b).foldl (fun s c => s.setCtx c.1 { c.2 with swapSeen := true }) s

/-- The first sample from a new bank or configuration of an RX beam at t (R182, R192, R195). -/
def State.beamChanged (old s : State) (t : T48) (b : Nat) : State :=
  let c := s.cycleOf t
  let s := ((s.aallReg b).nfRestart (64 + b)).markSwap b
  let s := { s with beam := { s.beam with swapAt := Store.set (fun _ => -(2 ^ 62)) s.beam.swapAt b c } }
  if s.flag F.BEAM_RX_STAT_enabled b then State.beamEdges old s c b else s

/-- The banks of an RX beam change places. -/
def State.rxBank (s : State) (b : Nat) : State :=
  (s.setFld F.BEAM_RX_STAT_active_bank b (1 - s.activeBank b)).setFld F.BEAM_RX_STAT_shadow_fresh b 0

/-- An RX beam takes a configuration. -/
def State.rxSet (s : State) (qmask shift : Nat) (excl : Bool) (b : Nat) : State :=
  ((s.setFld F.BEAM_RX_CFG_qmask b qmask).setFld F.BEAM_RX_CFG_shift b shift).setFlag F.BEAM_RX_CFG_excl_nbr b excl

def State.rxSwap (s : State) (t : T48) (b : Nat) : State := State.beamChanged s (s.rxBank b) t b

def State.rxCfg (s : State) (t : T48) (qmask shift : Nat) (excl : Bool) (b : Nat) : State :=
  State.beamChanged s (s.rxSet qmask shift excl b) t b

def State.txSwap (s : State) (n : Nat) : State :=
  (s.setFld F.TXB_STAT_active_bank n (1 - s.fld F.TXB_STAT_active_bank n)).setFld F.TXB_STAT_shadow_fresh n 0

/-- A dropped change: the beams' pending bits clear and swap_late sets (R190). -/
def State.changeLate (s : State) (tx : Bool) (b : Nat) : State :=
  if tx then (s.setFld F.TXB_STAT_pending b 0).setFld F.TXB_EVT_swap_late b 1
  else (s.setFld F.BEAM_RX_STAT_pending b 0).setFld F.BEAM_RX_EVT_swap_late b 1

/-- A scheduled BEAM_CFG_SET at T, or dropped late (R188, R190). -/
def State.beamCfgAt (s : State) (t : T48) (beams qmask shift : Nat) (excl : Bool) (cmd : Cmd) (late : Bool) : State :=
  let l := maskList 64 beams
  if late then (l.foldl (fun s b => s.changeLate false b) s).beamDone t stLate false false true 0 cmd
  else
    let s := if colHeavy s.quadRate s.enabledBeams (fun b => if l.contains b then qmask else s.fld F.BEAM_RX_CFG_qmask b) then
        s.reachOpf dCol
      else s
    (l.foldl (fun s b => (s.setFld F.BEAM_RX_STAT_pending b 0).rxCfg t qmask shift excl b) s).beamDone t stOk false false
      true l.length cmd

/-- A scheduled BEAM_SWAP at T, or dropped late. -/
def State.beamSwapAt (s : State) (t : T48) (tx : Bool) (beams : Nat) (cmd : Cmd) (late : Bool) : State :=
  let l := maskList 64 beams
  if late then (l.foldl (fun s b => s.changeLate tx b) s).beamDone t stLate tx true false 0 cmd
  else
    let s := l.foldl (fun s b =>
      if tx then (s.setFld F.TXB_STAT_pending b 0).txSwap b else (s.setFld F.BEAM_RX_STAT_pending b 0).rxSwap t b) s
    s.beamDone t stOk tx true false l.length cmd

/-- One TX beam takes a configuration. -/
def State.txCfg (s : State) (source rateK pair : Nat) (pairValid : Bool) (qmask n : Nat) : State :=
  let s := ((s.setFld F.TXB_STAT_source n source).setFld F.TXB_STAT_rate_k n rateK).setFld F.TXB_STAT_pair n pair
  ((s.setFlag F.TXB_STAT_pair_valid n pairValid).setFld F.TXB_CFG_qmask n qmask).setFld F.TXB_STAT_pending n 0

/-- A scheduled TXB_CFG_SET at T, or dropped late; the path sum shift applies to every path (R200). -/
def State.txbCfgAt (s : State) (t : T48) (beams source rateK pair : Nat) (pairValid : Bool) (qmask shift : Nat) (cmd : Cmd)
    (late : Bool) : State :=
  let l := maskList 32 beams
  if late then (l.foldl (fun s b => s.changeLate true b) s).beamDone t stLate true false true 0 cmd
  else
    let s := l.foldl (fun s b => s.txCfg source rateK pair pairValid qmask b) s
    let s := (List.range 64).foldl (fun s p => s.setFld F.TXS_STAT_sum_shift p shift) s
    s.beamDone t stOk true false true l.length cmd

/-- Staged with_mode configurations are discarded, with ST_MODE (R191). -/
def State.dropWithMode (s : State) (t : T48) : State :=
  let l := s.beam.withMode
  let s := { s with beam := { s.beam with withMode := [] } }
  l.foldl (fun s c =>
    ((maskList 64 c.beams).foldl (fun s b => s.setFld F.BEAM_RX_STAT_pending b 0) s).beamDone t stMode false false true 0
      c.cmd) s

/-- The beams of a mode at its T (R178): B0 to B(n - 1) are enabled. -/
def State.enableBeams (s : State) (n : Nat) : State :=
  (List.range 64).foldl (fun s b => s.setFlag F.BEAM_RX_STAT_enabled b (decide (b < n))) s

/-- At T of a mode change every fresh bank swaps and every staged configuration applies at one sample (R191). The swap bit
of BEAM_DONE tells whether a named beam also swapped. -/
def State.beamsAtMode (s : State) (t : T48) (n : Nat) : State :=
  let old := s
  let s := s.enableBeams n
  let rx := (List.range 64).filter fun b => s.flag F.BEAM_RX_STAT_shadow_fresh b
  let tx := (List.range 32).filter fun b => s.flag F.TXB_STAT_shadow_fresh b
  let l := s.beam.withMode
  let s := tx.foldl State.txSwap (rx.foldl State.rxBank s)
  let s := { s with beam := { s.beam with withMode := [] } }
  let s := l.foldl (fun s c => (maskList 64 c.beams).foldl (fun s b =>
    (s.setFld F.BEAM_RX_STAT_pending b 0).rxSet c.qmask c.shift c.excl b) s) s
  let new (b : Nat) : Bool := rx.contains b || l.any fun c => c.beams.testBit b
  let s := ((List.range 64).filter new).foldl (fun s b => State.beamChanged old s t b) s
  let s := ((List.range 64).filter fun b => !new b && s.flag F.BEAM_RX_STAT_enabled b).foldl (fun s b =>
    State.beamEdges old s (s.cycleOf t) b) ((List.range 64).foldl State.aallReg s)
  l.foldl (fun s c =>
    let bs := maskList 64 c.beams
    s.beamDone t stOk false (bs.any rx.contains) true bs.length c.cmd) s

/-! ### Commands (R188-R191, R614, R615) -/

def specBeamCfgSet : CmdSpec :=
  { opcode := 0x0301, minLen := 6, maxLen := 6, masks := mAll :: mAll :: 0x1170F :: mSched, radio := true
    units := fun q => quadUnits (bits (q.arg 3) 3 0) }

/-- The pending mode change of the issuing mailbox. -/
def State.pendOf (s : State) (q : Req) : Option PendMode :=
  match s.mode.pend with
  | some p => if p.cmd.mbx = q.mbx then some p else none
  | none => none

/-- Mark RX beams pending. -/
def State.pendRx (s : State) (l : List Nat) : State := l.foldl (fun s b => s.setFld F.BEAM_RX_STAT_pending b 1) s
def State.pendTx (s : State) (l : List Nat) : State := l.foldl (fun s b => s.setFld F.TXB_STAT_pending b 1) s

/-- BEAM_CFG_SET on its own schedule. DESIGN CHOICE (log entry 139): R177 is tested against the configurations and the rates
in force, not those that other accepted commands will bring. -/
def State.beamCfgPlain (s : State) (q : Req) (l : List Nat) (qm shift : Nat) (excl : Bool) : State × Rsp :=
  let d := schedOf q 4
  let r := s.quadRate
  s.check [s.schedHeld q d, State.schedNow d false, maskEmpty (pathsOf q 1), (decide (qm = 0 ∨ 6 < shift), rspErr stBadArg),
           (!uniformMask r qm ||
              !ratesOk r s.enabledBeams (fun b => if l.contains b then qm else s.fld F.BEAM_RX_CFG_qmask b),
             rspErr stBadArg),
           (l.any fun b => s.flag F.BEAM_RX_STAT_pending b, rspErr stBusy), s.schedBusy d, s.schedLate d 200000]
    (((s.armCmd d.unit d.t 5 (.beamCfg (pathsOf q 1) qm shift excl q.cmd)).pendRx l).raiseFor r s.enabledBeams
      (fun b => if l.contains b then qm else s.fld F.BEAM_RX_CFG_qmask b) 0, rspAccepted)

/-- BEAM_CFG_SET with with_mode = 1 (R191). -/
def State.beamCfgWithMode (s : State) (q : Req) (l : List Nat) (qm shift : Nat) (excl : Bool) : State × Rsp :=
  match s.pendOf q with
  | none => (s, rspErr stNotReady)
  | some p =>
    let r (_ : Nat) : Rate := { preset := p.preset, rs := p.rsEn, inc := p.inc.toNat }
    s.check [maskEmpty (pathsOf q 1), (decide (qm = 0 ∨ 6 < shift), rspErr stBadArg),
             (!ratesOk r (List.range p.beams) (fun b => if l.contains b then qm else s.fld F.BEAM_RX_CFG_qmask b),
               rspErr stBadArg),
             (l.any fun b => s.flag F.BEAM_RX_STAT_pending b, rspErr stBusy),
             (!atOrAfter p.at_ (tAdd s.now (msec p.lead)), rspErr stLate)]
      (let c : ModeCfg := { beams := pathsOf q 1, qmask := qm, shift := shift, excl := excl, cmd := q.cmd }
       (({ s with beam := { s.beam with withMode := s.beam.withMode ++ [c] } } : State).pendRx l, rspAccepted))

def svcBeamCfgSet (q : Req) (s : State) : State × Rsp :=
  let l := maskList 64 (pathsOf q 1)
  let w := q.arg 3
  if bitAt w 16 then s.beamCfgWithMode q l (bits w 3 0) (bits w 10 8) (bitAt w 12)
  else s.beamCfgPlain q l (bits w 3 0) (bits w 10 8) (bitAt w 12)

def execBeamCfgSet (q : Req) (s : State) : Outcome State Fault Refusal :=
  .next (serve specBeamCfgSet q (svcBeamCfgSet q) s)

def specBeamWeightLoad : CmdSpec := { opcode := 0x0302, minLen := 2, maxLen := 2, masks := [0xBF3F, mRegion] }

/-- A scheduled change of a beam is pending. -/
def State.beamPending (s : State) (tx : Bool) (b : Nat) : Bool :=
  if tx then s.flag F.TXB_STAT_pending b else s.flag F.BEAM_RX_STAT_pending b

/-- The shadow bank of a beam takes 64 words (R189). -/
def State.loadShadow (s : State) (tx : Bool) (b : Nat) (l : List Word) : State :=
  if tx then
    ((s.setWeights (64 + b) (1 - s.activeBank (64 + b)) l).setFld F.TXB_STAT_shadow_valid b 1).setFld F.TXB_STAT_shadow_fresh b 1
  else
    ((s.setWeights b (1 - s.activeBank b) l).setFld F.BEAM_RX_STAT_shadow_valid b 1).setFld F.BEAM_RX_STAT_shadow_fresh b 1

def svcBeamWeightLoad (q : Req) (s : State) : State × Rsp :=
  let first := bits (q.arg 1) 5 0
  let n := bits (q.arg 1) 13 8 + 1
  let tx := bitAt (q.arg 1) 15
  let l := (List.range n).map (first + ·)
  let tiles := ceilDiv n 16
  s.check [regionBad q 2 1, s.regionHeld q 2, (decide ((if tx then 32 else 64) < first + n), rspErr stBadArg),
           regionBad q 2 tiles]
    (s.withInput q 2 tiles fun s =>
      s.check [(l.any fun b => s.beamPending tx b, rspErr stBusy)]
        (l.foldl (fun x b => x.loadShadow tx b (x.memWords (tileAddr (regionFirst q 2) + 256 * (b - first)) 64)) s, rspOk))

def execBeamWeightLoad (q : Req) (s : State) : Outcome State Fault Refusal :=
  .next (serve specBeamWeightLoad q (svcBeamWeightLoad q) s)

def specBeamSwap : CmdSpec :=
  { opcode := 0x0303, minLen := 6, maxLen := 6, masks := mAll :: mAll :: 1 :: mSched, radio := true }

/-- The shadow bank of a beam holds weights. -/
def State.shadowValid (s : State) (tx : Bool) (b : Nat) : Bool :=
  if tx then s.flag F.TXB_STAT_shadow_valid b else s.flag F.BEAM_RX_STAT_shadow_valid b

def svcBeamSwap (q : Req) (s : State) : State × Rsp :=
  let m := pathsOf q 1
  let l := maskList 64 m
  let tx := bitAt (q.arg 3) 0
  let d := schedOf q 4
  s.check [s.schedHeld q d, State.schedNow d false, maskEmpty m, (tx && decide (q.arg 2 ≠ 0), rspErr stBadArg),
           (l.any fun b => !s.shadowValid tx b, rspErr stNotReady),
           (l.any fun b => s.beamPending tx b, rspErr stBusy), s.schedBusy d, s.schedLate d 200000]
    (let s := s.armCmd d.unit d.t 5 (.beamSwap tx m q.cmd)
     (if tx then s.pendTx l else s.pendRx l, rspAccepted))

def execBeamSwap (q : Req) (s : State) : Outcome State Fault Refusal := .next (serve specBeamSwap q (svcBeamSwap q) s)

def specBeamWeightRead : CmdSpec := { opcode := 0x0304, minLen := 2, maxLen := 2, masks := [0x1BF, mRegion] }

def svcBeamWeightRead (q : Req) (s : State) : State × Rsp :=
  let b := bits (q.arg 1) 5 0
  let tx := bitAt (q.arg 1) 7
  let beam := b + if tx then 64 else 0
  let bank := if bitAt (q.arg 1) 8 then 1 - s.activeBank beam else s.activeBank beam
  s.check [regionBad q 2 1, s.regionHeld q 2, (tx && decide (31 < b), rspErr stBadArg)]
    (s.putTileWords (regionFirst q 2) ((List.range 64).map fun p => s.weight beam bank p), rspOk)

def execBeamWeightRead (q : Req) (s : State) : Outcome State Fault Refusal :=
  .next (serve specBeamWeightRead q (svcBeamWeightRead q) s)

def specTxbCfgSet : CmdSpec :=
  { opcode := 0x0305, minLen := 5, maxLen := 5, masks := mAll :: 0x070F7F73 :: mSched, radio := true
    units := fun q => quadUnits (bits (q.arg 2) 19 16) }

/-- TXB_CFG_SET: the three bits of rate_k give 8 as 0 (log entry 50). DESIGN CHOICE (log entry 139): source 3, which "is not
used", returns ST_BAD_ARG. -/
def svcTxbCfgSet (q : Req) (s : State) : State × Rsp :=
  let m := (q.arg 1).toNat
  let l := maskList 32 m
  let w := q.arg 2
  let src := bits w 1 0
  let k := if bits w 6 4 = 0 then 8 else bits w 6 4
  let d := schedOf q 3
  s.check [s.schedHeld q d, State.schedNow d false, maskEmpty m,
           (decide (src = 3 ∨ k < 3 ∨ 8 < k ∨ bits w 19 16 = 0 ∨ 5 < bits w 26 24), rspErr stBadArg),
           (l.any fun b => s.flag F.TXB_STAT_pending b, rspErr stBusy),
           (l.any fun b => s.flag F.TXB_STAT_busy b &&
              decide (s.fld F.TXB_STAT_source b ≠ src ∨ s.rateCode b ≠ k), rspErr stBusy),
           s.schedBusy d, s.schedLate d 200000]
    ((s.armCmd d.unit d.t 5 (.txbCfg m src k (bits w 13 8) (bitAt w 14) (bits w 19 16) (bits w 26 24) q.cmd)).pendTx l,
      rspAccepted)

def execTxbCfgSet (q : Req) (s : State) : Outcome State Fault Refusal := .next (serve specTxbCfgSet q (svcTxbCfgSet q) s)

/-- A z_p sample saturates (R201). -/
def execPathSumSaturation (p : Nat) (s : State) : Outcome State Fault Refusal :=
  .next (if p < 64 ∧ s.sideState (2 * quadOf p + 1) = sRun then
    ((s.bump F.TXS_SAT_CNT_sat_samples p).setFld F.TXS_STAT_sat p 1).postLimited 0x0303 p (toWord p) s.now
  else s)

end Sys2Proof.Machine
end

