-- ==== Sys2Proof/Machine/Cancel.lean ====
section
/-! DEFINITION. Chapters 06 and 07: coding a payload, and cancelling delivered packets in retained samples (R243, R244, R249,
R255, R260). The pulse that regeneration shapes chips with is the implementation's (log entry 2). -/

namespace Sys2Proof.Machine

/-! ### Coding (R255, R260) -/

/-- Eliminate one unknown of equations over GF(2), each a mask of unknowns and a right side: those solved so far, by
unknown, and the rest. -/
def gf2Column (a : List (Nat × Nat × Bool) × List (Nat × Bool)) (c : Nat) : List (Nat × Nat × Bool) × List (Nat × Bool) :=
  match a.2.find? fun r => r.1.testBit c with
  | none => a
  | some p =>
    let clear (r : Nat × Bool) : Nat × Bool := if r.1.testBit c then (r.1 ^^^ p.1, r.2 != p.2) else r
    ((c, p) :: a.1.map (fun e => (e.1, clear e.2)), (a.2.erase p).map clear)

/-- The solution of n equations in n unknowns over GF(2). -/
def gf2Solve (n : Nat) (rows : List (Nat × Bool)) : List Bool :=
  let a := (List.range n).foldl gf2Column ([], rows)
  (List.range n).map fun c => (a.1.find? fun e => decide (e.1 = c)).any fun e => e.2.2

/-- The parity of a block's information positions: the codeword satisfies rows 0 to m - 1 of the lifted graph (R260). -/
def parityBits (g : BaseGraph) (f : Fit) (info : List Bool) : List Bool :=
  gf2Solve (f.m * f.z) ((List.range (f.m * f.z)).map fun k =>
    (g.parityRow f.z f.m (k / f.z) (k % f.z),
      (((g.edges f.z (k / f.z) (k % f.z)).filter fun e => info.getD e.1 false).length % 2 == 1)))

/-- The coded bits of block c (R260): information from the punctured columns on, without filler, then parity. -/
def codedBlock (g : BaseGraph) (f : Fit) (a : List Bool) (c : Nat) : List Bool :=
  let real := (a.drop (c * f.ab)).take f.ab
  let info := real ++ List.replicate (g.kb * f.z - real.length) false
  real.drop (g.p * f.z) ++ parityBits g f info

/-- The information bits of a payload: its bytes, bit 0 first, and CRC-24, register bit 23 first (R255). -/
def payloadBits (h : Header) (payload : List Byte) : List Bool :=
  let l := payload.flatMap fun b => lowBits b.toNat 8
  l ++ msbFirst (crc24 (lowBits h.low 32 ++ l)) 24

/-- The coded bits of a payload. -/
def codedPayload (g : BaseGraph) (f : Fit) (h : Header) (payload : List Byte) : List Bool :=
  (List.range f.c).flatMap (codedBlock g f (payloadBits h payload))

/-! ### Regenerated chips (R243) -/

/-- A regenerated symbol: its position in 1/64 chips, its frequency in 0.5 Hz, the phase it begins with in turns times 128
times the chip rate, its value. -/
structure RegenSym where
  pos : Int
  f : Int
  phase : Int
  v : Iq

/-- Phases follow the frequency track. -/
def withPhases : Int → List ((Int × Int) × Iq) → List RegenSym
  | _, [] => []
  | ph, [x] => [⟨x.1.1, x.1.2, ph, x.2⟩]
  | ph, x :: y :: l => ⟨x.1.1, x.1.2, ph, x.2⟩ :: withPhases (ph + x.1.2 * (y.1.1 - x.1.1)) (y :: l)

/-- The symbols of a delivered packet over header and payload. -/
def State.regenSyms (s : State) (r : Regen) (p : Profile) : List RegenSym :=
  let h := Header.ofWord r.hdr
  let n := p.preLen + p.syncLen
  let pay := match s.graph r.bgSlot with
    | none => []
    | some g => match g.fit h.length h.rate with
      | none => []
      | some f => symbolsOf p.modulation (n + p.headerSymbols) (codedPayload g f h r.payload)
  withPhases 0 (r.track.zip (symbolsOf p.modulation n (headerBits r.hdr) ++ pay))

/-- The chips of a symbol that lie within eight chips of position u, shaped. -/
def RegenSym.at_ (x : RegenSym) (p : Profile) (u : Int) : Iq :=
  (List.range p.sf).foldl (fun (a : Iq) (i : Nat) =>
    let w := u - (x.pos + 64 * i)
    let tap (d : Int) : Int := if -512 ≤ w - d ∧ w - d ≤ 512 then (Config.pulse p.rolloff (w - d + 512).toNat).toInt else 0
    let c := codeChip p.code i
    (a.1 + c * x.v.1 * tap 0, a.2 + c * x.v.2 * tap (if p.modulation = 3 then 32 else 0))) (0, 0)

/-- The regenerated value at a retained half chip, as the candidate's NCO derotated it, and the block of 64 symbols it lies
in; `rate`: the candidate's chip rate. -/
def regenAt (p : Profile) (l : List RegenSym) (rate : Nat) (h : RetHalf) : Nat × Iq :=
  let u := h.u * p.chipRate / rate
  let near := l.filter fun x => decide (x.pos - 512 ≤ u ∧ u ≤ x.pos + 64 * p.sf + 512)
  let a := near.foldl (fun (a : Iq) x => (a.1 + (x.at_ p u).1, a.2 + (x.at_ p u).2)) ((0, 0) : Iq)
  let j := (l.filter fun x => decide (x.pos ≤ u)).length - 1
  let ph := match l[j]? with
    | some x => cisQ (x.phase + x.f * (u - x.pos)) (128 * p.chipRate)
    | none => (2 ^ 30, 0)
  (j / 64, mulQ (mulQ (mapIq (fun v => divHalfEven v (2 ^ 17)) a) ph) (conjQ (cisQ h.phase.toNat (2 ^ 32))))

/-- One beam's values of a block less the regenerated ones times the gain that fits them by least squares. -/
def cancelBlock (ref val : List Iq) : List Iq :=
  let den := (ref.map fun r => r.1 * r.1 + r.2 * r.2).foldl (· + ·) 0
  let n := (ref.zip val).foldl (fun (a : Iq) x =>
    (a.1 + (x.2.1 * x.1.1 + x.2.2 * x.1.2), a.2 + (x.2.2 * x.1.1 - x.2.1 * x.1.2))) ((0, 0) : Iq)
  if den = 0 then val
  else (ref.zip val).map fun x =>
    half16 (x.2.1 - divHalfEven (n.1 * x.1.1 - n.2 * x.1.2) den.toNat, x.2.2 - divHalfEven (n.1 * x.1.2 + n.2 * x.1.1) den.toNat)

/-- Cancel one packet in retained half chips, block by block. -/
def cancelOne (p : Profile) (l : List RegenSym) (rate : Nat) (hs : List RetHalf) : List RetHalf :=
  let ref := hs.map (regenAt p l rate)
  (List.range (ceilDiv l.length 64)).foldl (fun hs k =>
    let idx := (ref.zipIdx.filter fun x => decide (x.1.1 = k)).map (·.2)
    let r := idx.map fun i => (ref.getD i (0, 0, 0)).2
    (List.range ((hs.head?.map (·.v.length)).getD 0)).foldl (fun hs b =>
      let v := cancelBlock r (idx.map fun i => ((hs[i]?.map (·.v)).getD []).getD b (0, 0))
      (idx.zip v).foldl (fun hs x => hs.modify x.1 fun h => { h with v := h.v.set b x.2 }) hs) hs) hs

/-- A packet put into a list in descending SINR order. -/
def bySinr (r : Regen) : List Regen → List Regen
  | [] => [r]
  | x :: l => if x.sinr < r.sinr then r :: x :: l else x :: bySinr r l

/-- The interferers of a candidate that are known, in descending SINR order (R243, R244). -/
def State.interferersOf (s : State) (c : Cand) : List Regen :=
  (s.rxb.regen.filter fun r => c.interferers.contains r.rec_).foldl (fun l r => bySinr r l) []

/-- What a candidate has retained, oldest first, with every known interferer cancelled. -/
def State.cancelled (s : State) (c : Cand) (p : Profile) : List RetHalf :=
  let l := match s.eq c.slot with
    | some e => e.ret.reverse
    | none => []
  (s.interferersOf c).foldl (fun l r => match s.profile r.profile with
    | some q => cancelOne q (s.regenSyms r q) p.chipRate l
    | none => l) l

end Sys2Proof.Machine
end

