-- ==== Sys2Proof/Machine/Reception.lean ====
section
/-! DEFINITION. Chapters 06 and 07: what the correlator, the contexts, the LDPC assists and the record path report, row
by row. Rows that schedule an acknowledgement stand in Ack.lean. -/

namespace Sys2Proof.Machine

open Host

/-! ### Detection (R212-R219, R225, R228-R231) -/

/-- The SNR estimate of a beam at a hypothesis, for the neighbour report (R217). -/
def State.snrAt (s : State) (p : Profile) (code : List Word) (c : Nat) (f n : Int) (b : Nat) : Int :=
  match s.lambdaAt p code b c f n with
  | some l => snrOf l
  | none => -40

/-- The threshold in force on a beam for a code (R214). -/
def State.thrAt (s : State) (b c : Nat) : Nat :=
  match Store.get (fun _ => none) s.dp.det (16 * b + c) with
  | some k => k.thr
  | none => s.thrOf c

/-- What the bank reports of the hypothesis in bin f at half chip n, with its offset interpolated to `freq` (R210 to R217):
nothing unless the slot is searched on the beam, the statistic meets the threshold, and no neighbour's is larger. -/
def State.report_ (s : State) (b c : Nat) (f n freq : Int) : Option (Det × Profile × Nat) :=
  match s.codeSlot c with
  | none => none
  | some k => match s.profile k.profile with
    | none => none
    | some p => match s.lambdaAt p k.code b c f n with
      | none => none
      | some l =>
        if s.searched c = true ∧ b < 64 ∧ s.flag F.BEAM_RX_STAT_enabled b = true ∧ s.flag F.BEAM_RX_NF_valid b = true ∧
            f.natAbs ≤ p.maxBin ∧ 2 * (freq * p.binHz.2 - f * p.binHz.1).natAbs ≤ p.binHz.1 ∧
            lambdaMeets l (s.thrAt b c) = true ∧ s.isPeak p k.code b c f n l = true then
          some ({ beam := b, code := c, timing := (n % (2 * p.sf : Nat)).toNat, freq := freq, snr := snrOf l
                  at_ := BitVec.ofInt 48 (s.stampOf p.chipRate (32 * (n + 2 * p.sf)) / 2 ^ 16), bin := f, half := n
                  neigh := (List.range 7).map fun i => if i + b < 3 then -40 else s.snrAt p k.code c f n (b + i - 3) },
            p, k.profile)
        else none

/-- D duplicates an open context of the same code (R218). -/
def State.duplicates (s : State) (d : Det) (p : Profile) (x : Ctx) : Bool :=
  let per := 2 * p.sf
  let a := (d.timing + per - x.timing % per) % per
  let df := (2 * d.freq - x.freq).natAbs
  let lo := x.beams.foldl min 64
  let hi := x.beams.foldl max 0
  x.state.live && decide (x.code = d.code) && decide (a ≤ 2 ∨ per ≤ a + 2) &&
    decide (df * p.sf ≤ 2 * p.chipRate ∧ df ≤ 50000) &&
    decide ((lo ≤ d.beam + 2 ∧ d.beam ≤ hi + 2) ∨ d.snr ≤ x.snr - s.policy.sidelobeDb) &&
    decide (d.snr < x.snr + s.policy.captureDb)

/-- Open the context if a Skillet and C_lim allow it. -/
def State.tryPlace (s : State) (d : Det) (p : Profile) (pn : Nat) : Option (Nat × State) :=
  if s.openCtxs.length < s.cLimit then
    match s.freeNo, (fun r : Nat × Nat => s.fitRun d p none 8 r.1 r.2) (s.run d) with
    | some n, some (k, lo, hi) => (s.openCtx d p pn n k lo hi).map fun s' => (n, s')
    | _, _ => none
  else none

/-- A detection that cannot be placed (R231): counted, logged, CTX_FULL. -/
def State.unplaced (s : State) (d : Det) (p : Profile) : State :=
  let noCtx := decide (s.cLimit ≤ s.openCtxs.length) || s.freeNo.isNone
  let noCap := (s.bestSkillet (p.load 1) none).isNone
  let b (c : Bool) (k : Nat) : Nat := if c then 2 ^ k else 0
  let s := s.bump F.BEAM_DET_LOSS_unplaced d.beam
  let s := s.logPlace lgUnplaced 255 d.at_ (d.beam + 64 * d.code + b noCtx 10 + b noCap 11)
    (unsN 16 d.snr + 65536 * unsN 16 (detMetric d p))
  s.postLimited 0x0401 0 (toWord (d.beam + 64 * d.code + b noCtx 10 + b noCap 11)) d.at_

/-- A context measures its mean SINR over its next 16 symbols (R225). -/
def State.startWindow (s : State) (n : Nat) : State :=
  s.setEq n ((s.eq n).map fun e => { e with capLeft := 16, capAcc := {} })

/-- A new context starts a capture test, or its window again, on the live contexts it shares a beam with and outweighs; one in
ACQUIRE waits until it leaves it (R225). -/
def State.startCaptures (s : State) (n : Nat) (d : Det) : State :=
  let y := s.ctx n
  s.tracked.foldl (fun s c =>
    if c.1 ≠ n ∧ c.2.state.live = true ∧ (c.2.beams.any fun b => y.beams.contains b) = true ∧
        c.2.snr + s.policy.captureDb ≤ d.snr then
      let s := s.setCtx c.1 { s.ctx c.1 with capture := true }
      if c.2.state = .acquire then s else s.startWindow c.1
    else s) s

/-- Place a detection, evicting at most one context (R228-R231). -/
def State.place (s : State) (d : Det) (p : Profile) (pn : Nat) : State :=
  match s.tryPlace d p pn with
  | some (n, s') => s'.startCaptures n d
  | none =>
    match s.victim p with
    | some v =>
      if s.metric v.2 + s.policy.evictMargin < detMetric d p then
        let m := s.metric v.2
        let s := s.logPlace lgEvict v.1 d.at_ (unsN 16 m + 65536 * unsN 16 (detMetric d p)) 0
        let s := s.abort v.1 cEvicted
        match s.tryPlace d p pn with
        | some (n, s') => s'.startCaptures n d
        | none => s.unplaced d p
      else s.unplaced d p
    | none => s.unplaced d p

/-- The first detection of a SENTINEL dwell posts SENTINEL_WAKE, and rotation pauses (R40, R58). -/
def State.sentinelSeen (s : State) (d : Det) : State :=
  if s.modeNo = mSentinel then
    let s := if s.mode.woken then s
      else s.postAt d.at_ 0x0108 clsInfo
        (toWord (s.fld F.SYS_MODE_awake_q + 4 * d.beam + 256 * d.code))
    { s with mode := { s.mode with woken := true, paused := true } }
  else s

/-- Counts and the last detection of a beam (R247). -/
def State.countDet (s : State) (d : Det) : State :=
  let s := s.bump F.BEAM_DET_CNT_detections d.beam
  s.setReg .BEAM_DET_LAST d.beam (toWord (d.code % 16 + 16 + 65536 * unsN 16 d.snr))

/-! ### From training to the last payload symbol (R222, R224, R225, R239) -/

/-- Training is over: a capture test that waited for it starts (R225). -/
def State.trained (s : State) (n : Nat) (st : CState) : State :=
  let x := s.ctx n
  let s := s.setCtx n { x with state := st }
  if x.state = .acquire ∧ x.capture = true then s.startWindow n else s

/-- 16 preamble symbols are trained (R222). -/
def execPreambleTrainingDone (c : Nat) (_ : Computed) (s : State) : Outcome State Fault Refusal :=
  match s.eq c with
  | none => .next s
  | some e =>
    if (s.ctx c).state = .acquire ∧ 16 ≤ e.count then .next ((s.ctxTileBad c).getD (s.trained c .sync)) else .next s

/-- The symbols of a context's sync window after its first trained one (R224). -/
def syncWindow (x : Ctx) (p : Profile) : Nat := p.preLen + p.syncLen + 4 - x.nInt

/-- The sync word has matched within the window (R224): t_sync is the sample time of its first chip (R240). -/
def execSyncMatch (c : Nat) (_ _ _ _ : Computed) (s : State) : Outcome State Fault Refusal :=
  let x := s.ctx c
  match s.profile x.profile, (s.eq c).bind (·.match_) with
  | some p, some (n, u) =>
    if (x.state = .acquire ∨ x.state = .sync) ∧ n ≤ syncWindow x p then
      .next ((s.ctxTileBad c).getD
        (let t := s.stampOf p.chipRate u
         let s := s.trained c .header
         s.setCtx c { s.ctx c with tSync := BitVec.ofInt 48 (t / 2 ^ 16), tFrac := (t % 2 ^ 16).toNat, synced := true }))
    else .next s
  | _, _ => .next s

/-- End of a context's sync window, from the sample time of the first integrated symbol (R224). -/
def syncEnd (x : Ctx) (p : Profile) : T48 := x.det + BitVec.ofNat 48 (p.symNs (syncWindow x p))

/-- What a symbol's decision lags behind the sample time of its end, in ns: the resampler's alignment, the group delay,
Colander, and the half chips that interpolation and filter wait for. -/
def State.symbolLag (s : State) (x : Ctx) (p : Profile) : Nat :=
  let q := (s.beamQuads (x.beams.headD 0)).headD 0
  fsNs (groupCycles (s.fld F.SIEVE_CFG_preset q) + 24 * decimation (s.fld F.SIEVE_CFG_preset q) + 128) +
    ceilDiv (chipLag p * 1000000000) (2 * p.chipRate)

/-- The matcher has found nothing by the window's end (R224). -/
def State.syncMissed (s : State) (n : Nat) (p : Profile) : Bool :=
  match (s.eq n).bind (·.match_) with
  | some (k, _) => decide (syncWindow (s.ctx n) p < k)
  | none => true

/-- The sync window of a context ends; that of a retry with the symbols it has read. -/
def execSyncWindowEnd (c : Nat) (s : State) : Outcome State Fault Refusal :=
  let x := s.ctx c
  match s.profile x.profile with
  | none => .next s
  | some p =>
    if x.state = .acquire ∨ x.state = .sync then
      if x.retry then
        .next (if s.syncMissed c p = true ∧ (s.eq c).any (fun e => decide (syncWindow x p ≤ e.count)) = true then
          s.abort c cFalseLock else s)
      else
        let s := s.elapseTo (tAdd (syncEnd x p) (s.symbolLag x p))
        .next (if s.syncMissed c p then s.abort c cFalseLock else s)
    else .next s

/-- The capture test fails: the mean symbol SINR of its symbols is below sinr_min (R225). -/
def State.captureFails (s : State) (n : Nat) (p : Profile) : Bool :=
  (s.ctx n).capture && (s.eq n).any fun e => decide (0 < e.capAcc.n ∧ e.capAcc.sinr < p.sinrMin)

/-- A capture test ends with the symbols it has (R225): the context is aborted, or goes on as `f` says, flagged. -/
def State.endCapture (s : State) (n : Nat) (p : Profile) (f : State → State) : State :=
  let x := s.ctx n
  if s.captureFails n p then s.abort n cCollided
  else f (if x.capture then s.setCtx n { x with capture := false, captured := true } else s)

/-- The capture test ends with its 16 symbols, or with the last before DECODE (R225). -/
def execCaptureCheckEnd (c : Nat) (_ : Computed) (s : State) : Outcome State Fault Refusal :=
  let x := s.ctx c
  match s.profile x.profile, s.eq c with
  | some p, some e =>
    if (x.state = .sync ∨ x.state = .header ∨ x.state = .payload) ∧ x.capture = true ∧ (e.capLeft = 0 ∨
        (x.state = .payload ∧ p.headerSymbols + x.paySymbols ≤ e.track.length)) then .next (s.endCapture c p id)
    else .next s
  | _, _ => .next s

/-- Lock is lost when the mean SINR over 64 symbols falls below sinr_min - 6 dB or the NCO leaves ±30 kHz (R239); the row of
R222 is PAYLOAD's (log entry 7). -/
def execLockLost (c : Nat) (_ _ : Computed) (s : State) : Outcome State Fault Refusal :=
  let x := s.ctx c
  match s.profile x.profile, s.eq c with
  | some p, some e =>
    if x.state = .payload ∧ ((e.errs.length = 64 ∧ e.sinrNow < p.sinrMin - 24) ∨
        60000 < (incHz (s.eqHz e p) e.inc 1).natAbs) then .next (s.abort c cTrackLost)
    else .next s
  | _, _ => .next s

/-- The coded bits of a payload whose header is known. -/
def State.codedBits (s : State) (x : Ctx) : Nat :=
  match x.hdr, s.graph x.bgSlot with
  | some h, some g => match g.fit h.length h.rate with
    | some f => f.e
    | none => 0
  | _, _ => 0

/-- Soft values as the bytes of payload tiles (R220, R262). -/
def llrWords (l : List Int) : List Word :=
  payloadWords (l.map fun v => BitVec.ofInt 8 v)

/-- The last payload symbol is stored; the tiles are sealed, and decoding is queued (R220, R222, R262). -/
def State.queueDecode (s : State) (n : Nat) (llr : List Int) : State :=
  let x := s.ctx n
  let w := llrWords llr
  let s := x.payTiles.zipIdx.foldl (fun s t => s.putTileWords t.1 ((w.drop (1024 * t.2)).take 1024)) s
  let s := (x.chipTile :: x.payTiles).foldl State.sealTile s
  s.setCtx n { x with state := .decode, llr := llr, symbols := x.paySymbols, decAt := some s.now }

def execLastPayloadSymbol (c : Nat) (_ _ : Computed) (s : State) : Outcome State Fault Refusal :=
  let x := s.ctx c
  match s.profile x.profile, s.eq c with
  | some p, some e =>
    if x.state = .payload ∧ p.headerSymbols + x.paySymbols ≤ e.track.length then
      .next ((s.ctxTileBad c).getD (s.endCapture c p fun s =>
        s.queueDecode c (((e.llr.drop 120).take (s.codedBits x)).map (sat 127))))
    else .next s
  | _, _ => .next s

/-! ### The LDPC assists (R263, R266) -/

def State.assistOf (s : State) (k : Nat) : Option Nat := Store.get (fun _ => none) s.rxb.assist k

def State.setAssist (s : State) (k : Nat) (c : Option Nat) : State :=
  { s with rxb := { s.rxb with assist := Store.set (fun _ => none) s.rxb.assist k c } }

/-- The next context of a Skillet in DECODE order (R266). -/
def State.nextDecode (s : State) (k : Nat) : Option (Nat × Ctx) :=
  (s.openCtxs.filter fun c => decide (c.2.state = .decode ∧ c.2.skillet = k ∧ c.2.decAt.isSome)).foldl
    (fun best c => match best with
      | none => some c
      | some b => if c.2.decAt ≠ b.2.decAt ∧ atOrAfter (b.2.decAt.getD 0) (c.2.decAt.getD 0) = true then some c
        else some b) none

def execLdpcContextStart (k : Nat) (s : State) : Outcome State Fault Refusal :=
  match s.assistOf k, s.nextDecode k with
  | none, some (n, x) =>
    .next ((s.ctxTileBad n).getD ((s.setCtx n { x with
      block := 0, hard := [], decAt := none, decCfg := (s.rxb.maxIter, s.rxb.alpha) }).setAssist k (some n)))
  | _, _ => .next s

/-- The graph and coding of a context's payload. -/
def State.fitOf (s : State) (x : Ctx) : Option (BaseGraph × Fit × Nat) :=
  match x.hdr, s.graph x.bgSlot with
  | some h, some g => (g.fit h.length h.rate).map fun f => (g, f, infoBits h.length)
  | _, _ => none

/-- A block ends, converged or at max_iter (R263). -/
def execLdpcBlockEnd (k : Nat) (s : State) : Outcome State Fault Refusal :=
  match s.assistOf k with
  | none => .next s
  | some n =>
    let x := s.ctx n
    match s.fitOf x with
    | none => .next s
    | some (g, f, a) =>
      if x.state = .decode ∧ x.block < f.c then
        let r := decodeBlock g f a x.block x.decCfg.1 x.decCfg.2 x.llr
        let s := s.setCtx n { x with
          block := x.block + 1, hard := x.hard ++ r.1, iters := max x.iters r.2.1,
          unconverged := x.unconverged || !r.2.2, decCfg := (s.rxb.maxIter, s.rxb.alpha) }
        .next (if x.block + 1 = f.c then s.setAssist k none else s)
      else .next s

/-- A Skillet fault: its contexts abort with FAULT (R222, R571), its assist stops. -/
def State.skilletAbort (s : State) (k : Nat) : State :=
  (s.abortWhere cFault fun x => (x.state.live || decide (x.state = .decode)) && decide (x.skillet = k)).setAssist k none

/-! ### Interference cancellation (R241-R245) -/

/-- Writing n half chips of retention reaches a tile that has not been taken, and the span needs it (R241). -/
def Ctx.needsTile (x : Ctx) (p : Profile) (n : Nat) : Bool :=
  decide (4096 * x.retTiles.length ≤ 4 * min n (x.retHalves p) * x.beams.length ∧ x.retTiles.length < x.retNeed p)

/-- One more tile for a span: the one written before it is sealed (R454). -/
def State.addTile (s : State) (x : Ctx) (p : Nat) : State × Ctx :=
  (match x.retTiles.getLast? with
    | some t => s.sealTile (panKey t)
    | none => s, { x with retTiles := x.retTiles ++ [p] })

/-- An entry RETAIN (R235). -/
def State.logRetain (s : State) (c : Nat) (x : Ctx) (p : Nat) : State :=
  s.logPlace lgRetain c s.now (x.retTiles.length + 1) (x.retTiles.headD p)

/-- A candidate expires: its retention is released, and a retry that still reads or decodes it ends (R242, R245). -/
def State.expireCand (s : State) (c : Cand) : State :=
  (s.endCand c).abortWhere cSampleLoss fun x => retryOf x c && (x.state.live || decide (x.state = .decode))

/-- The candidate of a context number whose continuing retention reaches a new tile (R242). -/
def State.candNeeds (s : State) (n : Nat) : Option Cand :=
  s.rxb.cands.find? fun c => decide (c.ctxNo = n) && match s.profile c.ctx.profile, s.eq c.slot with
    | some p, some e => c.ctx.needsTile p e.ret.length
    | _, _ => false

/-- A candidate's retention takes a tile from RET_TILES, or stops. -/
def State.candTile (s : State) (c : Cand) : State :=
  match s.takeRet 2 with
  | some (p, s') =>
    let r := s'.addTile c.ctx p
    ({ r.1 with rxb := { r.1.rxb with
      cands := r.1.rxb.cands.map fun d => if d = c then { c with ctx := r.2 } else d } } : State).logRetain c.ctxNo c.ctx p
  | none => (s.expireCand c).logPlace lgRetain c.ctxNo s.now (c.ctx.retTiles.length + 2 ^ 22) 0

/-- As retention of a context, or of the candidate it became, reaches a new tile, Tongs takes one from RET_TILES or stops the
retention (R241, R242). -/
def execRetentionTileAllocation (c : Nat) (s : State) : Outcome State Fault Refusal :=
  let x := s.ctx c
  let need := match s.profile x.profile, s.eq c with
    | some p, some e => x.needsTile p e.ret.length
    | _, _ => false
  if x.state ≠ .free ∧ x.retained = true ∧ need = true then
    match s.takeRet 2 with
    | some (p, s') =>
      let r := s'.addTile x p
      .next ((r.1.setCtx c r.2).logRetain c x p)
    | none => .next ((s.dropRetention c).logPlace lgRetain c s.now (x.retTiles.length + 2 ^ 22) 0)
  else match s.candNeeds c with
    | some d => .next (s.candTile d)
    | none => .next s

/-- The earliest of a list of times. -/
def earliest : List T48 → Option T48
  | [] => none
  | t :: l => match earliest l with
    | none => some t
    | some u => some (if atOrAfter u t then t else u)

/-- Retention or regeneration data reaches RET_HOLD_MS after its packet end and is released (R242, R243). -/
def execRetentionExpiry (s : State) : Outcome State Fault Refusal :=
  match earliest (s.rxb.cands.map (·.expiry) ++ s.rxb.regen.map (·.expiry)) with
  | none => .next s
  | some t =>
    let s := s.elapseTo t
    let goneC := s.rxb.cands.filter fun c => atOrAfter t c.expiry
    let goneR := s.rxb.regen.filter fun r => atOrAfter t r.expiry
    let s := goneC.foldl State.expireCand s
    let s := goneR.foldl (fun s r => s.freeRets r.tiles) s
    .next { s with rxb := { s.rxb with regen := s.rxb.regen.filter fun r => !(atOrAfter t r.expiry) } }

/-- What regeneration needs of a delivered packet: its bits, its tracking, its end; `l` are its tiles. -/
def State.regenOf (s : State) (n seq : Nat) (p : Profile) (h : Header) (l : List Nat) : Regen :=
  let x := s.ctx n
  let e := s.eq n
  let track := (e.map (·.track)).getD []
  { rec_ := seq, profile := x.profile, bgSlot := x.bgSlot, hdr := h.low + 2 ^ 32 * h.crc8, payload := x.payload
    track := (track.take (p.headerSymbols + x.paySymbols)).map fun y => (y.pos, (e.map fun e => incHz (s.eqHz e p) y.inc 1).getD 0)
    sinr := x.snr, beams := x.beams, start := x.tSync - BitVec.ofNat 48 (p.symNs p.preLen), fin := x.packetEnd
    tiles := l, expiry := x.packetEnd + BitVec.ofNat 48 (msec s.policy.retHoldMs) }

def State.addRegen (s : State) (r : Regen) : State := { s with rxb := { s.rxb with regen := s.rxb.regen ++ [r] } }

/-- Regeneration data of a delivered packet (R243). -/
def State.keepRegen (s : State) (n : Nat) (seq : Nat) : State :=
  let x := s.ctx n
  match s.profile x.profile, x.hdr with
  | some p, some h =>
    if s.sicOn then
      let tiles := ceilDiv (h.length + 8 * (p.headerSymbols + x.paySymbols) + 64) 4096
      match s.takeRets 3 tiles with
      | some (l, s') => (s'.addRegen (s'.regenOf n seq p h l)).updateCands
      | none => s.logPlace lgRetain n s.now (tiles + 2 ^ 22) 0
    else s
  | _, _ => s

/-! ### Records (R270, R271) -/

/-- A record is committed to its destination; a delivering context frees (R270). -/
def execRecordCommitted (s : State) : Outcome State Fault Refusal :=
  match s.rxb.recQ with
  | [] => .next s
  | r :: l =>
    let s := { s with rxb := { s.rxb with recQ := l } }
    let s := if r.toBacklog then s.toBacklog r else s.sendFrame 3 r.words
    .next (if r.delivers = true ∧ (s.ctx r.ctx).state = .deliver then s.freeCtx r.ctx 0 else s)

/-- 10 ms after its first record the open backlog tile is sealed (R271). -/
def execBacklogSealTimeout (s : State) : Outcome State Fault Refusal :=
  match s.openBacklog with
  | none => .next s
  | some t => .next ((s.elapseTo (t.firstAt + 10000000)).sealBacklog t)

end Sys2Proof.Machine
end

