-- ==== Sys2Proof/Machine/Ack.lean ====
section
/-! DEFINITION. Chapters 06 to 08: the header's decision, the end of decoding, and the acknowledgement that a delivered
packet asks for. -/

namespace Sys2Proof.Machine

open Host

/-! ### Acknowledgements (R202, R297-R302) -/

/-- K of R297: the PHY header of the acknowledgement. -/
def ackWord (c : AckCfg) (profile shortAddr : Nat) : Nat :=
  let low := 4 * (profile % 8) + 32 * 7 + 2 ^ 19 * (c.flags % 32) + 2 ^ 24 * (shortAddr % 256)
  low + 2 ^ 32 * headerCrc low

/-- The end E_rx of a received packet (R298). -/
def Ctx.rxEnd (x : Ctx) (p : Profile) : T48 :=
  x.tSync + BitVec.ofNat 48 (p.symNs (p.syncLen + p.headerSymbols + x.paySymbols))

/-- ACK-source TX beams that R202 admits for a context, in its order. -/
def State.ackBeams (s : State) (x : Ctx) : List Nat :=
  x.beams.flatMap fun b => (List.range 32).filter fun t =>
    decide (s.fld F.TXB_STAT_source t = 2 ∧ s.fld F.TXB_STAT_pair t = b) && s.flag F.TXB_STAT_pair_valid t

/-- ofs_q of R300 from f_meas in 0.5 Hz units. -/
def State.ackOfs (s : State) (x : Ctx) (q : Nat) : Int :=
  let rx := (maskList 4 (s.fld F.BEAM_RX_CFG_qmask (x.beams.headD 0))).headD 0
  divHalfAway (x.freq * (s.loFreq (2 * q + 1) : Int)) (s.loFreq (2 * rx))

/-- Another burst's widened air interval on the same beam meets this one (R299 cause 5). -/
def State.beamBusy (s : State) (b : Burst) : Bool :=
  s.bursts.any fun e =>
    decide (e.2.beam = b.beam) &&
      overlap (e.2.start - BitVec.ofNat 48 e.2.lead) (tAdd e.2.stop (s.loffOf e.2)) b.air b.fin

/-- Pre-compensation can be applied (R301). -/
def State.ackCompensates (s : State) (b : Burst) : Bool :=
  (s.burstQuads b).all fun q =>
    decide ((b.ofs.getD q 0).natAbs ≤ 100000) &&
      !(s.bursts.any fun e => s.drives e.2 q && overlap e.2.start e.2.stop (tAdd b.air (-5000)) (tAdd b.fin 2000))

/-- A free acknowledgement unit (R299 cause 7, R302). -/
def State.ackUnit (s : State) : Option Nat :=
  match s.tx.ackTc with
  | none => none
  | some (m, first, n) => ((List.range n).map (first + ·)).find? fun u => s.holds m resTc u && !s.armed u

/-- The mode in force at a time, as the pending change leaves it (R37). -/
def State.modeAt (s : State) (t : T48) : Nat :=
  match s.mode.pend with
  | some m => if atOrAfter t m.at_ then m.target else s.modeNo
  | none => s.modeNo

/-- The acknowledgement of a packet on a beam. -/
def State.ackBurst (s : State) (n : Nat) (x : Ctx) (p : Profile) (c : AckCfg) (beam : Nat) : Burst :=
  let a := x.rxEnd p + BitVec.ofNat 48 (usec c.delay)
  let b : Burst :=
    { beam := beam, ack := true, air := a, lead := 5000, ctx := n, profile := x.profile
      n := ackWord c x.profile (match x.hdr with
        | some h => h.shortAddr
        | none => 0)
      fin := a + BitVec.ofNat 48 (p.symNs (c.preLen + p.syncLen + p.headerSymbols))
      ofs := (List.range 4).map (s.ackOfs x) }
  { b with lead := s.leadOf b }

/-- Beam rate of a TX beam in Hz (R198). -/
def State.txRate (s : State) (beam : Nat) : Nat := 245760000 / 2 ^ s.rateCode beam

/-- The first condition of R299 that fails, or the unit and the burst to schedule. Before a beam is chosen L_lead is that
of the first beam R202 admits, or 5 µs. -/
def State.ackPlan (s : State) (n : Nat) (x : Ctx) (p : Profile) (c : AckCfg) : Nat ⊕ (Nat × Burst) :=
  let cands := (s.ackBeams x).map (s.ackBurst n x p c)
  let a := x.rxEnd p + BitVec.ofNat 48 (usec c.delay)
  let lead := match cands.head? with
    | some b => b.lead
    | none => 5000
  if c.enable = false then .inl 1
  else if txMode (s.modeAt a) = false then .inl 2
  else if atOrAfter (a - BitVec.ofNat 48 lead) (tAdd s.now 500000) = false then .inl 3
  else if cands = [] then .inl 4
  else match cands.find? fun b => !s.beamBusy b with
    | none => .inl 5
    | some b =>
      if 80 * s.txRate b.beam < p.chipRate * (100 + p.rolloff) then .inl 6
      else match s.ackUnit with
        | none => .inl 7
        | some u =>
          if s.ackCompensates b then .inr (u, b)
          else if c.uncomp then .inr (u, { b with uncomp := true, ofs := [] })
          else .inl 8

/-- Schedule or drop the acknowledgement of a delivered context whose header asks for one (R299). -/
def State.acknowledge (s : State) (n : Nat) : State :=
  let x := s.ctx n
  match s.profile x.profile, x.hdr with
  | some p, some h =>
    if h.flags % 2 = 0 then s
    else match s.ackCfg x.profile with
      | none => s.ackDrop n 1
      | some c => match s.ackPlan n x p c with
        | .inl cause => s.ackDrop n cause
        | .inr (u, b) =>
          let code := match s.codeSlot x.code with
            | some k => k.code
            | none => []
          ((s.armCmd u b.compare 3 (.ack n)).setBurst u (some b)).setTxLine u
            (some { beam := b.beam, fifo := ackSamples p code c.preLen c.gain (s.rateCode b.beam) b.n })
  | _, _ => s

/-! ### Entry to DELIVER (R222, R242-R245, R270) -/

/-- A context delivers: its record formed, its retention released, a retry reported, an acknowledgement sent. -/
def State.deliver (s : State) (n : Nat) (coded : Bool) : State :=
  let x := s.report n false
  let seq := s.rxb.recSeq % 2 ^ 32
  let s := ((s.setCtx n { x with state := .deliver }).formRecord n 1 0 0 true).dropRetention n
  let s := if x.retry then
      let s := s.sicResult x true
      let s : State := { s with rxb := { s.rxb with sicSuccess := s.rxb.sicSuccess + 1 } }
      match s.cand x with
      | some c => s.endCand c
      | none => s
    else s
  let s := if coded then s.keepRegen n seq else s
  s.acknowledge n

/-! ### The header is complete (R222, R252-R254) -/

/-- Sub-cause of R253; 0 when every check passes. -/
def State.headerSub (s : State) (x : Ctx) (p : Profile) (h : Header) : Nat :=
  if h.version ≠ 0 then 1
  else if h.profile ≠ x.profile then 2
  else if h.rate = 7 ∨ slotsFor s.graph p.bgMask h.rate = [] then 3
  else if h.length ≠ 0 ∧ (selectGraph s.graph p.bgMask h.length h.rate).isNone = true then 4
  else 0

/-- A length of 0: the packet ends with its header, and a capture test with it (R225, R254). -/
def State.headerOnly (s : State) (n : Nat) (p : Profile) : State :=
  s.endCapture n p fun s =>
    let x := s.ctx n
    (s.setCtx n { x with
      packetEnd := x.tSync + BitVec.ofNat 48 (p.symNs (p.syncLen + p.headerSymbols)) }).deliver n false

/-- Payload tiles taken, retention sized (R220, R222, R241). -/
def State.startPayload (s : State) (n : Nat) (p : Profile) (slot : Nat) (f : Fit) : State :=
  let s := s.setCtx n { s.ctx n with bgSlot := slot, blocks := f.c }
  match s.takePool (ceilDiv f.e 4096) with
  | none => s.abort n cNoTiles
  | some (l, s') =>
    let x := s'.ctx n
    let pay := p.paySymbols f
    s'.setCtx n { x with
      state := .payload, payTiles := l, paySymbols := pay
      packetEnd := x.tSync + BitVec.ofNat 48 (p.symNs (p.syncLen + p.headerSymbols + pay)) }

/-- The header's decision and checks (R222, R252 to R254). -/
def State.decideHeader (s : State) (c : Nat) (p : Profile) (llr : List Int) : State :=
  let w := Machine.decideHeader llr
  let h := Header.ofWord w
  if crc8Ok w then
    let s := s.setCtx c { s.ctx c with hdr := some h, crc8 := h.crc8 }
    let sub := s.headerSub (s.ctx c) p h
    if p.maxPayload < h.length then s.abort c cLenOver
    else if sub ≠ 0 then s.abort c cHdrReject sub
    else if h.length = 0 then s.headerOnly c p
    else match selectGraph s.graph p.bgMask h.length h.rate with
      | some (slot, f) => s.startPayload c p slot f
      | none => s.abort c cHdrReject 4
  else (s.setCtx c { s.ctx c with crc8 := h.crc8 }).abort c cFalseLock

/-- The 120 coded bits of the header are in. -/
def execHeaderComplete (c : Nat) (_ _ : Computed) (s : State) : Outcome State Fault Refusal :=
  let x := s.ctx c
  match s.profile x.profile, s.eq c with
  | some p, some e =>
    if x.state = .header ∧ p.headerSymbols ≤ e.track.length then
      .next ((s.ctxTileBad c).getD (s.decideHeader c p (e.llr.take 120)))
    else .next s
  | _, _ => .next s

/-! ### Decoding ends (R222, R264) -/

/-- Every block of a context has ended. -/
def State.decoded (s : State) (x : Ctx) : Bool :=
  match s.fitOf x with
  | some (_, f, _) => decide (x.state = .decode ∧ x.block = f.c ∧ x.decAt = none)
  | none => false

def execDecodingEnd (c : Nat) (s : State) : Outcome State Fault Refusal :=
  let x := s.ctx c
  match x.hdr with
  | none => .next s
  | some h =>
    if s.decoded x then
      let y := { x with crc24 := crc24Received h.length x.hard }
      .next ((s.ctxTileBad c).getD
        (if crc24Ok h x.hard then (s.setCtx c { y with payload := bytesOfBits h.length x.hard }).deliver c true
         else (s.setCtx c y).abort c cCrcFail))
    else .next s

end Sys2Proof.Machine
end

