-- ==== Sys2Proof/Machine/Crypto.lean ====
section
/-! DEFINITION. The two standards that the checks of R108 name: SHA-256 (FIPS 180-4) and ECDSA over the curve P-256 (FIPS 186-4).
PRESUMED: the spec names them and gives no arithmetic; log entry 14. -/

namespace Sys2Proof.Machine

/-! ### SHA-256 -/

/-- The round constants. -/
def shaK : List Word :=
  [0x428a2f98, 0x71374491, 0xb5c0fbcf, 0xe9b5dba5, 0x3956c25b, 0x59f111f1, 0x923f82a4, 0xab1c5ed5, 0xd807aa98, 0x12835b01,
   0x243185be, 0x550c7dc3, 0x72be5d74, 0x80deb1fe, 0x9bdc06a7, 0xc19bf174, 0xe49b69c1, 0xefbe4786, 0x0fc19dc6, 0x240ca1cc,
   0x2de92c6f, 0x4a7484aa, 0x5cb0a9dc, 0x76f988da, 0x983e5152, 0xa831c66d, 0xb00327c8, 0xbf597fc7, 0xc6e00bf3, 0xd5a79147,
   0x06ca6351, 0x14292967, 0x27b70a85, 0x2e1b2138, 0x4d2c6dfc, 0x53380d13, 0x650a7354, 0x766a0abb, 0x81c2c92e, 0x92722c85,
   0xa2bfe8a1, 0xa81a664b, 0xc24b8b70, 0xc76c51a3, 0xd192e819, 0xd6990624, 0xf40e3585, 0x106aa070, 0x19a4c116, 0x1e376c08,
   0x2748774c, 0x34b0bcb5, 0x391c0cb3, 0x4ed8aa4a, 0x5b9cca4f, 0x682e6ff3, 0x748f82ee, 0x78a5636f, 0x84c87814, 0x8cc70208,
   0x90befffa, 0xa4506ceb, 0xbef9a3f7, 0xc67178f2]

/-- The eight working words. -/
structure Sha where
  a : Word := 0x6a09e667
  b : Word := 0xbb67ae85
  c : Word := 0x3c6ef372
  d : Word := 0xa54ff53a
  e : Word := 0x510e527f
  f : Word := 0x9b05688c
  g : Word := 0x1f83d9ab
  h : Word := 0x5be0cd19
  deriving DecidableEq, Repr

/-- One round with a constant and a word of the schedule. -/
def Sha.round (s : Sha) (k w : Word) : Sha :=
  let t1 := s.h + (s.e.rotateRight 6 ^^^ s.e.rotateRight 11 ^^^ s.e.rotateRight 25) + ((s.e &&& s.f) ^^^ (~~~s.e &&& s.g)) + k + w
  let t2 := (s.a.rotateRight 2 ^^^ s.a.rotateRight 13 ^^^ s.a.rotateRight 22) +
    ((s.a &&& s.b) ^^^ (s.a &&& s.c) ^^^ (s.b &&& s.c))
  { a := t1 + t2, b := s.a, c := s.b, d := s.c, e := s.d + t1, f := s.e, g := s.f, h := s.g }

/-- The next word of a schedule that is kept newest first. -/
def shaNext (l : List Word) : Word :=
  let x := l.getD 14 0
  let y := l.getD 1 0
  (y.rotateRight 17 ^^^ y.rotateRight 19 ^^^ (y >>> 10)) + l.getD 6 0 +
    (x.rotateRight 7 ^^^ x.rotateRight 18 ^^^ (x >>> 3)) + l.getD 15 0

/-- The 64 words of a block's schedule from its 16. -/
def shaSchedule (w : List Word) : List Word := ((List.range 48).foldl (fun l _ => shaNext l :: l) w.reverse).reverse

/-- One block of 16 words. -/
def Sha.block (s : Sha) (w : List Word) : Sha :=
  let r := (shaK.zip (shaSchedule w)).foldl (fun x kw => x.round kw.1 kw.2) s
  { a := s.a + r.a, b := s.b + r.b, c := s.c + r.c, d := s.d + r.d, e := s.e + r.e, f := s.f + r.f, g := s.g + r.g, h := s.h + r.h }

/-- A big-endian number. -/
def beNat (l : List Byte) : Nat := l.foldl (fun n b => 256 * n + b.toNat) 0

/-- The 16 big-endian words of 64 bytes. -/
def beWords (l : List Byte) : List Word := (List.range 16).map fun i => BitVec.ofNat 32 (beNat ((l.drop (4 * i)).take 4))

/-- n blocks of 64 bytes. -/
def Sha.blocks (s : Sha) (l : List Byte) : Nat → Sha
  | 0 => s
  | n + 1 => Sha.blocks (s.block (beWords l)) (l.drop 64) n

/-- The message with its padding: a one bit, zeros, and its length in bits as 64 bits. -/
def shaPad (l : List Byte) : List Byte :=
  let z := (119 - l.length % 64) % 64
  l ++ 0x80 :: List.replicate z 0 ++ (List.range 8).map fun i => BitVec.ofNat 8 (8 * l.length / 256 ^ (7 - i))

/-- SHA-256 as a number, its first byte most significant. -/
def sha256 (l : List Byte) : Nat :=
  let m := shaPad l
  let s := Sha.blocks {} m (m.length / 64)
  [s.a, s.b, s.c, s.d, s.e, s.f, s.g, s.h].foldl (fun n w => 2 ^ 32 * n + w.toNat) 0

/-! ### ECDSA over P-256 -/

def p256P : Nat := 0xffffffff00000001000000000000000000000000ffffffffffffffffffffffff
def p256N : Nat := 0xffffffff00000000ffffffffffffffffbce6faada7179e84f3b9cac2fc632551
def p256B : Nat := 0x5ac635d8aa3a93e7b3ebbd55769886bc651d06b0cc53b0f63bce3c3e27d2604b
def p256G : Nat × Nat :=
  (0x6b17d1f2e12c4247f8bce6e563a440f277037d812deb33a0f4a13945d898c296,
   0x4fe342e2fe1a7f9b8ee7eb4a7c0f9e162bce33576b315ececbb6406837bf51f5)

/-- x ^ e modulo m, for an exponent of at most 256 bits. -/
def powMod (m x e : Nat) : Nat :=
  (List.range 256).foldl (fun a i => let a := a * a % m; if e.testBit (255 - i) then a * x % m else a) (1 % m)

/-- The inverse modulo a prime. -/
def invMod (m x : Nat) : Nat := powMod m x (m - 2)

/-- The sum of two points; none is the point at infinity. -/
def ecAdd (x y : Option (Nat × Nat)) : Option (Nat × Nat) :=
  match x, y with
  | none, q => q
  | p, none => p
  | some (x1, y1), some (x2, y2) =>
    let m := p256P
    let sum (l : Nat) : Option (Nat × Nat) :=
      let x3 := (l * l + 2 * m - x1 - x2) % m
      some (x3, (l * (x1 + m - x3) + m - y1) % m)
    if x1 = x2 then
      if (y1 + y2) % m = 0 then none
      else sum ((3 * x1 * x1 + m - 3) * invMod m (2 * y1 % m) % m)
    else sum ((y2 + m - y1) * invMod m ((x2 + m - x1) % m) % m)

/-- A multiple of a point by a number of at most 256 bits. -/
def ecMul (k : Nat) (p : Nat × Nat) : Option (Nat × Nat) :=
  (List.range 256).foldl (fun a i => let a := ecAdd a a; if k.testBit (255 - i) then ecAdd a (some p) else a) none

/-- A point of the curve. -/
def onCurve (q : Nat × Nat) : Bool :=
  decide (q.1 < p256P ∧ q.2 < p256P ∧ q.2 * q.2 % p256P = (q.1 * q.1 * q.1 + (p256P - 3) * q.1 + p256B) % p256P)

/-- The signature (r, s) of a hash verifies under a public key. -/
def ecdsaOk (q : Nat × Nat) (r s hash : Nat) : Bool :=
  let n := p256N
  let w := invMod n s
  decide (1 ≤ r ∧ r < n ∧ 1 ≤ s ∧ s < n) && onCurve q &&
    match ecAdd (ecMul (hash * w % n) p256G) (ecMul (r * w % n) q) with
    | some p => decide (p.1 % n = r)
    | none => false

end Sys2Proof.Machine
end

