-- ==== Sys2Proof/Machine/Degrade.lean ====
section
/-! DEFINITION. Chapters 09 and 15: rejects, degradation and what it stops, shared by calibration and pre-distortion. -/

namespace Sys2Proof.Machine

/-! ### The sets of a path (R311-R314) -/

def State.dpdOf (s : State) (p : Nat) : DpdPath := Store.get (fun _ => {}) s.dpd.path p

def State.setDpd (s : State) (p : Nat) (x : DpdPath) : State :=
  { s with dpd := { s.dpd with path := Store.set (fun _ => {}) s.dpd.path p x } }

/-! ### Tilin's working tiles 16 to 127 (R93, R450) -/

/-- A working tile is idle. -/
def State.workFree (s : State) (t : Nat) : Bool :=
  decide (16 ≤ t ∧ t < 128 ∧ (s.tile t).uses = 0 ∧ (s.tile t).state = .open ∧
    s.owner resTile t = some ⟨0, 0, true, 15, 0⟩)

/-- The lowest run of n idle working tiles. -/
def State.workRun (s : State) (n : Nat) : Option Nat :=
  ((List.range 112).map (16 + ·)).find? fun t => (List.range n).all fun i => s.workFree (t + i)

/-- Working tiles enter a use under a sub_owner. -/
def State.takeWork (s : State) (t n sub : Nat) : State :=
  (List.range n).foldl (fun s i => (s.setOwner resTile (t + i) (some ⟨0, 0, true, sub, 0⟩)).useTile (t + i)) s

/-- Working tiles become idle. -/
def State.freeWork (s : State) (t n : Nat) : State :=
  (List.range n).foldl (fun s i => (s.releaseTile (t + i)).setOwner resTile (t + i) (some ⟨0, 0, true, 15, 0⟩)) s

/-- A target is discarded; the active set stays (R326). -/
def State.dropTarget (s : State) (p : Nat) : State :=
  let x := s.dpdOf p
  let s := match x.stage with
    | some t => s.freeWork t 1
    | none => s
  ((s.setDpd p { x with target := none, stage := none, reverting := false }).setFld F.DPD_STAT_target_valid p 0).setFld
    F.DPD_STAT_applying p 0

/-! ### Corrections (R502) -/

/-- The item belongs to the TX side. -/
def itemTx (kind : Nat) : Bool := decide (20 ≤ kind)

/-- The items of a path's side. -/
def sideItems (tx : Bool) : List Nat := if tx then (List.range 7).map (21 + ·) ++ (List.range 63).map (32 + ·) else List.range 17

def State.itemTarget (s : State) (kind unit : Nat) : Option Int := Store.get (fun _ => none) s.cal.target (itemKey kind unit)

def State.setItemTarget (s : State) (kind unit : Nat) (v : Option Int) : State :=
  { s with cal := { s.cal with target := Store.set (fun _ => none) s.cal.target (itemKey kind unit) v } }

/-! ### Rejects and degradation (R498, R499) -/

/-- Units that keep a count: path p RX, 64 + p TX, 128 + side, 136 + quadrant for its sample-clock PLL, 140 the device. -/
def unitPath (p : Nat) (tx : Bool) : Nat := p + if tx then 64 else 0
def unitSide (k : Nat) : Nat := 128 + k
def unitPll (q : Nat) : Nat := 136 + q
def unitDevice : Nat := 140

def State.rejOf (s : State) (cal unit : Nat) : Nat := Store.get (fun _ => 0) s.cal.rej (256 * cal + unit)

def State.setRej (s : State) (cal unit n : Nat) : State :=
  { s with cal := { s.cal with rej := Store.set (fun _ => 0) s.cal.rej (256 * cal + unit) n } }

/-- The counts of CAL_PATH_STAT: the largest of each side. -/
def State.rejRegs (s : State) (p : Nat) : State :=
  let top (tx : Bool) : Nat := ((List.range 13).map fun c => s.rejOf c (unitPath p tx)).foldl max 0
  (s.setFld F.CAL_PATH_STAT_rx_rej p (satN 2 (top false))).setFld F.CAL_PATH_STAT_tx_rej p (satN 2 (top true))

/-- A path side is marked. -/
def State.isMarked (s : State) (p : Nat) (tx : Bool) : Bool :=
  Store.get (fun _ => false) s.cal.marks (unitPath p tx) ||
    decide (Store.get (fun _ => []) s.cal.quadMarks (2 * quadOf p + if tx then 1 else 0) ≠ ([] : List Nat))

/-- The flag as the registers show it. -/
def State.degraded (s : State) (p : Nat) (tx : Bool) : Bool :=
  if tx then s.flag F.TX_PATH_STAT_degraded p else s.flag F.RX_PATH_STAT_degraded p

/-- A side of a path becomes degraded or is restored (R324, R326, R499, R501, R503). -/
def State.showMark (s : State) (p : Nat) (tx : Bool) (cause : Nat) : State :=
  let m := s.isMarked p tx
  if m = s.degraded p tx then s
  else
    let s := if tx then (s.setFlag F.TX_PATH_STAT_degraded p m).setFlag F.CAL_PATH_STAT_tx_degraded p m
      else State.pathsChanged s ((s.setFlag F.RX_PATH_STAT_degraded p m).setFlag F.CAL_PATH_STAT_rx_degraded p m) (quadOf p)
    let s := if m then
        let s := (sideItems tx).foldl (fun s i => s.setItemTarget i p none) s
        if tx then (s.mutePath p).dropTarget p else s
      else s
    let s := (s.serve p).post 0x0603 clsWarn
      (toWord (p + (if tx then 64 else 0) + 128 * cause + if m then 0 else 2 ^ 15))
    if m then s.raiseFault 0x0501 p else s

/-- Mark one side of a path. -/
def State.markPath (s : State) (p : Nat) (tx : Bool) (cause : Nat) : State :=
  ({ s with cal := { s.cal with marks := Store.set (fun _ => false) s.cal.marks (unitPath p tx) true } } : State).showMark
    p tx cause

/-- Mark one side of all 16 paths of a quadrant. -/
def State.markQuad (s : State) (k cal cause : Nat) : State :=
  let l := (Store.get (fun _ => []) s.cal.quadMarks k).erase cal ++ [cal]
  (pathsOfQuad (k / 2)).foldl (fun s p => s.showMark p (decide (k % 2 = 1)) cause)
    { s with cal := { s.cal with quadMarks := Store.set (fun _ => []) s.cal.quadMarks k l } }

/-- Count an event per quadrant. -/
def countAt (m : Store Nat) (k : Nat) : Store Nat := Store.set (fun _ => 0) m k (Store.get (fun _ => 0) m k + 1)

/-- A path-scoped result is rejected (R498, R499): counted and posted; the third in a row marks the side. -/
def State.rejectPath (s : State) (cal p : Nat) (tx : Bool) (cause : Nat) : State :=
  let u := unitPath p tx
  let n := s.rejOf cal u + 1
  let s := ((s.setRej cal u n).rejRegs p).setFld F.CAL_PATH_STAT_last_cause p cause
  let s := { s with cal := { s.cal with causes := countAt s.cal.causes (256 * quadOf p + cause) } }
  let s := s.post 0x0602 clsWarn
    (toWord (p + 64 * quadOf p + (if tx then 512 else 0) + 1024 * satN 2 n + 4096 * cause))
  if 3 ≤ n then s.markPath p tx cause else s

/-- A third reject of calibration 0x1 in a row (R526): the fused trim stays in use. -/
def State.untrimmed (s : State) (cause : Nat) : State :=
  if s.flag F.CLK_STAT_hosc_untrimmed then s
  else
    let s := (s.setFld F.HOSC_TRIM_code 0 (bits (RegName.resetValue .HOSC_TRIM 0) 7 0)).setFld F.HOSC_TRIM_calibrated 0 0
    (s.setFld F.CLK_STAT_hosc_untrimmed 0 1).post 0x0211 clsWarn (toWord (cause % 256))

/-- A result of a side, a synthesiser, a sample-clock PLL or the device is rejected; the sample clock serves both sides. -/
def State.rejectQuad (s : State) (cal unit : Nat) (cause : Nat) : State :=
  let n := s.rejOf cal unit + 1
  let k := unit - 128
  let q := if unit = unitDevice then 0 else if 136 ≤ unit then unit - 136 else k / 2
  let s := s.setRej cal unit n
  let s := { s with cal := { s.cal with causes := countAt s.cal.causes (256 * q + cause) } }
  let s := s.post 0x0602 clsWarn
    (toWord (64 * q + 256 + (if unit < 136 ∧ k % 2 = 1 then 512 else 0) + 1024 * satN 2 n + 4096 * cause))
  if n < 3 then s
  else if unit = unitDevice then s.untrimmed cause
  else if unit < 136 then s.markQuad k cal cause
  else (s.markQuad (2 * q) cal cause).markQuad (2 * q + 1) cal cause

/-- An accepted result clears its count (R498). -/
def State.acceptUnit (s : State) (cal unit : Nat) : State :=
  let s := s.setRej cal unit 0
  let q := if unit < 64 then unit / 16 else if unit < 128 then (unit - 64) / 16 else if unit < 136 then (unit - 128) / 2
    else if unit < 140 then unit - 136 else 0
  let s := { s with cal := { s.cal with accepts := countAt s.cal.accepts q } }
  if unit < 128 then s.rejRegs (unit % 64) else s

end Sys2Proof.Machine
end

