-- ==== Sys2Proof/Machine/RxCmds.lean ====
section
/-! DEFINITION. Chapters 06, 07 and 20: the commands of group 0x04. -/

namespace Sys2Proof.Machine

open Host

/-! ### Profiles and codes (R207-R211, R214, R258) -/

def State.setProfile (s : State) (n : Nat) (p : Profile) : State :=
  { s with rxb := { s.rxb with profiles := Store.set (fun _ => none) s.rxb.profiles n (some p) } }

/-- Every code slot bound to a profile becomes EMPTY (R208). -/
def State.unbind (s : State) (n : Nat) : State :=
  (List.range 16).foldl (fun s c => match s.codeSlot c with
    | some k =>
      if k.profile = n then { s with rxb := { s.rxb with codes := Store.set (fun _ => none) s.rxb.codes c none } } else s
    | none => s) s

/-- A context outside FREE or a retained candidate has a profile. -/
def State.profileUsed (s : State) (n : Nat) : Bool :=
  (s.openCtxs.any fun c => decide (c.2.profile = n)) || s.rxb.cands.any fun c => decide (c.ctx.profile = n)

def specProfileLoad : CmdSpec := { opcode := 0x0401, minLen := 2, maxLen := 2, masks := [7, mRegion] }

def svcProfileLoad (q : Req) (s : State) : State × Rsp :=
  let n := bits (q.arg 1) 2 0
  s.check [regionBad q 2 1, s.regionHeld q 2]
    (s.withInput q 2 1 fun s =>
      let head := s.tileWords (regionFirst q 2) 8
      let l := s.tileWords (regionFirst q 2) (8 + codeWords (bits (head.getD 0 0) 27 24))
      let p := Profile.ofWords l
      s.check [(!(profileReservedOk head && p.valid), rspErr stBadArg),
               (s.rxb.profMask.testBit n || s.profileUsed n, rspErr stBusy)]
        (((s.setProfile n p).unbind n).searchRegs, rspOk [toWord (p.tMax s.graph)]))

def execProfileLoad (q : Req) (s : State) : Outcome State Fault Refusal :=
  .next (serve specProfileLoad q (svcProfileLoad q) s)

def specCodeLoad : CmdSpec := { opcode := 0x0402, minLen := 2, maxLen := 2, masks := [0x7F, mRegion] }

def svcCodeLoad (q : Req) (s : State) : State × Rsp :=
  let slot := bits (q.arg 1) 3 0
  let pn := bits (q.arg 1) 6 4
  s.check [regionBad q 2 1, s.regionHeld q 2, ((s.profile pn).isNone, rspErr stBadArg),
           (s.rxb.codeMask.testBit slot, rspErr stBusy)]
    (s.withInput q 2 1 fun s =>
      let lg := match s.profile pn with
        | some p => p.sfLog2
        | none => 0
      let k : CodeSlot := { profile := pn, code := s.tileWords (regionFirst q 2) (codeWords lg) }
      (({ s with rxb := { s.rxb with codes := Store.set (fun _ => none) s.rxb.codes slot (some k) } } : State).searchRegs,
        rspOk))

def execCodeLoad (q : Req) (s : State) : Outcome State Fault Refusal :=
  .next (serve specCodeLoad q (svcCodeLoad q) s)

/-- The masks enable only loaded profiles with a loaded graph, and bound slots of enabled profiles (R211, R258). -/
def State.masksReady (s : State) (profiles codes : Nat) : Bool :=
  ((maskList 8 profiles).all fun n => match s.profile n with
    | some p => (maskList 4 p.bgMask).any fun g => (s.graph g).isSome
    | none => false) &&
  (maskList 16 codes).all fun c => match s.codeSlot c with
    | some k => profiles.testBit k.profile
    | none => false

/-- A PROFILE_ENABLE waits for its compare time. -/
def State.profilePending (s : State) : Bool :=
  (List.range 16).any fun u => match s.actOf u with
    | some (.profile _ _ _) => true
    | _ => false

def specProfileEnable : CmdSpec :=
  { opcode := 0x0403, minLen := 4, maxLen := 4, masks := 0xFFFF00FF :: mSched }

def svcProfileEnable (q : Req) (s : State) : State × Rsp :=
  let profiles := bits (q.arg 1) 7 0
  let codes := bits (q.arg 1) 31 16
  let d := schedOf q 2
  s.check [s.schedHeld q d, State.schedNow d false, (!s.masksReady profiles codes, rspErr stNotReady),
           s.schedLate d 200000, (s.profilePending, rspErr stBusy), s.schedBusy d]
    (s.armCmd d.unit d.t 0xC (.profile profiles codes q.cmd), rspAccepted)

def execProfileEnable (q : Req) (s : State) : Outcome State Fault Refusal :=
  .next (serve specProfileEnable q (svcProfileEnable q) s)

/-- The masks change at T (R211, R248). -/
def State.profileAt (s : State) (t : T48) (profiles codes : Nat) (cmd : Cmd) : State :=
  let s := ({ s with rxb := { s.rxb with profMask := profiles, codeMask := codes } } : State).searchRegs
  s.postAt t 0x0403 clsDone (toWord (256 * profiles + 65536 * codes)) (some cmd)

def specDetThrSet : CmdSpec := { opcode := 0x0404, minLen := 1, maxLen := 1, masks := [0x00FFFFFF] }

def State.setThr (s : State) (c v : Nat) : State :=
  { s with rxb := { s.rxb with thr := Store.set (fun _ => 28) s.rxb.thr c v } }

def svcDetThrSet (q : Req) (s : State) : State × Rsp :=
  let v := bits (q.arg 1) 23 16
  s.check [(decide (v < 4 ∨ 160 < v), rspErr stBadArg)]
    ((maskList 16 (bits (q.arg 1) 15 0)).foldl (fun s c => s.setThr c v) s, rspOk)

def execDetThrSet (q : Req) (s : State) : Outcome State Fault Refusal := .next (serve specDetThrSet q (svcDetThrSet q) s)

/-! ### The placement policy and its log (R233-R235) -/

def specTongsPolicySet : CmdSpec :=
  { opcode := 0x0405, minLen := 5, maxLen := 5, masks := [0x1FFF0007, 0x73FF71FF, 0x00FF7F7F, 0x003FFFFF, 0x7F7F3FFF] }

/-- A policy with the parameters a request marks present replaced. -/
def Policy.merge (p : Policy) (q : Req) : Policy :=
  let on (i : Nat) := bitAt (q.arg 1) (16 + i)
  let pick (i : Nat) (new old : Nat) : Nat := if on i then new else old
  { ctxMax := pick 0 (bits (q.arg 2) 8 0) p.ctxMax
    combineMax := pick 1 (bits (q.arg 2) 14 12) p.combineMax
    combineDb := pick 2 (bits (q.arg 3) 6 0) p.combineDb
    captureDb := pick 3 (bits (q.arg 3) 14 8) p.captureDb
    sidelobeDb := pick 4 (bits (q.arg 3) 23 16) p.sidelobeDb
    evictMargin := pick 5 (bits (q.arg 2) 23 16) p.evictMargin
    sicEn := if on 6 then bitAt (q.arg 2) 24 else p.sicEn
    retTiles := pick 7 (bits (q.arg 4) 21 0) p.retTiles
    retHoldMs := pick 8 (bits (q.arg 5) 13 0) p.retHoldMs
    sicRetryMax := pick 9 (bits (q.arg 2) 30 28) p.sicRetryMax
    sicFree := pick 10 (bits (q.arg 5) 22 16) p.sicFree
    dpdMin := pick 11 (bits (q.arg 5) 30 24) p.dpdMin
    recFalse := if on 12 then bitAt (q.arg 2) 25 else p.recFalse }

/-- Every parameter lies in its range (R233). -/
def Policy.valid (p : Policy) : Bool :=
  decide (1 ≤ p.ctxMax ∧ p.ctxMax ≤ 256 ∧ 1 ≤ p.combineMax ∧ p.combineMax ≤ 4 ∧ p.combineDb ≤ 80 ∧ p.captureDb ≤ 80 ∧
    p.sidelobeDb ≤ 160 ∧ p.evictMargin ≤ 255 ∧ p.retTiles ≤ 2097152 ∧ 100 ≤ p.retHoldMs ∧ p.retHoldMs ≤ 10000 ∧
    p.sicRetryMax ≤ 4 ∧ p.sicFree ≤ 64 ∧ p.dpdMin ≤ 64)

def svcTongsPolicySet (q : Req) (s : State) : State × Rsp :=
  let m := bits (q.arg 1) 2 0
  let p := (s.policyOf m).merge q
  s.check [(!policyModes.contains m, rspErr stBadArg), (decide (m = mReach) && bitAt (q.arg 1) 22, rspErr stBadArg),
           (!p.valid, rspErr stBadArg),
           (bitAt (q.arg 1) 23 && decide (p.retTiles ≠ 0 ∧ (s.panFitted = false ∨
              s.fld F.MEM_PAN_USABLE_tiles < s.blTiles + p.retTiles)), rspErr stNoMem)]
    (let s := s.setPolicy m p
     (if s.modeNo = m then (s.logPlace lgPolicy 255 s.now m 0).updateLimit false else s, rspOk))

def execTongsPolicySet (q : Req) (s : State) : Outcome State Fault Refusal :=
  .next (serve specTongsPolicySet q (svcTongsPolicySet q) s)

def specTongsPolicyGet : CmdSpec := { opcode := 0x0406, minLen := 1, maxLen := 1, masks := [7] }

/-- A policy in the layout of TONGS_POLICY_SET. -/
def Policy.words (p : Policy) : List Word :=
  let b (c : Bool) (k : Nat) : Nat := if c then 2 ^ k else 0
  [toWord (p.ctxMax + 2 ^ 12 * p.combineMax + 2 ^ 16 * p.evictMargin + b p.sicEn 24 + b p.recFalse 25 +
     2 ^ 28 * p.sicRetryMax),
   toWord (p.combineDb + 2 ^ 8 * p.captureDb + 2 ^ 16 * p.sidelobeDb), toWord p.retTiles,
   toWord (p.retHoldMs + 2 ^ 16 * p.sicFree + 2 ^ 24 * p.dpdMin)]

def svcTongsPolicyGet (q : Req) (s : State) : State × Rsp :=
  let m := bits (q.arg 1) 2 0
  s.check [(!policyModes.contains m, rspErr stBadArg)] (s, rspOk (s.policyOf m).words)

def execTongsPolicyGet (q : Req) (s : State) : Outcome State Fault Refusal :=
  .next (serve specTongsPolicyGet q (svcTongsPolicyGet q) s)

def specPlaceLogSet : CmdSpec := { opcode := 0x0407, minLen := 1, maxLen := 1, masks := [mRegion] }

def State.setLog (s : State) (l : Option PlaceLog) : State := { s with rxb := { s.rxb with log := l } }

def svcPlaceLogSet (q : Req) (s : State) : State × Rsp :=
  let n := regionCount q 1
  if n = 0 then (s.setLog none, rspOk)
  else s.check [(decide (64 < n), rspErr stBadArg), regionBad q 1 1, s.regionHeld q 1]
    (s.setLog (some { tile := regionFirst q 1, count := n }), rspOk)

def execPlaceLogSet (q : Req) (s : State) : Outcome State Fault Refusal :=
  .next (serve specPlaceLogSet q (svcPlaceLogSet q) s)

/-! ### Contexts (R235, R617) -/

def specCtxRead : CmdSpec := { opcode := 0x0408, minLen := 1, maxLen := 1, masks := [0xFF] }

def svcCtxRead (q : Req) (s : State) : State × Rsp :=
  let x := s.report (bits (q.arg 1) 7 0) false
  let b (c : Bool) (k : Nat) : Nat := if c then 2 ^ k else 0
  let lar := if x.state = .free then 0 else x.tiles.length
  (s, rspOk
    [toWord (x.state.code + b x.retry 3 + 16 * x.skillet + 2 ^ 8 * x.code + 2 ^ 12 * x.profile + b x.retained 15),
     toWord ((x.beams.zipIdx.foldl (fun n p => n + p.1 * 2 ^ (6 * p.2)) 0) + 2 ^ 24 * (x.beams.length - 1)),
     BitVec.ofInt 32 x.freq, pack16 (if x.measured then unsN 16 x.snr else 0) (unsN 16 x.detSnr), if x.synced then toWord x.tSync.toNat else 0,
     toWord x.det.toNat, toWord (lar % 256 + 256 * x.retTiles.length)])

def execCtxRead (q : Req) (s : State) : Outcome State Fault Refusal := .next (serve specCtxRead q (svcCtxRead q) s)

def specCtxSummary : CmdSpec := { opcode := 0x0409 }

/-- Contexts in a state. -/
def State.ctxIn (s : State) (c : CState) : Nat :=
  if c = .free then 256 - s.openCtxs.length else (s.openCtxs.filter fun x => decide (x.2.state = c)).length

def svcCtxSummary (_ : Req) (s : State) : State × Rsp :=
  let k (c : Nat) := satN 16 (Store.get (fun _ => 0) s.rxb.aborts c)
  (s, rspOk ([pack16 (s.ctxIn .free) (s.ctxIn .acquire), pack16 (s.ctxIn .sync) (s.ctxIn .header),
      pack16 (s.ctxIn .payload) (s.ctxIn .decode), pack16 (s.ctxIn .deliver) s.cLimit] ++
    ((List.range 6).map fun i => pack16 (k (2 * i + 1)) (k (2 * i + 2))) ++
    [toWord (satN 32 s.rxb.recLost), pack16 (satN 16 s.rxb.sicRetries) (satN 16 s.rxb.sicSuccess)]))

def execCtxSummary (q : Req) (s : State) : Outcome State Fault Refusal :=
  .next (serve specCtxSummary q (svcCtxSummary q) s)

/-! ### Base graphs and the decoder (R257, R265) -/

def specBgLoad : CmdSpec := { opcode := 0x040A, minLen := 2, maxLen := 2, masks := [3, mRegion] }

/-- A context outside FREE or a retained candidate whose payload runs on a slot. -/
def State.slotUsed (s : State) (n : Nat) : Bool :=
  (s.openCtxs.any fun c => decide (0 < c.2.paySymbols ∧ c.2.bgSlot = n)) ||
    s.rxb.cands.any fun c => decide (0 < c.ctx.paySymbols ∧ c.ctx.bgSlot = n)

/-- An enabled profile names a slot. -/
def State.slotNamed (s : State) (n : Nat) : Bool :=
  (maskList 8 s.rxb.profMask).any fun i => match s.profile i with
    | some p => p.bgMask.testBit n
    | none => false

def svcBgLoad (q : Req) (s : State) : State × Rsp :=
  let n := bits (q.arg 1) 1 0
  s.check [regionBad q 2 1, s.regionHeld q 2]
    (s.withInput q 2 1 fun s =>
      let l := s.tileWords (regionFirst q 2) 1024
      s.check [(!bgValid l, rspErr stBadArg), (s.slotNamed n || s.slotUsed n, rspErr stBusy)]
        ({ s with rxb := { s.rxb with bg := Store.set (fun _ => none) s.rxb.bg n (some (BaseGraph.ofWords l)) } }, rspOk))

def execBgLoad (q : Req) (s : State) : Outcome State Fault Refusal := .next (serve specBgLoad q (svcBgLoad q) s)

def specDecCfgSet : CmdSpec := { opcode := 0x040B, minLen := 1, maxLen := 1, masks := [0x1F3F] }

def svcDecCfgSet (q : Req) (s : State) : State × Rsp :=
  let n := bits (q.arg 1) 5 0
  let a := bits (q.arg 1) 12 8
  s.check [(decide (n < 1 ∨ 50 < n ∨ a < 8 ∨ 16 < a), rspErr stBadArg)]
    ({ s with rxb := { s.rxb with maxIter := n, alpha := a } }, rspOk)

def execDecCfgSet (q : Req) (s : State) : Outcome State Fault Refusal := .next (serve specDecCfgSet q (svcDecCfgSet q) s)

/-! ### The backlog (R274, R275) -/

/-- Records the backlog holds, oldest tile first. -/
def State.blRecords (s : State) : List (Nat × List Word) := s.rxb.backlog.flatMap (·.recs)

def specBacklogCfgSet : CmdSpec := { opcode := 0x040C, minLen := 1, maxLen := 1, masks := [0x013FFFFF] }

def svcBacklogCfgSet (q : Req) (s : State) : State × Rsp :=
  let n := bits (q.arg 1) 21 0
  s.check [(decide (n ≠ 0) && !s.panFitted || decide (s.fld F.MEM_PAN_USABLE_tiles < n + s.maxRet), rspErr stNoMem),
           (decide (n ≠ s.blTiles ∧ s.blRecords ≠ []), rspErr stBusy)]
    (let s := { s with rxb := { s.rxb with blNewest := bitAt (q.arg 1) 24 } }
     ({ s with mem := { s.mem with blTiles := n } }, rspOk))

def execBacklogCfgSet (q : Req) (s : State) : Outcome State Fault Refusal :=
  .next (serve specBacklogCfgSet q (svcBacklogCfgSet q) s)

def specBacklogStat : CmdSpec := { opcode := 0x040D }

/-- The oldest rec_seq held; with no record held the spec states none (log entry 3). -/
def svcBacklogStat (_ : Req) (s : State) : State × Rsp :=
  let f := s.takeFree
  let r := match s.blRecords.head? with
    | some r => (toWord r.1, s)
    | none => f
  (r.2, rspOk [toWord (s.blTiles + if s.rxb.blNewest then 2 ^ 24 else 0),
    toWord ((s.rxb.backlog.filter (·.isSealed)).length + if s.openBacklog.isSome then 2 ^ 24 else 0),
    toWord s.blRecords.length, r.1, toWord (satN 32 s.rxb.blOver), toWord (satN 32 s.rxb.blDropped),
    toWord (satN 32 s.rxb.blLost)])

def execBacklogStat (q : Req) (s : State) : Outcome State Fault Refusal :=
  .next (serve specBacklogStat q (svcBacklogStat q) s)

end Sys2Proof.Machine
end

