-- ==== Sys2Proof/Machine/Lanes.lean ====
section
/-! DEFINITION. Chapter 11: 66-bit blocks on the transmit lanes: scrambling, BIP-8, alignment markers, rows over the bond
(R361, R362, R364, R365, R368, R395). -/

namespace Sys2Proof.Machine

/-! ### The scrambler (R362): x^58 + x^39 + 1, as in IEEE 802.3 Clause 49 -/

/-- Bits through the scrambler: what is sent, and its last 58 bits, the newest in bit 0. -/
def scrambleBits : BitVec 58 → List Bool → List Bool × BitVec 58
  | s, [] => ([], s)
  | s, b :: l =>
    let o := b ^^ s.getLsbD 38 ^^ s.getLsbD 57
    let r := scrambleBits ((s <<< 1) ||| BitVec.ofNat 58 o.toNat) l
    (o :: r.1, r.2)

/-- The descrambler: the same bits received. -/
def descrambleBits : BitVec 58 → List Bool → List Bool × BitVec 58
  | s, [] => ([], s)
  | s, b :: l =>
    let r := descrambleBits ((s <<< 1) ||| BitVec.ofNat 58 b.toNat) l
    ((b ^^ s.getLsbD 38 ^^ s.getLsbD 57) :: r.1, r.2)

/-- The payload of a block through the scrambler, bit 0 first (R361). -/
def scramble (s : BitVec 58) (r : BitVec 64) : BitVec 64 × BitVec 58 :=
  let o := scrambleBits s ((List.range 64).map fun i => r.getLsbD i)
  (BitVec.ofNat 64 (ofBits o.1), o.2)

/-! ### Blocks -/

/-- The payload of a control block from its bytes, byte 0 first. -/
def rowOf (l : List Nat) : BitVec 64 := BitVec.ofNat 64 (l.zipIdx.foldl (fun n p => n + (p.1 % 256) * 2 ^ (8 * p.2)) 0)

/-- Byte i of a row. -/
def rowByte (r : BitVec 64) (i : Nat) : Nat := r.toNat / 2 ^ (8 * i) % 256

/-- The XOR of a payload's bytes: bit i over the payload bits j ≡ i mod 8 (R368). -/
def bipOf (r : BitVec 64) : Byte := (List.range 8).foldl (fun b i => b ^^^ BitVec.ofNat 8 (rowByte r i)) 0

/-- A block goes out on a lane: its header as it is, its payload scrambled. -/
def LaneTx.send (x : LaneTx) (control : Bool) (r : BitVec 64) : LaneTx :=
  let o := scramble x.scr r
  { scr := o.2, bip := x.bip ^^^ bipOf o.1, sent := x.sent ++ [(control, o.1)] }

/-- An alignment marker goes out on lane n: inserted after the scrambler, which does not advance (R362, R368). -/
def LaneTx.sendAm (x : LaneTx) (n bondSeq : Nat) : LaneTx :=
  let b := x.bip.toNat
  { x with bip := 0, sent := x.sent ++ [(true, rowOf [0xB4, n, 255 - n, bondSeq, b, 255 - b])] }

/-- FILLER (R364). -/
def filler : BitVec 64 := rowOf [0x1E]

/-- Every enabled lane sends. -/
def State.onLanes (s : State) (f : Nat → LaneTx → LaneTx) : State :=
  { s with link := { s.link with
      lanes := (maskList 8 (s.fld F.LNK_CFG_lane_en)).foldl
        (fun m n => Store.set (fun _ => {}) m n (f n (Store.get (fun _ => {}) m n))) s.link.lanes } }

/-- A whole row is sent: on the bond, other enabled lanes carrying FILLER; before there is a bond, on every enabled lane (R365,
R376). -/
def State.sendRow (s : State) (r : BitVec 64) : State :=
  let bond := s.fld F.LNK_STAT_tx_bond
  ({ s with link := { s.link with rows := s.link.rows ++ [r] } } : State).onLanes fun n x =>
    x.send true (if bond = 0 ∨ bond.testBit n then r else filler)

/-- An AM row (R365, R368). -/
def State.sendAms (s : State) : State := s.onLanes fun n x => x.sendAm n s.link.bondSeq

/-- Blocks in rows over the bond, from its lowest lane upwards, slots after the last carrying FILLER (R365, R395). -/
def State.sendBlocks (s : State) (l : List (Bool × BitVec 64)) : State :=
  let bond := maskList 8 (s.fld F.LNK_STAT_tx_bond)
  let rows := ceilDiv l.length bond.length
  s.onLanes fun n x =>
    (List.range rows).foldl (fun x i =>
      let b := match bond.findIdx? (· = n) with
        | some j => l.getD (i * bond.length + j) (true, filler)
        | none => (true, filler)
      x.send b.1 b.2) x

/-- The blocks of a frame up to its END: START, then its bytes eight to a data block (R395). -/
def frameBlocks (l : List Byte) : List (Bool × BitVec 64) :=
  (true, rowOf [0x78]) :: (List.range (ceilDiv l.length 8)).map fun i =>
    (false, rowOf (((l.drop (8 * i)).take 8).map BitVec.toNat))

/-- The rows of earlier commands are forgotten. -/
def State.freshRows (s : State) : State :=
  { s with link := { s.link with
      rows := [], lanes := Store.mapVals (fun _ => {}) (fun _ x => { x with sent := [] }) s.link.lanes } }

end Sys2Proof.Machine
end

