-- ==== Sys2Proof/Machine/Framing.lean ====
section
/-! DEFINITION. Chapter 12: frames and blocks as pure functions, the degrade ladders, the framer, credit, LINK bursts,
backlog draining, and their commands. -/

namespace Sys2Proof.Machine

open Host

/-! ### Frames (R395-R397) -/

/-- Frame length in 8-byte units: header 16, payload, CRC 4, padded (R396, R397). -/
def Frame.len8 (f : Frame) : Nat := (f.payload.length + 27) / 8

/-- Zero bytes between payload and CRC. -/
def Frame.pad (f : Frame) : Nat := 8 * f.len8 - 20 - f.payload.length

/-- The header words of a frame sent at a time (R396). -/
def Frame.header (f : Frame) (now : Word) : List Word :=
  let b (c : Bool) (k : Nat) : Nat := if c then 2 ^ k else 0
  [toWord (f.typ + 2 ^ 8 * f.stream + b f.first 16 + b f.gap 18 + 2 ^ 24 * f.mCode + b f.prune 28),
   toWord (f.seq % 65536 + 2 ^ 16 * f.len8 + 2 ^ 27 * f.pad), f.at_.getD now,
   toWord (f.blocks + 2 ^ 16 * f.step)]

/-- The bytes of a frame (R396, R397). -/
def Frame.wire (f : Frame) (now : Word) : List Byte :=
  let body := (f.header now).flatMap wordBytes ++ f.payload ++ List.replicate f.pad 0
  body ++ wordBytes (toWord (crc32 body))

/-! ### Block floating point (R405-R409) -/

/-- q of a component at exponent e (R406). -/
def bfpQ (x : Int) (e : Nat) : Int := divHalfAway x (2 ^ e)

/-- Every mantissa fits m bits without the most negative one. -/
def bfpFits (l : List Int) (m e : Nat) : Bool := l.all fun x => decide ((bfpQ x e).natAbs ≤ 2 ^ (m - 1) - 1)

/-- The exponent of a block (R406). -/
def bfpExp (l : List Int) (m : Nat) : Nat := ((List.range 16).find? (bfpFits l m)).getD 15

/-- A reconstructed component (R407). -/
def bfpDecode (q : Int) (e : Nat) : Int := clampI (-32767) 32767 (q * 2 ^ e)

/-- Components of a block, I and Q alternating. -/
def iqComps (b : IqBlock) : List Int := b.samples.flatMap fun p => [p.1, p.2]

/-- The n bytes of a number, least significant first. -/
def bytesOf (n v : Nat) : List Byte := (List.range n).map fun i => BitVec.ofNat 8 (v / 2 ^ (8 * i))

/-- A block goes out as one byte under pruning (R408). -/
def iqPruned (b : IqBlock) (pruneLog2 : Nat) : Bool :=
  decide (b.mask = 0) && (iqComps b).all fun x => decide (x.natAbs < 2 ^ pruneLog2)

/-- A block encoded with m-bit mantissas; `prune`: prune_log2 while pruning is active (R405, R406, R408). -/
def iqEncode (b : IqBlock) (m : Nat) (prune : Option Nat) : List Byte :=
  if (match prune with
    | some k => iqPruned b k
    | none => false) then [0]
  else
    let e := bfpExp (iqComps b) m
    let flagged := decide (b.mask ≠ 0)
    let head := BitVec.ofNat 8 (128 + (if flagged then 64 else 0) + e)
    let packed := (iqComps b).zipIdx.foldl (fun n p => n + unsN m (bfpQ p.1 e) * 2 ^ (m * p.2)) 0
    head :: (if flagged then bytesOf 2 b.mask ++ bytesOf 1 b.flags else []) ++ bytesOf (4 * m) packed

/-- Component k of packed m-bit mantissas. -/
def bfpMantissa (m : Nat) (l : List Byte) (k : Nat) : Int :=
  sgnN m ((l.foldr (fun b n => b.toNat + 256 * n) 0) / 2 ^ (m * k))

/-- The samples of n received blocks of m-bit mantissas; none when the bytes are no such blocks or one is flagged (R405, R407,
R409). -/
def iqDecode (m : Nat) : Nat → List Byte → Option (List Iq)
  | 0, l => if l = [] then some [] else none
  | _ + 1, [] => none
  | n + 1, b :: l =>
    let h := b.toNat
    if h = 0 then (iqDecode m n l).map (List.replicate 16 (0, 0) ++ ·)
    else if h / 16 = 8 ∧ 4 * m ≤ l.length then
      let at_ (k : Nat) := bfpDecode (bfpMantissa m (l.take (4 * m)) k) (h % 16)
      (iqDecode m n (l.drop (4 * m))).map (((List.range 16).map fun k => (at_ (2 * k), at_ (2 * k + 1))) ++ ·)
    else none

/-! ### Ladders (R410-R415) -/

/-- One step of a ladder (R412). -/
structure Step where
  m : Nat
  prune : Bool
  count : Nat
  iq : Bool := true
  deriving DecidableEq, Repr

/-- The ladder of n streams (R412). -/
def ladder (m0 mMin n : Nat) : List Step :=
  let ms := [16, 12, 11, 10, 9, 8, 7, 6].filter fun m => decide (m < m0 ∧ mMin ≤ m)
  [⟨m0, false, n, true⟩] ++ (ms.map fun m => ⟨m, false, n, true⟩) ++ [⟨mMin, true, n, true⟩] ++
    ((List.range 7).map fun j => ⟨mMin, true, ceilDiv (n * (7 - j)) 8, true⟩) ++ [⟨mMin, true, 0, false⟩]

/-- m as m_code (R396). -/
def mCode (m : Nat) : Nat := if m = 16 then 15 else m

/-- An m from its code; none for a code R422 does not allow. -/
def mOfCode (c : Nat) : Option Nat := if c = 15 then some 16 else if 6 ≤ c ∧ c ≤ 12 then some c else none

/-- m0, m_min and prune_log2 of a mode (R422). -/
def contentDefault (mode : Nat) : Nat × Nat × Nat := (if mode = mMirror then 16 else 12, 8, 6)

def State.content (s : State) (mode : Nat) : Nat × Nat × Nat := Store.get contentDefault s.link.content mode

/-- The configured IQ streams of the mode in force, ascending, with their quadrant (R33, R399). -/
def State.iqStreams (s : State) : List (Nat × Nat) :=
  if s.modeNo = mRelay then
    s.enabledBeams.map fun b => (0x10 + b, (maskList 4 (s.fld F.BEAM_RX_CFG_qmask b)).headD 0)
  else if s.modeNo = mMirror then (maskList 64 s.mode.paths).map fun p => (0x80 + p, quadOf p)
  else []

/-- The ladder of the mode in force. -/
def State.steps (s : State) : List Step :=
  if s.modeNo = mRelay ∨ s.modeNo = mMirror then
    let (m0, mMin, _) := s.content s.modeNo
    ladder m0 mMin s.iqStreams.length
  else [⟨16, false, 0, true⟩]

/-- k of R410 for mantissas of m bits at a rate. -/
def framesK (m : Nat) (r : Rate) : Nat :=
  min (9196 / (4 + 4 * m)) (max 1 (presetKsps r.preset * 2 ^ 31 / (160 * r.step)))

/-- L of R411. -/
def frameL (m k : Nat) : Nat := 8 * ceilDiv (20 + k * (1 + 4 * m)) 8

/-- Sum of two fractions. -/
def addFrac (a b : Nat × Nat) : Nat × Nat := (a.1 * b.2 + b.1 * a.2, a.2 * b.2)

/-- R_req of a number of streams of one rate at m, as a fraction in bit/s (R411). -/
def streamReq (m n : Nat) (r : Rate) : Nat × Nat :=
  let k := framesK m r
  (n * (presetKsps r.preset * 500 * 2 ^ 31 * (frameL m k + 16)), k * r.step)

/-- R_req of a step (R411). -/
def State.required (s : State) (st : Step) : Nat × Nat :=
  let l := s.iqStreams.take st.count
  (List.range 4).foldl (fun a q =>
    addFrac a (streamReq st.m (l.filter fun x => decide (x.2 = q)).length (s.quadRate q))) (0, 1)

/-- Capacity of the transmit bond in bit/s × 16,384 (R355, R357, R411). -/
def State.capacity (s : State) : Nat :=
  popCount 8 (s.fld F.LNK_STAT_tx_bond) * (if s.flag F.LNK_STAT_rate25 then 25000000000 else 10000000000) * 16367

/-- The bins of the last n ms. -/
def State.binsOf (s : State) (n : Nat) : List (Nat × Nat × Nat) :=
  let t := s.now.toNat / 1000000
  s.link.iqBins.filter fun b => decide (b.1 ≤ t ∧ t < b.1 + n)

/-- The highest rate that the content framed in the last 100 ms would take with pruning, over a bin of 1 ms, in bit/s (R413); where
none was framed nothing was measured, and the spec gives no value (log entry 3). -/
def State.prunedPeak (s : State) : Nat :=
  match s.binsOf 100 with
  | [] => Config.prunedPeak s.free
  | l => l.foldl (fun m b => max m (1000 * b.2.2)) 0

/-- The actual IQ rate over the last 10 ms, in bit/s (R413). -/
def State.iqRate (s : State) : Nat := (s.binsOf 10).foldl (fun n b => n + 100 * b.2.1) 0

/-- A step fits (R411, R413). -/
def State.fits (s : State) (st prev : Step) : Bool :=
  if st.iq = false then true
  else if st.prune = true ∧ prev.prune = false then
    decide (100 * 16384 * s.prunedPeak ≤ 90 * s.capacity)
  else
    let r := s.required st
    decide (100 * 16384 * r.1 ≤ 98 * s.capacity * r.2)

/-- Number of the first step that fits; outside RELAY and MIRROR the only step. -/
def State.firstFit (s : State) : List Step → Step → Nat → Nat
  | [], _, n => n - 1
  | st :: l, prev, n => if s.fits st prev then n else State.firstFit s l st (n + 1)

/-- The step in force. -/
def State.stepNow (s : State) : Step := (s.steps[s.fld F.SYS_MODE_degrade_step]?).getD ⟨16, false, 0, true⟩

/-- LNK_FRM_STAT for the step in force (R423). -/
def State.stepRegs (s : State) : State :=
  let st := s.stepNow
  let on := decide (s.modeNo = mRelay ∨ s.modeNo = mMirror) && st.iq
  let s := (s.setFld F.LNK_FRM_STAT_step 0 (s.fld F.SYS_MODE_degrade_step)).setFld F.LNK_FRM_STAT_m_code 0
    (if on then mCode st.m else 0)
  (s.setFlag F.LNK_FRM_STAT_prune 0 (on && st.prune)).setFld F.LNK_FRM_STAT_carried 0 (if on then st.count else 0)

/-- Take a step; a change, or an entry to a step other than 0, posts MODE_DEGRADED (R45, R414). -/
def State.setStep (s : State) (n cause : Nat) (entry : Bool) : State :=
  let old := s.fld F.SYS_MODE_degrade_step
  let s := (s.setFld F.SYS_MODE_degrade_step 0 n).stepRegs
  if old ≠ n ∨ (entry = true ∧ n ≠ 0) then
    s.post 0x0105 clsWarn (toWord (cause + 16 * n + 2 ^ 12 * s.modeNo))
  else s

/-- An evaluation of the ladder (R413, R414); `entry`: at a mode's T (R56). -/
def State.evaluate (s : State) (entry : Bool) : State :=
  let n := if s.modeNo = mRelay ∨ s.modeNo = mMirror then s.firstFit s.steps ⟨16, false, 0, true⟩ 0 else 0
  let s := { s with free := s.free + 1, link := { s.link with dropStep := false } }
  s.setStep n 1 entry

/-- The next step, while there is one (R413, R415). -/
def State.nextStep (s : State) : State :=
  if s.fld F.SYS_MODE_degrade_step + 1 < s.steps.length then s.setStep (s.fld F.SYS_MODE_degrade_step + 1) 3 false else s

/-- Every IQ stream's next frame begins a run (R410). -/
def State.newRuns (s : State) : State := { s with link := { s.link with run := [] } }

/-- The pruning step is in force: seven steps with fewer streams and the last one follow it (R412). -/
def State.onPruneStep (s : State) : Bool := decide (s.fld F.SYS_MODE_degrade_step + 9 = s.steps.length)

/-- A window of 10 ms ends under the pruning step (R413). -/
def execDegradeMeasureWindow (_ : Computed) (s : State) : Outcome State Fault Refusal :=
  .next (if s.linkUp = true ∧ (s.modeNo = mRelay ∨ s.modeNo = mMirror) ∧ s.onPruneStep = true ∧
      98 * s.capacity < 100 * 16384 * s.iqRate then s.nextStep else s)

/-! ### IQ frames (R410, R415) -/

def isIq (stream : Nat) : Bool := decide ((0x10 ≤ stream ∧ stream < 0x50) ∨ (0x80 ≤ stream ∧ stream < 0xC0))

/-- Bytes of IQ frames that wait for the lanes. -/
def State.iqBuffered (s : State) : Nat :=
  s.link.ready.foldl (fun n e => if isIq e.1 then e.2.foldl (fun n f => n + 8 * f.len8) n else n) 0

def State.countStream (m : Store Nat) (k n : Nat) : Store Nat := Store.set (fun _ => 0) m k (satN 32 (perStream m k + n))

/-- An IQ frame that does not fit the buffer (R400, R415). -/
def State.dropIq (s : State) (stream : Nat) : State :=
  let s := { s with link := { s.link with
      gap := Store.set (fun _ => false) s.link.gap stream true
      seqTx := Store.set (fun _ => 0) s.link.seqTx stream ((perStream s.link.seqTx stream + 1) % 65536)
      drops := State.countStream s.link.drops stream 1 } }
  let s := (s.bump F.LNK_FRM_DROP_iq_frames 0).setFld F.LNK_FRM_STAT_iq_drop 0 1
  let s := s.postLimited 0x0707 0 (toWord stream) s.now
  if s.link.dropStep then s
  else ({ s with link := { s.link with dropStep := true } } : State).nextStep

/-- The IQ frame of a stream whose first sample has device time t (R396, R400, R410). -/
def State.iqFrame (s : State) (st : Step) (stream : Nat) (t : T48) (blocks : List IqBlock) : Frame :=
  { stream := stream, first := !(Store.get (fun _ => false) s.link.run stream)
    gap := Store.get (fun _ => false) s.link.gap stream, mCode := mCode st.m, prune := st.prune
    blocks := blocks.length, step := s.fld F.SYS_MODE_degrade_step, at_ := some (toWord t.toNat)
    payload := blocks.flatMap fun b => iqEncode b st.m (if st.prune then some (s.content s.modeNo).2.2 else none) }

/-- Bytes of the blocks of a stream at m_min with pruning, with the frame's own and its START and END (R411, R413). -/
def State.prunedBytes (s : State) (l : List IqBlock) : Nat :=
  let c := s.content s.modeNo
  8 * ceilDiv (20 + (l.flatMap fun b => iqEncode b c.2.1 (some c.2.2)).length) 8 + 16

/-- The framer measures a frame it has formed (R413). -/
def State.measureIq (s : State) (f : Frame) (l : List IqBlock) : State :=
  let t := s.now.toNat / 1000000
  let bits := 64 * (f.len8 + 2)
  let pruned := 8 * s.prunedBytes l
  let old := s.binsOf 100
  let bins := match old with
    | b :: r => if b.1 = t then (t, b.2.1 + bits, b.2.2 + pruned) :: r else (t, bits, pruned) :: old
    | [] => [(t, bits, pruned)]
  { s with link := { s.link with iqBins := bins } }

/-- An IQ frame goes into the buffer, or is dropped (R415). -/
def State.bufferIq (s : State) (f : Frame) : State :=
  if s.iqBuffered + 8 * f.len8 ≤ 2 ^ 20 then
    let s := s.formFrame f
    { s with link := { s.link with
        gap := Store.set (fun _ => false) s.link.gap f.stream false
        run := Store.set (fun _ => false) s.link.run f.stream true } }
  else s.dropIq f.stream

/-- A frame of n blocks of a carried stream, from its first sample at or after t, once their samples have left; n is k of
R410, or fewer where a step change closes the frame (R414). -/
def execIqFrameFormed (stream : Nat) (t : BitVec 48) (n : Nat) (s : State) : Outcome State Fault Refusal :=
  let st := s.stepNow
  match (s.iqStreams.take st.count).find? fun x => decide (x.1 = stream) with
  | none => .next s
  | some (_, q) =>
    if s.linkUp = true ∧ st.iq = true ∧ 1 ≤ n ∧ n ≤ framesK st.m (s.quadRate q) then
      let c := s.cycleOf t
      let u := s.elapseTo (s.cycleTime (c + s.blockCycles stream n))
      match u.streamBlocks stream c n with
      | some l =>
        let first := (u.timesFrom (u.streamPath stream) c 1).headD c
        let f := u.iqFrame st stream (u.cycleTime first) l
        .next ((u.measureIq f l).bufferIq f)
      | none => .next s
    else .next s

/-! ### Credit (R401, R402) -/

/-- Streams that the CZ6464 sends under credit (R399). -/
def creditedTx : List Nat := [0x00, 0x01, 0x03, 0x04, 0xC0]

/-- Streams on which it grants credit (R402). -/
def grantedRx : List Nat := 0x00 :: (List.range 32).map (0x50 + ·)

/-- LNK_CREDIT_STAT (R423). -/
def State.creditRegs (s : State) : State :=
  let none_ (k : Nat) := s.linkUp && decide (s.credit k = 0)
  ((((s.setFlag F.LNK_CREDIT_STAT_s00 0 (none_ 0)).setFlag F.LNK_CREDIT_STAT_s01 0 (none_ 1)).setFlag
    F.LNK_CREDIT_STAT_s03 0 (none_ 3)).setFlag F.LNK_CREDIT_STAT_s04 0 (none_ 4)).setFlag F.LNK_CREDIT_STAT_c0 0
    (none_ 0xC0)

/-- A frame of a stream has been received. -/
def State.received (s : State) (stream len8 : Nat) : State :=
  { s with link := { s.link with
      recvN := State.countStream s.link.recvN stream 1
      got := Store.set (fun _ => 0) s.link.got stream ((perStream s.link.got stream + len8) % 2 ^ 32) } }

/-- Frames can be received: the link is UP and no rows are being discarded (R381). -/
def State.rxOpen (s : State) : Bool := s.linkUp && !s.link.discard

/-- A received frame fails a check of R398. -/
def State.discardFrame (s : State) (check stream : Nat) : State :=
  let s := { s with link := { s.link with errs := State.countStream s.link.errs stream 1 } }
  match check with
  | 2 => (s.bump F.LNK_FRM_ERR_crc_errs 0).setFld F.LNK_FRM_STAT_crc_err 0 1
  | 3 => s.bump F.LNK_FRM_DROP_unknown 0
  | _ => (s.bump F.LNK_FRM_ERR_fmt_errs 0).setFld F.LNK_FRM_STAT_fmt_err 0 1


/-- The entries of a CREDIT frame: stream and limit. -/
def creditEntries : List Word → List (Nat × Nat)
  | a :: b :: l => (a.toNat, b.toNat) :: creditEntries l
  | _ => []

/-- A CREDIT frame's content is valid (R401). -/
def creditOk (ws : List Word) : Bool :=
  decide (2 ≤ ws.length ∧ ws.length ≤ 128 ∧ ws.length % 2 = 0) &&
    (creditEntries ws).all fun e => decide (e.1 < 256)

def execCreditFrame (ws : List Word) (s : State) : Outcome State Fault Refusal :=
  if s.rxOpen then
    if creditOk ws then
      let s := s.received 0 ((4 * ws.length + 27) / 8)
      let l := (creditEntries ws).filter fun e => creditedTx.contains e.1
      let lim := l.foldl (fun (m : Store Nat) e => Store.set (fun _ => 0) m e.1 e.2) s.link.limit
      .next ({ s with link := { s.link with limit := lim } } : State).creditRegs
    else .next (s.discardFrame 4 0)
  else .next s

/-- The CREDIT frame of a grant: what each stream has used and the space the device has free (R402); the spec states no
amount (log entry 3). -/
def State.grantCredit (s : State) : State :=
  let e : List (Nat × Nat) := grantedRx.zipIdx.map fun p => (p.1, (perStream s.link.got p.1 + Config.creditSpace (s.free + p.2)) % 2 ^ 32)
  let grant := e.foldl (fun (m : Store Nat) x => Store.set (fun _ => 0) m x.1 x.2) s.link.grant
  let s := { s with free := s.free + grantedRx.length, link := { s.link with grant := grant } }
  s.formFrame { stream := 0, typ := 2, payload := e.flatMap fun (x : Nat × Nat) => wordBytes (toWord x.1) ++ wordBytes (toWord x.2) }

def execCreditGrantTimer (s : State) : Outcome State Fault Refusal := .next (if s.linkUp then s.grantCredit else s)

def execEventFrameClose (s : State) : Outcome State Fault Refusal :=
  if s.link.evtOpen = [] then .next s else .next (s.elapseTo (s.link.evtAt + 20000)).closeEvents

/-! ### The framer (R404, R420) -/

def State.readyOf (s : State) (k : Nat) : List Frame := Store.get (fun _ => []) s.link.ready k

/-- Streams in the framer's order, IQ streams ascending (R404). -/
def framerOrder : List Nat := [2, 0, 1, 3] ++ (List.range 64).map (0x10 + ·) ++ (List.range 64).map (0x80 + ·)

/-- A frame may start: its stream has no credit to keep, or has it (R401). CREDIT frames need none. -/
def State.mayStart (s : State) (f : Frame) : Bool :=
  decide (f.typ = 2) || !creditedTx.contains f.stream || decide (f.len8 ≤ s.credit f.stream)

/-- Streams above 0x02 are held at a ladder's last step (R412). -/
def State.carries (s : State) (stream : Nat) : Bool := s.stepNow.iq || decide (stream ≤ 2)

/-- The frame of R404 among those ready: CREDIT first. -/
def State.pickReady (s : State) : Option Frame :=
  match (s.readyOf 0).find? fun f => decide (f.typ = 2) with
  | some f => some f
  | none => framerOrder.findSome? fun k => match (s.readyOf k).head? with
    | some f => if s.carries k && s.mayStart f then some f else none
    | none => none

/-- The payload of a backlog tile: its records and the ending zero word (R271, R420). -/
def BlTile.content (t : BlTile) : List Byte :=
  (t.recs.flatMap fun r => r.2.flatMap wordBytes) ++ if t.used < 4096 then wordBytes 0 else []

/-- A frame for the oldest sealed tile. -/
def BlTile.frame (t : BlTile) : Frame := { stream := 4, payload := t.content }

/-- Bits drained in the present millisecond. -/
def State.drainedBits (s : State) : Nat := if s.link.drainBin.1 = s.now.toNat / 1000000 then s.link.drainBin.2 else 0

/-- A frame of len_8 units stays within drain_pct of C over the present millisecond (R420). -/
def State.drainShare (s : State) (len8 : Nat) : Bool :=
  decide ((s.drainedBits + 64 * (len8 + 2)) * (1000 * 16384 * 100) ≤ s.fld F.LNK_BL_DRAIN_drain_pct * s.capacity)

/-- The tile to drain next: the oldest sealed one, with credit for its frame and within the share. -/
def State.drainable (s : State) : Option BlTile :=
  match s.rxb.backlog.find? (·.isSealed) with
  | some t =>
    if s.linkUp && s.carries 4 && decide (t.frame.len8 ≤ s.credit 4) && s.drainShare t.frame.len8 && !t.draining then some t else none
  | none => none

/-- A credited stream waits for credit (R402, R423). -/
def State.noteStall (s : State) : State :=
  if creditedTx.any fun k => match (s.readyOf k).head? with
      | some f => !s.mayStart f
      | none => false
  then s.setFld F.LNK_FRM_STAT_credit_stall 0 1 else s

/-- A frame starts: it takes its credit (R401, R403). -/
def State.startFrame (s : State) (f : Frame) : State :=
  let f := { f with at_ := some (f.at_.getD s.timeNs) }
  let sent := if f.typ = 2 ∨ creditedTx.contains f.stream = false then s.link.sent
    else Store.set (fun _ => 0) s.link.sent f.stream ((perStream s.link.sent f.stream + f.len8) % 2 ^ 32)
  let held := if f.stream = 3 then s.link.reserved - f.len8 else s.link.reserved
  let s := if f.stream = 0 ∧ f.typ = 1 then s.dmaIssued f.payload else s
  ((({ s with link := { s.link with sending := some f, sent := sent, reserved := held } } : State).creditRegs).freshRows).sendBlocks
    (frameBlocks (f.wire s.timeNs))

/-- A backlog tile is opened for draining (R272, R454): a tile that fails is quarantined and its records are lost. -/
def State.startDrain (s : State) (t : BlTile) : State :=
  match s.openTile (panKey t.tile) 5 false with
  | (false, s) =>
    let s := (s.setPanUse t.tile 0).releaseTile (panKey t.tile)
    { s with rxb := { s.rxb with
        backlog := s.rxb.backlog.filter fun x => decide (x ≠ t), blLost := s.rxb.blLost + t.recs.length } }
  | (true, s) =>
    let n := perStream s.link.seqTx 4
    let s := { s with rxb := { s.rxb with
        backlog := s.rxb.backlog.map fun x => if x = t then { x with draining := true } else x } }
    let s := { s with link := { s.link with
        seqTx := Store.set (fun _ => 0) s.link.seqTx 4 ((n + 1) % 65536)
        drainBin := (s.now.toNat / 1000000, s.drainedBits + 64 * (t.frame.len8 + 2)) } }
    (s.setFld F.LNK_BL_DRAIN_draining 0 1).startFrame { t.frame with seq := n % 65536 }

/-- At a frame boundary the framer starts the ready frame of highest priority (R404). -/
def execFrameStart (s : State) : Outcome State Fault Refusal :=
  if s.linkUp = true ∧ s.link.sending = none then
    let s := s.noteStall
    match s.pickReady with
    | some f =>
      let q := (s.readyOf f.stream).erase f
      .next (({ s with link := { s.link with ready := Store.set (fun _ => []) s.link.ready f.stream q } } : State).startFrame f)
    | none => match s.drainable with
      | some t => .next (s.startDrain t)
      | none => .next s
  else .next s

/-- A tile's last frame has been sent (R420). -/
def State.drained (s : State) : State :=
  match s.rxb.backlog.find? (·.draining) with
  | some t =>
    let s := (s.setPanUse t.tile 0).releaseTile (panKey t.tile)
    ({ s with rxb := { s.rxb with backlog := s.rxb.backlog.filter fun x => decide (x ≠ t) } } : State).setFld
      F.LNK_BL_DRAIN_draining 0 0
  | none => s

/-- An event frame carries EVT_RESYNC. -/
def Frame.carriesResync (f : Frame) : Bool :=
  decide (f.stream = 1) && (List.range (f.payload.length / 16)).any fun i =>
    decide (f.payload.getD (16 * i) 0 = 0x02 ∧ f.payload.getD (16 * i + 1) 0 = 0x01)

/-- The frame of an EVT_RESYNC has been sent whole: the baseband knows the oldest event it never got (R99, R100; log
entry 138). -/
def State.resynced (s : State) (f : Frame) : State :=
  if f.carriesResync then { s with sys := { s.sys with firstUnsent := none } } else s

/-- The END block of the frame in progress is sent (R420). -/
def execFrameSent (s : State) : Outcome State Fault Refusal :=
  match s.link.sending with
  | none => .next s
  | some f =>
    let s := { s with link := { s.link with sending := none, sentN := State.countStream s.link.sentN f.stream 1 } }
    let s := s.freshRows.sendBlocks [(true, rowOf [0x87])]
    .next (if f.stream = 4 then s.drained else s.resynced f)

/-! ### LINK bursts (R343, R416-R419) -/

/-- A unit named for LINK bursts that its mailbox still holds and that is not in use (R416, R418). -/
def State.linkUnit (s : State) : Option Nat :=
  match s.tx.linkTc with
  | none => none
  | some (m, first, n) => ((List.range n).map (first + ·)).find? fun u => s.holds m resTc u && !s.armed u && (s.burst u).isNone

/-- BURST_REJECT (R424). -/
def State.burstReject (s : State) (beam id st : Nat) : State :=
  s.post 0x0706 clsWarn (toWord (st + 2 ^ 8 * beam + 2 ^ 13 * id))

/-- The burst a BURST frame announces (R417). -/
def State.linkBurst (s : State) (beam : Nat) (ws : List Word) : Burst :=
  let a : T48 := BitVec.ofNat 48 ((ws.getD 0 0).toNat + 2 ^ 32 * bits (ws.getD 1 0) 15 0)
  let n := bits (ws.getD 2 0) 23 0
  let b : Burst :=
    { beam := beam, ack := false, id := bits (ws.getD 1 0) 31 24, pri := bitAt (ws.getD 1 0) 16, n := n, air := a
      fin := a + BitVec.ofNat 48 (ceilDiv (n * 1000000000) (s.txRate beam)), lead := 5000 }
  { b with lead := s.leadOf b }

/-- Bursts pending or running on a beam. -/
def State.onBeam (s : State) (beam : Nat) : List Burst := (s.bursts.filter fun x => decide (x.2.beam = beam)).map (·.2)

/-- R343: by the maxima of R332 a TX side of the burst may not be locked in time. -/
def State.lockTooLate (s : State) (b : Burst) : Bool :=
  (s.burstQuads b).any fun q =>
    let k := 2 * q + 1
    let st := s.sideState k
    let worst := if s.locked k = true then 0 else if st = sOff then usec 145
      else if st = sSleep ∧ s.wordsServe k = true then usec 20 else usec 65
    let last := tAdd b.air ((usec (s.fld F.RADIO_TIMING_late_tol q) : Int) - s.burstRf b)
    !atOrAfter last (tAdd s.now worst)

/-- Validation of R418: the status of a rejection, or the unit; a burst on a side in OFF is refused (R344). -/
def State.burstPlan (s : State) (b : Burst) : Nat ⊕ Nat :=
  if s.fld F.TXB_STAT_source b.beam ≠ 1 ∨ txMode (s.modeAt b.air) = false then .inl stMode
  else if s.tx.linkTc = none then .inl stHeld
  else match s.linkUnit with
    | none => .inl stBusy
    | some u =>
      if 4 ≤ (s.onBeam b.beam).length ∨ (s.onBeam b.beam).any (fun x => overlap x.start x.stop b.air b.fin) = true then
        .inl stBusy
      else if (s.burstQuads b).any (fun q => decide (s.sideState (2 * q + 1) = sOff)) = true then .inl stNotReady
      else if atOrAfter b.compare (tAdd s.now 500000) = false ∨ s.lockTooLate b = true then .inl stLate
      else .inr u

/-- A BURST frame's content is valid (R417). -/
def burstOk (ws : List Word) : Bool :=
  decide (ws.length = 4 ∧ bits (ws.getD 1 0) 23 17 = 0 ∧ bits (ws.getD 2 0) 31 24 = 0 ∧ ws.getD 3 0 = 0 ∧
    bits (ws.getD 2 0) 23 0 ≠ 0)

def execBurstFrame (beam : Nat) (ws : List Word) (s : State) : Outcome State Fault Refusal :=
  if s.rxOpen = true ∧ beam < 32 then
    if burstOk ws then
      let s := s.received (0x50 + beam) 5
      let b := s.linkBurst beam ws
      match s.burstPlan b with
      | .inl st => .next (s.burstReject beam b.id st)
      | .inr u => .next ((s.armCmd u b.compare 3 (.burst beam)).setBurst u (some b))
    else .next (s.discardFrame 4 (0x50 + beam))
  else .next s

/-- A sample frame of a burst (R396, R398, R409, R419): m of its m_code, whether it is the last, its blocks and their bytes;
samples beyond n_samples are discarded. -/
def execBurstSampleFrame (beam id m : Nat) (last : Bool) (f : FrameBody) (s : State) :
    Outcome State Fault Refusal :=
  if s.rxOpen = true ∧ beam < 32 then
    match s.bursts.find? fun x => decide (x.2.beam = beam ∧ x.2.ack = false ∧ x.2.id = id), iqDecode m f.blocks f.bytes with
    | some (u, b), some l =>
      let s := (s.received (0x50 + beam) ((f.bytes.length + 27) / 8)).feedLine u beam (l.take (b.n - b.got))
      .next (s.setBurst u (some { b with got := min b.n (b.got + l.length), gotLast := b.gotLast || last }))
    | _, _ => .next (s.discardFrame 4 (0x50 + beam))
  else .next s

/-! ### Received frames that fail (R398) -/

/-- Word i of a frame's bytes. -/
def frameWord (l : List Byte) (i : Nat) : Nat := ((l.drop (4 * i)).take 4).foldr (fun b n => b.toNat + 256 * n) 0

/-- The payload of a received frame (R397). -/
def framePayload (l : List Byte) : List Byte :=
  let w := frameWord l 1
  (l.drop 16).take (8 * (w / 2 ^ 16 % 2048) - 20 - w / 2 ^ 27 % 8)

/-- Its words. -/
def frameWords (l : List Byte) : List Word :=
  let p := framePayload l
  (List.range (p.length / 4)).map fun i => toWord (frameWord p i)

/-- Type and stream are valid for the receive direction, reserved fields are 0 (R396, R398, R399). -/
def frameKnown (l : List Byte) : Bool :=
  let w := frameWord l 0
  let typ := w % 256
  let stream := w / 256 % 256
  let tx := decide (0x50 ≤ stream ∧ stream < 0x70)
  (decide (typ = 1 ∧ (stream = 0 ∨ stream = 2)) || decide (typ = 1 ∨ typ = 3) && tx || decide (typ = 2 ∧ stream = 0)) &&
    decide (w / 2 ^ 19 % 32 = 0 ∧ w / 2 ^ 29 = 0 ∧ frameWord l 1 / 2 ^ 30 = 0 ∧ frameWord l 3 / 2 ^ 9 % 128 = 0)

/-- The content of a CREDIT, BURST or sample frame is valid (R398, R401, R409, R417, R419). -/
def State.frameContentOk (s : State) (l : List Byte) : Bool :=
  let w := frameWord l 0
  let stream := w / 256 % 256
  if w % 256 = 2 then creditOk (frameWords l)
  else if w % 256 = 3 then burstOk (frameWords l)
  else if 0x50 ≤ stream then
    (s.bursts.any fun x => decide (x.2.beam = stream - 0x50 ∧ x.2.ack = false ∧ x.2.id = frameWord l 3 / 2 ^ 24)) &&
      match mOfCode (w / 2 ^ 24 % 16) with
      | some m => (iqDecode m (frameWord l 3 % 512) (framePayload l)).isSome
      | none => false
  else true

/-- The first check of R398 that a received frame fails, 0 for none; `ended`: its END came where len_8 says, with no ABORT and no
other START. -/
def State.frameCheck (s : State) (ended : Bool) (l : List Byte) : Nat :=
  let n := frameWord l 1 / 2 ^ 16 % 2048
  if ended = false ∨ l.length ≠ 8 * n ∨ n < 3 ∨ 1152 < n then 1
  else if frameWord (l.drop (l.length - 4)) 0 ≠ crc32 (l.take (l.length - 4)) then 2
  else if frameKnown l = false then 3
  else if s.frameContentOk l = false then 4
  else 0

/-- A received frame is checked, and discarded and counted where it fails. -/
def execFrameDiscard (ended : Bool) (bytes : List Byte) (s : State) : Outcome State Fault Refusal :=
  let c := s.frameCheck ended bytes
  .next (if s.linkUp = true ∧ c ≠ 0 then s.discardFrame c ((bytes.getD 1 0).toNat) else s)

/-! ### Commands (R416, R422, R624) -/

def specTxbLinkTcSet : CmdSpec := { opcode := 0x0306, minLen := 1, maxLen := 1, masks := [0xFF] }

def svcTxbLinkTcSet (q : Req) (s : State) : State × Rsp :=
  let first := bits (q.arg 1) 3 0
  let n := bits (q.arg 1) 7 4
  let unheld := s.firstUnheld q.mbx resTc first n
  s.check [(decide (n < 1 ∨ 8 < n ∨ 16 < first + n), rspErr stBadArg),
           (unheld.isSome, s.rspHeld resTc (unheld.getD first)), (s.bursts.any fun x => !x.2.ack, rspErr stBusy)]
    ({ s with tx := { s.tx with linkTc := some (q.mbx, first, n) } }, rspOk)

def execTxbLinkTcSet (q : Req) (s : State) : Outcome State Fault Refusal :=
  .next (serve specTxbLinkTcSet q (svcTxbLinkTcSet q) s)

def specFrameContentSet : CmdSpec := { opcode := 0x0705, minLen := 1, maxLen := 1, masks := [0x007FFFF7] }

def svcFrameContentSet (q : Req) (s : State) : State × Rsp :=
  let w := q.arg 1
  let mode := bits w 2 0
  let pct := bits w 22 16
  match mOfCode (bits w 7 4), mOfCode (bits w 11 8) with
  | some m0, some mMin =>
    s.check [(decide (mode ≠ mRelay ∧ mode ≠ mMirror), rspErr stBadArg),
             (decide (m0 < mMin ∨ pct < 1 ∨ 100 < pct), rspErr stBadArg)]
      (let s := { s with link := { s.link with
          content := Store.set contentDefault s.link.content mode (m0, mMin, bits w 15 12) } }
       let s := s.setFld F.LNK_BL_DRAIN_drain_pct 0 pct
       (if s.modeNo = mode then s.newRuns.evaluate false else s, rspOk))
  | _, _ => (s, rspErr stBadArg)

def execFrameContentSet (q : Req) (s : State) : Outcome State Fault Refusal :=
  .next (serve specFrameContentSet q (svcFrameContentSet q) s)

def specFrameStatGet : CmdSpec := { opcode := 0x0706, minLen := 1, maxLen := 1, masks := [0xFF] }

def svcFrameStatGet (q : Req) (s : State) : State × Rsp :=
  let k := bits (q.arg 1) 7 0
  let (lim, sent) :=
    if creditedTx.contains k then (perStream s.link.limit k, perStream s.link.sent k)
    else if grantedRx.contains k then (perStream s.link.grant k, perStream s.link.got k)
    else (0, 0)
  (s, rspOk [toWord (perStream s.link.sentN k), toWord (perStream s.link.recvN k), toWord lim, toWord sent,
    pack16 (satN 16 (perStream s.link.errs k)) (satN 16 (perStream s.link.drops k))])

def execFrameStatGet (q : Req) (s : State) : Outcome State Fault Refusal :=
  .next (serve specFrameStatGet q (svcFrameStatGet q) s)

end Sys2Proof.Machine
end

