-- ==== Sys2Proof/Machine/Link.lean ====
section
/-! DEFINITION. Chapter 11: whole rows, training, the bonds, lane loss and rejoin, test loops, and their commands. -/

namespace Sys2Proof.Machine

open Host

/-! ### Rows (R363, R364, R368, R373-R375) -/

/-- CRC-8 of R251 over bytes 1 to 6 (R373). -/
def helloCrc (r : BitVec 64) : Nat := ofBits (msbFirst (crc8 (lowBits (r.toNat / 256) 48)) 8)

/-- A HELLO row with its CRC (R373). -/
def helloRow (laneEn : Nat) (rate25 seen retrain : Bool) (node seq : Nat) : BitVec 64 :=
  let b (c : Bool) (k : Nat) : Nat := if c then 2 ^ k else 0
  let r := rowOf [0x4B, 1, laneEn, b rate25 0 + b seen 1 + b retrain 2, node, node / 256, seq]
  r ||| BitVec.ofNat 64 (helloCrc r * 2 ^ 56)

/-- A HELLO row that is taken (R373). -/
def helloOk (r : BitVec 64) : Bool := decide (rowByte r 0 = 0x4B ∧ rowByte r 7 = helloCrc r)

/-- An LSTAT row (R374). -/
def lstatRow (locked rxBond seq : Nat) : BitVec 64 := rowOf [0x55, locked, 255 - locked, rxBond, 255 - rxBond, seq]

/-- A BOND row (R375). -/
def bondRow (mask seq reason : Nat) : BitVec 64 := rowOf [0x66, mask, 255 - mask, seq % 256, 255 - seq % 256, reason]

/-- An LSTAT or BOND row's complements agree. -/
def complOk (kind : Nat) (r : BitVec 64) : Bool :=
  decide (rowByte r 0 = kind ∧ rowByte r 1 + rowByte r 2 = 255 ∧ rowByte r 3 + rowByte r 4 = 255)

/-- A valid AM (R369). -/
def amOk (r : BitVec 64) : Bool := decide (rowByte r 0 = 0xB4 ∧ rowByte r 1 + rowByte r 2 = 255 ∧ rowByte r 1 < 8)

/-- A TIME_MARK row (R435). -/
def markRow (seq : Nat) : BitVec 64 :=
  rowOf [0x2D, seq, seq / 256, 255 - seq % 256, 255 - seq / 256 % 256]

/-- Every mark_ms a TIME_MARK row leaves, its departure is captured, and MARK_INFO follows (R435-R437). -/
def execTimeMarkSend (s : State) : Outcome State Fault Refusal :=
  if s.linkUp then
    let s := s.setFld F.TS_MARK_SEQ_tx_seq 0 (s.fld F.TS_MARK_SEQ_tx_seq + 1)
    let s := (s.setReg .TS_MARK_TX_NS 0 s.timeNs).setReg .TS_MARK_TX_WF 0
      (pack16 s.timeWraps (s.timeSub.toNat / 65536))
    let s := { s with time := { s.time with staleTx := false, markInfo := s.markInfo } }
    .next ((s.freshRows.sendRow (markRow (s.fld F.TS_MARK_SEQ_tx_seq))).sendFrame 2 s.time.markInfo)
  else .next s

/-! ### Lanes -/

def lDown : Nat := 0
def lDetect : Nat := 1
def lLock : Nat := 2
def lAlign : Nat := 3
def lHello : Nat := 4
def lUp : Nat := 5

def State.linkState (s : State) : Nat := s.fld F.LNK_STAT_state
def State.laneEn (s : State) : Nat := s.fld F.LNK_CFG_lane_en
def State.minLanes (s : State) : Nat := s.fld F.LNK_CFG_min_lanes + 1

/-- Enabled receive pairs that satisfy a condition. -/
def State.readyLanes (s : State) (p : Nat → Bool) : Nat := ((maskList 8 s.laneEn).filter p).length

def State.isAligned (s : State) (r : Nat) : Bool := s.link.aligned.testBit r

def maskOf (l : List Nat) : Nat := l.foldl (fun m i => m ||| 2 ^ i) 0

def State.setAligned (s : State) (r : Nat) (b : Bool) : State :=
  { s with link := { s.link with aligned := maskOf ((maskList 8 s.link.aligned).filter (· ≠ r) ++ if b then [r] else []) } }

/-- Receive pairs that hold block lock, AM lock and alignment. -/
def State.pairLocked (s : State) (r : Nat) : Bool :=
  s.laneEn.testBit r && s.flag F.LNK_LANE_STAT_block_lock r && s.flag F.LNK_LANE_STAT_am_lock r && s.isAligned r

/-- The locked mask of the own LSTAT: partner lanes (R360, R374). -/
def State.lockedMask (s : State) : Nat :=
  maskOf (((List.range 8).filter s.pairLocked).map fun r => s.fld F.LNK_LANE_STAT_src_lane r)

/-- Since when a pair has had block lock. -/
def State.setLockAt (s : State) (r : Nat) (t : Option T48) : State :=
  { s with link := { s.link with lockAt := Store.set (fun _ => none) s.link.lockAt r t } }

/-- The AM positions in a row at which a pair held no AM of its lane (R369). -/
def State.setAmBad (s : State) (r n : Nat) : State :=
  { s with link := { s.link with amBad := Store.set (fun _ => 0) s.link.amBad r n } }

/-- Control types that R363 gives. -/
def rowType (b : Nat) : Bool :=
  [0x1E, 0x2D, 0x4B, 0x55, 0x66, 0xB4, 0x78].contains b || decide (0x87 ≤ b ∧ b ≤ 0xFF)

/-- A row of a reserved control type is discarded; it counts as a header error on every pair of the bond (R363). -/
def State.badRow (s : State) (row : BitVec 64) : State :=
  if rowType (rowByte row 0) then s
  else (List.range 8).foldl (fun s r =>
    if s.flag F.LNK_LANE_STAT_in_rx_bond r then s.bump F.LNK_LANE_ERR_hdr_errs r else s) s

/-- The pair loses its locks. -/
def State.unlockPair (s : State) (r : Nat) : State :=
  ((((s.setLockAt r none).setAmBad r 0).setFld F.LNK_LANE_STAT_block_lock r 0).setFld F.LNK_LANE_STAT_am_lock r 0).setAligned r false

/-- Equaliser adaptation (re)starts on a pair; what it settles on is the channel's (R372; log entry 3). -/
def State.adapt (s : State) (r : Nat) : State :=
  let f := s.takeFree
  (f.2.setFld F.LNK_LANE_EQ_ctle r f.1.toNat).setFld F.LNK_LANE_EQ_dfe1 r (f.1.toNat / 16)

/-- Send LSTAT (R374). -/
def State.sendLstat (s : State) : State :=
  let r := lstatRow s.lockedMask (s.fld F.LNK_STAT_rx_bond) s.link.lstatSeq
  ({ s with link := { s.link with lstatSeq := (s.link.lstatSeq + 1) % 256 } } : State).sendRow r

/-- LSTAT goes out in HELLO and UP when the locked mask has changed (R374). -/
def State.lstatOnChange (s : State) (old : Nat) : State :=
  if (s.linkState = lHello ∨ s.linkState = lUp) ∧ s.lockedMask ≠ old then s.sendLstat else s

/-- Enter a training state. -/
def State.linkTo (s : State) (st : Nat) : State :=
  let s := s.setFld F.LNK_STAT_state 0 st
  { s with link := { s.link with since := s.now } }

/-- Bonds as LNK_STAT and LNK_LANE_STAT show them. -/
def State.setBonds (s : State) (tx rx : Nat) : State :=
  let s := (s.setFld F.LNK_STAT_tx_bond 0 tx).setFld F.LNK_STAT_rx_bond 0 rx
  (List.range 8).foldl (fun s r =>
    (s.setFlag F.LNK_LANE_STAT_in_tx_bond r (tx.testBit r)).setFlag F.LNK_LANE_STAT_in_rx_bond r
      (s.flag F.LNK_LANE_STAT_am_lock r && rx.testBit (s.fld F.LNK_LANE_STAT_src_lane r))) s

/-- Mark exchanges that straddle a BOND row or a retrain are discarded (R436). -/
def State.staleMarks (s : State) : State := { s with time := { s.time with staleTx := true, staleRx := true } }

/-! ### Leaving and reaching UP (R100, R271, R376, R378, R400, R402, R420, R421) -/

/-- The seq of the first event in frames of stream 0x01 that have not been sent whole. -/
def State.oldestUnsent (s : State) : Option (BitVec 16) :=
  let frames := (match s.link.sending with
    | some f => if f.stream = 1 then [f] else []
    | none => []) ++ s.readyOf 1
  match frames.head? with
  | some f => some (BitVec.ofNat 16 ((f.payload.getD 10 0).toNat + 256 * (f.payload.getD 11 0).toNat))
  | none => s.link.evtOpen.head?.map fun e => e.w2.extractLsb' 16 16

/-- What leaving UP loses: frames not sent; a tile being drained stays (R420); events are held in the ring (R100). -/
def State.leaveUp (s : State) : State :=
  let first := match s.sys.firstUnsent with
    | some x => some x
    | none => s.oldestUnsent
  let s := { s with sys := { s.sys with firstUnsent := first } }
  let s := { s with link := { s.link with sending := none, ready := [], reserved := 0, evtOpen := [], discard := false } }
  let s := { s with rxb := { s.rxb with backlog := s.rxb.backlog.map fun (t : BlTile) => { t with draining := false } } }
  (s.setFld F.LNK_BL_DRAIN_draining 0 0).setBonds 0 0

/-- Ladle channels with remote transactions in flight halt with LINK_DOWN (R467, R472). -/
def State.dmaRemote (s : State) : State :=
  ((List.range 32).filter fun n =>
    decide ((s.dma n).want ≠ none)).foldl (fun s n => s.dmaHalt n 8) s

/-- LINK_DOWN (R376, R378, R394). -/
def State.linkDown (s : State) (cause : Nat) (backoff : Bool) : State :=
  if s.linkState = lDown then s
  else
    let up := decide (s.linkState = lUp)
    let s := (if up then s.leaveUp else s).linkTo lDown
    let k := s.link.fails + if backoff then 1 else 0
    let ms := if backoff then min (2 ^ (k - 1)) 1024 else 0
    let s := { s with link := { s.link with
        fails := k, rateStep := false, helloGot := false, peerSeen := false, helloSent := 0, peerNode := none
        peerLocked := 0, lockedSince := [], retrainHello := false } }
    let s := ((s.setFld F.LNK_STAT_down_cause 0 cause).setFld F.LNK_TRAIN_backoff_ms 0 ms).setFld F.LNK_EVT_down 0 1
    let s := s.creditRegs.post 0x0702 clsWarn (toWord (cause + 16 * ms + 2 ^ 15 * s.fld F.LNK_TRAIN_attempts))
    if up then (s.dmaRemote).raiseFault 0x0701 cause else s

/-- EVT_RESYNC, first on every transition to UP (R99, R100); the event it names is kept until its frame is sent
(`State.resynced`). -/
def State.resync (s : State) : State :=
  let n := s.sys.firstUnsent.getD s.sys.evtSeq
  s.post 0x0102 clsInfo (toWord n.toNat)

/-- A BOND row is sent (R375). -/
def State.sendBond (s : State) (mask reason : Nat) : State :=
  let n := (s.link.bondSeq + 1) % 256
  (({ s with link := { s.link with bondSeq := n } } : State).sendRow (bondRow mask n reason)).staleMarks

/-- Entry to UP (R376, R377). -/
def State.linkUpNow (s : State) (tx rx : Nat) : State :=
  let s := (s.linkTo lUp).setBonds tx rx
  let s := { s with link := { s.link with
      fails := 0, rateStep := false, lastHello := s.now, seqTx := [], limit := [], sent := [], reserved := 0, got := []
      grant := [], gap := [], run := [], discard := false } }
  let s := ((s.setFld F.LNK_TRAIN_attempts 0 0).sendBond tx 3).resync
  let b (f : Fld) (k : Nat) : Nat := if s.flag f then 2 ^ k else 0
  let s := s.post 0x0701 clsInfo
    (toWord (tx + 256 * rx + b F.LNK_STAT_rate25 16 + b F.LNK_STAT_fallback 17 + b F.LNK_STAT_loop 18))
  (s.sealOpenBacklog.evaluate false).creditRegs

/-- Fallback changes (R378, R393, R394). -/
def State.setFallback (s : State) (on : Bool) : State :=
  let s := (s.setFlag F.LNK_STAT_fallback 0 on).setFld F.LNK_EVT_rate_change 0 1
  let s := { s with link := { s.link with fallbackEnd := if on then some (s.now + 60000000000) else none } }
  s.post 0x0705 clsInfo (if on then 1 else 0)

/-! ### Training (R376-R378) -/

/-- Own rate25_ok (R373). -/
def State.rate25Ok (s : State) : Bool := decide (s.fld F.LNK_CFG_rate_mode ≠ 1) && !s.flag F.LNK_STAT_fallback

/-- The lanes take a rate; a change restarts every pair. -/
def State.setRate (s : State) (r25 : Bool) : State :=
  if s.flag F.LNK_STAT_rate25 = r25 then s
  else (List.range 8).foldl State.unlockPair (s.setFlag F.LNK_STAT_rate25 0 r25)

/-- ALIGN to HELLO (R376). -/
def State.tryAlign (s : State) : State :=
  if s.linkState = lAlign ∧ s.minLanes ≤ s.readyLanes s.pairLocked then
    let s := s.linkTo lHello
    ({ s with link := { s.link with helloGot := false, peerSeen := false, helloSent := 0 } } : State).sendLstat
  else s

/-- DETECT to LOCK (R376). -/
def State.tryDetect (s : State) : State :=
  if s.linkState = lDetect ∧ s.minLanes ≤ s.readyLanes (fun r => s.flag F.LNK_LANE_STAT_signal r) then s.linkTo lLock
  else s

/-- Agreement and what follows it (R376, R377). -/
def State.tryAgree (s : State) : State :=
  if s.linkState = lHello ∧ s.link.peerSeen = true ∧ 3 ≤ s.link.helloSent then
    let both := s.laneEn &&& s.fld F.LNK_PARTNER_lane_en
    let tx := both &&& s.link.peerLocked
    let rx := both &&& s.lockedMask
    if s.fld F.LNK_PARTNER_version ≠ 1 then s.linkDown 5 true
    else if popCount 8 tx < s.minLanes ∨ popCount 8 rx < s.minLanes then s.linkDown 6 true
    else if s.rate25Ok = true ∧ s.flag F.LNK_PARTNER_rate25_ok = true ∧ s.flag F.LNK_STAT_rate25 = false then
      let s := (s.setRate true).linkTo lLock
      { s with link := { s.link with rateStep := true } }
    else s.linkUpNow tx rx
  else s

def execLaneSignalDetect (lane : Nat) (s : State) : Outcome State Fault Refusal :=
  if lane < 8 ∧ s.flag F.LNK_LANE_STAT_signal lane = false then
    .next ((s.setFld F.LNK_LANE_STAT_signal lane 1).adapt lane).tryDetect
  else .next s

/-- 64 valid headers (R369); an inverted pair is corrected (R359). -/
def execBlockLockGain (lane : Nat) (inverted : Bool) (s : State) : Outcome State Fault Refusal :=
  if lane < 8 ∧ s.flag F.LNK_LANE_STAT_signal lane = true then
    let s := if s.flag F.LNK_LANE_STAT_block_lock lane then s else s.setLockAt lane (some s.now)
    .next ((s.setFld F.LNK_LANE_STAT_block_lock lane 1).setFlag F.LNK_LANE_STAT_rx_inverted lane inverted)
  else .next s

/-- When min_lanes ready lanes will have held block lock for 100 µs (R376). -/
def State.lockHeldAt (s : State) : T48 :=
  let ts := (maskList 8 s.laneEn).filterMap fun r => Store.get (fun _ => none) s.link.lockAt r
  let ok := ts.filter fun v => decide (s.minLanes ≤ (ts.filter fun w => atOrAfter v w).length)
  tAdd (ok.foldl (fun v w => if atOrAfter v w then w else v) (ok.headD s.now)) 100000

/-- Block lock has held for 100 µs (R376). -/
def execBlockLockHeld (s : State) : Outcome State Fault Refusal :=
  if s.linkState = lLock ∧ s.minLanes ≤ s.readyLanes (fun r => s.flag F.LNK_LANE_STAT_block_lock r) then
    .next ((s.elapseTo s.lockHeldAt).freshRows.linkTo lAlign).tryAlign
  else .next s

/-- A state's timeout in ns, and its cause (R376). -/
def trainTimeout (st : Nat) : Nat × Nat :=
  if st = lDetect then (10000000, 1) else if st = lLock then (5000000, 2) else if st = lAlign then (2000000, 3)
  else (10000000, 4)

def execTrainingTimeout (s : State) : Outcome State Fault Refusal :=
  let st := s.linkState
  if st = lDown ∨ st = lUp then .next s
  else
    let (ns, cause) := trainTimeout st
    let s := s.elapseTo (s.link.since + BitVec.ofNat 48 ns)
    if st ≠ lDetect ∧ s.link.rateStep = true then .next ((s.linkDown 0xB false).setFallback true)
    else .next (s.linkDown cause true)

/-- No valid HELLO for 10 ms in UP. -/
def execHelloSilence (s : State) : Outcome State Fault Refusal :=
  if s.linkState = lUp then .next ((s.elapseTo (s.link.lastHello + 10000000)).linkDown 7 true) else .next s

/-- An attempt starts (R393): LNK_PARTNER.valid goes when the last one heard no valid HELLO. -/
def State.newAttempt (s : State) : State :=
  let s := if s.link.heard then s else s.setFld F.LNK_PARTNER_valid 0 0
  { s with link := { s.link with heard := false } }

/-- The backoff ends: training starts in DETECT (R376, R378). -/
def execBackoffEnd (s : State) : Outcome State Fault Refusal :=
  if s.linkState = lDown ∧ s.flag F.LNK_CFG_en = true ∧ s.link.refLost = false then
    let s := s.elapseTo (s.link.since + BitVec.ofNat 48 (msec (s.fld F.LNK_TRAIN_backoff_ms)))
    let s := (s.setRate (decide (s.fld F.LNK_CFG_rate_mode = 2))).linkTo lDetect
    .next (s.newAttempt.bump F.LNK_TRAIN_attempts 0).tryDetect
  else .next s

/-- A running backoff ends at once (R378). -/
def State.endBackoff (s : State) : State :=
  { s with link := { s.link with since := tAdd s.now (-(msec (s.fld F.LNK_TRAIN_backoff_ms) : Int)) } }

def execFallbackExpiry (s : State) : Outcome State Fault Refusal :=
  match s.link.fallbackEnd with
  | none => .next s
  | some t =>
    let s := (s.elapseTo t).setFallback false
    let again := decide (s.linkState = lUp) && !s.flag F.LNK_STAT_rate25
    .next { s with link := { s.link with retrainHello := again } }

def execLnkRefclkLoss (s : State) : Outcome State Fault Refusal :=
  .next (({ s with link := { s.link with refLost := true } } : State).linkDown 9 false)

def execLnkRefclkRestored (s : State) : Outcome State Fault Refusal :=
  .next { s with link := { s.link with refLost := false } }

/-! ### The bonds (R375, R381-R385) -/

/-- LANE_DROP and LANE_JOIN for every lane that differs (R383, R394). -/
def State.bondEvents (s : State) (tx : Bool) (old new : Nat) (cause : Nat → Nat) : State :=
  let d := if tx then 8 else 0
  (List.range 8).foldl (fun s n =>
    if old.testBit n = true ∧ new.testBit n = false then
      (s.setFld F.LNK_EVT_lane_drop 0 1).post 0x0703 clsWarn (toWord (n + d + 16 * cause n + 256 * new))
    else if old.testBit n = false ∧ new.testBit n = true then
      (s.setFld F.LNK_EVT_lane_join 0 1).post 0x0704 clsInfo (toWord (n + d + 256 * new))
    else s) s

/-- The transmit bond changes in UP (R376, R382-R384): reason 1 drop, 2 add; below min_lanes the link goes down. -/
def State.txBond (s : State) (mask reason cause : Nat) : State :=
  let old := s.fld F.LNK_STAT_tx_bond
  if mask = old then s
  else if popCount 8 mask < s.minLanes then s.linkDown 6 true
  else
    let s := (s.sendBond mask reason).setBonds mask (s.fld F.LNK_STAT_rx_bond)
    (s.bondEvents true old mask fun _ => cause).evaluate false

/-- The loss cause of the pair that receives a partner lane; PARTNER when none is noted. -/
def State.rxCause (s : State) (n : Nat) : Nat :=
  match (List.range 8).find? fun r => decide (s.fld F.LNK_LANE_STAT_src_lane r = n) && decide (perStream s.link.lossCause r ≠ 0) with
  | some r => perStream s.link.lossCause r
  | none => 4

/-- A partner BOND row changes the receive bond (R375, R381, R383, R436). -/
def execBondRowReceived (row : BitVec 64) (s : State) : Outcome State Fault Refusal :=
  if s.linkState = lUp ∧ complOk 0x66 row = true then
    let s := s.freshRows
    let old := s.fld F.LNK_STAT_rx_bond
    let new := rowByte row 1
    let s := ({ s with link := { s.link with discard := false } } : State).staleMarks
    let s := s.setBonds (s.fld F.LNK_STAT_tx_bond) new
    let s := (s.bondEvents false old new s.rxCause)
    let s := { s with link := { s.link with lossCause := [] } }
    if popCount 8 new < s.minLanes then .next (s.linkDown 6 true) else .next (s.evaluate false)
  else .next (s.badRow row)

/-- A receive pair is lost (R381): rows are discarded until the partner's BOND row, and LSTAT leaves the lane out. -/
def State.rxLost (s : State) (r cause old : Nat) : State :=
  let inBond := s.flag F.LNK_LANE_STAT_in_rx_bond r
  let s := { s with link := { s.link with
      lossCause := Store.set (fun _ => 0) s.link.lossCause r cause
      discard := s.link.discard || (inBond && decide (s.linkState = lUp)) } }
  s.lstatOnChange old

/-- 16 invalid headers end block lock; they count as header errors (R369, R393; log entry 65). -/
def execBlockLockLoss (lane : Nat) (s : State) : Outcome State Fault Refusal :=
  if lane < 8 ∧ s.flag F.LNK_LANE_STAT_block_lock lane = true then
    let old := s.lockedMask
    .next (((s.freshRows.unlockPair lane).bump F.LNK_LANE_ERR_hdr_errs lane 16).rxLost lane 1 old)
  else .next s

/-- Three AM positions in a row without the lane's AM (R369). -/
def execAmLockLoss (lane : Nat) (s : State) : Outcome State Fault Refusal :=
  if lane < 8 ∧ s.flag F.LNK_LANE_STAT_am_lock lane = true ∧ 3 ≤ perStream s.link.amBad lane then
    let old := s.lockedMask
    .next ((((s.freshRows.setAmBad lane 0).setFld F.LNK_LANE_STAT_am_lock lane 0).setAligned lane false).rxLost lane 2 old)
  else .next s

/-- Blocks of 150 ns (R370). -/
def State.skewMax (s : State) : Nat := if s.flag F.LNK_STAT_rate25 then 58 else 23

/-- One pair's AM position (R369, R370). -/
def State.takeAm (s : State) (a : LaneAm) : State :=
  let r := a.pair
  if r < 8 ∧ s.flag F.LNK_LANE_STAT_block_lock r = true then
    let was := s.flag F.LNK_LANE_STAT_am_lock r
    if amOk a.am = false ∨ (was = true ∧ rowByte a.am 1 ≠ s.fld F.LNK_LANE_STAT_src_lane r) then
      if was then s.setAmBad r (perStream s.link.amBad r + 1) else s
    else
      let s := ((s.setAmBad r 0).setFld F.LNK_LANE_STAT_am_lock r 1).setFld F.LNK_LANE_STAT_src_lane r (rowByte a.am 1)
      let s := if was = true ∧ rowByte a.am 4 ≠ a.bip.toNat then s.bump F.LNK_LANE_ERR_bip_errs r else s
      let ok := decide (a.lag ≤ s.skewMax)
      let s := (s.setFld F.LNK_LANE_STAT_skew r (if ok then a.lag else 255)).setAligned r ok
      if ok then s
      else { s with link := { s.link with
          lossCause := Store.set (fun _ => 0) s.link.lossCause r 3
          discard := s.link.discard || (s.flag F.LNK_LANE_STAT_in_rx_bond r && decide (s.linkState = lUp)) } }
  else s

def execAmRowReceived (ams : List LaneAm) (s : State) : Outcome State Fault Refusal :=
  let old := s.lockedMask
  .next (((ams.foldl State.takeAm s.freshRows).lstatOnChange old).tryAlign)

/-- Two AM periods in ns (R368, R384). -/
def State.twoAms (s : State) : Nat := if s.flag F.LNK_STAT_rate25 then 83887 else 209716

/-- Lanes that have qualified for adding (R384). -/
def State.addable (s : State) : Nat :=
  maskOf ((maskList 8 (s.laneEn &&& s.link.peerLocked)).filter fun n =>
    match Store.get (fun _ => none) s.link.lockedSince n with
    | some t => decide (s.twoAms ≤ (s.now - t).toNat)
    | none => false)

/-- Staged FFE settings take effect at an AM (R371). -/
def State.applyFfe (s : State) : State :=
  let s := s.link.ffe.foldl (fun s e => match e.2 with
    | some w => s.setReg .LNK_LANE_FFE e.1 w
    | none => s) s
  { s with link := { s.link with ffe := [] } }

/-- An AM row is sent (R368), LSTAT with it, and the pending add right after it (R374, R384). -/
def execAmRowSend (s : State) : Outcome State Fault Refusal :=
  let s := s.freshRows.applyFfe.sendAms
  let s := if s.linkState = lHello ∨ s.linkState = lUp then s.sendLstat else s
  .next (if s.linkState = lUp then s.txBond (s.fld F.LNK_STAT_tx_bond ||| s.addable) 2 0 else s)

/-- A HELLO row is sent (R373, R378). -/
def execHelloSend (s : State) : Outcome State Fault Refusal :=
  if s.linkState = lHello ∨ s.linkState = lUp then
    let s := s.freshRows
    let retrain := s.link.retrainHello && decide (s.linkState = lUp)
    let seen := s.link.helloGot || decide (s.linkState = lUp)
    let s := s.sendRow (helloRow s.laneEn s.rate25Ok seen retrain (s.fld F.LNK_CFG_node_id) s.link.helloSeq)
    let s := { s with link := { s.link with
        helloSeq := (s.link.helloSeq + 1) % 256, helloSent := s.link.helloSent + if seen then 1 else 0
        retrainHello := false } }
    .next (if retrain then s.linkDown 8 false else s.tryAgree)
  else .next s

/-- LNK_PARTNER after a partner's HELLO. -/
def helloWord (row : BitVec 64) : Word :=
  toWord (rowByte row 4 + 256 * rowByte row 5 + 2 ^ 16 * rowByte row 2 + 2 ^ 24 * (rowByte row 1 % 16) +
    2 ^ 28 * (rowByte row 3 % 2) + 2 ^ 31)

/-- A partner HELLO is taken (R373, R376, R377). -/
def execHelloRowReceived (row : BitVec 64) (s : State) : Outcome State Fault Refusal :=
  if (s.linkState = lHello ∨ s.linkState = lUp) ∧ helloOk row = true then
    let s := s.freshRows
    let flags := rowByte row 3
    let node := rowByte row 4 + 256 * rowByte row 5
    let other := match s.link.peerNode with
      | some n => decide (n ≠ node)
      | none => false
    let s := s.setReg .LNK_PARTNER 0 (helloWord row)
    let s := { s with link := { s.link with peerNode := some node, heard := true } }
    if s.linkState = lUp then
      if flags.testBit 2 then .next (s.linkDown 8 false)
      else .next { s with link := { s.link with lastHello := s.now } }
    else if other then
      let s := s.linkTo lHello
      .next { s with link := { s.link with helloGot := true, peerSeen := false, helloSent := 0 } }
    else
      .next ({ s with link := { s.link with
        helloGot := true, peerSeen := s.link.peerSeen || flags.testBit 1 } } : State).tryAgree
  else .next (s.badRow row)

/-- A partner LSTAT is taken (R374, R382, R384). -/
def execLstatReceived (row : BitVec 64) (s : State) : Outcome State Fault Refusal :=
  if (s.linkState = lHello ∨ s.linkState = lUp) ∧ complOk 0x55 row = true then
    let s := s.freshRows
    let locked := rowByte row 1
    let since := (List.range 8).foldl (fun (m : Store (Option T48)) n =>
      if locked.testBit n then
        (if s.link.peerLocked.testBit n then m else Store.set (fun _ => none) m n (some s.now))
      else Store.set (fun _ => none) m n none) s.link.lockedSince
    let s := { s with link := { s.link with peerLocked := locked, lockedSince := since } }
    let s := (List.range 8).foldl (fun s n => s.setFlag F.LNK_LANE_STAT_partner_locked n (locked.testBit n)) s
    .next (if s.linkState = lUp then s.txBond (s.fld F.LNK_STAT_tx_bond &&& locked) 1 4 else s)
  else .next (s.badRow row)

/-- The elastic buffer at a FILLER row (R367): above 24 rows it deletes the row, below 8 it inserts one after it. -/
def execFillerRowReceived (fill : Nat) (s : State) : Outcome State Fault Refusal :=
  if s.linkState = lHello ∨ s.linkState = lUp then
    if 24 < fill then .next (s.bump F.LNK_RM_CNT_deleted 0)
    else if fill < 8 then .next (s.bump F.LNK_RM_CNT_inserted 0)
    else .next s
  else .next s

/-- A FILLER row is sent (R364, R366). -/
def execFillerRowSend (s : State) : Outcome State Fault Refusal := .next (s.freshRows.sendRow filler)

/-- A pair outside the bond restarts its CDR and equaliser (R384). -/
def execLaneRetrainRestart (lane : Nat) (s : State) : Outcome State Fault Refusal :=
  if lane < 8 ∧ s.linkState = lUp ∧ s.laneEn.testBit lane = true ∧ s.flag F.LNK_LANE_STAT_in_rx_bond lane = false ∧
      s.pairLocked lane = false then
    .next ((s.unlockPair lane).adapt lane)
  else .next s

/-! ### Commands (R388-R392, R624) -/

/-- An FFE setting meets R371. -/
def ffeOk (w : Word) : Bool :=
  decide (bits w 3 0 + bits w 13 8 + bits w 20 16 ≤ 63 ∧ bits w 3 0 + bits w 20 16 + 16 ≤ bits w 13 8)

def specLinkCfgSet : CmdSpec :=
  { opcode := 0x0701, minLen := 3, maxLen := 3, masks := [0xFFFFFF77, 0xFF, 0x001F3F0F] }

/-- A new LNK_CFG takes the link down (R390). -/
def State.cfgDrops (s : State) (w : Word) : Bool :=
  let old := s.reg .LNK_CFG 0
  decide (s.linkState ≠ lDown) &&
    (decide (bits w 0 0 ≠ bits old 0 0 ∨ bits w 2 1 ≠ bits old 2 1 ∨ bits w 31 16 ≠ bits old 31 16) ||
      decide (s.linkState = lUp ∧ (popCount 8 (s.fld F.LNK_STAT_tx_bond) < bits w 6 4 + 1 ∨
        popCount 8 (s.fld F.LNK_STAT_rx_bond) < bits w 6 4 + 1)))

/-- Lanes leave lane_en (R385): their locks go; in UP they leave the transmit bond with reason DISABLED, and the receive bond
with it at the partner's BOND row, rows being discarded until then (R381). -/
def State.lanesOff (s : State) (old : Nat) : State :=
  let mask := s.lockedMask
  let gone := (maskList 8 old).filter fun n => !s.laneEn.testBit n
  let lost := gone.filter fun n => s.flag F.LNK_LANE_STAT_in_rx_bond n
  let s := gone.foldl State.unlockPair s
  let s := { s with link := { s.link with
      lossCause := lost.foldl (fun m n => Store.set (fun _ => 0) m n 5) s.link.lossCause
      discard := s.link.discard || (decide (s.linkState = lUp) && !lost.isEmpty)
      lockedSince := gone.foldl (fun (m : Store (Option T48)) n => Store.set (fun _ => none) m n none) s.link.lockedSince } }
  let s := s.lstatOnChange mask
  if s.linkState = lUp then s.txBond (s.fld F.LNK_STAT_tx_bond &&& s.laneEn) 1 5 else s

/-- LNK_CFG and the FFE change (R371, R376, R385, R390-R392). -/
def State.applyLink (s : State) (w : Word) (lanes : Nat) (ffe : Word) : State :=
  let old := s.reg .LNK_CFG 0
  let s := (s.setReg .LNK_CFG 0 w).freshRows
  let s := { s with link := { s.link with
      ffe := (maskList 8 lanes).foldl (fun (m : Store (Option Word)) n => Store.set (fun _ => none) m n (some ffe)) s.link.ffe } }
  if s.linkState = lDown then s.endBackoff
  else if bitAt w 0 = false then s.linkDown 0xA false
  else if bits w 2 1 ≠ bits old 2 1 ∨ bits w 31 16 ≠ bits old 31 16 then s.linkDown 8 false
  else if s.linkState = lUp ∧ (popCount 8 (s.fld F.LNK_STAT_tx_bond) < s.minLanes ∨
      popCount 8 (s.fld F.LNK_STAT_rx_bond) < s.minLanes) then s.linkDown 6 true
  else s.lanesOff (bits old 15 8)

def svcLinkCfgSet (q : Req) (s : State) : State × Rsp :=
  let w := q.arg 1
  let lanes := bits (q.arg 2) 7 0
  s.check [(decide (popCount 8 (bits w 15 8) < bits w 6 4 + 1), rspErr stBadArg),
           (decide (lanes ≠ 0) && !ffeOk (q.arg 3), rspErr stBadArg)]
    (if s.cfgDrops w then
      ({ s with link := { s.link with
          deferred := some { mbx := q.mbx, cfg := some w, lanes := lanes, ffe := q.arg 3 } } }, rspOk)
    else (s.applyLink w lanes (q.arg 3), rspOk))

def execLinkCfgSet (q : Req) (s : State) : Outcome State Fault Refusal :=
  .next (serve specLinkCfgSet q (svcLinkCfgSet q) s)

def specLinkStateGet : CmdSpec := { opcode := 0x0702 }

def svcLinkStateGet (_ : Req) (s : State) : State × Rsp :=
  (s, rspOk ([s.reg .LNK_STAT 0, s.reg .LNK_TRAIN 0, s.reg .LNK_PARTNER 0] ++
    ((List.range 8).map fun n => s.reg .LNK_LANE_STAT n) ++ ((List.range 8).map fun n => s.reg .LNK_LANE_ERR n) ++
    [s.reg .LNK_RM_CNT 0]))

def execLinkStateGet (q : Req) (s : State) : Outcome State Fault Refusal :=
  .next (serve specLinkStateGet q (svcLinkStateGet q) s)

def specLinkRetrain : CmdSpec := { opcode := 0x0703 }

def svcLinkRetrain (q : Req) (s : State) : State × Rsp :=
  s.check [(!s.flag F.LNK_CFG_en, rspErr stBusy)]
    (if s.linkState = lDown then (s.endBackoff, rspOk)
    else ({ s with link := { s.link with deferred := some { mbx := q.mbx, cfg := none } } }, rspOk))

def execLinkRetrain (q : Req) (s : State) : Outcome State Fault Refusal :=
  .next (serve specLinkRetrain q (svcLinkRetrain q) s)

/-- 1 ms after the response the change takes effect (R390). -/
def execDeferredLinkChange (s : State) : Outcome State Fault Refusal :=
  match s.link.deferred with
  | none => .next s
  | some c => match c.at_ with
    | none => .next s
    | some t =>
      let s := s.elapseTo t
      let s := { s with link := { s.link with deferred := none } }
      match c.cfg with
      | some w => .next (s.applyLink w c.lanes c.ffe)
      | none => .next (if s.linkState = lDown then s.endBackoff else s.linkDown 8 false)

def specLinkLoopSet : CmdSpec := { opcode := 0x0704, minLen := 1, maxLen := 1, masks := [0x000103FF] }

def svcLinkLoopSet (q : Req) (s : State) : State × Rsp :=
  let lanes := bits (q.arg 1) 7 0
  s.check [(s.flag F.LNK_CFG_en, rspErr stBusy), (decide (lanes = 0), rspErr stBadArg)]
    (let s := (maskList 8 lanes).foldl (fun s n =>
        ((s.setFld F.LNK_LANE_STAT_loop n (bits (q.arg 1) 9 8)).setFlag F.LNK_LANE_STAT_prbs_on n (bitAt (q.arg 1) 16)).setFld
          F.LNK_LANE_STAT_prbs_sync n 0) s
     (s.setFlag F.LNK_STAT_loop 0 ((List.range 8).any fun n => decide (s.fld F.LNK_LANE_STAT_loop n ≠ 0)), rspOk))

def execLinkLoopSet (q : Req) (s : State) : Outcome State Fault Refusal :=
  .next (serve specLinkLoopSet q (svcLinkLoopSet q) s)

end Sys2Proof.Machine
end

