-- ==== Sys2Proof/Machine/Sieve.lean ====
section
/-! DEFINITION. Chapter 04: FIR banks, cross-fades, preset changes, and their commands. -/

namespace Sys2Proof.Machine

open Host

/-- Tilin's default set of a preset (R163); its values are the implementation's (log entry 2). -/
def defaultSet (preset : Nat) : List Word :=
  (List.range (firTaps preset)).map fun i => (Config.firDefault preset i).signExtend 32

/-- The set stored for a preset of a quadrant (R163). -/
def State.storedSet (s : State) (q preset : Nat) : List Word :=
  (Store.get (fun _ => none) s.sieve.stored (4 * q + preset)).getD (defaultSet preset)

def State.setStored (s : State) (q preset : Nat) (l : List Word) : State :=
  { s with sieve := { s.sieve with stored := Store.set (fun _ => none) s.sieve.stored (4 * q + preset) (some l) } }

def State.setBank (s : State) (q k : Nat) (l : List Word) : State :=
  { s with sieve := { s.sieve with bank := Store.set (fun _ => []) s.sieve.bank (2 * q + k) l } }

def State.fade (s : State) (q : Nat) : Option Fade := Store.get (fun _ => none) s.sieve.fade q

def State.setFade (s : State) (q : Nat) (f : Option Fade) : State :=
  { s with sieve := { s.sieve with fade := Store.set (fun _ => none) s.sieve.fade q f } }

/-- Quadrants of an armed unit's swap or preset change. -/
def TcAction.sieveMask : TcAction → Nat × Nat
  | .firSwap m _ _ => (m, 0)
  | .sieveCfg m _ _ _ _ => (0, m)
  | _ => (0, 0)

/-- A swap, or a preset change, is scheduled on a quadrant. -/
def State.swapPending (s : State) (q : Nat) : Bool :=
  (List.range 16).any fun u => ((s.actOf u).map fun a => a.sieveMask.1.testBit q).getD false
def State.presetPending (s : State) (q : Nat) : Bool :=
  ((List.range 16).any fun u => ((s.actOf u).map fun a => a.sieveMask.2.testBit q).getD false) ||
    match s.mode.pend with
    | some p => decide (p.preset ≠ s.fld F.SIEVE_CFG_preset q)
    | none => false

/-- RELAY, MIRROR and SURVEY, in which the quadrants may differ (R170). -/
def perQuadMode (m : Nat) : Bool := decide (m = mRelay ∨ m = mMirror ∨ m = mSurvey)

/-- SIEVE_CFG.pending of every quadrant (R175). -/
def State.sieveRegs (s : State) : State :=
  (List.range 4).foldl (fun s q => s.setFlag F.SIEVE_CFG_pending q (s.swapPending q || s.presetPending q)) s

/-- SIEVE_DONE (R176). -/
def State.sieveDone (s : State) (t : T48) (st q : Nat) (swap : Bool) (cmd : Cmd) : State :=
  s.postAt t 0x0205 clsDone
    (toWord (st + 256 * q + (if swap then 1024 else 0) + 2 ^ 11 * s.fld F.SIEVE_CFG_preset q +
      2 ^ 13 * s.fld F.SIEVE_CFG_active_bank q)) (some cmd)

/-- The first sample time past a fade of a quadrant (R160). -/
def State.fadeOver (s : State) (q : Nat) (f : Fade) : Int := f.cyc + 2 ^ f.f * decimation (s.fld F.SIEVE_CFG_preset q)

/-- A fade has reached its L samples: the former active bank becomes the shadow (R160, R161). -/
def State.finishFade (s : State) (q : Nat) (f : Fade) : State :=
  let s := ((s.setFade q none).setFld F.SIEVE_CFG_fading q 0).setFld F.SIEVE_CFG_active_bank q
    (1 - s.fld F.SIEVE_CFG_active_bank q)
  if f.cmd.mbx < 8 then s.sieveDone f.t stOk q true f.cmd else s

/-- A fade of a quadrant meets a preset change at FS cycle c (R165): abandoned, unless c lies past its end. -/
def State.abandonFade (s : State) (q : Nat) (last : Int) (c : Int) : State :=
  match s.fade q with
  | none => s
  | some f =>
    if last < c then s.finishFade q f
    else (((s.setFade q none).setFld F.SIEVE_CFG_fading q 0).setFld F.SIEVE_STAT_abandoned q 1).sieveDone f.t stMode q true f.cmd

/-- A scheduled swap of a quadrant is abandoned: its unit goes on with the other quadrants, or is disarmed (R165). -/
def State.abandonSwap (s : State) (q u : Nat) : State :=
  match s.actOf u with
  | some (.firSwap m f cmd) =>
    if m.testBit q then
      let t := s.cmpTime u
      let m' := m - 2 ^ q
      let s := if m' = 0 then s.disarm u
        else { s with time := { s.time with act := Store.set (fun _ => none) s.time.act u (some (.firSwap m' f cmd)) } }
      (s.setFld F.SIEVE_STAT_abandoned q 1).sieveDone t stMode q true cmd
    else s
  | _ => s

/-- The paths of a quadrant take a new preset at FS cycle c, or a resampler setting alone (R167, R172). -/
def State.rechain (s : State) (q : Nat) (c : Int) (old : FirSet) (changed : Bool) : State :=
  let preset := s.fld F.SIEVE_CFG_preset q
  let on := s.flag F.SIEVE_CFG_rs_en q
  (pathsOfQuad q).foldl (fun s p => match s.dpPath p with
    | none => s
    | some x => s.setDpPath p (some (if changed then x.newPreset c s.cyc old (s.env p x) preset on else x.resampler c on))) s

/-- A preset change of a quadrant at T (R115, R165, R172): fades and swaps are abandoned, the stored set is in both banks,
the samples around T settle. A change of the increment alone does none of this. -/
def State.presetChange (s : State) (t : T48) (q preset : Nat) (rs : Bool) (inc : Word) : State :=
  let changed := decide (preset ≠ s.fld F.SIEVE_CFG_preset q)
  let c := s.cycleOf t
  let old := s.firSet q
  let rec_ : Int := s.recOf (16 * q)
  let last := ((s.fade q).map (s.fadeOver q)).getD 0
  let s := ((s.setFld F.SIEVE_CFG_preset q preset).setFlag F.SIEVE_CFG_rs_en q rs).setReg .SIEVE_RS_INC q
    (if rs then inc else 0x80000000)
  if changed then
    let s := (List.range 16).foldl (fun s u => s.abandonSwap q u) (s.abandonFade q last c)
    let s := (s.setBank q 0 (s.storedSet q preset)).setBank q 1 (s.storedSet q preset)
    let s := (s.setFld F.SIEVE_CFG_shadow_valid q 1).rechain q c old true
    (pathsOfQuad q).foldl (fun s p =>
      if s.sampling p then s.settleSpan p (c - rec_) (c + (nsCycles 300 + s.recOf p : Nat)) else s) s
  else s.rechain q c old false

/-- COL and the Coarse quadrants run at OPF once a change that needs it applies (R180, R553, R554). -/
def State.opfNow (s : State) : State :=
  let s := if colHeavy s.quadRate s.enabledBeams (fun b => s.fld F.BEAM_RX_CFG_qmask b) then s.reachOpf dCol else s
  ((List.range 4).filter fun q => decide (s.fld F.SIEVE_CFG_preset q = 0)).foldl (fun s q => s.reachOpf (dSieve + q)) s

/-- A scheduled SIEVE_CFG_SET at T (R171), or dropped late (R25). In a mode that R170 gives one preset it changes nothing and
reports ST_MODE. DESIGN CHOICE (log entry 139): the SIEVE_DONE of a dropped change shows the preset kept. -/
def State.sieveCfgAt (s : State) (t : T48) (qmask preset : Nat) (rs : Bool) (inc : Word) (cmd : Cmd) (late : Bool) : State :=
  ((maskList 4 qmask).foldl (fun s q =>
    if late then (s.setFld F.SIEVE_STAT_late q 1).sieveDone t stLate q false cmd
    else if perQuadMode s.modeNo = false then s.sieveDone t stMode q false cmd
    else (s.presetChange t q preset rs inc).opfNow.sieveDone t stOk q false cmd) s).sieveRegs

/-- A scheduled SIEVE_FIR_SWAP at T: the fade starts, or is dropped late (R160, R164). -/
def State.firSwapAt (s : State) (t : T48) (qmask f : Nat) (cmd : Cmd) (late : Bool) : State :=
  ((maskList 4 qmask).foldl (fun s q =>
    if late then (s.setFld F.SIEVE_STAT_late q 1).sieveDone t stLate q true cmd
    else (((s.setFade q (some ⟨t, f, cmd, s.cycleOf t⟩)).setFld F.SIEVE_CFG_fading q 1).setFld F.SIEVE_CFG_fade_log2 q f)) s).sieveRegs

/-- A fade reaches its L samples (R160, R161). DESIGN CHOICE (log entry 139): SIEVE_CFG.fading and active_bank change when
the last faded sample has left, a group delay after its sample time. -/
def execSieveFadeEnd (q : Nat) (s : State) : Outcome State Fault Refusal :=
  match s.fade q with
  | none => .next s
  | some f =>
    let e := s.fadeOver q f + groupCycles (s.fld F.SIEVE_CFG_preset q)
    .next ((s.elapseTo (s.cycleTime e)).finishFade q f)

/-! ### Commands (R162-R164, R171, R612, R613) -/

/-- Quadrants of a mask as units: of the sample-clock PLL, and their SIEVE domains. -/
def sieveUnits (m : Nat) : List (Nat × Nat) := quadUnits m ++ (maskList 4 m).map fun q => (0x0104, dSieve + q)

def specSieveCfgSet : CmdSpec :=
  { opcode := 0x0230, minLen := 5, maxLen := 5, masks := 0x13F :: mAll :: mSched, radio := true
    units := fun q => sieveUnits (bits (q.arg 1) 3 0) }

def svcSieveCfgSet (q : Req) (s : State) : State × Rsp :=
  let qm := bits (q.arg 1) 3 0
  let rs := bitAt (q.arg 1) 8
  let n : Rate := { preset := bits (q.arg 1) 5 4, rs := rs, inc := (q.arg 2).toNat }
  let r (x : Nat) : Rate := if qm.testBit x then n else s.quadRate x
  let d := schedOf q 3
  let pend := match s.mode.pend with
    | some p => perQuadMode p.target
    | none => true
  let mask (b : Nat) : Nat := s.fld F.BEAM_RX_CFG_qmask b
  s.check [(!(perQuadMode s.modeNo && pend), rspErr stMode), s.schedHeld q d, State.schedNow d false, maskEmpty qm,
           (decide ((q.arg 2).toNat < 2 ^ 31), rspErr stBadArg),
           (!(s.enabledBeams.all fun b => uniformMask r (mask b)) || !ratesOk r s.enabledBeams mask, rspErr stBadArg),
           ((maskList 4 qm).any fun x => s.swapPending x || s.presetPending x, rspErr stBusy), s.schedBusy d,
           s.schedLate d 200000]
    (((s.armCmd d.unit d.t 5 (.sieveCfg qm n.preset rs (q.arg 2) q.cmd)).sieveRegs).raiseFor r s.enabledBeams mask qm,
      rspAccepted)

def execSieveCfgSet (q : Req) (s : State) : Outcome State Fault Refusal :=
  .next (serve specSieveCfgSet q (svcSieveCfgSet q) s)

def specSieveFirLoad : CmdSpec :=
  { opcode := 0x0231, minLen := 2, maxLen := 2, masks := [0x33, mRegion], units := fun q => sieveUnits (2 ^ bits (q.arg 1) 1 0) }

/-- Bits [31:18] of a coefficient word equal bit 17 (R163). -/
def coefOk (w : Word) : Bool := decide (bits w 31 17 = 0 ∨ bits w 31 17 = 0x7FFF)

def svcSieveFirLoad (q : Req) (s : State) : State × Rsp :=
  let qd := bits (q.arg 1) 1 0
  let preset := bits (q.arg 1) 5 4
  let cur := decide (s.fld F.SIEVE_CFG_preset qd = preset)
  let crc := decide ((s.tile (regionFirst q 2)).state = .sealed)
  s.check [regionBad q 2 1, s.regionHeld q 2]
    (let r := s.withInput q 2 1 fun s =>
        let l := s.tileWords (regionFirst q 2) (firTaps preset)
        s.check [(!l.all coefOk, rspErr stBadArg), (cur && (s.swapPending qd || (s.fade qd).isSome), rspErr stBusy)]
          (if cur then
            (s.setBank qd (1 - s.fld F.SIEVE_CFG_active_bank qd) l).setFld F.SIEVE_CFG_shadow_valid qd 1
          else s.setStored qd preset l, rspOk)
     (if crc = true ∧ r.2.status = stFault then r.1.setFld F.SIEVE_STAT_load_fault qd 1 else r.1, r.2))

def execSieveFirLoad (q : Req) (s : State) : Outcome State Fault Refusal :=
  .next (serve specSieveFirLoad q (svcSieveFirLoad q) s)

def specSieveFirSwap : CmdSpec :=
  { opcode := 0x0232, minLen := 4, maxLen := 4, masks := 0xFF :: mSched, radio := true
    units := fun q => sieveUnits (bits (q.arg 1) 3 0) }

def svcSieveFirSwap (q : Req) (s : State) : State × Rsp :=
  let qm := bits (q.arg 1) 3 0
  let f := bits (q.arg 1) 7 4
  let d := schedOf q 2
  let l := maskList 4 qm
  s.check [s.schedHeld q d, State.schedNow d false, maskEmpty qm, (decide (f < 4 ∨ 10 < f), rspErr stBadArg),
           (l.any fun x => !s.flag F.SIEVE_CFG_shadow_valid x, rspErr stNotReady),
           (l.any fun x => s.swapPending x || (s.fade x).isSome, rspErr stBusy), s.schedBusy d, s.schedLate d 200000]
    ((s.armCmd d.unit d.t 5 (.firSwap qm f q.cmd)).sieveRegs, rspAccepted)

def execSieveFirSwap (q : Req) (s : State) : Outcome State Fault Refusal :=
  .next (serve specSieveFirSwap q (svcSieveFirSwap q) s)

def specSieveFirRead : CmdSpec :=
  { opcode := 0x0233, minLen := 2, maxLen := 2, masks := [0x13, mRegion], units := fun q => sieveUnits (2 ^ bits (q.arg 1) 1 0) }

/-- The words of a bank as read: one that no set has been put into holds coefficients the spec does not state (log entry
3). -/
def State.bankWords (s : State) (q k : Nat) : List Word × State :=
  let n := firTaps (s.fld F.SIEVE_CFG_preset q)
  if s.bank q k = [] then
    ((List.range n).map fun i => ((Config.freeValue (s.free + i)).setWidth 18).signExtend 32, { s with free := s.free + n })
  else (s.bank q k, s)

def svcSieveFirRead (q : Req) (s : State) : State × Rsp :=
  let qd := bits (q.arg 1) 1 0
  let act := s.fld F.SIEVE_CFG_active_bank qd
  s.check [regionBad q 2 1, s.regionHeld q 2]
    (let r := s.bankWords qd (if bitAt (q.arg 1) 4 then 1 - act else act)
     (r.2.putTileWords (regionFirst q 2) r.1, rspOk [toWord r.1.length]))

def execSieveFirRead (q : Req) (s : State) : Outcome State Fault Refusal :=
  .next (serve specSieveFirRead q (svcSieveFirRead q) s)

end Sys2Proof.Machine
end

