-- ==== Sys2Proof/Machine/Power.lean ====
section
/-! DEFINITION. Chapter 17: domains, the sequencer, WAIT, operating points, supply warnings, and their commands. -/

namespace Sys2Proof.Machine

open Host

/-! ### Domains (R539, R542, R543) -/

/-- A code names a domain. -/
def isDomain (d : Nat) : Bool := decide (d ≤ 0x1E ∨ (0x20 ≤ d ∧ d ≤ 0x2F))

/-- States a domain may take: 0 ON, 1 RET, 2 OFF (R539). -/
def domainAllows (d st : Nat) : Bool :=
  if st = 0 then true
  else if d = 0 then false
  else if d = dMgmt then decide (st = 1)
  else if d = dLnk ∨ d = dLnkPhy then decide (st = 2)
  else if dQuad ≤ d ∧ d % 4 = 3 then decide (st = 1)
  else decide (st ≤ 2)

/-- Host requests exist for it (R543). -/
def hostDomain (d : Nat) : Bool :=
  decide ((dSkl ≤ d ∧ d < dSkl + 12) ∨ d = dCol ∨ d = dTxb ∨ d = dPan ∨ (dLar ≤ d ∧ d < dLar + 8) ∨
    (dQuad ≤ d ∧ d ≤ 0x2F ∧ d % 4 = 3))

/-- Setpoints and forward bias are the domain's own (R541). -/
def hasSetpoint (d : Nat) : Bool :=
  decide (d = dMgmt ∨ (dSkl ≤ d ∧ d < dSkl + 12) ∨ d = dLnk ∨ (dLar ≤ d ∧ d < dLar + 8))

/-- The blocks of a domain by kind (R539, R631; log entry 20). -/
def domainBlocks (d : Nat) : List Nat :=
  if d = 0 then [0x01]
  else if d = dMgmt then [0x01, 0x04, 0x05, 0x12]
  else if d < dSkl + 12 then [0x01, 0x02, 0x03]
  else if d = dCol then [0x07, 0x06]
  else if d = dTxb then [0x08, 0x09]
  else if d < dLnk then [0x0A]
  else if d = dLnk then [0x0B]
  else if d = dLnkPhy then List.replicate 8 0x0C
  else if d = dPan then [0x0D]
  else if d < 0x20 then [0x0E]
  else match d % 4 with
    | 2 => [0x10, 0x10, 0x10]
    | 3 => [0x11]
    | _ => [0x0F]

/-- Modes that need COL ON (R543). -/
def colMode (mode : Nat) : Bool := decide (mode = 1 ∨ mode = 2 ∨ mode = 3 ∨ mode = 4 ∨ mode = 6)

/-- A mode needs a domain ON (R47, R543). -/
def modeNeedsDomain (mode d : Nat) : Bool :=
  decide (d = 0) || (decide (d = dMgmt) && decide (mode ≠ mHold)) || (decide (d = dCol) && colMode mode) ||
    (decide (d = dTxb) && txMode mode)

/-- The mode in force and the pending one. -/
def State.modesNow (s : State) : List Nat :=
  s.modeNo :: match s.mode.pend with
    | some p => [p.target]
    | none => []

/-- A tile of a Larder bank is held (R450, R451, R543). -/
def State.bankHeld (s : State) (b : Nat) : Bool :=
  (List.range 768).any fun i => (s.owner resTile (768 * b + i)).isSome

/-- The Pantry is needed in a mode (R543). -/
def State.panNeededIn (s : State) (mode : Nat) : Bool :=
  decide (0 < s.mem.blTiles ∨ mode = mSurvey) ||
    (decide (mode ∈ policyModes) && decide (0 < (s.policyOf mode).retTiles))

/-- The Pantry is needed. -/
def State.panNeeded (s : State) : Bool := s.panNeededIn s.modeNo

/-- Skillet k is the one that a mode that opens contexts keeps ON: no other offers capacity (R47, R543). -/
def State.sklLast (s : State) (k : Nat) : Bool :=
  s.modesNow.any opensContexts && (List.range 12).all fun j => decide (j = k) || !s.sklOn j

/-- No Skillet offers capacity: the lowest-numbered in service is brought up for a mode that opens contexts (R47, R543;
log entry 137). -/
def State.sklForMode (s : State) (mode : Nat) : Option Nat :=
  if opensContexts mode = true ∧ (List.range 12).all (fun k => !s.sklOn k) = true then
    (List.range 12).find? fun k => !Store.get (fun _ => false) s.rxb.sklOut k
  else none

/-- A Skillet has a context, a decode, or a fit (R543, R547). -/
def State.sklPlaced (s : State) (k : Nat) : Bool := s.openCtxs.any fun c => decide (c.2.skillet = k)

/-- A DPD fit runs on a Skillet (R322, R543). -/
def State.sklFits (s : State) (k : Nat) : Bool :=
  s.dpd.fit.any fun e => match e.2 with
    | some f => decide (f.skillet = some k)
    | none => false

/-- An observation receiver works. -/
def State.orxBusy (s : State) (q : Nat) : Bool := s.flag F.ORX_STAT_busy q

/-- The state that the sides or LNK_CFG give a domain (R542, R543); none: the sequencer sets it. -/
def State.followed (s : State) (d : Nat) : Option Nat :=
  let bySide (k : Nat) : Nat := if s.sideState k = sOff then 2 else if s.sideState k = sSleep then 1 else 0
  if d = dLnk ∨ d = dLnkPhy then some (if s.flag F.LNK_CFG_en then 0 else 2)
  else if dSieve ≤ d ∧ d < dSieve + 4 then some (bySide (2 * (d - dSieve)))
  else if dQuad ≤ d ∧ d ≤ 0x2F then
    let q := (d - dQuad) / 4
    match d % 4 with
    | 0 => some (bySide (2 * q))
    | 1 => some (bySide (2 * q + 1))
    | 2 => some (if s.fld F.CLK_STAT_master_cur = q then 0 else min (bySide (2 * q)) (bySide (2 * q + 1)))
    | _ => none
  else none

/-- Highest need of the holders beside the host, as PWR_DOM.need shows it. -/
def State.needOf (s : State) (d : Nat) : Nat :=
  match s.followed d with
  | some st => 2 - st
  | none =>
    if s.modesNow.any (fun m => modeNeedsDomain m d) then 2
    else if d = dMgmt then 1
    else if dSkl ≤ d ∧ d < dSkl + 12 then (if s.sklPlaced (d - dSkl) || s.sklFits (d - dSkl) || s.sklLast (d - dSkl) then 2 else 0)
    else if d = dPan then (if s.panNeeded then 2 else 0)
    else if dLar ≤ d ∧ d < dLar + 8 then (if s.bankHeld (d - dLar) then 2 else 0)
    else if dQuad ≤ d ∧ d ≤ 0x2F then (if s.orxBusy ((d - dQuad) / 4) then 2 else 0)
    else 0

def opDomain (d : Nat) : Bool := decide (d = dCol ∨ d = dTxb ∨ (dSieve ≤ d ∧ d < dSieve + 4))

/-- The live fields of PWR_DOM; v_on of a clocked domain is the setpoint of its operating point (R560). -/
def State.refreshDom (s : State) (d : Nat) : State :=
  let s := match s.followed d with
    | some st => s.setFld F.PWR_DOM_state d st
    | none => s
  let s := if opDomain d = true ∧ (s.opChange d).isNone = true then
      s.setFld F.PWR_DOM_v_on d (if s.flag F.PWR_DOM_oph d then 20 else 50)
    else s
  s.setFld F.PWR_DOM_need d (s.needOf d)

def State.domState (s : State) (d : Nat) : Nat := (s.followed d).getD (s.fld F.PWR_DOM_state d)

/-! ### The sequencer (R546-R549) -/

def State.trans (s : State) (d : Nat) : Option Nat := Store.get (fun _ => none) s.pwr.trans d

def State.setTrans (s : State) (d : Nat) (t : Option Nat) : State :=
  let s := { s with pwr := { s.pwr with trans := Store.set (fun _ => none) s.pwr.trans d t } }
  s.setFlag F.PWR_DOM_busy d t.isSome

def State.setWake (s : State) (d : Nat) (b : Bool) : State :=
  { s with pwr := { s.pwr with wake := Store.set (fun _ => false) s.pwr.wake d b } }

/-- Why a block refuses a stop (R543, R547, R550): 1 IN_USE, 2 WORKING. -/
def State.blockRefuses (s : State) (d b : Nat) : Option Nat :=
  if d = dMgmt then
    if b = 1 then
      if s.openCtxs ≠ [] then some 1
      else if (List.range 64).any (fun n => decide (s.fld F.BEAM_DET_STAT_codes n ≠ 0)) then some 2 else none
    else if b = 2 then (if s.dmaBusy then some 2 else none)
    else none
  else if dSkl ≤ d ∧ d < dSkl + 12 then
    let k := d - dSkl
    if b = 0 then (if s.sklFits k then some 2 else none)
    else if b = 1 then (if s.sklPlaced k then some 1 else none)
    else if s.assistOf k ≠ none then some 2 else none
  else if d = dTxb then (if s.burstsRun then some 2 else none)
  else if d = dPan then (if s.panNeeded then some 1 else none)
  else if dLar ≤ d ∧ d < dLar + 8 then (if s.bankHeld (d - dLar) then some 1 else none)
  else if dQuad ≤ d then (if s.orxBusy ((d - dQuad) / 4) then some 2 else none)
  else none

/-- The entry that concerns a domain. -/
def State.entryOf (s : State) (d : Nat) : Option PwrEntry := s.pwr.entries.find? fun e => e.group.contains d

def State.dropEntry (s : State) (e : PwrEntry) : State :=
  { s with pwr := { s.pwr with entries := s.pwr.entries.erase e } }

/-- A domain is in transition, or its operating point changes (R548, R558). -/
def State.domBusy (s : State) (d : Nat) : Bool :=
  (s.trans d).isSome || (s.entryOf d).isSome || (s.opChange d).isSome

/-- Start a transition. -/
def State.startTrans (s : State) (target : Nat) (l : List Nat) : State :=
  l.foldl (fun s d => s.setTrans d (some target)) s

/-- Record the host's request on a group. -/
def State.hostReq (s : State) (target : Nat) (l : List Nat) : State :=
  l.foldl (fun s d => s.setFld F.PWR_DOM_host_req d (target + 1)) s

/-- Every block has agreed: outputs are isolated, the group changes (R546). -/
def State.isolate (s : State) (e : PwrEntry) : State :=
  let l := e.group.filter fun d => decide (s.domState d ≠ e.target)
  let s := (s.dropEntry e).startTrans e.target l
  match e.cmd with
  | none => s
  | some c =>
    let j : PwrJob := { cmd := c, target := e.target, lowest := e.group.foldl min 63, left := l, accepted := false }
    let s := s.hostReq e.target e.group
    { s with pwr := { s.pwr with jobs := s.pwr.jobs ++ [j] } }

/-- A group that asks for a state: its blocks are asked; those already there are not. -/
def State.askGroup (s : State) (cmd : Option Cmd) (target : Nat) (group : List Nat) : State :=
  let ask := group.filter fun d => decide (s.domState d ≠ target ∧ s.domState d ≠ 2)
  let left := ask.flatMap fun d => (List.range (domainBlocks d).length).map fun b => (d, b)
  let e : PwrEntry := { cmd := cmd, target := target, group := group, left := left, start := s.now }
  if left = [] then s.isolate e
  else
    let s := { s with pwr := { s.pwr with entries := s.pwr.entries ++ [e] } }
    ask.foldl (fun s d => s.setFld F.PWR_DOM_busy d 1) s

/-- The mode, or the rule of R544, forbids a request (R543, R544, R558). -/
def State.powerMode (s : State) (r : PwrReq) : Bool :=
  decide (r.target ≠ 0) &&
    ((r.group.any fun d => s.modesNow.any fun m => modeNeedsDomain m d) ||
      (s.modesNow.any opensContexts && r.group.any (fun d => decide (dSkl ≤ d ∧ d < dSkl + 12)) &&
        (List.range 12).all fun k => decide (r.group.contains (dSkl + k) = true ∨ 2 ≤ s.fld F.PWR_DOM_host_req (dSkl + k))))

/-- A domain as a unit: of a header shortfall, of its Skillet, of its bank. -/
def domUnits (d : Nat) : List (Nat × Nat) :=
  [(0x0103, d), (0x0104, d)] ++ (if dSkl ≤ d ∧ d < dSkl + 12 then [(0x0401, d - dSkl)] else []) ++
    if dLar ≤ d ∧ d < dLar + 8 then [(0x0302, d - dLar)] else []

/-- A domain of the group is under recovery (R570). -/
def State.powerFault (s : State) (r : PwrReq) : Bool :=
  r.group.any fun d => (domUnits d).any fun u => s.underRecovery u.1 u.2

/-- A setpoint and bias are legal for ON (R541). -/
def setpointOk (r : PwrReq) : Bool :=
  decide (r.target ≠ 0) || !(r.group.any hasSetpoint) || decide (20 ≤ r.vOn ∧ r.vOn ≤ 50 ∧ r.fbias ≤ 6)

/-- The test that refuses a request. -/
def State.powerRefused (s : State) (r : PwrReq) : Option Rsp :=
  if r.target = 3 ∨ r.group = [] ∨ r.group.all (fun d => hostDomain d && domainAllows d r.target) = false ∨
      setpointOk r = false then some (rspErr stBadArg)
  else if s.powerFault r then some (rspErr stFault)
  else if s.powerMode r then some (rspErr stMode)
  else none

/-- Take an ON request: setpoints at once, transitions for the domains that are down. -/
def State.powerOn (s : State) (r : PwrReq) : State :=
  let s := s.hostReq 0 r.group
  let s := (r.group.filter hasSetpoint).foldl (fun s d =>
    ((s.setFld F.PWR_DOM_v_on d r.vOn).setFld F.PWR_DOM_fbias d r.fbias).setFlag F.PWR_DOM_fbias_held d
      (s.pwr.biasOff && decide (r.fbias ≠ 0))) s
  let l := r.group.filter fun d => decide (s.domState d ≠ 0)
  if l = [] then s.stageRsp r.cmd.mbx (rspOk)
  else
    let acc := l.contains dPan && decide (s.domState dPan = 2)
    let j : PwrJob := { cmd := r.cmd, target := 0, lowest := r.group.foldl min 63, left := l, accepted := acc }
    let s := s.startTrans 0 l
    let s := { s with pwr := { s.pwr with jobs := s.pwr.jobs ++ [j] } }
    if acc then s.stageRsp r.cmd.mbx rspAccepted else s

/-- Evaluate a request (R543-R548). -/
def State.takePower (s : State) (r : PwrReq) : State :=
  match s.powerRefused r with
  | some rsp => s.stageRsp r.cmd.mbx rsp
  | none =>
    if r.group.any s.domBusy then { s with pwr := { s.pwr with waiting := s.pwr.waiting ++ [r] } }
    else if r.target = 0 then s.powerOn r
    else if r.group.all (fun d => decide (s.domState d = r.target)) then (s.hostReq r.target r.group).stageRsp r.cmd.mbx rspOk
    else s.askGroup (some r.cmd) r.target r.group

/-- The waiting requests are evaluated in order (R548). -/
def State.evalWaiting (s : State) : State :=
  let l := s.pwr.waiting
  l.foldl State.takePower { s with pwr := { s.pwr with waiting := [] } }

/-- A refusal, no answer or a wake stops an entry (R547): its domains stay as they were, the response names the refuser. -/
def State.rollback (s : State) (e : PwrEntry) (d b cause : Nat) : State :=
  let s := e.group.foldl (fun s d => s.setFlag F.PWR_DOM_busy d (s.trans d).isSome) (s.dropEntry e)
  let s := (s.setFld F.PWR_DOM_refused d 1).setFld F.PWR_DOM_refuse_cause d cause
  let s := { s with pwr := { s.pwr with
      refusals := Store.set (fun _ => 0) s.pwr.refusals d (Store.get (fun _ => 0) s.pwr.refusals d + 1) } }
  let s := match e.cmd with
    | some c => s.stageRsp c.mbx { status := stBusy, words := [toWord (d + 256 * b + 2 ^ 16 * cause)] }
    | none => s
  s.evalWaiting

/-- A block has agreed. -/
def State.agreed (s : State) (e : PwrEntry) (d b : Nat) : State :=
  let e' := { e with left := e.left.erase (d, b) }
  let s := { s with pwr := { s.pwr with entries := s.pwr.entries.map fun x => if x = e then e' else x } }
  if e'.left = [] then s.isolate e' else s

/-- A block answers a stop request (R546, R547). -/
def execDomainBlockAnswer (d b : Nat) (s : State) : Outcome State Fault Refusal :=
  match s.pwr.entries.find? fun e => e.left.contains (d, b) with
  | none => .next s
  | some e => match s.blockRefuses d b with
    | some cause => .next (s.rollback e d b cause)
    | none => .next (s.agreed e d b)

/-- 20 µs without an answer (R547): the oldest entry that still waits. -/
def execDomainAnswerTimeout (s : State) : Outcome State Fault Refusal :=
  match s.pwr.entries with
  | [] => .next s
  | e :: _ => match e.left with
    | [] => .next s
    | (d, b) :: _ => .next ((s.elapseTo (e.start + 20000)).rollback e d b 3)

/-- A wake source for a domain (R549). -/
def State.wakeDomain (s : State) (d : Nat) : State :=
  let s := if d = dMgmt then { s with pwr := { s.pwr with stalled := false } } else s
  match s.entryOf d with
  | some e => (s.setFld F.PWR_DOM_wake_race d 1).rollback e d 0 4
  | none => match s.trans d with
    | some 0 => s
    | some _ => s.setWake d true
    | none => if s.domState d = 0 ∨ (s.followed d).isSome = true then s else s.setTrans d (some 0)

/-- A path's actuator and applier as after reset: the identity set, no target (R311, R540). -/
def State.loseActuator (s : State) (p : Nat) : State :=
  let s := s.dropTarget p
  let s := s.setDpd p { s.dpdOf p with active := identitySet, settled := identitySet, settledSrc := 0 }
  (s.setFld F.DPD_STAT_src p 0).setFld F.DPD_STAT_apply_pos p 0

/-- An RX beam without the weights of COL: both banks 0, none of them loaded (R204, R540, R545). -/
def State.loseRxBeam (s : State) (b : Nat) : State :=
  (((s.setFld F.BEAM_RX_STAT_shadow_fresh b 0).setFld F.BEAM_RX_STAT_shadow_valid b 0).setFld F.BEAM_RX_STAT_active_bank b 0).setFld
    F.BEAM_RX_AALL_a_all b 0

/-- The same of a TX beam and TXB. -/
def State.loseTxBeam (s : State) (b : Nat) : State :=
  ((s.setFld F.TXB_STAT_shadow_fresh b 0).setFld F.TXB_STAT_shadow_valid b 0).setFld F.TXB_STAT_active_bank b 0

/-- COL in OFF loses the RX weights, TXB the TX weights and the actuators' sets (R539, R540). -/
def State.loseWeights (s : State) (d : Nat) : State :=
  let keep (x : Nat × Word) : Bool := if d = dCol then decide (8192 ≤ x.1) else decide (x.1 < 8192)
  let s : State := { s with beam := { s.beam with w := s.beam.w.filter keep } }
  if d = dCol then (List.range 64).foldl State.loseRxBeam s
  else (List.range 64).foldl State.loseActuator ((List.range 32).foldl State.loseTxBeam s)

/-- What a domain's arrival in a state means for its contents (R451, R462, R540). -/
def State.domArrives (s : State) (d from_ to_ : Nat) : State :=
  if dLar ≤ d ∧ d < dLar + 8 then
    if to_ = 2 then
      let b := d - dLar
      let s := s.loseBank b
      { s with mem := { s.mem with
          tiles := s.mem.tiles.filter fun t => decide (t.2.state = .quarantined) || !decide (768 * b ≤ t.1 ∧ t.1 < 768 * (b + 1)) } }
    else s
  else if d = dPan then
    let st := s.fld F.MEM_PAN_STAT_state
    if to_ = 2 then (if st = 2 ∨ st = 3 then s.pantryTo 4 0 else s)
    else if to_ = 1 then (if st = 2 then s.pantryTo 3 0 else s)
    else if from_ = 1 ∧ st = 3 then s.pantryTo 2 0
    else if from_ = 2 ∧ st = 4 then s.pantryTo 1 0
    else s
  else if (to_ = 2 ∨ from_ = 2) ∧ (d = dCol ∨ d = dTxb) then s.loseWeights d
  else s

/-- A PWR_DOMAIN_SET ends when its last domain has arrived (R559, R561). -/
def State.jobArrived (s : State) (d : Nat) : State :=
  let l := s.pwr.jobs.map fun j => { j with left := j.left.erase d }
  let s := { s with pwr := { s.pwr with jobs := l.filter fun j => decide (j.left ≠ []) } }
  (l.filter fun j => decide (j.left = [])).foldl (fun s j =>
    if j.accepted then s.post 0x0A01 clsDone (toWord (stOk + 256 * (j.lowest % 64) + 2 ^ 14 * j.target)) (some j.cmd)
    else s.stageRsp j.cmd.mbx rspOk) s

/-- OPH is permitted (R180, R553). -/
def State.ophOk (s : State) (d : Nat) : Bool :=
  if d = dCol then !colHeavy s.quadRate s.enabledBeams (fun b => s.fld F.BEAM_RX_CFG_qmask b)
  else if d = dTxb then
    (List.range 4).all (fun q => decide (s.sideState (2 * q + 1) ≠ sRun)) &&
      s.bursts.all fun x => decide (x.2.phase = .waiting) && !atOrAfter (tAdd s.now 100000) x.2.compare
  else decide (s.fld F.SIEVE_CFG_preset (d - dSieve) ≠ 0)

/-- A clocked domain that comes back takes its operating point (R555). -/
def State.opAtExit (s : State) (d : Nat) : State :=
  if opDomain d = true ∧ (s.opFixed d || !s.ophOk d) = true then s.reachOpf d else s

/-- An observation receiver is ON for the work that starts on it, which has woken it (R543, R549). -/
def State.orxOn (s : State) (q : Nat) : State :=
  let d := dOrx q
  let s := s.wakeDomain d
  if (s.trans d).isSome then (((s.setWake d false).setTrans d none).setFld F.PWR_DOM_state d 0).jobArrived d else s

/-- The work over, the receiver goes back where the host or SENTINEL wants it (R39, R543). -/
def State.orxRest (s : State) (q : Nat) : State :=
  let d := dOrx q
  if (s.fld F.PWR_DOM_host_req d = 2 ∨ (s.modeNo = mSentinel ∧ s.fld F.SYS_MODE_awake_q ≠ q)) ∧ s.domState d = 0 ∧
      s.domBusy d = false then s.askGroup none 1 [d]
  else s

/-- A domain completes its transition (R548, R549, R556). -/
def execDomainTransitionDone (d : Nat) (s : State) : Outcome State Fault Refusal :=
  match s.trans d with
  | none => .next s
  | some t =>
    let was := s.fld F.PWR_DOM_state d
    let s := (s.setTrans d none).setFld F.PWR_DOM_state d t
    let s := (s.domArrives d was t).jobArrived d
    let s := if t = 0 then s.opAtExit d else s
    let s := if t ≠ 0 ∧ Store.get (fun _ => false) s.pwr.wake d = true then
        ((s.setWake d false).setFld F.PWR_DOM_wake_race d 1).setTrans d (some 0)
      else s.setWake d false
    .next s.evalWaiting

/-! ### Cores (R550-R552) -/

/-- The management core executes WAIT (R550, R552): a wake source in the same handshake wins. -/
def execMgmtWait (raced : Bool) (s : State) : Outcome State Fault Refusal :=
  if 5 ≤ s.stage ∧ s.domBusy dMgmt = false ∧ s.domState dMgmt = 0 ∧ s.pwr.stalled = false then
    if raced then .next (s.setFld F.PWR_DOM_wake_race dMgmt 1)
    else
      let s := { s with pwr := { s.pwr with stalled := true } }
      if s.fld F.PWR_MODE_mode = 0 ∨ s.needOf dMgmt = 2 then .next s else .next (s.askGroup none 1 [dMgmt])
  else .next s

/-- An idle Skillet control core WAITs into RET (R551, R552). -/
def execSkilletWait (k : Nat) (raced : Bool) (s : State) : Outcome State Fault Refusal :=
  let d := dSkl + k
  if k < 12 ∧ s.domBusy d = false ∧ s.domState d = 0 ∧ s.sklPlaced k = false ∧ s.sklFits k = false ∧
      s.assistOf k = none then
    if raced then .next (s.setFld F.PWR_DOM_wake_race d 1) else .next (s.askGroup none 1 [d])
  else .next s

/-! ### Operating points (R553-R555, R522) -/

/-- A change is armed that may need OPF, so that AUTO does not lower a domain before it (R554). -/
def State.opPending (s : State) : Bool :=
  s.mode.pend.isSome || (List.range 16).any fun u => match s.actOf u with
    | some (.sieveCfg ..) => true
    | some (.beamCfg ..) => true
    | _ => false

/-- The divider has moved: OPF or OPH (R555). -/
def State.dividerMoved (s : State) (d : Nat) (c : OpChange) : State :=
  let s := s.setFlag F.PWR_DOM_oph d (!c.toF)
  if c.toF then s.setOp d none else s.setOp d (some { c with second := true, ramp := 0 })

/-- The supply has arrived: 0.80 V for OPF, 0.65 V for OPH. -/
def State.supplyMoved (s : State) (d : Nat) (c : OpChange) : State :=
  let s := s.setFld F.PWR_DOM_v_on d (if c.toF then 50 else 20)
  if c.toF then s.setOp d (some { c with second := true })
  else (s.setOp d (if c.again then some { toF := true } else none)).evalWaiting

/-- A step of a change ends and the next starts; with none under way, AUTO lowers a domain whose condition holds. COL's
divider moves by the ramp of R522. While the device runs on HOSC a divider stays (R558). -/
def execOperatingPointStep (d : Nat) (s : State) : Outcome State Fault Refusal :=
  if opDomain d = false ∨ s.onHosc = true then .next s
  else match s.opChange d with
    | none =>
      if s.flag F.PWR_DOM_oph d = false ∧ s.opFixed d = false ∧ s.ophOk d = true ∧ s.opPending = false ∧
          s.domState d = 0 ∧ s.domBusy d = false then .next (s.setOp d (some { toF := false }))
      else .next s
    | some c =>
      if c.toF = c.second then (if d = dCol then .next s else .next ((s.dividerMoved d c).evalWaiting))
      else .next (s.supplyMoved d c)

/-- One of eight steps of the COL divider ramp (R522). -/
def execColDividerRampStep (s : State) : Outcome State Fault Refusal :=
  match s.opChange dCol with
  | some c =>
    if c.toF = c.second ∧ s.onHosc = false then
      let s := s.elapse 1000
      if c.ramp + 1 < 8 then .next (s.setOp dCol (some { c with ramp := c.ramp + 1 }))
      else .next ((s.dividerMoved dCol c).evalWaiting)
    else .next s
  | none => .next s

/-- The burst whose compare comes first among those that wait for it. -/
def State.nextCompare (s : State) : Option (Nat × Burst) :=
  (s.bursts.filter fun x => decide (x.2.phase = .waiting)).foldl (fun best x => match best with
    | none => some x
    | some b => if x.2.compare ≠ b.2.compare ∧ atOrAfter b.2.compare x.2.compare = true then some x else some b) none

/-- 100 µs before a burst compare TXB is raised to OPF (R554). -/
def execTxbOpfRaise (s : State) : Outcome State Fault Refusal :=
  match s.nextCompare with
  | none => .next s
  | some x => .next ((s.elapseTo (tAdd x.2.compare (-100000))).raiseOp dTxb)

/-! ### Commands (R559, R629-R631) -/

def specPwrDomainSet : CmdSpec :=
  { opcode := 0x0A01, minLen := 3, maxLen := 3, masks := [0x00073F03, mAll, mAll]
    units := fun q => ((maskList 32 (q.arg 2).toNat) ++ (maskList 32 (q.arg 3).toNat).map (32 + ·)).flatMap domUnits }

def execPwrDomainSet (q : Req) (s : State) : Outcome State Fault Refusal :=
  match s.precheck specPwrDomainSet q with
  | some st => .next (s.stageRsp q.mbx (rspErr st))
  | none => .next (s.takePower
      { cmd := q.cmd, target := bits (q.arg 1) 1 0, vOn := bits (q.arg 1) 13 8, fbias := bits (q.arg 1) 18 16
        group := maskList 64 (pathMask (q.arg 2) (q.arg 3)) })

def specPwrOpSet : CmdSpec := { opcode := 0x0A02, minLen := 1, maxLen := 1, masks := [0x3F] }

def svcPwrOpSet (q : Req) (s : State) : State × Rsp :=
  let w := q.arg 1
  let s := ((s.setFld F.PWR_SIEVE_OP_fixed 0 (bits w 3 0)).setFlag F.PWR_OP_col_fixed 0 (bitAt w 4)).setFlag
    F.PWR_OP_txb_fixed 0 (bitAt w 5)
  (([dCol, dTxb, dSieve, dSieve + 1, dSieve + 2, dSieve + 3].filter s.opFixed).foldl State.raiseOp s, rspOk)

def execPwrOpSet (q : Req) (s : State) : Outcome State Fault Refusal := .next (serve specPwrOpSet q (svcPwrOpSet q) s)

def specPwrStatGet : CmdSpec :=
  { opcode := 0x0A03, minLen := 1, maxLen := 1, masks := [0x3F], units := fun q => domUnits (bits (q.arg 1) 5 0) }

def svcPwrStatGet (q : Req) (s : State) : State × Rsp :=
  let d := bits (q.arg 1) 5 0
  let n (m : Store Nat) : Nat := Store.get (fun _ => 0) m d
  s.check [(!isDomain d, rspErr stBadArg)]
    (let s := s.refreshDom d
     (s, rspOk ([s.reg .PWR_DOM d, pack16 (satN 16 (n s.pwr.refusals)) (satN 16 (n s.pwr.forced)),
       toWord (domainBlocks d).length] ++ packBytes (domainBlocks d).length (domainBlocks d))))

def execPwrStatGet (q : Req) (s : State) : Outcome State Fault Refusal :=
  .next (serve specPwrStatGet q (svcPwrStatGet q) s)

def specVmonCfgSet : CmdSpec := { opcode := 0x0A04, minLen := 2, maxLen := 2, masks := [0xFF, 0x1F1F] }

def svcVmonCfgSet (q : Req) (s : State) : State × Rsp :=
  let rst := bits (q.arg 2) 12 8
  let warn := bits (q.arg 2) 4 0
  s.check [maskEmpty (bits (q.arg 1) 7 0),
           (!decide (4 ≤ warn ∧ warn ≤ 16 ∧ 12 ≤ rst ∧ rst ≤ 24 ∧ warn + 4 ≤ rst), rspErr stBadArg)]
    ((maskList 8 (bits (q.arg 1) 7 0)).foldl (fun s r => s.setReg .VMON_CFG r (toWord (warn + 256 * rst))) s, rspOk)

def execVmonCfgSet (q : Req) (s : State) : Outcome State Fault Refusal :=
  .next (serve specVmonCfgSet q (svcVmonCfgSet q) s)

/-! ### Supply warnings (R557, R575) -/

/-- A rail falls below VMON_WARN; `code` is its voltage code (R473, R580). -/
def execVmonWarnCrossing (rail code : Nat) (s : State) : Outcome State Fault Refusal :=
  if rail < 8 ∧ (s.fld F.VMON_STAT_warn).testBit rail = false then
    let s := (s.setFld F.VMON_STAT_warn 0 (s.fld F.VMON_STAT_warn + 2 ^ rail)).setFld F.VMON_STAT_warn_seen 0
      (s.fld F.VMON_STAT_warn_seen ||| 2 ^ rail)
    let s := { s with pwr := { s.pwr with warnLow := true } }
    .next ((s.post 0x0A02 clsWarn (toWord rail)).raiseFault 0x0101 rail (toWord code))
  else .next s

/-- A rail has been above VMON_WARN + 1.0 % for 2 µs; PWR_WARN_N rises with the last (log entry 21). -/
def execVmonWarnRecovery (rail code : Nat) (s : State) : Outcome State Fault Refusal :=
  if rail < 8 ∧ (s.fld F.VMON_STAT_warn).testBit rail = true then
    let s := s.setFld F.VMON_STAT_warn 0 (s.fld F.VMON_STAT_warn - 2 ^ rail)
    let s := { s with pwr := { s.pwr with warnLow := decide (s.fld F.VMON_STAT_warn ≠ 0) } }
    .next ((s.logFault 0x0101 1 rail 0 false false false (toWord code)).post 0x0A02 clsWarn (toWord (rail + 8)))
  else .next s

end Sys2Proof.Machine
end

