-- ==== Sys2Proof/Machine/Clocks.lean ====
section
/-! DEFINITION. Chapter 16: the clock monitor, REFCLK failure and resume, the sample-clock PLLs, gates, the pace monitor,
and the clock commands. -/

namespace Sys2Proof.Machine

open Host

/-! ### Rates and windows (R507, R528, R532) -/

/-- Nominal count of a rate code in a window: 1 61.44 MHz, 2 122.88 MHz, 3 245.76 MHz. -/
def refNominal (rate : Nat) : Nat :=
  match rate with
  | 1 => 614
  | 2 => 1229
  | 3 => 2458
  | _ => 0

/-- Half-width of an accepted range: round(0.02 n) + 1. -/
def refTol (n : Nat) : Nat := (2 * n + 50) / 100 + 1

/-- A count lies in the range of a nominal. -/
def inRange (n c : Nat) : Bool := decide (n ≤ c + refTol n ∧ c ≤ n + refTol n)

/-- The rate whose range holds a count; 0 for none. -/
def refRateOf (c : Nat) : Nat :=
  if inRange (refNominal 1) c then 1 else if inRange (refNominal 2) c then 2 else if inRange (refNominal 3) c then 3 else 0

/-- Nominal LNK_REFCLK count (R356, R532). -/
def State.lnkNominal (s : State) : Nat := if s.sys.refsel then 1611 else 1563

/-- Both counts fail in one direction by ratios that agree within 0.5 % (R532; log entry 22). -/
def State.blamesHosc (s : State) (ref lnk : Nat) : Bool :=
  let nr := refNominal (s.fld F.CLK_STAT_ref_rate)
  let nl := s.lnkNominal
  decide (nr ≠ 0) && !inRange nr ref && !inRange nl lnk && (decide (nr < ref) == decide (nl < lnk)) &&
    decide (200 * ((ref * nl : Int) - lnk * nr).natAbs ≤ lnk * nr)

/-! ### The clock master (R512) -/

/-- A quadrant can be master: in service, its PLL locked and resynchronised. -/
def State.masterOk (s : State) (q : Nat) : Bool := s.quadServed q && (s.fld F.CLK_STAT_spll_lock).testBit q

/-- The preferred quadrant, or the next that can be master, in ascending order with a wrap. -/
def State.pickMaster (s : State) : Option Nat :=
  ((List.range 4).map fun i => (s.fld F.CLK_CFG_master + i) % 4).find? s.masterOk

/-- Sources and the ready flags (R521): 0 HOSC, 1 tick clock, 2 REFCLK direct. -/
def State.setSources (s : State) (c : Nat) : State :=
  ((s.setFld F.CLK_SRC_time_unit 0 c).setFld F.CLK_SRC_pa_tick 0 c).setFld F.CLK_SRC_rffe 0 c

/-- PLL q locked and resynchronised, or not. -/
def State.setSpll (s : State) (q : Nat) (b : Bool) : State :=
  let m := s.fld F.CLK_STAT_spll_lock
  let s := s.setFld F.CLK_STAT_spll_lock 0 (if b then m ||| 2 ^ q else m &&& (15 - 2 ^ q))
  (s.setFlag F.SPLL_STAT_lock q b).setFlag F.SPLL_STAT_synced q b

/-- rdy_tick: the master's PLL is locked and resynchronised. -/
def State.tickReady (s : State) : State :=
  s.setFlag F.CLK_SRC_rdy_tick 0 ((s.fld F.CLK_STAT_spll_lock).testBit (s.fld F.CLK_STAT_master_cur))

/-- The four sample-clock PLLs lock, the master is chosen afresh (R511, R512, R534). -/
def State.spllsUp (s : State) : State :=
  let s := (List.range 4).foldl (fun s q => s.setSpll q true) s
  (s.setFld F.CLK_STAT_master_cur 0 (s.pickMaster.getD (s.fld F.CLK_CFG_master))).tickReady

/-- The REFCLK-derived domains leave HOSC for the master's clocks (R427, R521, R534); without a ready master the switch is
refused. -/
def State.offHosc (s : State) : State :=
  if s.flag F.CLK_SRC_rdy_tick = false then s.setFld F.CLK_EVT_switch_refused 0 1
  else ((s.setSources 1).setFld F.CLK_STAT_on_hosc 0 0).setFld F.TIME_STAT_on_hosc 0 0

/-- CLK_RESUMED (R538). -/
def State.postResumed (s : State) (cmd : Option Cmd) : State :=
  s.post 0x020B clsDone (toWord (stOk + 256 * s.fld F.CLK_STAT_ref_rate + 1024 * s.fld F.CLK_STAT_master_cur)) cmd

/-! ### REFCLK failure (R530, R531, R535) -/

/-- The actions of R530 beside mute, NMI and event: HOSC takes over, contexts abort, sides go to SLEEP. -/
def State.toHosc (s : State) : State :=
  let s := (((s.setSources 0).setFld F.CLK_STAT_on_hosc 0 1).setFld F.TIME_STAT_on_hosc 0 1).setFld F.CLK_SRC_rdy_ref 0 0
  let s := (List.range 4).foldl (fun s q => s.setSpll q false) s
  let s := (s.tickReady).abortEvery cSampleLoss fun _ _ => true
  (List.range 8).foldl (fun s k => if sStandby ≤ s.sideState k then s.toward k sSleep else s) s

/-- A failure of REFCLK after HOSC_READY: `act` by the activity detector, otherwise by the window count; `first`: it
preceded HOSC_READY. -/
def State.refFails (s : State) (act first : Bool) : State :=
  let again := s.onHosc && !s.flag F.CLK_STAT_resuming
  let was := s.flag F.CLK_STAT_ref_ok
  let s := (s.setFld F.CLK_STAT_ref_ok 0 0).setFld F.CLK_STAT_resuming 0 0
  let s := { s with clk := { s.clk with passes := 0, resume := none } }
  let s := if s.stage = 6 ∧ was = true then { s with clk := { s.clk with noRef := 0, noRefAt := s.now } } else s
  if again then s
  else
    let s := ((s.raiseS3 0x0201 0 0 id).wakeDomain dMgmt).toHosc.setFld F.CLK_EVT_ref_fail 0 1
    let s := if first then s.setFld F.CLK_STAT_hold_first 0 1 else s
    s.post 0x020A clsFault
      (toWord ((if act then 1 else 2) + (if first then 4 else 0) + 65536 * s.fld F.CLK_MON_ref_count))

/-- No REFCLK edge for 0.5 µs (R529): before HOSC_READY the domains stop in CLK_HOLD (R531). -/
def execRefclkActivityLoss (s : State) : Outcome State Fault Refusal :=
  if s.stage = 0 then .next s
  else if s.flag F.CLK_STAT_hosc_ready then .next (s.refFails true false)
  else .next (({ s with time := { s.time with held := true } } : State).setFld F.CLK_STAT_clk_hold 0 1)

/-! ### The monitor's windows, ref_ok, resume (R528, R532-R535) -/

/-- HOSC is blamed (R532): no switch is made; its NMI wakes MGMT (R549, R578). -/
def State.suspectHosc (s : State) (ref lnk : Nat) : State :=
  if s.flag F.CLK_STAT_hosc_suspect then s
  else (((s.setFld F.CLK_STAT_hosc_suspect 0 1).post 0x020E clsWarn (pack16 ref lnk)).raiseFault 0x0204 0).wakeDomain dMgmt

/-- A window of 10 µs ends with its two counts (R507, R528, R532, R534). -/
def execClockMonitorWindow (ref lnk : Nat) (s : State) : Outcome State Fault Refusal :=
  if s.flag F.CLK_STAT_hosc_ready = false then .next s
  else
    let s := (s.setFld F.CLK_MON_ref_count 0 ref).setFld F.CLK_MON_lnk_count 0 lnk
    let rate := refRateOf ref
    if s.clk.firstWin then
      let s := { s with clk := { s.clk with firstWin := false } }
      if rate = 0 then .next (s.refFails false false)
      else .next (((s.setFld F.CLK_STAT_ref_rate 0 rate).setFld F.CLK_STAT_ref_ok 0 1).setFld F.CLK_SRC_rdy_ref 0 1)
    else if s.flag F.CLK_STAT_ref_ok then
      if rate = s.fld F.CLK_STAT_ref_rate then .next s
      else if s.blamesHosc ref lnk then .next (s.suspectHosc ref lnk)
      else .next (s.refFails false false)
    else
      let n := if rate = 0 then 0 else if rate = s.clk.passRate then s.clk.passes + 1 else 1
      .next { s with clk := { s.clk with passes := n, passRate := rate } }

/-- A resume starts (R534). -/
def State.startResume (s : State) (cmd : Option Cmd) : State :=
  let s := s.setFld F.CLK_STAT_resuming 0 1
  { s with clk := { s.clk with resume := cmd, found := [] } }

/-- 100 consecutive windows have passed at one rate (R533, R534). -/
def execRefOkRestored (s : State) : Outcome State Fault Refusal :=
  if s.flag F.CLK_STAT_ref_ok = false ∧ 100 ≤ s.clk.passes then
    let s := ((s.setFld F.CLK_STAT_ref_rate 0 s.clk.passRate).setFld F.CLK_STAT_ref_ok 0 1).setFld F.CLK_SRC_rdy_ref 0 1
    let s := { s with clk := { s.clk with passes := 0, noRef := 0 } }
    let s := if s.stage = 6 then { s with cal := { s.cal with step := 1 } } else s
    if s.stage = 7 ∧ s.onHosc = true ∧ s.flag F.CLK_CFG_auto_resume = true ∧ s.flag F.CLK_STAT_resuming = false then
      .next (s.startResume none)
    else .next s
  else .next s

/-- Whole milliseconds of T48 (R29). -/
def nextMs (t : T48) : T48 := BitVec.ofNat 48 ((t.toNat + 999999) / 1000000 * 1000000)

/-- Each second without valid REFCLK before READY (R533). -/
def execClkNoRefTick (s : State) : Outcome State Fault Refusal :=
  if s.stage = 6 ∧ s.flag F.CLK_STAT_ref_ok = false then
    let s := s.elapseTo (s.clk.noRefAt + 1000000000)
    let n := s.clk.noRef + 1
    let s := { s with clk := { s.clk with noRef := n, noRefAt := s.clk.noRefAt + 1000000000 } }
    .next (s.post 0x0210 clsWarn (pack16 (satN 16 n) (s.fld F.CLK_MON_ref_count)))
  else .next s

/-! ### Sample-clock PLLs (R511-R513) -/

/-- A quadrant's paths leave service with its sample clock (R513): beams lose them, their samples settle. -/
def State.parkQuad (s : State) (q : Nat) : State :=
  let s := { s with clk := { s.clk with parked := Store.set (fun _ => 0) s.clk.parked q 0xFFFF } }
  let s := { s with cal := { s.cal with
      ok9 := Store.set (fun _ => 0) (Store.set (fun _ => 0) s.cal.ok9 (2 * q) 0) (2 * q + 1) 0 } }
  (pathsOfQuad q).foldl (fun s p =>
    if 2 ≤ s.fld F.RX_PATH_STAT_state p then s.settleOpen p else s) (s.serveQuad q)

/-- The stop of a failover empties the queues of the paths that transmit (R282, R512). -/
def State.queuesStop (s : State) : State :=
  ((List.range 64).filter fun p => decide (s.sideState (2 * quadOf p + 1) = sRun) && !s.isDry p).foldl
    State.queueUnderflow s

/-- A failover to another master (R512): 1.25 µs after the loss; every context that combines a beam aborts. -/
def State.failover (s : State) : State :=
  let old := s.fld F.CLK_STAT_master_cur
  match s.pickMaster with
  | none => s.tickReady
  | some q =>
    let s := ((s.elapse 1250).queuesStop.setFld F.CLK_STAT_master_cur 0 q).tickReady
    ((s.abortEvery cSampleLoss fun _ x => x.state.live && !x.retry).setFld F.CLK_EVT_failover 0 1).post 0x020C clsWarn
      (toWord (old + 4 * q))

/-- The recovery of SPLL_REPEAT (R571): the paths are out already; nothing else happens before its calibration. -/
def State.spllRepeat (s : State) (q : Nat) : State := s.parkQuad q

/-- A sample-clock PLL loses lock (R512, R513, R564). -/
def execSpllLockLoss (q : Nat) (s : State) : Outcome State Fault Refusal :=
  if q < 4 ∧ (s.fld F.CLK_STAT_spll_lock).testBit q = true then
    let master := decide (s.fld F.CLK_STAT_master_cur = q)
    let s := ((s.setSpll q false).setFld F.CLK_EVT_spll_unlock 0 1).bump F.SPLL_STAT_unlocks q
    let s := (s.parkQuad q).quadMute q
    let s := s.post 0x020D clsWarn (toWord (q + if master then 4 else 0))
    let s := if master = true ∧ s.onHosc = false ∧ s.flag F.CLK_STAT_ref_ok = true then s.failover else s.tickReady
    let r := s.thirdLoss (8 + q)
    .next (if r.1 then r.2.raiseThen 0x0202 q 0 (fun s => s.spllRepeat q) else r.2)
  else .next s

/-! ### Gates and the pace monitor (R523-R525) -/

/-- What the initiator of a cut-off transfer receives (R523). -/
def State.gateError (s : State) (who : Initiator) : State :=
  match who with
  | .nobody => s
  | .host p a rd => (if rd then s.setRdata p 0 else s).accErr p a errGate
  | .ladle n => if n < 32 ∧ s.fld F.DMA_CH_STAT_state n ≠ dIdle then s.dmaHalt n 2 else s
  | .tilin m => if m < 7 then s.stageRsp m (rspErr stFault) else s

/-- A gate without acknowledgement for 10 µs is forced (R523, R546): in a sequencer entry that counts as agreement. -/
def execGateHandshakeTimeout (d b : Nat) (who : Initiator) (s : State) : Outcome State Fault Refusal :=
  if isDomain d then
    let s := (s.bump F.CLK_GATE_CNT_forced 0).setFld F.CLK_EVT_gate_forced 0 1
    let s := (s.post 0x0212 clsWarn (toWord d)).raiseFault 0x0207 d
    let s := s.gateError who
    match s.pwr.entries.find? fun e => e.left.contains (d, b) with
    | none => .next s
    | some e =>
      let s := s.setFld F.PWR_DOM_forced_gate d 1
      let s := { s with pwr := { s.pwr with
          forced := Store.set (fun _ => 0) s.pwr.forced d (Store.get (fun _ => 0) s.pwr.forced d + 1) } }
      .next (s.agreed e d b)
  else .next s

/-- The pace index refreshes (R524, R525): below 1,024 for 100 µs it is reported once (log entry 23). -/
def execPaceMonitorRefresh (index : Nat) (s : State) : Outcome State Fault Refusal :=
  let s := s.setFld F.CLK_PACE_index 0 index
  let s := s.setFld F.CLK_PACE_min 0 (min (s.fld F.CLK_PACE_min) (s.fld F.CLK_PACE_index))
  if 1024 ≤ index then .next { s with clk := { s.clk with paceSince := none, paceTold := false } }
  else
    let low := match s.clk.paceSince with
      | some _ => min s.clk.paceLowest index
      | none => index
    let since := s.clk.paceSince.getD s.now
    let s := { s with clk := { s.clk with paceSince := some since, paceLowest := low } }
    if 100000 ≤ (s.now - since).toNat ∧ s.clk.paceTold = false then
      let s := ({ s with clk := { s.clk with paceTold := true } } : State).setFld F.CLK_EVT_pace_low 0 1
      .next ((s.postLimited 0x020F 0 (toWord (low % 65536)) s.now).raiseFault 0x0206 0)
    else .next s

/-! ### Commands (R534, R536, R613) -/

def specClkCfgSet : CmdSpec :=
  { opcode := 0x0250, minLen := 2, maxLen := 2, masks := [0x0003FF07, 0x7FFFFFFF]
    units := fun q => (maskList 8 (bits (q.arg 1) 15 8)).map fun k => (0x0203, k) }

def svcClkCfgSet (q : Req) (s : State) : State × Rsp :=
  let w := q.arg 1
  let l := maskList 8 (bits w 15 8)
  s.check [(decide (bits w 17 16 = 3), rspErr stBadArg), (decide (l ≠ [] ∧ q.arg 2 = 0), rspErr stBadArg)]
    (let s := (s.setFld F.CLK_CFG_master 0 (bits w 1 0)).setFlag F.CLK_CFG_auto_resume 0 (bitAt w 2)
     let s := l.foldl (fun s k =>
        let s := (s.setFld F.SYN_CTL_whisk_mode k (bits w 17 16)).setReg .WHISK_SEED k (q.arg 2)
        s.setSide k { s.side k with whiskNew := true }) s
     let go := bitAt w 2 && s.flag F.CLK_STAT_ref_ok && s.onHosc && !s.flag F.CLK_STAT_resuming && decide (s.stage = 7)
     (if go then s.startResume none else s, rspOk))

def execClkCfgSet (q : Req) (s : State) : Outcome State Fault Refusal := .next (serve specClkCfgSet q (svcClkCfgSet q) s)

def specClkStatGet : CmdSpec := { opcode := 0x0251 }

def svcClkStatGet (_ : Req) (s : State) : State × Rsp :=
  let n (k : Nat) : Nat := satN 16 (Store.get (fun _ => 0) s.radio.unlocks k)
  (s, rspOk ([s.reg .CLK_STAT 0, s.reg .CLK_MON 0, s.reg .CLK_PACE 0, s.reg .CLK_GATE_CNT 0] ++
    ((List.range 4).map fun q => s.reg .SPLL_STAT q) ++ (List.range 4).map fun q => pack16 (n (2 * q)) (n (2 * q + 1))))

def execClkStatGet (q : Req) (s : State) : Outcome State Fault Refusal :=
  .next (serve specClkStatGet q (svcClkStatGet q) s)

def specClkResume : CmdSpec := { opcode := 0x0252 }

def svcClkResume (q : Req) (s : State) : State × Rsp :=
  s.check [(!s.onHosc, rspErr stBadArg), (s.flag F.CLK_STAT_resuming, rspErr stBusy),
           (!s.flag F.CLK_STAT_ref_ok, rspErr stNotReady)]
    (s.startResume (some q.cmd), rspAccepted)

def execClkResume (q : Req) (s : State) : Outcome State Fault Refusal := .next (serve specClkResume q (svcClkResume q) s)

end Sys2Proof.Machine
end

