-- ==== Sys2Proof/Machine/Dpd.lean ====
section
/-! DEFINITION. Chapter 09: the actuator, the applier, the observation receiver, adaptation, and their commands. -/

namespace Sys2Proof.Machine

open Host

/-! ### The actuator (R307-R310) -/

/-- The newest four samples of z_p, the newest first; zeros before the first. -/
def State.zLine (s : State) (p : Nat) : List Iq :=
  match s.txPath p with
  | some x => (x.z ++ List.replicate 4 (0, 0)).take 4
  | none => List.replicate 4 (0, 0)

/-- The newest output sample saturates (R310). -/
def execActuatorSaturation (p : Nat) (_ : Computed) (s : State) : Outcome State Fault Refusal :=
  let set := (s.dpdOf p).active
  .next (if p < 64 ∧ s.flag F.DPD_CFG_bypass p = false ∧ s.sideState (2 * quadOf p + 1) = sRun ∧
      dpdSum set (s.zLine p) ≠ dpdOut false set (s.zLine p) then
    ((s.bump F.DPD_SAT_CNT_sat_samples p).setFld F.DPD_EVT_sat p 1).postLimited 0x0508 p (toWord p) s.now
  else s)

/-! ### Applying coefficients (R312-R314) -/

/-- A set is valid: sign-extended from bit 23 (R309). -/
def setOk (l : List Word) : Bool := l.all fun w => decide (bits w 31 23 = 0 ∨ bits w 31 23 = 0x1FF)

/-- A new target arrives in a sealed working tile (R312, R314). -/
def State.dpdStage (s : State) (p : Nat) (set : List Word) (src : Nat) : State :=
  let x := s.dpdOf p
  let during := x.target.isSome && decide (x.target ≠ some x.active)
  let s := if during then s.setFld F.DPD_EVT_superseded p 1 else s
  let s := match x.stage with
    | some t => s.freeWork t 1
    | none => s
  let run := s.workRun 1
  let s := match run with
    | some t => ((s.takeWork t 1 1).putTileWords t set).sealTile t
    | none => s
  let y : DpdPath := { x with target := some set, targetSrc := src, reverting := false, stage := run }
  let s := s.setDpd p (if during then y else { y with applyAt := s.now, steps := 0, replaced := 0 })
  (s.setFld F.DPD_STAT_target_valid p 1).setFlag F.DPD_STAT_applying p (decide (set ≠ x.active))

/-- When the next coefficient is replaced: every 2,458 samples of 245.76 MS/s. -/
def DpdPath.nextAt (x : DpdPath) : T48 := tAdd x.applyAt (ceilDiv ((x.steps + 1) * 2458 * 1000000) 245760 : Nat)

/-- The lowest coefficient in which two sets differ. -/
def firstDiff (a b : List Word) : Option Nat := (List.range 32).find? fun i => decide (coefOf a i ≠ coefOf b i)

/-- The active set has reached the target. -/
def State.dpdApplied (s : State) (p : Nat) : State :=
  let x := s.dpdOf p
  let s := s.setDpd p { x with
    settled := x.active, settledSrc := x.targetSrc, target := none, reverting := false
    applies := x.applies + if x.reverting then 0 else 1
    reversions := x.reversions + if x.reverting then 1 else 0 }
  let s := ((s.setFld F.DPD_STAT_src p x.targetSrc).setFld F.DPD_STAT_target_valid p 0).setFld F.DPD_STAT_applying p 0
  s.post 0x0506 clsInfo (toWord (p + (if x.reverting then 64 else 0) + 128 * (x.replaced % 64)))

/-- The applier opens the staged tile; when it fails the settled set becomes the target (R312). -/
def State.dpdOpen (s : State) (p : Nat) : State :=
  let x := s.dpdOf p
  match x.stage with
  | none => s
  | some t =>
    let r := s.openTile t 4 false
    let s := r.2.freeWork t 1
    if r.1 then s.setDpd p { x with stage := none }
    else (s.setDpd p { x with
        stage := none, target := some x.settled, targetSrc := x.settledSrc, reverting := true }).setFld F.DPD_EVT_tile_bad p 1

/-- One interval of the applier (R313): the lowest differing coefficient is replaced whole. -/
def execDpdApplyStep (p : Nat) (s : State) : Outcome State Fault Refusal :=
  if (s.dpdOf p).target.isSome then
    let s := (s.elapseTo (s.dpdOf p).nextAt).dpdOpen p
    let x := s.dpdOf p
    let tgt := x.target.getD x.active
    match firstDiff x.active tgt with
    | none => .next (s.dpdApplied p)
    | some i =>
      let new := (x.active.set (2 * i) (tgt.getD (2 * i) 0)).set (2 * i + 1) (tgt.getD (2 * i + 1) 0)
      let s := (s.setDpd p { x with active := new, steps := x.steps + 1, replaced := x.replaced + 1 }).setFld
        F.DPD_STAT_apply_pos p i
      .next (if new = tgt then s.dpdApplied p else s.setFld F.DPD_STAT_applying p 1)
  else .next s

/-! ### Captures (R317-R321) -/

def State.orxCap (s : State) (q : Nat) : Option OrxCap := Store.get (fun _ => none) s.dpd.cap q
def State.setCap (s : State) (q : Nat) (c : Option OrxCap) : State :=
  { s with dpd := { s.dpd with cap := Store.set (fun _ => none) s.dpd.cap q c } }

def State.orxFit (s : State) (q : Nat) : Option OrxFit := Store.get (fun _ => none) s.dpd.fit q
def State.setFit (s : State) (q : Nat) (f : Option OrxFit) : State :=
  { s with dpd := { s.dpd with fit := Store.set (fun _ => none) s.dpd.fit q f } }

def State.setChosen (s : State) (q : Nat) (p : Option Nat) : State :=
  { s with dpd := { s.dpd with chosen := Store.set (fun _ => none) s.dpd.chosen q p } }

/-- Who holds a quadrant's ORX time: the host. -/
def State.orxHost (s : State) (q : Nat) : Bool :=
  match s.owner resOrx q with
  | some c => !c.internal
  | none => false


/-- DPD_NMSE.age as it stands. -/
def State.refreshNmse (s : State) (p : Nat) : State :=
  match (s.dpdOf p).lastAccept with
  | some t => s.setFld F.DPD_NMSE_age p (satN 14 ((s.ns - t).toNat / 1000000))
  | none => s

/-- A path is eligible (R319). -/
def State.dpdEligible (s : State) (p : Nat) : Bool :=
  s.flag F.DPD_CFG_adapt_en p && !s.flag F.DPD_CFG_bypass p && !s.flag F.TX_PATH_STAT_degraded p &&
    match (s.dpdOf p).lastResult with
    | some t => decide (t + msec (s.fld F.DPD_CFG_period_ms p) ≤ s.ns)
    | none => true

/-- The path a quadrant serves next: the one chosen, or the next eligible after the last served (R319, R320). -/
def State.nextPath (s : State) (q : Nat) : Option Nat :=
  let last := Store.get (fun q => 16 * q + 15) s.dpd.served q
  let next := ((List.range 16).map fun i => 16 * q + (last % 16 + 1 + i) % 16).find? s.dpdEligible
  match Store.get (fun _ => none) s.dpd.chosen q with
  | some p => if s.dpdEligible p then some p else next
  | none => next

/-- The path to which the switch moves 16 µs into a burst, and when (R320): until the capture starts. -/
def State.orxSwitch (s : State) (q : Nat) : Option (Nat × T48) :=
  match s.orxCap q, s.nextPath q with
  | none, some p => (List.range 16).findSome? fun u => (s.burst u).bind fun b =>
      let t := tAdd b.start 16000
      if b.phase = .air ∧ s.drives b q = true ∧ s.paState p = pRfOn ∧ txMode s.modeNo = true ∧ s.orxFit q = none ∧
          56000 ≤ (b.fin - b.air).toNat ∧ atOrAfter s.now t = true ∧ (s.now - t).toNat < 4000 then some (p, t) else none
  | _, _ => none

/-- ORX_STAT as it stands: who holds the time, the switch's input, and whether it settles, 2 µs at most (R316, R320). -/
def State.refreshOrx (s : State) (q : Nat) : State :=
  let s := s.setFlag F.ORX_STAT_host_held q (s.orxHost q)
  match s.orxSwitch q with
  | some (p, t) => (s.setFld F.ORX_STAT_input q (p % 16)).setFlag F.ORX_STAT_settling q (decide ((s.now - t).toNat < 2000))
  | none => s.setFlag F.ORX_STAT_settling q false

/-- Skip causes of R321. -/
def skClipped : Nat := 1
def skLow : Nat := 2
def skAborted : Nat := 3
def skHost : Nat := 4
def skLate : Nat := 5
def skStale : Nat := 6

/-- A capture is skipped: counted, the path keeps its turn (R321). -/
def State.dpdSkip (s : State) (q p cause : Nat) : State :=
  let s := ((s.bump F.ORX_CNT_skips q).setFld F.DPD_EVT_skip p 1).setChosen q (some p)
  let a := s.fld F.ORX_ATT_att p
  let s := if cause = skClipped then s.setFld F.ORX_ATT_att p (min 31 (a + 3))
    else if cause = skLow then s.setFld F.ORX_ATT_att p (a - 3) else s
  { s with dpd := { s.dpd with skips := countAt s.dpd.skips (8 * p + cause) } }

/-- The receiver starts a capture. -/
def State.startCap (s : State) (q : Nat) (c : OrxCap) : State :=
  (((List.range 16).foldl (fun s i => s.useTile (c.tile + i)) (s.orxOn q)).setCap q (some c)).setFld F.ORX_STAT_busy q 1
    |>.setFld F.ORX_STAT_input q (c.path % 16)

/-- An adaptation capture 20 µs into a burst of 56 µs or more that has the path in RF_ON (R320, R325). -/
def execAdaptCaptureStart (q u : Nat) (s : State) : Outcome State Fault Refusal :=
  match s.burst u, s.nextPath q with
  | some b, some p =>
    if q < 4 ∧ b.phase = .air ∧ s.drives b q = true ∧ s.paState p = pRfOn ∧ 56000 ≤ (b.fin - b.air).toNat ∧
        txMode s.modeNo = true ∧ s.orxCap q = none ∧ s.orxFit q = none then
      let s := (s.elapseTo (tAdd b.start (20000 - 586))).setChosen q (some p)
      if s.orxHost q then .next (s.dpdSkip q p skHost)
      else if (s.owner resOrx q).isSome then .next s
      else match s.workRun 16 with
        | none => .next (s.dpdSkip q p skLate)
        | some t =>
          let s := (List.range 16).foldl (fun s i => s.setOwner resTile (t + i) (some ⟨0, 0, true, 1, 0⟩)) s
          let s := s.setOwner resOrx q (some ⟨0, 0, true, 1, 0⟩)
          .next (s.startCap q
            { path := p, att := s.fld F.ORX_ATT_att p, host := none, tile := t, start := s.now, unit := u, before := b.underflow.contains p })
    else .next s
  | _, _ => .next s

/-- A mute, an underflow or the burst's end fell inside an adaptation capture (R321). -/
def State.capAborted (s : State) (c : OrxCap) : Bool :=
  match s.burst c.unit with
  | none => true
  | some b => decide (b.phase ≠ .air) || !atOrAfter b.stop (tAdd c.start 33334) || decide (s.paState c.path ≠ pRfOn) ||
      (b.underflow.contains c.path && !c.before)

/-- The I and Q of a capture word. -/
def iqOf (w : Word) : Int × Int := (sgnN 16 (bits w 15 0), sgnN 16 (bits w 31 16))

/-- Sum of squares of capture words. -/
def energyOf (l : List Word) : Nat := l.foldl (fun n w => n + ((iqOf w).1 * (iqOf w).1 + (iqOf w).2 * (iqOf w).2).toNat) 0

/-- Why a capture does not qualify (R321): a mute comes first (R326), then the table's order. Full scale is 32,767 (R9,
R138). -/
def capSkip (words : List Word) (aborted : Bool) : Option Nat :=
  let orx := words.take 8192
  if aborted then some skAborted
  else if orx.any fun w => decide (32767 ≤ (iqOf w).1.natAbs ∨ 32767 ≤ (iqOf w).2.natAbs) then some skClipped
  else if energyOf (words.drop 8192) * 1000 < 8192 * 32767 ^ 2 ∨ energyOf orx * 10000 < 8192 * 32767 ^ 2 then some skLow
  else none

/-- A capture's words (R317): the receiver's samples, then the actuator outputs of the same instants, the loop delay before the
receiver's; 0 where the actuator gave none. -/
def State.capWords (s : State) (p : Nat) (orx : List Word) : List Word :=
  let d := ((s.dpdOf p).loopNs * 24576 + 50000) / 100000
  let ys := match s.txPath p with
    | some x => ((x.ys ++ List.replicate 9216 (0, 0)).drop d).take 8192
    | none => List.replicate 8192 (0, 0)
  orx ++ ys.reverse.map fun y => BitVec.ofNat 32 (unsN 16 y.1 + 65536 * unsN 16 y.2)

/-- The tiles of a capture hold it and are sealed (R317). -/
def State.sealCap (s : State) (c : OrxCap) (words : List Word) : State :=
  let s := s.putTileWords c.tile words
  (List.range 16).foldl (fun s i =>
    (s.sealTile (c.tile + i)).dropUse (c.tile + i)) s

/-- A capture's working tiles become idle. -/
def State.freeCap (s : State) (t : Nat) : State :=
  (List.range 16).foldl (fun s i => (s.releaseTile (t + i)).setOwner resTile (t + i) (some ⟨0, 0, true, 15, 0⟩)) s

/-- 8,192 samples of the receiver are there (R317, R321). -/
def execOrxCaptureEnd (q : Nat) (orx : List Word) (s : State) : Outcome State Fault Refusal :=
  match s.orxCap q with
  | none => .next s
  | some c =>
    if orx.length = 8192 then
      let s := s.elapseTo (tAdd c.start 33334)
      let words := s.capWords c.path orx
      let s := (((s.sealCap c words).setCap q none).setFld F.ORX_STAT_busy q 0).orxRest q
      match c.host with
      | some cmd =>
        .next ((s.bump F.ORX_CNT_captures q).postAt c.start 0x0507 clsDone (toWord (stOk + 256 * c.path)) (some cmd))
      | none =>
        let bad := capSkip words (s.capAborted c)
        let s := s.setOwner resOrx q none
        match bad with
        | some cause => .next ((s.freeCap c.tile).dpdSkip q c.path cause)
        | none => .next ((s.bump F.ORX_CNT_captures q).setFit q (some { path := c.path, tile := c.tile, ended := s.now }))
    else .next s

/-! ### Fits (R322-R324, R326) -/

/-- No Skillet within 50 ms, or the Skillet recovers (R321, R571). -/
def State.fitStale (s : State) (q : Nat) (f : OrxFit) : State :=
  ((s.setFit q none).freeCap f.tile).dpdSkip q f.path skStale

/-- A Skillet is granted; the capture's tiles are opened (R226, R322, R326). -/
def execDpdFitStart (q k : Nat) (s : State) : Outcome State Fault Refusal :=
  match s.orxFit q with
  | none => .next s
  | some f =>
    if k < 12 ∧ f.skillet = none ∧ s.sklOn k = true ∧ s.sklFits k = false ∧ s.sklLoad k none < 64000000 ∧
        atOrAfter s.now (f.ended + 50000000) = false then
      let r := s.openTiles f.tile 4 false 16
      if r.1 then
        let s := (List.range 16).foldl (fun s i => s.useTile (f.tile + i)) r.2
        .next ((s.setFit q (some { f with skillet := some k })).wakeDomain (dSkl + k))
      else .next (((r.2.setFit q none).freeCap f.tile).dpdSkip q f.path skAborted)
    else .next s

def execDpdFitStale (q : Nat) (s : State) : Outcome State Fault Refusal :=
  match s.orxFit q with
  | none => .next s
  | some f => if f.skillet = none then .next ((s.elapseTo (f.ended + 50000000)).fitStale q f) else .next s

/-- t = c + 2^-mu (ĉ - c) per component, halves to even (R322). -/
def blend (mu : Nat) (c e : List Word) : List Word :=
  (List.range 64).map fun i =>
    BitVec.ofInt 32 (sgn32 (c.getD i 0) + divHalfEven (sgn32 (e.getD i 0) - sgn32 (c.getD i 0)) (2 ^ mu))

/-- |c_0|^2 in units of 2^-40. -/
def gainSq (l : List Word) : Nat := let c := coefOf l 0; (c.1 * c.1 + c.2 * c.2).toNat

/-- The first limit of R323 that a target breaks; 1 dB of magnitude is 10^(1/10) of its square. -/
def fitCause (c t : List Word) (f : DpdFit) (maxDb : Nat) : Option Nat :=
  let g := gainSq t
  let h := gainSq c
  if g * 4 < 2 ^ 40 ∨ 4 * 2 ^ 40 < g then some 0x41
  else if t.any fun w => decide (7864320 < (sgn32 w).natAbs) then some 0x42
  else if f.illCond then some 0x43
  else if 10 * h ^ 10 < g ^ 10 ∨ 10 * g ^ 10 < h ^ 10 then some 0x44
  else if -4 * (maxDb : Int) < f.nmseT then some 0x45
  else if f.nmseC + 4 < f.nmseT then some 0x46
  else if 8 < f.peak then some 0x47
  else none

/-- The count of DPD_STAT and of calibration 0x4 for a path. -/
def State.dpdConsec (s : State) (p : Nat) : State := s.setFld F.DPD_STAT_rej_consec p (satN 2 (s.rejOf 4 (unitPath p true)))

/-- A command or an accepted result clears the count (R324). -/
def State.dpdClear (s : State) (p : Nat) : State := ((s.setRej 4 (unitPath p true) 0).rejRegs p).dpdConsec p

/-- A quadrant has served a path. -/
def State.dpdServed (s : State) (q p : Nat) : State :=
  ({ s with dpd := { s.dpd with served := Store.set (fun q => 16 * q + 15) s.dpd.served q p } } : State).setChosen q none

/-- A result is rejected (R324). -/
def State.dpdReject (s : State) (p cause : Nat) : State :=
  let x := s.dpdOf p
  let s := s.setDpd p { x with lastResult := some s.ns }
  let s := { s with dpd := { s.dpd with rejects := countAt s.dpd.rejects (16 * p + cause % 16) } }
  ((s.setFld F.DPD_STAT_last_cause p (cause % 16)).setFld F.DPD_EVT_reject p 1).rejectPath 4 p true cause |>.dpdConsec p

/-- A result is accepted (R323). -/
def State.dpdAccept (s : State) (p : Nat) (t : List Word) (nmse : Int) : State :=
  let x := s.dpdOf p
  let s := s.setDpd p { x with lastResult := some s.ns, lastAccept := some s.ns, accepts := x.accepts + 1 }
  let s := ((s.setFld F.DPD_NMSE_valid p 1).setFld F.DPD_NMSE_age p 0).setFld F.DPD_NMSE_nmse p (unsN 16 nmse)
  ((s.acceptUnit 4 (unitPath p true)).dpdConsec p).dpdStage p t 2

/-- The external loop delay lies outside its limits (R497). -/
def loopBad (ns : Nat) : Bool := decide (ns < 20 ∨ 2000 < ns)

/-- The external loop delay of a path's first capture (R484): accepted, or the capture is skipped as ABORTED. -/
def State.loopCheck (s : State) (p ns : Nat) : State :=
  if loopBad ns then s.rejectPath 8 p true 0x82
  else (s.setDpd p { s.dpdOf p with loopDone := true, loopNs := ns }).acceptUnit 8 (unitPath p true)

/-- A fit completes (R322-R324, R326). -/
def execDpdFitDone (q : Nat) (f : DpdFit) (s : State) : Outcome State Fault Refusal :=
  match s.orxFit q with
  | none => .next s
  | some w =>
    if w.skillet.isSome = true ∧ f.est.length = 64 then
      let p := w.path
      let s := (s.setFit q none).freeCap w.tile
      if w.discard = true ∨ s.flag F.TX_PATH_STAT_degraded p = true then .next (s.dpdServed q p)
      else
        let due := !(s.dpdOf p).loopDone
        let s := if due then s.loopCheck p f.loop else s
        if due = true ∧ loopBad f.loop = true then .next (s.dpdSkip q p skAborted)
        else
          let c := (s.dpdOf p).active
          let t := blend (s.fld F.DPD_CFG_mu p) c f.est
          match fitCause c t f (s.fld F.DPD_CFG_nmse_max_db p) with
          | some cause => .next ((s.dpdReject p cause).dpdServed q p)
          | none => .next ((s.dpdAccept p t f.nmseT).dpdServed q p)
    else .next s

/-! ### Commands (R327, R618, R619) -/

def specDpdCfgSet : CmdSpec := { opcode := 0x0510, minLen := 3, maxLen := 3, masks := [mAll, mAll, 0x3FFF3F73] }

def svcDpdCfgSet (q : Req) (s : State) : State × Rsp :=
  let l := maskList 64 (pathsOf q 1)
  let w := q.arg 3
  let period := bits w 29 16
  let nmse := bits w 13 8
  s.check [maskEmpty (pathsOf q 1), (decide (period < 1 ∨ 10000 < period ∨ nmse < 10 ∨ 50 < nmse), rspErr stBadArg),
           (l.any fun p => decide (s.flag F.DPD_CFG_bypass p ≠ bitAt w 0 ∧ pOff < s.paState p), rspErr stBusy),
           (l.any fun p => s.flag F.TX_PATH_STAT_degraded p, rspErr stLocked)]
    (l.foldl (fun s p => s.setReg .DPD_CFG p w) s, rspOk)

def execDpdCfgSet (q : Req) (s : State) : Outcome State Fault Refusal := .next (serve specDpdCfgSet q (svcDpdCfgSet q) s)

def specDpdCoefLoad : CmdSpec := { opcode := 0x0511, minLen := 2, maxLen := 2, masks := [0x3F, mRegion] }

/-- An adaptation result in estimation for the path is discarded when it comes (R326). -/
def State.fitDiscard (s : State) (p : Nat) : State :=
  match s.orxFit (quadOf p) with
  | some f => if f.path = p then s.setFit (quadOf p) (some { f with discard := true }) else s
  | none => s

def svcDpdCoefLoad (q : Req) (s : State) : State × Rsp :=
  let p := bits (q.arg 1) 5 0
  s.check [regionBad q 2 1, s.regionHeld q 2, (s.flag F.TX_PATH_STAT_degraded p, rspErr stLocked)]
    (s.withInput q 2 1 fun s =>
      let set := s.tileWords (regionFirst q 2) 64
      s.check [(!setOk set, rspErr stBadArg)] (((s.dpdClear p).fitDiscard p).dpdStage p set 1, rspOk))

def execDpdCoefLoad (q : Req) (s : State) : Outcome State Fault Refusal :=
  .next (serve specDpdCoefLoad q (svcDpdCoefLoad q) s)

def specDpdCoefRead : CmdSpec := { opcode := 0x0512, minLen := 2, maxLen := 2, masks := [0x33F, mRegion] }

def svcDpdCoefRead (q : Req) (s : State) : State × Rsp :=
  let x := s.dpdOf (bits (q.arg 1) 5 0)
  let n := bits (q.arg 1) 9 8
  s.check [regionBad q 2 1, s.regionHeld q 2, (decide (n = 3), rspErr stBadArg),
           (decide (n = 1) && x.target.isNone, rspErr stNotReady)]
    (s.putTileWords (regionFirst q 2) (if n = 0 then x.active else if n = 1 then x.target.getD [] else x.settled), rspOk)

def execDpdCoefRead (q : Req) (s : State) : Outcome State Fault Refusal :=
  .next (serve specDpdCoefRead q (svcDpdCoefRead q) s)

def specDpdReset : CmdSpec := { opcode := 0x0513, minLen := 2, maxLen := 2, masks := [mAll, mAll] }

def svcDpdReset (q : Req) (s : State) : State × Rsp :=
  let l := maskList 64 (pathsOf q 1)
  s.check [maskEmpty (pathsOf q 1), (l.any fun p => s.flag F.TX_PATH_STAT_degraded p, rspErr stLocked)]
    (l.foldl (fun s p => (s.dpdClear p).dpdStage p identitySet 0) s, rspOk)

def execDpdReset (q : Req) (s : State) : Outcome State Fault Refusal := .next (serve specDpdReset q (svcDpdReset q) s)

def specOrxCapture : CmdSpec :=
  { opcode := 0x0514, minLen := 5, maxLen := 5, masks := 0x1F3F :: mRegion :: mSched, radio := true }

/-- A host capture is pending or runs on a quadrant. -/
def State.hostCapture (s : State) (q : Nat) : Bool :=
  ((List.range 16).any fun u => match s.actOf u with
    | some (.capture p _ _ _) => decide (quadOf p = q)
    | _ => false) || match s.orxCap q with
    | some c => c.host.isSome
    | none => false

def svcOrxCapture (q : Req) (s : State) : State × Rsp :=
  let p := bits (q.arg 1) 5 0
  let d := schedOf q 3
  s.check [(s.onHosc, rspErr stNotReady), State.schedNow d false, regionBad q 2 1,
           (!s.holds q.mbx resOrx (quadOf p), s.rspHeld resOrx (quadOf p)), s.schedHeld q d, s.regionHeld q 2,
           regionBad q 2 16, (s.hostCapture (quadOf p), rspErr stBusy), s.schedBusy d,
           (decide (s.domState (dQuad + 4 * quadOf p + 3) ≠ 0), rspErr stNotReady), s.schedLate d 200000]
    (s.armCmd d.unit d.t 4 (.capture p (bits (q.arg 1) 12 8) (regionFirst q 2) q.cmd), rspAccepted)

def execOrxCapture (q : Req) (s : State) : Outcome State Fault Refusal := .next (serve specOrxCapture q (svcOrxCapture q) s)

/-- Every destination tile of a capture is OPEN (R25). -/
def State.capOpen (s : State) (tile : Nat) : Bool := (List.range 16).all fun i => decide ((s.tile (tile + i)).state = .open)

/-- A scheduled capture at T, or dropped late (R25, R26, R318). -/
def State.captureAt (s : State) (t : T48) (p att tile : Nat) (cmd : Cmd) (late : Bool) : State :=
  if late then s.postAt t 0x0507 clsDone (toWord (stLate + 256 * p)) (some cmd)
  else s.startCap (quadOf p) { path := p, att := att, host := some cmd, tile := tile, start := t }

def specDpdStatGet : CmdSpec := { opcode := 0x0515, minLen := 1, maxLen := 1, masks := [0x3F] }

def svcDpdStatGet (q : Req) (s : State) : State × Rsp :=
  let p := bits (q.arg 1) 5 0
  let x := s.dpdOf p
  let r (i : Nat) : Nat := satN 16 (Store.get (fun _ => 0) s.dpd.rejects (16 * p + i))
  let k (i : Nat) : Nat := satN 16 (Store.get (fun _ => 0) s.dpd.skips (8 * p + i))
  (s, rspOk ([toWord (satN 32 x.accepts), pack16 (r 1) (r 2), pack16 (r 3) (r 4), pack16 (r 5) (r 6), pack16 (r 7) 0,
    pack16 (k 1) (k 2), pack16 (k 3) (k 4), pack16 (k 5) (k 6), pack16 (satN 16 x.applies) (satN 16 x.reversions)]))

def execDpdStatGet (q : Req) (s : State) : Outcome State Fault Refusal :=
  .next (serve specDpdStatGet q (svcDpdStatGet q) s)

end Sys2Proof.Machine
end

