-- ==== Sys2Proof/Machine/Calibrate.lean ====
section
/-! DEFINITION. Chapter 15: results and corrections, runs on request, Kettle, tracking, and their commands; R490. -/

namespace Sys2Proof.Machine

open Host

/-! ### Corrections (R502) -/

/-- The present value of an item. -/
def State.itemValue (s : State) (kind u : Nat) : Int :=
  if kind = 0 then (s.fld F.SIEVE_TRIM_trim u : Nat)
  else if kind = 13 ∨ kind = 14 then Store.get (fun _ => 0) s.rx.dcRef (2 * u + (kind - 13))
  else if kind = 15 ∨ kind = 16 then Store.get (fun _ => 0) s.rx.dcOfs (2 * u + (kind - 15))
  else if kind = 17 then (s.fld F.CAL_PHASE_rx_lo u : Nat)
  else if kind = 20 then (s.fld F.CAL_PHASE_tx_lo u : Nat)
  else if kind = 21 then (s.fld F.CAL_TX_TRIM_phase u : Nat)
  else if kind = 22 then sgnN 10 (s.fld F.CAL_TX_TRIM_delay u)
  else Store.get (fun _ => 0) s.cal.present (itemKey kind u)

/-- An item takes a value. -/
def State.setItem (s : State) (kind u : Nat) (v : Int) : State :=
  if kind = 0 then s.setFld F.SIEVE_TRIM_trim u v.toNat
  else if kind = 13 ∨ kind = 14 then
    { s with rx := { s.rx with dcRef := Store.set (fun _ => 0) s.rx.dcRef (2 * u + (kind - 13)) v } }
  else if kind = 15 ∨ kind = 16 then
    { s with rx := { s.rx with dcOfs := Store.set (fun _ => 0) s.rx.dcOfs (2 * u + (kind - 15)) v } }
  else if kind = 17 then s.setFld F.CAL_PHASE_rx_lo u (unsN 12 v)
  else if kind = 20 then s.setFld F.CAL_PHASE_tx_lo u (unsN 12 v)
  else if kind = 21 then s.setFld F.CAL_TX_TRIM_phase u (unsN 12 v)
  else if kind = 22 then s.setFld F.CAL_TX_TRIM_delay u (unsN 10 v)
  else { s with cal := { s.cal with present := Store.set (fun _ => 0) s.cal.present (itemKey kind u) v } }

/-- The range of a target: trims as their registers hold them, phases modulo a turn, M and d in 24 bits (R156). -/
def itemRange (kind : Nat) (v : Int) : Int :=
  if kind = 0 then clampI 0 255 v
  else if (1 ≤ kind ∧ kind ≤ 12) ∨ kind = 15 ∨ kind = 16 then sat24 v
  else if kind = 17 ∨ kind = 20 ∨ kind = 21 then v % 4096
  else if kind = 22 then clampI (-512) 511 v
  else v

/-- One step of an item toward its target: entries of M and the words d are replaced whole, a phase goes the shorter way
round, everything else moves by one. -/
def itemStep (kind : Nat) (v t : Int) : Int :=
  if (1 ≤ kind ∧ kind ≤ 12) ∨ kind = 15 ∨ kind = 16 then t
  else if kind = 17 ∨ kind = 20 ∨ kind = 21 then (if (t - v) % 4096 ≤ 2048 then (v + 1) % 4096 else (v - 1) % 4096)
  else if v < t then v + 1 else v - 1

/-- Move one item by one step; at its target it has none. -/
def State.stepItem (s : State) (kind u : Nat) : State :=
  match s.itemTarget kind u with
  | none => s
  | some t =>
    let v := s.itemValue kind u
    if v = t then s.setItemTarget kind u none
    else
      let n := itemStep kind v t
      let s := s.setItem kind u n
      if n = t then s.setItemTarget kind u none else s

/-- Items that share one step per interval: the matrices of a path, the cells of a path. -/
def itemGroups (tx : Bool) : List (List Nat) :=
  if tx then ((List.range 7).map fun i => [21 + i]) ++ [(List.range 63).map (32 + ·)]
  else [[0], (List.range 12).map (1 + ·), [13], [14], [15], [16]]

/-- One interval of a side: the quadrant's phase and every group of every path step once. -/
def State.stepSide (s : State) (k : Nat) : State :=
  let tx := decide (k % 2 = 1)
  let s := s.stepItem (if tx then 20 else 17) (k / 2)
  (pathsOfQuad (k / 2)).foldl (fun s p =>
    (itemGroups tx).foldl (fun s g => match g.find? fun i => (s.itemTarget i p).isSome with
      | some i => s.stepItem i p
      | none => s) s) s

/-- Some item of a side has a target. -/
def State.sideMoves (s : State) (k : Nat) : Bool :=
  s.cal.target.any fun e =>
    e.2.isSome && decide ((itemTx (e.1 / 128) = true) = (k % 2 = 1)) &&
      decide ((if e.1 / 128 = 17 ∨ e.1 / 128 = 20 then e.1 % 128 else quadOf (e.1 % 128)) = k / 2)

/-- A side's LO phase is aligned. -/
def State.phaseValid (s : State) (k : Nat) : Bool :=
  if k % 2 = 0 then s.flag F.CAL_Q_STAT_rx_phase_valid (k / 2) else s.flag F.CAL_Q_STAT_tx_phase_valid (k / 2)

def State.setPhaseValid (s : State) (k : Nat) (b : Bool) : State :=
  if k % 2 = 0 then s.setFlag F.CAL_Q_STAT_rx_phase_valid (k / 2) b else s.setFlag F.CAL_Q_STAT_tx_phase_valid (k / 2) b

/-- The interval of a side in ns: the CAL rate in CAL, while its phase is not aligned, and while its paths return to
service; else CAL_STEP_US (R492, R502, R513). -/
def State.stepNs (s : State) (k : Nat) : Nat :=
  if s.sideState k = sCal ∨ s.phaseValid k = false ∨ (pathsOfQuad (k / 2)).any s.isParked = true then 100
  else usec (s.fld F.CAL_CFG_step_us)

def State.setStepAt (s : State) (k : Nat) (t : Option T48) : State :=
  { s with cal := { s.cal with stepAt := Store.set (fun _ => none) s.cal.stepAt k t } }

/-- Stepping of a side starts, if it does not run (R502, R503). -/
def State.startSteps (s : State) (k : Nat) : State :=
  match Store.get (fun _ => none) s.cal.stepAt k with
  | some _ => s
  | none => if s.sideMoves k then s.setStepAt k (some (tAdd s.now (s.stepNs k))) else s

/-- One interval of a side's corrections (R502). -/
def execCorrectionStep (q : Nat) (tx : Bool) (s : State) : Outcome State Fault Refusal :=
  let k := 2 * q + if tx then 1 else 0
  match Store.get (fun _ => none) s.cal.stepAt k with
  | none => .next s
  | some t =>
    let s := (s.elapseTo t).stepSide k
    .next (s.setStepAt k (if s.sideMoves k then some (tAdd t (s.stepNs k)) else none))

/-! ### Results (R481, R484, R497-R499) -/

/-- The unit of a result. -/
def calUnit (r : CalResult) : Nat :=
  if r.cal = 1 then unitDevice
  else if r.quad then (if 4 ≤ r.unit then unitPll (r.unit - 4) else unitSide (2 * r.unit + if r.tx then 1 else 0))
  else unitPath r.unit r.tx

/-- The items that a result sets, with their values. -/
def calItems (r : CalResult) : List (Nat × Int) :=
  let v := r.vals
  let at_ (n : Nat) (l : List Nat) : List (Nat × Int) := l.zipIdx.filterMap fun x => (v[n + x.2]?).map fun y => (x.1, y)
  if r.cal = 5 then at_ 0 ((List.range 12).map (1 + ·) ++ [15, 16])
  else if r.cal = 6 then at_ 0 [25, 26, 23, 24]
  else if r.cal = 7 then at_ 0 ((List.range 63).map (32 + ·))
  else if r.cal = 9 then (if r.tx then at_ 0 [21, 22] else at_ 0 (0 :: (List.range 12).map (1 + ·)))
  else if r.cal = 10 then at_ 0 [if r.tx then 20 else 17]
  else if r.cal = 11 then at_ 0 [27]
  else []

/-- An accepted result of 0x9 on a path: the external TX part is done once the path is configured (R484), and a path that
waits for its sample clock returns with both parts (R513). -/
def State.pathAligned (s : State) (p : Nat) (tx : Bool) : State :=
  let s := if tx = true ∧ s.paState p ≠ pUnconf then s.setFld F.CAL_PATH_STAT_tx_ext_pending p 0 else s
  let k := 2 * quadOf p + if tx then 1 else 0
  let get (s : State) (j : Nat) : Nat := Store.get (fun _ => 0) s.cal.ok9 j
  let s := { s with cal := { s.cal with ok9 := Store.set (fun _ => 0) s.cal.ok9 k (get s k ||| 2 ^ (p % 16)) } }
  if s.isParked p = true ∧ ((get s (2 * quadOf p)).testBit (p % 16) = true ∨ s.cal.net = none) ∧
      (get s (2 * quadOf p + 1)).testBit (p % 16) = true ∧ (s.fld F.CLK_STAT_spll_lock).testBit (quadOf p) = true then
    let m := Store.get (fun _ => 0) s.clk.parked (quadOf p)
    ({ s with clk := { s.clk with parked := Store.set (fun _ => 0) s.clk.parked (quadOf p) (m - 2 ^ (p % 16)) } } : State).serve p
  else s

/-- What an accepted result writes; `atOnce`: its corrections arrive before the side carries traffic again (R486, R502): by
steps at the CAL rate, which end before the effect of this command does. -/
def State.calApply (s : State) (r : CalResult) (atOnce : Bool) : State :=
  let unit := r.unit
  let s := (calItems r).foldl (fun s x =>
    let v := itemRange x.1 x.2
    if atOnce then (s.setItem x.1 unit v).setItemTarget x.1 unit none else s.setItemTarget x.1 unit (some v)) s
  if r.cal = 1 then
    ((s.setFld F.HOSC_TRIM_code 0 ((r.vals.headD 0).toNat % 256)).setFld F.HOSC_TRIM_calibrated 0 1).setFld
      F.CLK_STAT_hosc_untrimmed 0 0
  else if r.cal = 2 ∧ r.quad = true ∧ r.unit < 4 ∧ sStandby ≤ s.sideState (2 * r.unit + if r.tx then 1 else 0) then
    s.calibrateLo (2 * r.unit + if r.tx then 1 else 0)
  else if r.cal = 8 ∧ r.quad = true then
    (r.vals.take 16).zipIdx.foldl (fun s x => s.setFld F.ORX_ATT_att (16 * r.unit + x.2) ((clampI 0 31 x.1).toNat)) s
  else if r.cal = 8 then
    match r.vals with
    | ns :: _ => s.setDpd r.unit { s.dpdOf r.unit with loopNs := ns.toNat }
    | [] => s
  else if r.cal = 9 ∧ r.quad = false then s.pathAligned r.unit r.tx
  else s

/-- A phase change in units of 360/4096°, the shorter way round. -/
def turnOf (a b : Int) : Nat := min ((a - b) % 4096).toNat ((b - a) % 4096).toNat

/-- The checks of R497 that the result's own values and the state decide, in order: a HOSC code at an end of its range, a trim
its register cannot hold, in a Kettle run a delay 16 steps off the previous result, in tracking a phase 20° off it, an
auxiliary DAC offset beyond 20 mV. `live`: a Kettle run or tracking. -/
def State.calCheck (s : State) (live : Bool) (r : CalResult) : Nat :=
  let v := r.vals
  let was : List Int := Store.get (fun _ => []) s.cal.stored (256 * r.cal + calUnit r)
  let d := if r.tx then v[1]? else v[0]?
  let w := if r.tx then was[1]? else was[0]?
  if r.cal = 1 then (match v[0]? with
    | some c => if c ≤ 0 ∨ 255 ≤ c then 0x12 else 0
    | none => 0)
  else if r.cal = 9 ∧ r.quad = false then (match d with
    | some n =>
      if itemRange (if r.tx then 22 else 0) n ≠ n then 0x92
      else match w with
        | some o => if live = true ∧ 16 < (n - o).natAbs then 0x93 else 0
        | none => 0
    | none => 0)
  else if r.cal = 10 ∧ live = true then (match v[0]?, was[0]? with
    | some n, some o => if 20 * 4096 < 360 * turnOf n o then 0xA3 else 0
    | _, _ => 0)
  else if r.cal = 11 then (match v[0]? with
    | some n => if 80 < n.natAbs then 0xB1 else 0
    | none => 0)
  else 0

/-- A result with the first check of R497 it fails: the one measured, or the one its values decide. -/
def State.judge (s : State) (live : Bool) (r : CalResult) : CalResult :=
  let c := s.calCheck live r
  { r with cause := if c = 0 then r.cause else if r.cause = 0 then c else min c r.cause }

/-- A result is checked: rejected and counted, or accepted, kept and applied (R497-R499). -/
def State.calResult (s : State) (r : CalResult) (atOnce : Bool) : State :=
  let u := calUnit r
  if r.cause ≠ 0 then
    if u < 128 then s.rejectPath r.cal r.unit r.tx r.cause else s.rejectQuad r.cal u r.cause
  else
    let s := s.acceptUnit r.cal u
    let s := { s with cal := { s.cal with stored := Store.set (fun _ => []) s.cal.stored (256 * r.cal + u) r.vals } }
    s.calApply r atOnce

/-! ### Which sides and units a run has (R481, R485, R495) -/

def State.network (s : State) : Bool := s.cal.net.isSome

/-- Quadrants in service. -/
def State.servedQuads (s : State) : List Nat := (List.range 4).filter s.quadServed

/-- The pilot source (R491, R500). -/
def State.pilotSource (s : State) : Nat :=
  match s.cal.source with
  | some q => if s.quadServed q then q else s.servedQuads.headD 0
  | none =>
    let m := s.fld F.CLK_STAT_master_cur
    if s.quadServed m then m else s.servedQuads.headD 0

/-- pilot_src of every quadrant. -/
def State.pilotRegs (s : State) : State :=
  (List.range 4).foldl (fun s q => s.setFlag F.CAL_Q_STAT_pilot_src q (s.network && decide (s.pilotSource = q))) s

/-- Every other quadrant in service rejects calibration 0xA on one side, in one run or round (R500). -/
def State.sourceFails (s : State) (src : Nat) (tx : Bool) (rs : List CalResult) : Bool :=
  let others := s.servedQuads.filter fun q => decide (q ≠ src)
  decide (others ≠ []) && others.all fun q => rs.any fun r => decide (r.cal = 10 ∧ r.tx = tx ∧ r.cause ≠ 0 ∧ r.unit = q)

/-- The reject is counted against the source, and the next quadrant in service becomes the source (R500). -/
def State.countSource (s : State) (src : Nat) (tx : Bool) (rs : List CalResult) : State :=
  let bad := rs.filter fun r => decide (r.tx = tx ∧ r.cause ≠ 0)
  let s := s.rejectQuad 10 (unitSide (2 * src + if tx then 1 else 0)) ((bad.headD ⟨10, true, 0, tx, 0xA1, []⟩).cause)
  let next := ((List.range 4).map fun i => (src + 1 + i) % 4).find? s.quadServed
  ({ s with cal := { s.cal with source := next } } : State).pilotRegs

/-- One side of calibration 0xA in a run. -/
def State.runPhase (s : State) (src : Nat) (tx : Bool) (rs : List CalResult) : State :=
  let l := rs.filter fun r => decide (r.cal = 10 ∧ r.tx = tx)
  if s.sourceFails src tx l then s.countSource src tx l else l.foldl (fun s x => s.calResult x true) s

/-- The results of a run are checked and applied; the inter-quadrant phase comes last (R486, R497, R500). -/
def State.runApply (s : State) (rs : List CalResult) : State :=
  let src := s.pilotSource
  let s := (rs.filter fun r => decide (r.cal ≠ 10)).foldl (fun s x => s.calResult x true) s
  (s.runPhase src false rs).runPhase src true rs

/-- A synthesiser that has relocked: its side's phase is open until tracking has aligned it (R492, R500). -/
def State.openPhase (s : State) (k : Nat) : State :=
  if s.network then s.setPhaseValid k (decide (s.servedQuads = [k / 2])) else s

/-- Calibration 0x2 of a side that the mode wakes, in a resume (R534). -/
def State.resumeSide (s : State) (k : Nat) : State :=
  let s := s.setSide k { s.side k with words := false }
  if s.sideState k = sSleep ∧ s.targetNow k ≠ sSleep then ((s.wakeSide k).lockGained k).openPhase k else s

/-- The run of 0x9 and 0xA in a resume ends (R534, log entry 149): its results wait for the resume's completion. -/
def State.resumeFound (s : State) (rs : List CalResult) : State :=
  if s.flag F.CLK_STAT_resuming = true ∧ s.flag F.CLK_STAT_ref_ok = true then
    { s with clk := { s.clk with found := s.clk.found ++ rs.filter fun r => decide (r.cal = 9 ∨ r.cal = 10) } }
  else s

/-- A resume completes (R534): the PLLs, calibration 0x2 of the sides the mode needs, the results found by 0x9 and 0xA, then
the sources and the sides' mode states at the next 1 ms boundary. -/
def execClockResumeDone (s : State) : Outcome State Fault Refusal :=
  if s.flag F.CLK_STAT_resuming = true ∧ s.flag F.CLK_STAT_ref_ok = true then
    let cmd := s.clk.resume
    let s := (List.range 8).foldl State.resumeSide s.spllsUp
    let s := s.runApply (s.clk.found.map (s.judge false))
    let s := s.elapseTo (nextMs s.now)
    let s := (s.setFld F.CLK_STAT_resuming 0 0).offHosc
    let s := { s with clk := { s.clk with resume := none, found := [] } }
    .next (((List.range 8).foldl State.settleSide s).postResumed cmd)
  else .next s

/-- The calibrations of a side: 2, 3, 5, 9 and A for RX; 2, 6, 7, 8, 9, A and B for TX. Without a network table A and the RX
part of 9 are not run; a quadrant alone in service runs no A (R495, R500). -/
def State.sideCals (s : State) (cals : Nat) (tx : Bool) : List Nat :=
  ((if tx then [2, 6, 7, 8, 9, 10, 11] else [2, 3, 5, 9, 10]) : List Nat).filter fun c =>
    cals.testBit (c - 1) && (s.network || !(decide (c = 10) || (decide (c = 9) && !tx))) &&
      !(decide (c = 10) && decide (s.servedQuads.length = 1))

/-- The sides that calibrations on quadrants need. -/
def State.runSides (s : State) (cals qmask : Nat) : List Nat :=
  (maskList 4 qmask).flatMap fun q =>
    (if s.sideCals cals false = [] then [] else [2 * q]) ++ if s.sideCals cals true = [] then [] else [2 * q + 1]

/-- A TX side's calibrations use the observation receiver: leakage, cells, ORX, delay and phase, LO phase. -/
def usesOrx (cals : Nat) : Bool := [6, 7, 8, 9, 10].any fun c => cals.testBit (c - 1)

/-- The longest a calibration takes in ns, as R482 gives its step. -/
def calNs (c : Nat) : Nat :=
  match c with
  | 1 => 1500000
  | 2 => 1500000
  | 3 => 16000000
  | 11 => 4000000
  | 8 => 12000000
  | 7 => 34000000
  | 6 => 21000000
  | 5 => 35000000
  | 9 => 26000000
  | 10 => 19000000
  | _ => 0

/-- How long a run holds a TX side: 2.3 ms for a Kettle set. -/
def State.runNs (s : State) (r : CalRun) : Nat :=
  if r.kind = 1 then 2300000 else (s.sideCals r.cals true).foldl (fun n c => n + calNs c) 0

/-- The run that concerns a quadrant. -/
def State.runOn (s : State) (q : Nat) : Option CalRun := s.cal.runs.find? fun r => r.qmask.testBit q

def State.dropRun (s : State) (r : CalRun) : State := { s with cal := { s.cal with runs := s.cal.runs.erase r } }

def State.swapRun (s : State) (r n : CalRun) : State :=
  { s with cal := { s.cal with runs := s.cal.runs.map fun x => if x = r then n else x } }

/-- A run that radiates: the TX part of 9 with PAs configured (R486). -/
def State.radiates (s : State) (r : CalRun) : Bool :=
  r.cals.testBit 8 && r.sides.any fun k => decide (k % 2 = 1) && (pathsOfQuad (k / 2)).any fun p => decide (s.paState p ≠ pUnconf)

/-- COEX_REQ as the runs ask for it. -/
def State.calCoex (s : State) : State :=
  let on := s.cal.runs.any fun r => r.begun && decide (r.kind ≠ 1 ∨ r.entered ≠ []) && s.radiates r
  ({ s with cal := { s.cal with coex := on } } : State).coexPins

/-- CAL_Q_STAT.running of a quadrant. -/
def State.runRegs (s : State) (q : Nat) : State :=
  s.setFld F.CAL_Q_STAT_running q (match s.runOn q with
    | some r => if r.begun then (maskList 12 r.cals).headD 0 + 1 else 0
    | none => 0)

def State.runsRegs (s : State) : State := ((List.range 4).foldl State.runRegs s).calCoex

/-! ### Entering CAL (R331, R349, R486) -/

/-- A burst on a quadrant meets [now, now + ns]: its compare, its air interval with the off order, or the protected
interval of an acknowledgement. -/
def State.calMeets (s : State) (q ns : Nat) : Bool :=
  let t := s.now
  let e := tAdd t ns
  s.bursts.any fun x =>
    let b := x.2
    s.drives b q &&
      ((decide (b.phase = .waiting) && overlap b.compare b.compare t e) || overlap b.start (tAdd b.stop (s.loffOf b)) t e ||
        (b.ack && overlap (tAdd b.start (-5000)) (tAdd b.stop 2000) t e))

/-- The coexistence grant is there, or not needed. -/
def State.grantNow (s : State) : Bool := !s.flag F.COEX_CFG_en || s.radio.gnt.isSome

/-- TX entry is permitted. -/
def State.txEntryOk (s : State) (q ns : Nat) (orx radiates : Bool) : Bool :=
  !s.calMeets q ns && s.paIdle q && !(orx && (s.owner resOrx q).isSome) && (!radiates || s.grantNow)

/-- A side goes into CAL: out of traffic or sleep to STANDBY first. -/
def State.enterCal (s : State) (k : Nat) : State := ((s.wakeSide k).enterSide k sStandby).enterSide k sCal

/-- Take one side of a run into CAL; a TX side that measures through it holds ORX time (R95). -/
def State.takeSide (s : State) (r : CalRun) (k : Nat) : State :=
  let s := if k % 2 = 1 ∧ usesOrx r.cals = true then
      (s.orxOn (k / 2)).setOwner resOrx (k / 2) (some ⟨0, 0, true, if r.kind = 1 then 3 else 2, 0⟩)
    else s
  ((s.swapRun r { r with entered := r.entered ++ [k] }).enterCal k).runsRegs

/-- A side stands where Cal start or the way to it has a row. -/
def State.calReady (s : State) (k : Nat) : Bool := decide (sSleep ≤ s.sideState k ∧ s.sideState k ≠ sCal) && (s.side k).going.isNone

def execCalEntry (q : Nat) (tx : Bool) (s : State) : Outcome State Fault Refusal :=
  let k := 2 * q + if tx then 1 else 0
  match s.runOn q with
  | none => .next s
  | some r =>
    if r.begun = true ∧ r.sides.contains k = true ∧ r.entered.contains k = false ∧ s.calReady k = true ∧
        (tx = false ∨ s.txEntryOk q (s.runNs r) (usesOrx r.cals) (s.radiates r) = true) then .next (s.takeSide r k)
    else .next s

/-! ### Ends of runs (R331, R486, R487, R498, R503) -/

/-- A side leaves CAL for the state its mode gives it; a frequency that waited is tuned (R503), and a burst that waited counts
its lock from here. -/
def State.leaveCal (s : State) (k : Nat) : State :=
  if s.sideState k = sCal then
    let s := (s.enterSide k sStandby).moveWaiting k
    let s := if s.locked k then s.setSide k { s.side k with lockedAt := some s.ns } else s
    s.settleSide k
  else s

/-- A run is over: its sides return, its ORX time ends, its working tile is idle again. -/
def State.endRun (s : State) (r : CalRun) : State :=
  let s := s.dropRun r
  let s := match r.tile with
    | some t => s.freeWork t 1
    | none => s
  let s := match r.unit with
    | some u => if r.begun then s else s.disarm u
    | none => s
  let s := r.entered.foldl State.leaveCal s
  let s := if usesOrx r.cals then (r.entered.filter fun k => decide (k % 2 = 1)).foldl (fun s k =>
      (s.setOwner resOrx (k / 2) none).orxRest (k / 2)) s
    else s
  s.runsRegs.tryReleases

/-- CAL_DONE (R506). -/
def State.calDone (s : State) (r : CalRun) (st first : Nat) : State :=
  match r.cmd with
  | none => s
  | some c => s.post 0x0601 clsDone (toWord (st + 256 * r.qmask + 2 ^ 12 * first + 2 ^ 16 * r.cals)) (some c)

/-- The results that belong to a run, checked (R497). -/
def State.runResults (s : State) (r : CalRun) (rs : List CalResult) : List CalResult :=
  (rs.filter fun x =>
    decide (x.cal = 1 ∧ r.cals.testBit 0 = true) ||
      ((s.sideCals r.cals x.tx).contains x.cal &&
        (if x.quad then r.qmask.testBit (x.unit % 4) && decide (x.unit < 8) else r.paths.testBit x.unit && decide (x.unit < 64) &&
          r.qmask.testBit (quadOf x.unit)) &&
        (r.sides.contains (2 * (if x.quad then x.unit % 4 else quadOf x.unit) + if x.tx then 1 else 0) ||
          decide (x.quad = true ∧ 4 ≤ x.unit)))).map (s.judge (decide (r.kind = 1)))

/-- A set has completed a run (R487). -/
def State.setRun (s : State) (k : Nat) (temp : Int) (t : T48) : State :=
  let s := { s with cal := { s.cal with
      tLast := Store.set (fun _ => 0) s.cal.tLast k temp
      lastRun := Store.set (fun _ => 0) s.cal.lastRun k (toWord t.toNat) } }
  if k % 2 = 0 then s.setFld F.CAL_Q_STAT_t_last_rx (k / 2) (unsN 8 (temp / 8))
  else s.setFld F.CAL_Q_STAT_t_last_tx (k / 2) (unsN 8 (temp / 8))

/-- The sets whose calibrations a run holds: 5 and 9, 6 and 9. -/
def setsOf (r : CalRun) : List Nat :=
  r.sides.filter fun k => r.cals.testBit 8 && r.cals.testBit (if k % 2 = 0 then 4 else 5)

/-- A quadrant-wide marking ends with an accepted run of its calibration once no path of the side is marked by itself
(R501). -/
def State.unmarkQuad (s : State) (k cal : Nat) : State :=
  let l := Store.get (fun _ => []) s.cal.quadMarks k
  if l.contains cal = true ∧
      (pathsOfQuad (k / 2)).all (fun p => !Store.get (fun _ => false) s.cal.marks (unitPath p (decide (k % 2 = 1)))) = true then
    let s := { s with cal := { s.cal with quadMarks := Store.set (fun _ => []) s.cal.quadMarks k (l.erase cal) } }
    (pathsOfQuad (k / 2)).foldl (fun s p => s.showMark p (decide (k % 2 = 1)) 0) s
  else s

/-- The temperature of a quadrant as Kettle last read it, in 1/8 °C. -/
def CalRun.temp (r : CalRun) (q : Nat) : Int := r.temps.getD q 0

/-- The end of CAL_RESTORE (R501): all accepted clears the marking and the counts of the path side. -/
def State.restoreEnd (s : State) (r : CalRun) (ok : Bool) : State :=
  match r.cmd with
  | none => s
  | some c =>
    let p := (maskList 64 r.paths).headD 0
    let tx := decide (r.sides.headD 0 % 2 = 1)
    if ok then
      let u := unitPath p tx
      let s := (List.range 13).foldl (fun s i => s.setRej i u 0) s
      let s := { s with cal := { s.cal with marks := Store.set (fun _ => false) s.cal.marks u false } }
      ((s.rejRegs p).showMark p tx 0).stageRsp c.mbx rspOk
    else s.stageRsp c.mbx (rspErr stCalReject)

/-- The working tile that calibration work occupies while a run lasts (R93, R450): the lowest idle one, if there is one (log
entry 140). -/
def State.takeRunTile (s : State) : Option Nat × State :=
  match s.workRun 1 with
  | some t => (some t, s.takeWork t 1 2)
  | none => (none, s)

/-- A run begins (R486). -/
def State.beginRun (s : State) (r : CalRun) : State :=
  let t : List Int := (List.range 4).map fun q => 8 * Store.get (fun _ => 0) s.flt.temps q
  let w := s.takeRunTile
  (w.2.swapRun r { r with begun := true, start := s.now, temps := t, tile := w.1 }).runsRegs

/-- Both parts of calibration 0x9 run on a quadrant whose sample clock is back, while paths of it that are not degraded wait
(R513). -/
def State.returnRun (s : State) (q : Nat) : State :=
  let wait := (pathsOfQuad q).filter fun p => s.isParked p && !(s.degraded p false && s.degraded p true)
  let sides := (s.runSides 0x100 (2 ^ q)).filter fun k => decide (sSleep ≤ s.sideState k)
  if wait = [] ∨ sides = [] ∨ (s.runOn q).isSome = true then s
  else
    let r : CalRun :=
      { kind := 3, cals := 0x100, qmask := 2 ^ q, paths := wait.foldl (fun m p => m + 2 ^ p) 0, sides := sides, start := s.now }
    ({ s with cal := { s.cal with runs := s.cal.runs ++ [r] } } : State).beginRun r

/-- A PLL relocks by itself and is resynchronised (R511, R513); its paths wait for calibration 0x9. -/
def execSpllRelock (q : Nat) (s : State) : Outcome State Fault Refusal :=
  if q < 4 ∧ s.flag F.CLK_STAT_ref_ok = true ∧ (s.fld F.CLK_STAT_spll_lock).testBit q = false then
    .next ((((pathsOfQuad q).foldl State.settleClose (s.setSpll q true))).tickReady.returnRun q)
  else .next s

def execCalRunEnd (q : Nat) (rs : List CalResult) (s : State) : Outcome State Fault Refusal :=
  match s.runOn q with
  | none => .next (s.resumeFound rs)
  | some r =>
    if r.begun = true ∧ r.kind ≠ 1 ∧ r.sides.all (fun k => r.entered.contains k) = true then
      let l := s.runResults r rs
      let s := s.runApply l
      let s := if r.kind = 0 then
          let s := (setsOf r).foldl (fun s k => s.setRun k (r.temp (k / 2)) r.start) s
          (l.filter fun x => x.quad && decide (x.cause = 0 ∧ x.unit < 4)).foldl (fun s x =>
            s.unmarkQuad (2 * x.unit + if x.tx then 1 else 0) x.cal) s
        else s
      let bad := l.find? fun x => decide (x.cause ≠ 0)
      let s := s.endRun r
      if r.kind = 2 then .next (s.restoreEnd r bad.isNone)
      else if r.kind = 3 then .next (s.returnRun q)
      else match bad with
        | some x => .next (s.calDone r stCalReject x.cal)
        | none => .next (s.calDone r stOk 0)
    else .next s

/-- A TX side could not enter within 1 s of T (R486). -/
def execCalEntryTimeout (q : Nat) (s : State) : Outcome State Fault Refusal :=
  match s.runOn q with
  | none => .next s
  | some r =>
    if r.begun = true ∧ r.kind = 0 ∧ r.sides.any (fun k => decide (k % 2 = 1) && !r.entered.contains k) = true then
      .next (((s.elapseTo (r.start + 1000000000)).endRun r).calDone r stTimeout 0)
    else .next s

/-- The runs on request and of Kettle that a mode change stops at T - MODE_LEAD (R503). -/
def State.abandonRuns (s : State) : State :=
  (s.cal.runs.filter fun r => r.begun && decide (r.kind ≤ 1)).foldl (fun s r => (s.endRun r).calDone r stMode 0) s

/-- The run of a unit that fires (R440). -/
def State.calAt (s : State) (u : Nat) : State :=
  match s.cal.runs.find? fun r => decide (r.unit = some u ∧ r.begun = false) with
  | some r => s.beginRun r
  | none => s

/-! ### Kettle (R484, R487-R489, R503) -/

/-- KETTLE_RUN (R506). -/
def State.kettleEvent (s : State) (k : Nat) (forced : Bool) (dt : Int) : State :=
  s.post 0x0604 clsInfo (toWord (k / 2 + (if k % 2 = 1 then 4 else 0) + (if forced then 8 else 0) + 16 * unsN 12 dt))

def State.kettlePend (s : State) (k : Nat) : Bool :=
  if k % 2 = 0 then s.flag F.CAL_Q_STAT_kettle_rx (k / 2) else s.flag F.CAL_Q_STAT_kettle_tx (k / 2)

def State.setKettle (s : State) (k : Nat) (b : Bool) : State :=
  let s := { s with cal := { s.cal with
      pendSince := Store.set (fun _ => none) s.cal.pendSince k (if b then some s.now else none)
      postponedAt := Store.set (fun _ => none) s.cal.postponedAt k (if b then some s.now else none)
      postponed := Store.set (fun _ => 0) s.cal.postponed k 0 } }
  if k % 2 = 0 then s.setFlag F.CAL_Q_STAT_kettle_rx (k / 2) b else s.setFlag F.CAL_Q_STAT_kettle_tx (k / 2) b

/-- |T - T_last| > CAL_DT, or an external TX part is due (R484, R487). -/
def State.kettleDue (s : State) (k : Nat) (temp : Int) : Bool :=
  decide (8 * s.fld F.CAL_CFG_cal_dt < (temp - Store.get (fun _ => 0) s.cal.tLast k).natAbs) ||
    (decide (k % 2 = 1) && (pathsOfQuad (k / 2)).any fun p =>
      decide (s.paState p ≠ pUnconf) && s.flag F.CAL_PATH_STAT_tx_ext_pending p)

/-- A set starts: its side enters CAL. -/
def State.kettleStart (s : State) (k : Nat) (temps : List Int) (forced : Bool) : State :=
  let w := s.takeRunTile
  let s := w.2
  let r : CalRun :=
    { kind := 1, cals := if k % 2 = 0 then 0x110 else 0x120, qmask := 2 ^ (k / 2), paths := 2 ^ 64 - 1, sides := [k]
      start := s.now, begun := true, temps := temps, tile := w.1 }
  let s := { s with cal := { s.cal with runs := s.cal.runs ++ [r] } }
  (s.takeSide r k).kettleEvent k forced (temps.getD (k / 2) 0 - Store.get (fun _ => 0) s.cal.tLast k)

/-- KETTLE_WAIT has passed since a moment. -/
def State.kettleWaited (s : State) (t : Option T48) : Bool :=
  match t with
  | some u => decide (msec s.cal.wait ≤ (s.now - u).toNat)
  | none => false

/-- An RX set at a check (R488). -/
def State.kettleRx (s : State) (q : Nat) (temps : List Int) : State :=
  let k := 2 * q
  if s.kettlePend k = true ∧ (s.runOn q).isNone = true ∧ s.calReady k = true then
    let busy := s.combines fun b => (s.fld F.BEAM_RX_CFG_qmask b).testBit q
    let late := s.kettleWaited (Store.get (fun _ => none) s.cal.pendSince k)
    if busy = true ∧ late = false then s else s.kettleStart k temps busy
  else s

/-- A TX set at a check (R489). -/
def State.kettleTx (s : State) (q : Nat) (temps : List Int) : State :=
  let k := 2 * q + 1
  if s.kettlePend k then
    if (s.runOn q).isNone = true ∧ s.calReady k = true ∧ s.txEntryOk q 2300000 true true = true then
      s.kettleStart k temps false
    else if s.kettleWaited (Store.get (fun _ => none) s.cal.postponedAt k) then
      let n := Store.get (fun _ => 0) s.cal.postponed k + 1
      let s := { s with cal := { s.cal with
          postponedAt := Store.set (fun _ => none) s.cal.postponedAt k (some s.now)
          postponed := Store.set (fun _ => 0) s.cal.postponed k n
          causes := countAt s.cal.causes (256 * q) } }
      s.post 0x0605 clsWarn (toWord (q + 4 + (if s.grantNow then 0 else 8) + 16 * satN 16 n))
    else s
  else s

/-- The 10 ms check (R487): temperatures in 1/8 °C by quadrant. -/
def execKettleCheck (temps : List Int) (s : State) : Outcome State Fault Refusal :=
  if s.stage = 7 ∧ temps.length = 4 ∧ s.onHosc = false then
    let s := if s.flag F.CAL_CFG_kettle_en then
        (List.range 8).foldl (fun s k =>
          if s.kettlePend k = false ∧ s.kettleDue k (temps.getD (k / 2) 0) = true ∧ sSleep ≤ s.sideState k then
            (s.setKettle k true).kettleEvent k false (temps.getD (k / 2) 0 - Store.get (fun _ => 0) s.cal.tLast k)
          else s) s
      else s
    .next ((List.range 4).foldl (fun s q => (s.kettleRx q temps).kettleTx q temps) s)
  else .next s

/-- The measurement of a set ends (R488): the side returns to traffic and its corrections step at the traffic rate. -/
def execKettleSetEnd (q : Nat) (tx : Bool) (rs : List CalResult) (s : State) : Outcome State Fault Refusal :=
  let k := 2 * q + if tx then 1 else 0
  match s.runOn q with
  | none => .next s
  | some r =>
    if r.kind = 1 ∧ r.sides = [k] then
      let s := (s.runResults r rs).foldl (fun s x => s.calResult x false) s
      let s := (s.setRun k (r.temp q) r.start).setKettle k false
      .next ((s.endRun r).startSteps k)
    else .next s

/-! ### Tracking (R490-R493, R500) -/

/-- f_pilot in Hz (R491). -/
def pilotHz (preset : Nat) : Nat :=
  match preset with
  | 0 => 28000000
  | 1 => 15000000
  | 2 => 7500000
  | _ => 2500000

/-- The TX measurement of a quadrant is available: the pilot lies within 100 MHz of its TX LO, the host leaves the ORX. -/
def State.pilotSeen (s : State) (src q : Nat) : Bool :=
  let f : Int := s.loFreq (2 * src) + 2 * pilotHz (s.fld F.SIEVE_CFG_preset src)
  decide ((f - s.loFreq (2 * q + 1)).natAbs ≤ 200000000) && (s.owner resOrx q).isNone

/-- A side that background work may wake in HOLD (R38): it rests in SLEEP or STANDBY, no run has it, its quadrant has a path
in service. -/
def State.mayWake (s : State) (k : Nat) : Bool :=
  decide (s.modeNo = mHold ∧ (s.sideState k = sSleep ∨ s.sideState k = sStandby)) && (s.side k).going.isNone &&
    s.quadServed (k / 2) && (s.runOn (k / 2)).isNone

/-- Such a side is woken and locked for the work; an RX side's paths leave PARKED. -/
def State.wakeFor (s : State) (k : Nat) : State :=
  if s.mayWake k then
    let s := s.wakeSide k
    let s := if s.locked k then s else s.lockGained k
    if k % 2 = 0 then s.enterSide k sRun else s
  else s

/-- The work over, the side goes back to the state of its mode (R333). -/
def State.restSide (s : State) (k : Nat) : State :=
  (if k % 2 = 0 then s.enterSide k sStandby else s).settleSide k

/-- The result of a side counts in a round. -/
def State.roundTakes (s : State) (src : Nat) (r : CalResult) : Bool :=
  let k := 2 * r.unit + if r.tx then 1 else 0
  decide (r.cal = 10 ∧ r.quad = true ∧ r.unit < 4) && s.quadServed r.unit && (s.runOn r.unit).isNone && s.locked k &&
    (!r.tx || s.pilotSeen src r.unit)

/-- The 100 µs of a round, for which Tilin holds ORX time of the quadrants whose TX side is measured (R95, R491). -/
def State.roundSpan (s : State) (l : List CalResult) : State :=
  let qs := (l.filter (·.tx)).map (·.unit)
  let s := qs.foldl (fun s q => (s.orxOn q).setOwner resOrx q (some ⟨0, 0, true, 2, 0⟩)) s
  qs.foldl (fun s q => (s.setOwner resOrx q none).orxRest q) (s.elapse 100000)

/-- One side of a round (R500): when every other quadrant rejects, the source is counted instead. -/
def State.roundSide (s : State) (src : Nat) (tx : Bool) (rs : List CalResult) : State :=
  let l := rs.filter fun r => decide (r.tx = tx)
  if s.sourceFails src tx l then s.countSource src tx l
  else l.foldl (fun s r =>
    let k := 2 * r.unit + if tx then 1 else 0
    let s := s.calResult r false
    if r.cause = 0 then (s.setPhaseValid k true).startSteps k else s) s

/-- A tracking round (R491): 100 µs of measurement on every quadrant that no run holds; in HOLD it wakes the sides it needs
(R38). -/
def execPhaseTrackingRound (rs : List CalResult) (drive : Int) (s : State) : Outcome State Fault Refusal :=
  if s.stage = 7 ∧ s.flag F.CAL_CFG_track_en = true ∧ s.network = true ∧ s.onHosc = false then
    let t := s.cal.trackAt + BitVec.ofNat 48 (msec (s.fld F.CAL_CFG_track_ms))
    let s := s.elapseTo t
    let s := { s with cal := { s.cal with trackAt := s.now } }
    match s.servedQuads with
    | [q] => .next ((s.setPhaseValid (2 * q) true).setPhaseValid (2 * q + 1) true)
    | _ =>
      let src := s.pilotSource
      let woken := (List.range 8).filter fun k => s.mayWake k
      let s := woken.foldl State.wakeFor s
      let l := (rs.filter (s.roundTakes src)).map (s.judge true)
      let s := { s with cal := { s.cal with drive := Store.set (fun _ => 0) s.cal.drive src drive } }
      let s := ((s.roundSpan l).roundSide src false l).roundSide src true l
      .next (woken.foldl State.restSide s).pilotRegs
  else .next s

/-- A synthesiser reaches lock (R332, R492): after a channel change, a wake or a loss its side's phase is open until
tracking has aligned it; a fine move keeps the lock. -/
def execLoLock (q : Nat) (tx : Bool) (s : State) : Outcome State Fault Refusal :=
  let k := 2 * q + if tx then 1 else 0
  let awaited := s.radio.tunes.any fun c => decide (c.tx = tx) && c.left.contains q
  if q < 4 ∧ sStandby ≤ s.sideState k ∧ (s.locked k = false ∨ awaited = true) then
    let fresh := !s.locked k
    let s := s.lockGained k
    .next (if fresh then s.openPhase k else s)
  else .next s

/-- The DC-offset loop of a path holds its state: an overload event, its settling flag, or RX_DC_CFG.hold (R125). -/
def State.dcHeld (s : State) (p : Nat) : Bool :=
  (s.ovrEv (2 * p)).isSome || (s.ovrEv (2 * p + 1)).isSome || s.settlingAt p (s.sampleNow p) || s.flag F.RX_DC_CFG_hold p

/-- The newest sample of a path carries a flag (R132). -/
def State.flaggedNow (s : State) (p : Nat) : Bool :=
  let t := s.sampleNow p
  s.clipAt p 0 t || s.clipAt p 1 t || s.nbrAt p t || s.settlingAt p t

/-- RX DC tracking of one component: the trim steps toward zero, the remainder, whose value the spec does not state, goes into
d (R490). -/
def State.dcStep (s : State) (p c : Nat) (r : Int) : State :=
  let f := s.takeFree
  let s := f.2.setItem (13 + c) p (s.itemValue (13 + c) p + (if 0 < r then -1 else if r < 0 then 1 else 0))
  s.setItem (15 + c) p (sgnN 24 f.1.toNat)

/-- A block of a sampling path completes (R137, R490): a clean block counts for the floor; RX DC tracking runs on an ACTIVE
path whose samples carry no flag, while the loop is not held. -/
def State.blockDone (s : State) (p sum : Nat) (residI residQ : Int) (refEnd : Bool) : State :=
  let s := if s.pathQualifies p then s.nfCount p sum else s
  if s.fld F.RX_PATH_STAT_state p = 2 ∧ s.flaggedNow p = false ∧ s.dcHeld p = false then
    let s := s.setReg .RX_DC_STAT p (pack16 (unsN 16 residI) (unsN 16 residQ))
    if refEnd then s.rejectPath 12 p false 0xC1
    else ((s.dcStep p 0 residI).dcStep p 1 residQ).acceptUnit 12 (unitPath p false)
  else s

/-- ns for a path to wake and to complete one block. -/
def State.blockNs (s : State) (p : Nat) : Nat :=
  let r := s.fld F.SIEVE_CFG_preset (quadOf p)
  fsNs (nsCycles 1500 + s.recOf p + groupCycles r + (2 ^ s.nfWin p + 1) * decimation r)

/-- A block of path samples completes; in HOLD, RX DC tracking wakes the path's side for it (R38). -/
def execNoiseFloorBlock (p : Nat) (_ : Computed) (sum : Nat) (residI residQ : Int) (refEnd : Bool) (s : State) :
    Outcome State Fault Refusal :=
  let k := 2 * quadOf p
  if p < 64 ∧ s.sampling p = true then .next (s.blockDone p sum residI residQ refEnd)
  else if p < 64 ∧ s.mayWake k = true then
    let s := s.wakeFor k
    .next (((s.elapse (s.blockNs p)).blockDone p sum residI residQ refEnd).restSide k)
  else .next s

/-! ### Commands (R484, R485, R495, R501, R504, R620-R622) -/

def execPaCfgSet (q : Req) (s : State) : Outcome State Fault Refusal := .next (serve specPaCfgSet q (svcPaCfgSet q) s)

def specCalRun : CmdSpec :=
  { opcode := 0x0601, minLen := 6, maxLen := 6, masks := [0x010F0FFF, mAll, mAll] ++ mSched, radio := true
    units := fun q => quadUnits (bits (q.arg 1) 19 16) }

/-- A mode change is pending or running. -/
def State.modeChanging (s : State) : Bool := s.mode.pend.isSome || decide (s.mode.drains ≠ [])

def svcCalRun (q : Req) (s : State) : State × Rsp :=
  let cals := bits (q.arg 1) 11 0
  let qm := bits (q.arg 1) 19 16
  let use := bitAt (q.arg 1) 24
  let m := pathsOf q 2
  let d := schedOf q 4
  let sides := s.runSides cals qm
  let orx := ((sides.filter fun k => decide (k % 2 = 1)).map (· / 2)).filter fun a => usesOrx cals && s.holds q.mbx resOrx a
  let named := (maskList 64 m).filter fun p => qm.testBit (quadOf p)
  s.check [(s.onHosc, rspErr stNotReady), (decide (cals &&& 0x808 ≠ 0), rspErr stBadArg), maskEmpty qm,
           (decide (if use then m = 0 else m ≠ 0), rspErr stBadArg), s.schedHeld q d,
           (decide (orx ≠ []), s.rspHeld resOrx (orx.headD 0)),
           (sides.any fun k => decide (s.sideState k = sOff), rspErr stNotReady),
           (use && (named.any fun p => (sides.contains (2 * quadOf p) && s.degraded p false) ||
              (sides.contains (2 * quadOf p + 1) && s.degraded p true)), rspErr stLocked),
           (s.modeChanging || (maskList 4 qm).any fun a => (s.runOn a).isSome, rspErr stBusy), s.schedBusy d,
           s.schedLate d 200000]
    (let r : CalRun :=
       { kind := 0, cals := cals, qmask := qm, paths := if use then m else 2 ^ 64 - 1, sides := sides, cmd := some q.cmd
         unit := if d.now then none else some d.unit, start := d.t }
     let s := { s with cal := { s.cal with runs := s.cal.runs ++ [r] } }
     (if d.now then s.beginRun r else s.armCmd d.unit d.t 0xB (.cal cals qm r.paths q.cmd), rspAccepted))

def execCalRun (q : Req) (s : State) : Outcome State Fault Refusal := .next (serve specCalRun q (svcCalRun q) s)

def specCalCfgSet : CmdSpec := { opcode := 0x0602, minLen := 2, maxLen := 2, masks := [0xFFFFF31F, 0x3FFF] }

def svcCalCfgSet (q : Req) (s : State) : State × Rsp :=
  let w := q.arg 1
  let wait := bits (q.arg 2) 13 0
  let inside (v lo hi : Nat) : Bool := decide (lo ≤ v ∧ v ≤ hi)
  s.check [(!(inside (bits w 31 22) 1 1000 && inside (bits w 21 12) 1 1000 && inside (bits w 4 0) 1 30 &&
              inside wait 10 10000), rspErr stBadArg)]
    (let s := s.setReg .CAL_CFG 0 w
     ({ s with cal := { s.cal with wait := wait } }, rspOk))

def execCalCfgSet (q : Req) (s : State) : Outcome State Fault Refusal := .next (serve specCalCfgSet q (svcCalCfgSet q) s)

def specCalStatGet : CmdSpec :=
  { opcode := 0x0603, minLen := 1, maxLen := 1, masks := [3], units := fun q => quadUnits (2 ^ bits (q.arg 1) 1 0) }

/-- The causes of R497 in table order. -/
def calCauses : List Nat :=
  [0x11, 0x12, 0x21, 0x22, 0x31, 0x32, 0x51, 0x52, 0x53, 0x54, 0x61, 0x62, 0x63, 0x71, 0x72, 0x81, 0x82, 0x91, 0x92, 0x93,
   0xA1, 0xA2, 0xA3, 0xB1, 0xC1]

def svcCalStatGet (q : Req) (s : State) : State × Rsp :=
  let a := bits (q.arg 1) 1 0
  let n (m : Store Nat) (k : Nat) : Nat := Store.get (fun _ => 0) m k
  (s, rspOk ([s.reg .CAL_Q_STAT a, Store.get (fun _ => 0) s.cal.lastRun (2 * a), Store.get (fun _ => 0) s.cal.lastRun (2 * a + 1),
      toWord (satN 32 (n s.cal.accepts a))] ++
    packBytes 28 ((calCauses.map fun c => satN 8 (n s.cal.causes (256 * a + c))) ++ [0, 0, 0]) ++
    [pack16 (satN 16 (n s.cal.causes (256 * a))) (satN 16 (n s.cal.unaligned a)),
     toWord (unsN 8 (Store.get (fun _ => 0) s.cal.drive a))]))

def execCalStatGet (q : Req) (s : State) : Outcome State Fault Refusal := .next (serve specCalStatGet q (svcCalStatGet q) s)

def specCalRestore : CmdSpec := { opcode := 0x0604, minLen := 1, maxLen := 1, masks := [0x13F] }

/-- The path-scoped calibrations of a side (R481): ADC, RX DC and IQ, delay and phase; leakage, cells, delay, auxiliary DAC. -/
def restoreCals (tx : Bool) : Nat := if tx then 0x560 else 0x114

/-- CAL_RESTORE: its response is staged when the run ends (R501). -/
def execCalRestore (q : Req) (s : State) : Outcome State Fault Refusal :=
  let p := bits (q.arg 1) 5 0
  let tx := bitAt (q.arg 1) 8
  let k := 2 * quadOf p + if tx then 1 else 0
  match s.precheck specCalRestore q with
  | some st => .next (s.stageRsp q.mbx (rspErr st))
  | none =>
    if s.degraded p tx = false then .next (s.stageRsp q.mbx (rspErr stBadArg))
    else if (s.runOn (quadOf p)).isSome then .next (s.stageRsp q.mbx (rspErr stBusy))
    else
      let r : CalRun :=
        { kind := 2, cals := restoreCals tx, qmask := 2 ^ quadOf p, paths := 2 ^ p, sides := [k], cmd := some q.cmd
          start := s.now }
      .next (({ s with cal := { s.cal with runs := s.cal.runs ++ [r] } } : State).beginRun r)

def specCalNetLoad : CmdSpec := { opcode := 0x0605, minLen := 1, maxLen := 1, masks := [mRegion] }

/-- A CAL_NET table takes effect (R495). -/
def State.setNet (s : State) (l : List Word) : State :=
  let s := { s with cal := { s.cal with net := some l } }
  ((List.range 4).foldl (fun (s : State) q => s.setFld F.CAL_Q_STAT_network q 1) s).pilotRegs

def svcCalNetLoad (q : Req) (s : State) : State × Rsp :=
  s.check [regionBad q 1 1, s.regionHeld q 1, (s.cal.runs.any fun r => r.begun, rspErr stBusy)]
    (s.withInput q 1 1 fun s => (s.setNet (s.tileWords (regionFirst q 1) 68), rspOk))

def execCalNetLoad (q : Req) (s : State) : Outcome State Fault Refusal := .next (serve specCalNetLoad q (svcCalNetLoad q) s)

def specCalResultRead : CmdSpec :=
  { opcode := 0x0606, minLen := 2, maxLen := 2, masks := [0x13F, mRegion]
    units := fun q => if bitAt (q.arg 1) 8 then quadUnits (2 ^ bits (q.arg 1) 1 0) else [] }

/-- The block of a unit (R622): word 0 with version and count, then words that only Fygoty decodes. -/
def calBlock (u n : Nat) : List Word := toWord (1 + 65536 * n) :: (List.range n).map fun i => Config.calOpaque u (i + 1)

def svcCalResultRead (q : Req) (s : State) : State × Rsp :=
  let quad := bitAt (q.arg 1) 8
  let u := if quad then 64 + bits (q.arg 1) 1 0 else bits (q.arg 1) 5 0
  let n := (Config.calWords u).toNat
  s.check [regionBad q 2 1, s.regionHeld q 2, (decide (1024 * regionCount q 2 < n + 1), rspErr stNoMem)]
    (s.putTileWords (regionFirst q 2) (calBlock u n), rspOk [toWord (4 * (n + 1))])

def execCalResultRead (q : Req) (s : State) : Outcome State Fault Refusal :=
  .next (serve specCalResultRead q (svcCalResultRead q) s)

end Sys2Proof.Machine
end

