-- ==== Sys2Proof/Machine/Modes.lean ====
section
/-! DEFINITION. Chapter 01: mode changes, forced changes, SENTINEL's rotation, sample loss, and the mode commands. -/

namespace Sys2Proof.Machine

open Host

/-! ### Commands (R48-R51, R607, R608) -/

def specModeSet : CmdSpec :=
  { opcode := 0x0103, minLen := 5, maxLen := 7, masks := [0x7F77, mAll] ++ mSched ++ [mAll, mAll], radio := true }

/-- The preset that R33 fixes. -/
def fixedPreset (mode : Nat) : Option Nat :=
  if mode = mHarvest then some 1 else if mode = mReach then some 3 else if mode = mBroadcast then some 2 else none

/-- Beams a mode takes (R33). -/
def beamRange (mode n : Nat) : Bool :=
  if mode = mSentinel then decide (n = 8)
  else if mode = mHarvest ∨ mode = mRelay then decide (1 ≤ n ∧ n ≤ 64)
  else if mode = mReach ∨ mode = mBroadcast then decide (1 ≤ n ∧ n ≤ 16)
  else decide (n = 0)

/-- Carried paths are named. -/
def pathMode (mode : Nat) : Bool := decide (mode = mMirror ∨ mode = mSurvey)

/-- The rate of a request's mode. -/
def modeRate (preset : Nat) (rs : Bool) (inc : Nat) : Rate := { preset := preset, rs := rs, inc := inc }

/-- Which quadrant each beam of a mode takes its rate from (R177, R179); every quadrant runs at one rate. -/
def State.modeLoadOk (s : State) (mode n : Nat) (r : Rate) : Bool :=
  if mode = mSentinel then loadOk (fun _ => r) (fun q => if q = 0 then n else 0)
  else ratesOk (fun _ => r) (List.range n) fun b => s.fld F.BEAM_RX_CFG_qmask b

def svcModeSet (q : Req) (s : State) : State × Rsp :=
  let w := q.arg 1
  let mode := bits w 2 0
  let preset := bits w 5 4
  let rs := bitAt w 6
  let n := bits w 14 8
  let inc := q.arg 2
  let d := schedOf q 3
  let paths := pathsOf q 6
  s.check [(decide (q.args.length ≠ if pathMode mode then 7 else 5), rspErr stBadArg),
           (decide (mode ≠ mHold) && s.onHosc, rspErr stNotReady),
           (decide (mode ≠ mHold) && s.flag F.FLT_STAT_therm_hold, rspErr stFault),
           s.schedHeld q d, State.schedNow d false,
           ((fixedPreset mode).any fun p => decide (p ≠ preset), rspErr stBadArg), (!beamRange mode n, rspErr stBadArg),
           (rs && decide (inc.toNat < 2 ^ 31), rspErr stBadArg),
           (!s.modeLoadOk mode n (modeRate preset rs inc.toNat), rspErr stBadArg),
           (pathMode mode && decide (paths = 0), rspErr stBadArg),
           (s.mode.pend.isSome, rspErr stBusy), s.schedBusy d, (decide (mode = mSurvey) && !s.panFitted, rspErr stNoMem),
           s.schedLate d (msec (s.mode.lead + 1))]
    (let p : PendMode :=
       { target := mode, preset := preset, rsEn := rs, beams := n, inc := inc, paths := paths, unit := d.unit, at_ := d.t
         cmd := q.cmd, lead := s.mode.lead }
     let s := (s.armCmd d.unit d.t 7 .mode).setFld F.SYS_MODE_pending 0 1
     let s := (s.setFld F.SYS_MODE_pending_mode 0 mode).setFld F.SYS_MODE_tc_unit 0 d.unit
     (({ s with mode := { s.mode with pend := some p } } : State).sieveRegs, rspAccepted))

def execModeSet (q : Req) (s : State) : Outcome State Fault Refusal := .next (serve specModeSet q (svcModeSet q) s)

/-- The pending change goes: its unit, its pending bits, its staged configurations (R191), and the bursts that would
have started in it where the mode that stays has its TX side Off (R37). -/
def State.dropPend (s : State) (p : PendMode) : State :=
  let s := (s.disarm p.unit).setFld F.SYS_MODE_pending 0 0
  ((({ s with mode := { s.mode with pend := none } } : State).dropWithMode p.at_).modeTx s.modeNo p.at_).sieveRegs

def specModeCancel : CmdSpec := { opcode := 0x0104 }

def svcModeCancel (q : Req) (s : State) : State × Rsp :=
  match s.mode.pend with
  | none => (s, rspErr stBadArg)
  | some p =>
    s.check [(decide (p.cmd.mbx ≠ q.mbx), s.rspHeld resTc p.unit),
             (!atOrAfter p.at_ (tAdd s.now (msec p.lead)), rspErr stLate)] (s.dropPend p, rspOk)

def execModeCancel (q : Req) (s : State) : Outcome State Fault Refusal := .next (serve specModeCancel q (svcModeCancel q) s)

def specModeCfgSet : CmdSpec := { opcode := 0x0105, minLen := 1, maxLen := 1, masks := [0x3FFF00FF] }

def svcModeCfgSet (q : Req) (s : State) : State × Rsp :=
  let lead := bits (q.arg 1) 7 0
  let dwell := bits (q.arg 1) 29 16
  s.check [(decide (lead < 2 ∨ 100 < lead ∨ dwell < 10 ∨ 10000 < dwell), rspErr stBadArg),
           (s.mode.pend.isSome, rspErr stBusy)]
    ({ s with mode := { s.mode with lead := lead, dwell := dwell } }, rspOk)

def execModeCfgSet (q : Req) (s : State) : Outcome State Fault Refusal :=
  .next (serve specModeCfgSet q (svcModeCfgSet q) s)

/-! ### Preparation (R52, R503, R554) -/

/-- The lowest-numbered quadrant with a path in service (R39). -/
def State.lowestQuad (s : State) : Nat := s.servedQuads.headD 0

/-- At T - MODE_LEAD: calibration runs stop, domains and sides that the mode needs come up, operating points rise. -/
def State.prepareMode (s : State) (p : PendMode) : State :=
  let s := s.abandonRuns
  let s := if p.target ≠ mHold then s.wakeDomain dMgmt else s
  let s := if colMode p.target then s.wakeDomain dCol else s
  let s := if txMode p.target then s.wakeDomain dTxb else s
  let s := if s.panFitted = true ∧ s.panNeededIn p.target = true then s.wakeDomain dPan else s
  let s := match s.sklForMode p.target with
    | some k => s.wakeDomain (dSkl + k)
    | none => s
  let s := (List.range 8).foldl (fun s k =>
    if s.modeTarget p.target s.lowestQuad k = sSleep then s else s.wakeSide k) s
  let r := modeRate p.preset p.rsEn p.inc.toNat
  s.raiseFor (fun _ => r) (List.range p.beams) (fun b => s.fld F.BEAM_RX_CFG_qmask b) 15

def execModePrepStart (s : State) : Outcome State Fault Refusal :=
  match s.mode.pend with
  | none => .next s
  | some p =>
    if p.prepared then .next s
    else
      let s := (s.elapseTo (tAdd p.at_ (-(msec p.lead : Nat)))).prepareMode p
      .next { s with mode := { s.mode with pend := some { p with prepared := true } } }

/-! ### T (R52-R56, R178, R191, R333) -/

/-- Everything a mode change does at its T but the events: contexts that cannot continue, SYS_MODE, beams, presets, sides,
bursts, the ladder. `fresh`: banks swap and presets change (not in a forced change to HOLD, whose preset stays). -/
def State.applyMode (s : State) (t : T48) (p : PendMode) (fresh : Bool) : State :=
  let keep (_ : Nat) (x : Ctx) : Bool :=
    !(fresh && s.continues x p.target p.preset p.beams)
  let s := s.abortEvery cModeChange keep
  let awake := if p.target = mSentinel then s.lowestQuad else 0
  let s := ((s.setFld F.SYS_MODE_mode 0 p.target).setFld F.SYS_MODE_awake_q 0 awake).setFlag F.SYS_MODE_no_sic 0
    (decide (p.target = mReach) && !s.panFitted)
  let s := { s with mode := { s.mode with
      beams := p.beams, preset := p.preset, rsEn := p.rsEn, inc := p.inc, paths := p.paths
      ts := t, dwellNo := 0, dwellNow := s.mode.dwell, paused := false, woken := false } }
  let s := if fresh then s.beamsAtMode t p.beams else (List.range 64).foldl State.aallReg (s.enableBeams 0)
  let s := ((List.range 4).foldl (fun s q => s.presetChange t q p.preset p.rsEn p.inc) s).opfNow
  let s := (s.modeTx p.target t)
  let s := (List.range 8).foldl State.settleSide s
  let s := ((s.updateLimit false).searchRegs.sieveRegs.evaluate true).newRuns
  if s.flag F.SYS_MODE_no_sic then s.post 0x0105 clsWarn (toWord (2 + 2 ^ 12 * p.target)) else s

/-- MODE_LATE (R58). -/
def State.modeLate (s : State) (p : PendMode) (cause : Nat) : State :=
  s.postAt p.at_ 0x0107 clsLate (toWord (cause + 16 * p.target + 256 * p.unit)) (some p.cmd)

/-- A change past its T runs on to its drain point (R52): the contexts that continue are noted. -/
def State.drainFrom (s : State) (t : T48) (target : Nat) (cmd : Cmd) (forced : Bool) : State :=
  let d : DrainMode :=
    { target := target, t := t, step := s.fld F.SYS_MODE_degrade_step, cmd := cmd
      ctxs := s.openCtxs.map fun c => (c.1, c.2.det), forced := forced }
  { s with mode := { s.mode with drains := s.mode.drains ++ [d] } }

/-- The pending change reaches T (R26, R52, R55): dropped when its preparation is not complete, while an S3 recovery runs,
or on HOSC. -/
def State.modeFire (s : State) : State :=
  match s.mode.pend with
  | none => s
  | some p =>
    if p.prepared = false then (s.dropPend p).modeLate p 1
    else if s.s3Running = true ∨ (s.onHosc = true ∧ p.target ≠ mHold) then (s.dropPend p).modeLate p 2
    else
      let s := (s.disarm p.unit).setFld F.SYS_MODE_pending 0 0
      let s := { s with mode := { s.mode with pend := none } }
      (s.applyMode p.at_ p true).drainFrom p.at_ p.target p.cmd false

/-! ### After T (R39, R52, R543) -/

/-- Domains a mode leaves without a need, with the state they enter: TXB while no burst runs, COL, and in SENTINEL the ORX
of the quadrants that sleep. -/
def State.unneeded (s : State) : List Nat :=
  (if colMode s.modeNo then [] else [dCol]) ++
    (if txMode s.modeNo = true ∨ s.burstsRun = true then [] else [dTxb]) ++
    if s.modeNo = mSentinel then
      ((List.range 4).filter fun q => decide (q ≠ s.fld F.SYS_MODE_awake_q)).map dOrx
    else []

/-- TXB still works for a burst although the mode transmits no more (R52, R54). -/
def State.txbHeld (s : State) : Bool := !txMode s.modeNo && s.burstsRun

/-- 100 µs after T the domains that the mode does not need start toward RET (R52); TXB is asked once its bursts have
ended, and until then the row has not run to its end. -/
def execUnneededDomainEntry (s : State) : Outcome State Fault Refusal :=
  match s.mode.drains.find? fun d => !d.entered with
  | none => .next s
  | some d =>
    let s := s.elapseTo (tAdd d.t 100000)
    let l := s.unneeded.filter fun x => decide (s.domState x = 0) && !s.domBusy x
    let s := l.foldl (fun s x => s.askGroup none 1 [x]) s
    .next { s with mode := { s.mode with
      drains := s.mode.drains.map fun e => if e = d then { e with entered := !s.txbHeld } else e } }

/-- A context of a change has reached FREE. -/
def State.ctxGone (s : State) (x : Nat × T48) : Bool :=
  decide ((s.ctx x.1).state = .free ∨ (s.ctx x.1).det ≠ x.2)

/-- The drain point of R52 is reached. -/
def State.modeDrained (s : State) (d : DrainMode) : Bool :=
  d.entered && d.ctxs.all s.ctxGone &&
    ([dCol, dTxb] ++ (List.range 16).map (dQuad + ·)).all (fun x => (s.entryOf x).isNone && (s.trans x).isNone) &&
    (List.range 8).all fun k => (s.side k).going.isNone

/-- The drain point of R52: MODE_DONE (R58), but for a forced change, which MODE_FORCED has reported (R29). -/
def execModeDrainEnd (s : State) : Outcome State Fault Refusal :=
  match s.mode.drains.find? s.modeDrained with
  | none => .next s
  | some d =>
    let s := { s with mode := { s.mode with drains := s.mode.drains.erase d } }
    if d.forced then .next s
    else .next (s.postAt d.t 0x0106 clsDone
      (toWord (d.target + 16 * d.step + 2 ^ 12 * satN 20 ((s.now - d.t).toNat / 1000))) (some d.cmd))

/-! ### Forced changes to HOLD (R29, R53, R463, R573, R577) -/

/-- The first 100 µs boundary after a time (R29). -/
def next100us (t : T48) : T48 := BitVec.ofNat 48 ((t.toNat / 100000 + 1) * 100000)

/-- A forced change is asked for; of two the earlier one counts. Causes: 1 Pantry, 2 restart, 3 thermal. -/
def State.forceHold (s : State) (cause : Nat) (t : T48) : State :=
  match s.mode.forced with
  | some (_, u) => if atOrAfter t u then s else { s with mode := { s.mode with forced := some (cause, t) } }
  | none => { s with mode := { s.mode with forced := some (cause, t) } }

/-- HOLD as a change with no parameters. -/
def State.holdChange (s : State) (t : T48) : PendMode :=
  { target := mHold, preset := s.mode.preset, rsEn := s.mode.rsEn, beams := 0, inc := s.mode.inc, paths := 0, unit := 0
    at_ := t, cmd := ⟨0, 0⟩, lead := 0 }

/-- The forced change takes effect: a pending change is dropped with MODE_LATE, cause FAULT; in HOLD nothing else changes. -/
def execForcedModeChange (s : State) : Outcome State Fault Refusal :=
  match s.mode.forced with
  | none => .next s
  | some (cause, t) =>
    let s := s.elapseTo t
    let s := { s with mode := { s.mode with forced := none } }
    let s := match s.mode.pend with
      | some p => (s.dropPend p).modeLate p 2
      | none => s
    let old := s.modeNo
    if old = mHold then .next s
    else
      let s := (s.applyMode t (s.holdChange t) false).drainFrom t mHold ⟨0, 0⟩ true
      let s := s.postAt t 0x0109 clsWarn (toWord (cause + 16 * old))
      .next (if cause = 1 then s.post 0x0105 clsWarn (toWord (2 + 2 ^ 12 * old)) else s)

/-! ### SENTINEL (R29, R39, R40, R542) -/

/-- The next quadrant of the rotation: the next with a path in service. -/
def State.nextAwake (s : State) : Nat :=
  let q := s.fld F.SYS_MODE_awake_q
  (((List.range 4).map fun i => (q + 1 + i) % 4).find? s.quadServed).getD q

/-- Rotate (R39): the next quadrant is awake, its side receives, the former one sleeps and its ORX goes to RET. -/
def State.rotate (s : State) : State :=
  let before := s
  let old := s.fld F.SYS_MODE_awake_q
  let new := s.nextAwake
  let s := (s.setFld F.SYS_MODE_awake_q 0 new).wakeDomain (dOrx new)
  let s := { s with mode := { s.mode with paused := false, woken := false } }
  let s := (List.range 8).foldl State.settleSide s
  let s := if old = new ∨ s.domState (dOrx old) ≠ 0 ∨ s.domBusy (dOrx old) = true then s
    else s.askGroup none 1 [dOrx old]
  s.enabledBeams.foldl (fun s b => State.beamEdges before s s.cyc b) ((List.range 64).foldl State.aallReg s)

/-- When the present dwell ends: T_S + k SENTINEL_DWELL. -/
def State.dwellEnd (s : State) : T48 := s.mode.ts + BitVec.ofNat 48 (msec ((s.mode.dwellNo + 1) * s.mode.dwellNow))

def execSentinelDwellBoundary (s : State) : Outcome State Fault Refusal :=
  if s.modeNo = mSentinel ∧ s.mode.paused = false then
    let s := s.elapseTo s.dwellEnd
    .next ({ s with mode := { s.mode with dwellNo := s.mode.dwellNo + 1 } } : State).rotate
  else .next s

/-- A paused dwell ends once every context is FREE: a new run of dwells starts at the next 1 ms boundary. -/
def execSentinelRunRestart (s : State) : Outcome State Fault Refusal :=
  if s.modeNo = mSentinel ∧ s.mode.paused = true ∧ s.openCtxs = [] then
    let t := nextMs s.now
    let s := s.elapseTo t
    .next ({ s with mode := { s.mode with ts := t, dwellNo := 0 } } : State).rotate
  else .next s

/-- 100 µs before the next dwell its quadrant wakes. -/
def execSentinelPrewake (s : State) : Outcome State Fault Refusal :=
  if s.modeNo = mSentinel ∧ s.mode.paused = false then
    let s := s.elapseTo (tAdd s.dwellEnd (-100000))
    .next ((s.wakeDomain (dOrx s.nextAwake)).wakeSide (2 * s.nextAwake))
  else .next s

/-! ### Sample loss (R27) -/

/-- An RX crossing FIFO has discarded n samples: 0 to 63 a beam's, 64 to 127 a path's. -/
def execRxFifoOverflow (fifo n : Nat) (s : State) : Outcome State Fault Refusal :=
  if fifo < 128 then
    let hit (x : Ctx) : Bool :=
      x.state.live && !x.retry && x.beams.any fun b => if fifo < 64 then decide (b = fifo) else (s.beamPaths b).contains (fifo - 64)
    let s := (s.abortWhere cSampleLoss hit).setFld F.SYS_MODE_sample_loss 0 1
    .next ((s.post 0x0213 clsWarn (toWord (fifo + 256 * satN 16 n))).raiseFault 0x0402 fifo)
  else .next s

end Sys2Proof.Machine
end

