-- ==== Sys2Proof/Machine/Mailbox.lean ====
section
/-! DEFINITION. Chapter 02: the mailboxes' areas and state machine, how a response leaves, and posting windows. Which command a
taken request is stands in Take.lean. -/

namespace Sys2Proof.Machine

open Host

/-! ### Areas and states (R78-R83) -/

/-- Word w of a mailbox's request and response areas. -/
def areaKey (n w : Nat) : Nat := 64 * n + w

def State.reqWord (s : State) (n w : Nat) : Word := Store.get (fun _ => 0) s.sys.reqArea (areaKey n w)

def State.setReqWord (s : State) (n w : Nat) (v : Word) : State :=
  { s with sys := { s.sys with reqArea := Store.set (fun _ => 0) s.sys.reqArea (areaKey n w) v } }

def State.rspWord (s : State) (n w : Nat) : Word := Store.get (fun _ => 0) s.sys.rspArea (areaKey n w)

def State.setRspWord (s : State) (n w : Nat) (v : Word) : State :=
  { s with sys := { s.sys with rspArea := Store.set (fun _ => 0) s.sys.rspArea (areaKey n w) v } }

/-- States of SYS_MBX_STATn (R81). -/
def mbIdle : Nat := 0
def mbBusy : Nat := 1
def mbDone : Nat := 2

def State.mbxState (s : State) (n : Nat) : Nat := s.fld F.SYS_MBX_STAT_state n

/-- Header fields of a request (R79). -/
def reqOpcode (w : Word) : Nat := bits w 15 0
def reqTag (w : Word) : Nat := bits w 23 16
def reqLen (w : Word) : Nat := bits w 31 24

/-- A recovery of S2 or S3 runs or waits (R570). -/
def State.faultPending (s : State) : Bool :=
  s.flt.running.isSome || s.flt.interrupted.isSome || decide (s.flt.queue ≠ [])

/-- The response header (R80). -/
def State.rspHeader (s : State) (tag : Nat) (r : Rsp) : Word :=
  let b (x : Bool) (k : Nat) : Nat := if x then 2 ^ k else 0
  toWord (r.status + 256 * tag + 65536 * r.words.length + b r.evtFollows 24 + b (r.holder || decide (r.status = stHeld)) 25 +
    b r.trivet 26 + b s.faultPending 27)

/-- MBX_RSP (R67, R82). -/
def State.sendRsp (s : State) (n : Nat) (hdr : Word) (ws : List Word) : State :=
  s.sendFrame 0 (toWord (2 + 256 * n) :: hdr :: ws)

/-- What begins 1 ms after a mailbox's response: a change of the link (R390), a restart or a reset (R611). -/
def State.startDeferred (s : State) (n : Nat) : State :=
  let t := s.now + 1000000
  let s := match s.link.deferred with
    | some c => if c.mbx = n ∧ c.at_ = none then { s with link := { s.link with deferred := some { c with at_ := some t } } } else s
    | none => s
  match s.flt.deferred with
  | some (dev, none) => if n = 7 then { s with flt := { s.flt with deferred := some (dev, some t) } } else s
  | _ => s

/-- A mailbox enters DONE with a response (R82, R83). -/
def State.respond (s : State) (n : Nat) (r : Rsp) : State :=
  let m := s.mbx n
  let tag := reqTag (m.copied.headD 0)
  let hdr := s.rspHeader tag r
  let s := ((hdr :: r.words).zipIdx).foldl (fun s x => s.setRspWord n x.2 x.1) s
  let link := s.flag F.SYS_MBX_STAT_port n
  let s := (((s.setFld F.SYS_MBX_STAT_last_status n r.status).setFld F.SYS_MBX_STAT_last_tag n tag).setFld
    F.SYS_MBX_STAT_state n mbDone).setFld F.SYS_IRQ_STAT_mbx_done 0 (s.fld F.SYS_IRQ_STAT_mbx_done ||| 2 ^ n)
  let s := s.setMbx n { m with taken := false, staged := none, lastLink := m.viaReq }
  let s := if link then s.sendRsp n hdr r.words else s
  s.startDeferred n

/-- The request that a mailbox carries, as its command reads it. -/
def State.reqOf (s : State) (n : Nat) : Req :=
  let l := (s.mbx n).copied
  { mbx := n, tag := reqTag (l.headD 0), args := l.tail  }

/-! ### Posting windows (R637) -/

def execRateLimitWindowEnd (code scope : Nat) (s : State) : Outcome State Fault Refusal :=
  match s.window code scope with
  | none => .next s
  | some w =>
    let t := w.start + 1000000
    .next ((s.elapseTo t).closeWindow code scope t)

end Sys2Proof.Machine
end

