-- ==== Sys2Proof/Machine/Faults.lean ====
section
/-! DEFINITION. Chapter 18: recoveries and their order, the management-core restart, the device reset, temperatures, header
shortfalls, the fault log and the fault commands. Raising a fault, logging and queueing stand in Ops.lean. -/

namespace Sys2Proof.Machine

open Host

/-! ### The device reset (R579, R595) -/

/-- Registers in AON that keep their contents: the fault log, FLT_RESET and FLT_CNT. -/
def keptRegs : List Nat := [RegName.FLT_LOG.idx, RegName.FLT_LOG_WR.idx, RegName.FLT_RESET.idx, RegName.FLT_CNT.idx]

/-- Internal reset in every domain: everything but the fault log, FLT_RESET and FLT_CNT takes its reset value; memory that
the spec gives no contents after it holds undefined ones; commands on their way stay. -/
def State.internalReset (s : State) : State :=
  let r : State := {}
  let kept := s.regs.filter fun e => keptRegs.contains (e.1 % 256)
  { r with
    regs := kept
    mem := { r.mem with undef := (List.range 9).map fun b => (b, s.free + 1 + b) }
    flt := { r.flt with resetUnit := s.flt.resetUnit }
    free := s.free + 9
    pending := s.pending }

/-- FLT_RESET of a reset (R582). -/
def State.noteReset (s : State) (code unit : Nat) (pin : Bool) : State :=
  let boots := (s.fld F.FLT_RESET_boots + 1) % 256
  let s := ((s.setFld F.FLT_RESET_boots 0 boots).setFlag F.FLT_RESET_by_pin 0 pin).setFld F.FLT_RESET_code 0 code
  { s with flt := { s.flt with resetUnit := unit } }

/-- A fault of S4 (R562, R565, R579): counted and logged; the queue and the interrupted recovery end with the reset. While
RESET_N is low or a reset waits for its release nothing is raised (R595). -/
def State.deviceReset (s : State) (code unit : Nat) (arg : Word) : State :=
  if s.sys.resetN = false ∨ s.sys.held = true then s
  else
    let s := (s.bump F.FLT_CNT_faults 0).logFault code 4 unit outDone false false false arg
    let s := (s.noteReset code unit false).internalReset
    { s with sys := { s.sys with resetN := true, held := true } }

def execVmonRstCrossing (rail code : Nat) (s : State) : Outcome State Fault Refusal :=
  if rail < 8 then .next (s.deviceReset 0x0102 rail (toWord code)) else .next s

def execHoscStop (s : State) : Outcome State Fault Refusal := .next (s.deviceReset 0x0205 0 0)

/-- RESET_N is low past its filter (R595): the actions of R579, no fault. -/
def execResetNAssert (s : State) : Outcome State Fault Refusal :=
  if s.sys.resetN then .next (s.noteReset 0 0 true).internalReset else .next s

/-! ### What a restart of the management core ends (R82, R96, R573, R634) -/

/-- Maximal runs of consecutive keys with one claim: first key, length, claim. -/
def claimRuns (l : List (Nat × Claim)) : List (Nat × Nat × Claim) :=
  (l.foldl (fun (acc : List (Nat × Nat × Claim)) x =>
    match acc with
    | (k, n, c) :: t => if x.1 = k + n ∧ x.2 = c then (k, n + 1, c) :: t else (x.1, 1, x.2) :: acc
    | [] => [(x.1, 1, x.2)]) []).reverse

/-- RES_LOST of a run (R99). -/
def State.resLost (s : State) (k : Nat) (c : Claim) : State :=
  let ty := k / 8192
  let i := k % 8192
  s.postAt s.now 0x0103 clsWarn
    (toWord (ty + 65536 * c.mbx + if ty = resTile then 2 ^ 19 * i else 256 * i))

/-- Every host claim ends (R96): one RES_LOST per run; the auxiliary sequencer stops with its claim (R475). -/
def State.endClaims (s : State) : State :=
  let l := s.sys.claims.filterMap fun e => match e.2 with
    | some c => if c.internal then none else some (e.1, c)
    | none => none
  let s := l.foldl (fun s x => s.setOwner (x.1 / 8192) (x.1 % 8192) none) s
  let s := if l.any fun x => decide (x.1 = claimKey resAux 0) then s.auxStop else s
  let s := (l.filter fun x => decide (x.1 / 8192 = resGpio)).foldl (fun s x => s.setFld F.GPIO_PIN_oe (x.1 % 8192) 0) s
  (claimRuns l).foldl (fun s x => s.resLost x.1 x.2.2) s

/-- An ORX capture stops without a result. -/
def State.stopCap (s : State) (q : Nat) : State :=
  match s.orxCap q with
  | none => s
  | some c =>
    let s := ((s.setCap q none).setFld F.ORX_STAT_busy q 0)
    let s := (List.range 16).foldl (fun s i => s.releaseTile (c.tile + i)) s
    match c.host with
    | some _ => s
    | none => (s.setOwner resOrx q none).freeCap c.tile

/-- Accepted commands post no outcome and their units are disarmed (R634); the unit of a pending mode change waits for the
forced change. Runs of calibration and captures end with the firmware that ran them. -/
def State.dropAccepted (s : State) : State :=
  let modeUnit := s.mode.pend.map (·.unit)
  let units := (List.range 16).filter fun u => s.flag F.TC_CTL_cmd_armed u && decide (modeUnit ≠ some u)
  let s := units.foldl State.disarm s
  let s := (List.range 64).foldl (fun s p => (s.setFld F.RX_GAIN_pending p 0).setFld F.BEAM_RX_STAT_pending p 0) s
  let s := (List.range 32).foldl (fun s b => s.setFld F.TXB_STAT_pending b 0) s
  let s := (List.range 8).foldl (fun s k => s.setSide k { s.side k with tuning := false }) s
  let s := s.cal.runs.foldl State.endRun s
  let s := (List.range 4).foldl State.stopCap s
  let quiet (f : Option Fade) : Option Fade := f.map fun x => { x with cmd := ⟨8, 0⟩ }
  let waits := match s.link.deferred with
    | some c => if c.at_ = none then none else some c
    | none => none
  let s := { s with
    beam := { s.beam with withMode := [] }
    radio := { s.radio with tunes := [], sideCmds := [] }
    tx := { s.tx with seqs := [] }
    pwr := { s.pwr with jobs := [], waiting := [], entries := s.pwr.entries.map fun (e : PwrEntry) => { e with cmd := none } }
    clk := { s.clk with resume := none }
    rx := { s.rx with xfer := [], xferHeld := [] }
    mode := { s.mode with drains := [] }
    sieve := { s.sieve with fade := Store.mapVals (fun _ => none) (fun _ f => quiet f) s.sieve.fade }
    link := { s.link with deferred := waits } }
  s.sieveRegs

/-- Trivet answers a mailbox that was BUSY when the management core went down (R82). -/
def State.mbxDown (s : State) : State :=
  (List.range 7).foldl (fun s n =>
    if s.mbxState n = mbBusy then s.respond n { status := stFault, trivet := true } else s) s

/-- The restart of R573 up to the reload of R106; the third counted one within 600 s is not reloaded (R574). -/
def State.mgmtDown (s : State) (code : Nat) : State :=
  let times : List T48 :=
    if code = 0x0903 then []
    else s.recent s.flt.restarts 600000000000
  let halt := decide (3 ≤ times.length)
  let s := (s.bump F.FLT_CNT_mgmt_restarts 0).setFlag F.FLT_STAT_mgmt_halted 0 halt
  let s := { s with flt := { s.flt with restarts := times, wdogOn := false } }
  let s := (s.setFld F.SYS_STATE_stage 0 9).setFld F.SYS_CSPI_STAT_ready 0 0
  let src := s.fld F.SYS_STATE_boot_src
  let s := { s with sys := { s.sys with
      restartCause := some (code % 256), imageFrom := 0
      reload := if halt then 0 else if src = 1 ∨ src = 2 then 3 else 1 } }
  ((s.dropAccepted.mbxDown).abortEvery cFault fun _ _ => true).endClaims

/-! ### Recoveries (R565, R566, R569, R571) -/

/-- The running recovery of a Skillet, from its first step: contexts abort, fits return STALE, the domain is cycled. -/
def State.startSkillet (s : State) (k : Nat) : State :=
  if k < 12 then
    let s := s.skilletAbort k
    let s := (List.range 4).foldl (fun s q => match s.orxFit q with
      | some f => if f.skillet = some k then s.fitStale q f else s
      | none => s) s
    (s.setTrans (dSkl + k) (some 0)).setFld F.PWR_DOM_state (dSkl + k) 2
  else s

/-- The self-test of a Skillet ends: true, its capacity returns; at a failure, or at its third recovery, it stays out. -/
def State.endSkillet (s : State) (k : Nat) (ok : Bool) : Bool × State :=
  let n := Store.get (fun _ => 0) s.flt.sklCount k + 1
  let s := { s with flt := { s.flt with sklCount := Store.set (fun _ => 0) s.flt.sklCount k n } }
  let s := (s.setTrans (dSkl + k) none).setFld F.PWR_DOM_state (dSkl + k) 0
  if ok = true ∧ n < 3 then (true, s)
  else (false, { s with rxb := { s.rxb with sklOut := Store.set (fun _ => false) s.rxb.sklOut k true } })

/-- Tj_max in °C (R577). -/
def tjMax : Nat := if Config.gradeFE then 115 else 105

/-- The code of R473 for a temperature. -/
def tempCode (c : Nat) : Nat := (c + 273) * 8

/-- The steps of THERM_CRIT beside the common actions (R577). -/
def State.startThermal (s : State) : State :=
  let s := [1, 3, 5, 7].foldl State.offSide s
  s.setFld F.FLT_STAT_therm_hold 0 1

/-- Clocks of a domain are stopped by a header shortfall. -/
def State.sagging (s : State) (d : Nat) : Bool := Store.get (fun _ => false) s.pwr.sag d

def State.setSag (s : State) (d : Nat) (b : Bool) : State :=
  { s with pwr := { s.pwr with sag := Store.set (fun _ => false) s.pwr.sag d b } }

/-- The standing condition of a fault holds; faults without one always pass (R569). -/
def State.stands (s : State) (e : FaultEnt) : Bool :=
  match e.code with
  | 0x0103 => s.sagging e.unit
  | 0x0104 => s.sagging e.unit
  | 0x0201 => !s.flag F.CLK_STAT_ref_ok
  | 0x0204 => s.flag F.CLK_STAT_hosc_suspect
  | 0x0504 => (List.range 5).any fun n => decide ((tjMax : Int) + 5 ≤ Store.get (fun _ => 0) s.flt.temps n)
  | _ => true

/-- A management-core restart. -/
def isMgmt (code : Nat) : Bool := decide (0x0901 ≤ code ∧ code ≤ 0x0904)

/-- The first step of a recovery (R571). -/
def State.firstStep (s : State) (code unit : Nat) : State :=
  match code with
  | 0x0201 => if s.onHosc then s else s.toHosc
  | 0x0202 => if unit < 4 then s.spllRepeat unit else s
  | 0x0203 => if unit < 8 then s.relockLo unit else s
  | 0x0302 => if unit < 8 then s.bankMoved unit else s
  | 0x0401 => s.startSkillet unit
  | 0x0504 => s.startThermal
  | 0x0901 => s.mgmtDown code
  | 0x0902 => s.mgmtDown code
  | 0x0903 => s.mgmtDown code
  | 0x0904 => s.mgmtDown code
  | _ => s

/-- The running recovery ends with an outcome, and none runs. -/
def State.closeRecovery (s : State) (e : FaultEnt) (outcome : Nat) : State :=
  let s := { s with flt := { s.flt with running := none } }
  let s := if e.code = 0x0504 ∧ outcome = outCleared then { s with flt := { s.flt with crit := false } } else s
  (s.faultRegs).postRecovery e outcome

/-- A recovery that is now the running one starts or restarts: true when it goes on, false when it has ended at once. -/
def State.enterRecovery (s : State) (e : FaultEnt) : Bool × State :=
  if s.stands e = false then (false, s.closeRecovery e outCleared)
  else
    let s := s.firstStep e.code e.unit
    if isMgmt e.code = true ∧ s.flag F.FLT_STAT_mgmt_halted = true then (false, s.closeRecovery e outFailed)
    else (true, s)

/-- The queued fault that is served next: the highest severity, the earliest of it (R566). -/
def serveNext (q : List FaultEnt) : Option FaultEnt :=
  let top := q.foldl (fun m e => max m e.sev) 0
  q.find? fun e => decide (e.sev = top)

/-- What runs next (R566): the interrupted recovery, then the queue. -/
def State.nextRecovery (s : State) : Option (FaultEnt × State) :=
  match s.flt.interrupted with
  | some e => some (e, { s with flt := { s.flt with running := some e, interrupted := none } })
  | none => match serveNext s.flt.queue with
    | some e => some (e, { s with flt := { s.flt with running := some e, queue := s.flt.queue.erase e } })
    | none => none

/-- Recoveries start until one goes on; at most 17 wait. -/
def State.runNext : Nat → State → State
  | 0, s => s
  | n + 1, s => match s.nextRecovery with
    | none => s.faultRegs
    | some (e, s') => match s'.faultRegs.enterRecovery e with
      | (true, t) => t
      | (false, t) => State.runNext n t

/-- The running recovery ends, and the next one starts. -/
def State.endRecovery (s : State) (outcome : Nat) : State :=
  match s.flt.running with
  | none => s
  | some e => State.runNext 20 (s.closeRecovery e outcome)

/-- A recovery that has just become the running one. -/
def State.startNow (s : State) : State :=
  match s.flt.running with
  | none => s
  | some e => match s.enterRecovery e with
    | (true, t) => t
    | (false, t) => State.runNext 20 t

/-- Raise any fault, its recovery tested and started as R565 and R569 say; a management-core fault or THERM_CRIT asks for
HOLD at its arrival (R29); the NMI of S3 wakes MGMT (R549, R578). -/
def State.raiseAny (s : State) (code unit : Nat) (arg : Word) : State :=
  match faultSev code with
  | some 4 => s.deviceReset code unit arg
  | some 3 =>
    let n := (s.raiseFault code unit arg).radioMute.wakeDomain dMgmt
    let n := if isMgmt code then n.forceHold 2 (next100us s.now) else if code = 0x0504 then n.forceHold 3 (next100us s.now) else n
    if n.flt.running ≠ s.flt.running then n.startNow else n
  | some _ => s.raiseThen code unit arg State.startNow
  | none => s

/-! ### Faults of a Skillet (R266, R571) -/

/-- SKL_FAULT of a Skillet: its contexts abort with FAULT (R222) whether the recovery starts or waits. -/
def State.skilletFault (s : State) (k : Nat) : State := (s.raiseAny 0x0401 k 0).skilletAbort k

/-- A block past four times its bound is failed hardware (R266). -/
def execLdpcBlockOverrun (k : Nat) (s : State) : Outcome State Fault Refusal :=
  match s.assistOf k with
  | some _ => .next (s.skilletFault k)
  | none => .next s

def execSkilletParityError (k : Nat) (s : State) : Outcome State Fault Refusal :=
  .next (if k < 12 then s.skilletFault k else s)

/-! ### Header shortfalls (R557, R571, R576) -/

/-- The fault that a shortfall on a domain raises: code and unit. -/
def sagFault (d : Nat) : Option (Nat × Nat) :=
  if d = dMgmt then some (0x0904, 1)
  else if (dSkl ≤ d ∧ d < dSkl + 12) ∨ (dLar ≤ d ∧ d < dLar + 8) ∨ d = dLnk then some (0x0103, d)
  else if (dSieve ≤ d ∧ d < dSieve + 4) ∨ d = dCol ∨ d = dTxb then some (0x0104, d)
  else none

/-- A header's supply falls short for 2 µs: the domain's clocks stop, and with TXB's the feeding of the queues; a shortfall of every header is VDD_CORE's own fault
(R576). -/
def execHeaderSag (d : Nat) (s : State) : Outcome State Fault Refusal :=
  if isDomain d = true ∧ s.domState d = 0 ∧ s.sagging d = false ∧ s.sys.resetN = true then
    let s := s.setSag d true
    let s := if d = dTxb then s.queuesStop else s
    match sagFault d with
    | some (code, unit) => if (s.fld F.VMON_STAT_warn).testBit 0 then .next s else .next (s.raiseAny code unit 0)
    | none => .next s
  else .next s

/-- OPEN tiles of a bank that are in use are abandoned: their contexts abort with TILE_BAD, captures into them end, Ladle
channels at work on them halt (R455, R571). -/
def State.abandonBank (s : State) (b : Nat) : State :=
  let hit (t : Nat) : Bool := decide (bankOf t = b ∧ (s.tile t).state = .open)
  let s := (s.openCtxs.filter fun c => c.2.tiles.any hit).foldl (fun s c => s.abortTileBad c.1 (hit c.2.recTile)) s
  let s := (List.range 4).foldl (fun s q => match s.orxCap q with
    | some c =>
      if (List.range 16).any fun i => hit (c.tile + i) then
        let s := s.stopCap q
        match c.host with
        | some cmd => s.postAt c.start 0x0507 clsDone (toWord (stFault + 256 * c.path)) (some cmd)
        | none => s.dpdSkip q c.path skAborted
      else s
    | none => s) s
  let touches (a n : Nat) : Bool :=
    decide (a < larBase + 0x300000 * (b + 1) ∧ larBase + 0x300000 * b < a + n)
  ((List.range 32).filter fun n =>
    let w (i : Nat) : Word := (s.dma n).desc.getD i 0
    decide (s.fld F.DMA_CH_STAT_state n = dActive) &&
      (touches ((w 0).toNat + 2 ^ 32 * bits (w 1) 7 0) (bits (w 3) 23 0) ||
        touches ((w 2).toNat + 2 ^ 32 * bits (w 1) 15 8) (bits (w 3) 23 0))).foldl (fun s n => s.dmaHalt n 3) s

/-- What the recovery of a header shortfall does once the good flag has held (R571). -/
def State.sagActions (s : State) (d : Nat) : State :=
  if dSkl ≤ d ∧ d < dSkl + 12 then s.startSkillet (d - dSkl)
  else if dLar ≤ d ∧ d < dLar + 8 then s.abandonBank (d - dLar)
  else if d = dLnk then s.linkDown 8 false
  else
    let near (b : Nat) : Bool :=
      decide (d = dCol) || (decide (dSieve ≤ d ∧ d < dSieve + 4) && (s.fld F.BEAM_RX_CFG_qmask b).testBit (d - dSieve))
    let s := s.abortWhere cFault fun x => x.state.live && x.beams.any near
    let l := if d = dCol then List.range 64 else if dSieve ≤ d ∧ d < dSieve + 4 then pathsOfQuad (d - dSieve) else []
    l.foldl (fun s p => if s.sampling p then s.settleFor p (nsCycles 100000) else s) s

/-- The good flag has held for 10 µs: the clocks run again; the recovery, if it is the running one, acts. -/
def execHeaderGoodFlagReturn (d : Nat) (s : State) : Outcome State Fault Refusal :=
  if s.sagging d then
    let s := s.setSag d false
    match s.flt.running with
    | some e => if (e.code = 0x0103 ∨ e.code = 0x0104) ∧ e.unit = d then .next (s.sagActions d) else .next s
    | none => .next s
  else .next s

/-! ### The end of a recovery (R571) -/

/-- The results of calibration that a recovery asks for, those of its unit. -/
def recoveryResults (e : FaultEnt) (rs : List CalResult) : List CalResult :=
  rs.filter fun r => match e.code with
    | 0x0202 => decide (r.cal = 2 ∧ r.quad = true ∧ r.unit = 4 + e.unit)
    | 0x0203 => decide (r.cal = 2 ∧ r.quad = true ∧ r.unit = e.unit / 2) && (r.tx == decide (e.unit % 2 = 1))
    | 0x0204 => decide (r.cal = 1)
    | _ => false

/-- The calibration step of a recovery (R498, R499, R571): true unless a result was rejected. -/
def State.recoveryCal (s : State) (e : FaultEnt) (rs : List CalResult) : Bool × State :=
  let l := recoveryResults e rs
  let bad := l.find? fun r => decide (r.cause ≠ 0)
  match e.code, bad with
  | 0x0202, some r => (false, s.rejectQuad 2 (unitPll e.unit) r.cause)
  | 0x0202, none => (true, (((s.acceptUnit 2 (unitPll e.unit)).setSpll e.unit true).tickReady).returnRun e.unit)
  | 0x0203, some r => (false, s.rejectQuad 2 (unitSide e.unit) r.cause)
  | 0x0203, none => (true, s.acceptUnit 2 (unitSide e.unit))
  | 0x0204, some r => (false, s.rejectQuad 1 unitDevice r.cause)
  | 0x0204, none => (true, (l.foldl (fun s r => s.calResult r true) s).setFld F.CLK_STAT_hosc_suspect 0 0)
  | _, _ => (true, s)

/-- The running recovery ends (R566, R571): `ok` is the self-test of a Skillet, `rs` the results of its calibration. A header
whose good flag has not returned ends FAILED, and the device resets. A restart of the management core ends elsewhere. -/
def execRecoveryEnd (ok : Bool) (rs : List CalResult) (s : State) : Outcome State Fault Refusal :=
  match s.flt.running with
  | none => .next s
  | some e =>
    if isMgmt e.code then .next s
    else if (e.code = 0x0103 ∨ e.code = 0x0104) ∧ s.sagging e.unit = true then
      let s := (s.closeRecovery e outFailed).noteReset e.code e.unit false
      let s := s.internalReset
      .next { s with sys := { s.sys with resetN := true, held := true } }
    else
      let skl := if e.code = 0x0401 ∧ e.unit < 12 then some e.unit
        else if e.code = 0x0103 ∧ dSkl ≤ e.unit ∧ e.unit < dSkl + 12 then some (e.unit - dSkl) else none
      match skl with
      | some k =>
        let r := s.endSkillet k ok
        .next (r.2.endRecovery (if r.1 then outDone else outFailed))
      | none =>
        let r := s.recoveryCal e rs
        .next (r.2.endRecovery outDone)

/-! ### The management core (R564, R573, R574) -/

/-- The management core runs. -/
def State.coreUp (s : State) : Bool := decide (5 ≤ s.stage ∧ s.stage ≤ 7)

def execMgmtException (s : State) : Outcome State Fault Refusal :=
  if s.coreUp then .next (s.raiseAny 0x0902 0 0) else .next s

/-- Tilin writes FLT_WDOG. -/
def execWatchdogKick (s : State) : Outcome State Fault Refusal :=
  if s.flt.wdogOn then .next { s with flt := { s.flt with wdogLast := s.now } } else .next s

def execWatchdogExpiry (s : State) : Outcome State Fault Refusal :=
  if s.flt.wdogOn then .next ((s.elapseTo (s.flt.wdogLast + 250000000)).raiseAny 0x0901 0 0) else .next s

/-- SYS_STATE.stage reaches READY: a restart that still runs ends DONE. -/
def State.atReady (s : State) : State :=
  let s := (s.setFld F.SYS_STATE_stage 0 7).setFld F.SYS_CSPI_STAT_ready 0 1
  let s := if s.flag F.CLK_STAT_ref_ok && s.onHosc && s.flag F.CLK_CFG_auto_resume && !s.flag F.CLK_STAT_resuming then
      s.startResume none
    else s
  match s.flt.running with
  | some e => if isMgmt e.code then s.endRecovery outDone else s
  | none => s

/-- Tilin resumes after a restart: MGMT_RESTART, READY. -/
def execMgmtResumeDone (s : State) : Outcome State Fault Refusal :=
  match s.sys.restartCause with
  | none => .next s
  | some c =>
    if s.stage = 5 ∧ s.cal.commissioned = true then
      let s := { s with sys := { s.sys with restartCause := none }, cal := { s.cal with trackAt := s.now } }
      .next (s.post 0x0104 clsWarn (toWord c)).atReady
    else .next s

/-! ### Temperatures (R541, R577) -/

/-- Forward bias is removed above 100 °C of the core die and restored below 95 °C. -/
def State.biasTemp (s : State) (core : Nat) : State :=
  let set (s : State) (off : Bool) : State :=
    let s := { s with pwr := { s.pwr with biasOff := off } }
    let s := (List.range 48).foldl (fun s d =>
      if hasSetpoint d then s.setFlag F.PWR_DOM_fbias_held d (off && decide (s.fld F.PWR_DOM_fbias d ≠ 0)) else s) s
    s.post 0x0A03 clsWarn (toWord ((if off then 0 else 1) + 65536 * core))
  if s.pwr.biasOff = false ∧ tempCode 100 < core then set s true
  else if s.pwr.biasOff = true ∧ core < tempCode 95 then set s false
  else s

/-- The code of a sensor. -/
def sensorCode (codes : List Nat) (n : Nat) : Nat := codes.getD n 0 % 4096

/-- The lowest-numbered sensor at or above a temperature. -/
def hotSensor (codes : List Nat) (t : Nat) : Option Nat := (List.range 5).find? fun n => decide (tempCode t ≤ sensorCode codes n)

/-- What the sensors read, in °C (R473). -/
def State.takeTemps (s : State) (codes : List Nat) : State :=
  { s with flt := { s.flt with
      temps := (List.range 5).foldl (fun (m : Store Int) n =>
        Store.set (fun _ => 0) m n ((sensorCode codes n / 8 : Nat) - 273)) s.flt.temps } }

/-- THERM_WARN may come again once every sensor is below Tj_max - 10 °C. -/
def State.rearmWarn (s : State) (codes : List Nat) : State :=
  if (hotSensor codes (tjMax - 10)).isNone then { s with flt := { s.flt with warned := false } } else s

/-- Since when every sensor has been below Tj_max - 5 °C. -/
def State.noteCool (s : State) (codes : List Nat) : State :=
  let cool := match s.flt.coolSince with
    | some t => some t
    | none => some s.now
  { s with flt := { s.flt with coolSince := if (hotSensor codes (tjMax - 5)).isNone then cool else none } }

/-- THERM_CRIT at Tj_max + 5 °C. -/
def State.thermCrit (s : State) (codes : List Nat) : State :=
  match hotSensor codes (tjMax + 5) with
  | some n =>
    if s.flt.crit then s
    else ({ s with flt := { s.flt with crit := true } } : State).raiseAny 0x0504 n (toWord (sensorCode codes n))
  | none => s

/-- THERM_WARN at Tj_max - 5 °C. -/
def State.thermWarn (s : State) (codes : List Nat) : State :=
  match hotSensor codes (tjMax - 5) with
  | some n =>
    if s.flt.warned then s
    else ({ s with flt := { s.flt with warned := true } } : State).raiseAny 0x0503 n (toWord (sensorCode codes n))
  | none => s

/-- Trivet reads its five sensors, as codes of R473: quadrants 0 to 3, then the core (R541, R577). -/
def execTemperatureRead (codes : List Nat) (s : State) : Outcome State Fault Refusal :=
  if codes.length = 5 ∧ s.sys.resetN = true ∧ s.sys.held = false then
    let s := ((s.takeTemps codes).biasTemp (sensorCode codes 4)).rearmWarn codes
    .next (((s.noteCool codes).thermCrit codes).thermWarn codes)
  else .next s

/-- Every sensor has been below Tj_max - 5 °C for 1 s: the hold ends, and THERM_CRIT may come again. -/
def execThermHoldClear (s : State) : Outcome State Fault Refusal :=
  match s.flt.coolSince with
  | none => .next s
  | some t =>
    if s.flag F.FLT_STAT_therm_hold then
      let s := s.elapseTo (t + 1000000000)
      .next (({ s with flt := { s.flt with crit := false } } : State).setFld F.FLT_STAT_therm_hold 0 0)
    else .next s

/-! ### Commands (R581, R607, R611, R633) -/

def specFaultStatGet : CmdSpec := { opcode := 0x0B01, early := true }

/-- The queue in service order (R566, R633). -/
def serveOrder (q : List FaultEnt) : List FaultEnt :=
  (q.filter fun e => decide (e.sev = 3)) ++ q.filter fun e => decide (e.sev ≠ 3)

def svcFaultStatGet (_ : Req) (s : State) : State × Rsp :=
  let q := (serveOrder s.flt.queue).map fun e =>
    toWord (e.code + 65536 * e.sev + 2 ^ 19 * min 31 e.merges + 2 ^ 24 * (e.unit % 256))
  (s, rspOk ([s.reg .FLT_STAT 0, s.reg .FLT_CUR 0, s.reg .FLT_RESET 0, s.reg .FLT_CNT 0] ++
    (q ++ List.replicate 16 0).take 16 ++
    packBytes 28 (faultCodes.map fun c => satN 8 (Store.get (fun _ => 0) s.flt.counts c))))

def execFaultStatGet (q : Req) (s : State) : Outcome State Fault Refusal :=
  .next (serve specFaultStatGet q (svcFaultStatGet q) s)

def specFaultInject : CmdSpec := { opcode := 0x0B02, minLen := 1, maxLen := 1, masks := [0x00FFFFFF], early := true }

def svcFaultInject (q : Req) (s : State) : State × Rsp :=
  let code := bits (q.arg 1) 15 0
  s.check [(decide (s.modeNo ≠ mHold), rspErr stMode),
           (!faultCodes.contains code || decide (code = 0x0102 ∨ code = 0x0205), rspErr stBadArg)]
    (s.raiseAny code (bits (q.arg 1) 23 16) 0, rspOk)

def execFaultInject (q : Req) (s : State) : Outcome State Fault Refusal :=
  .next (serve specFaultInject q (svcFaultInject q) s)

def specTrvFaultLog : CmdSpec := { opcode := 0x01F1, minLen := 1, maxLen := 1, masks := [0xF3F], trivet := true }

def svcTrvFaultLog (q : Req) (s : State) : State × Rsp :=
  let first := bits (q.arg 1) 5 0
  let n := bits (q.arg 1) 11 8
  s.check [(decide (n = 0), rspErr stBadArg)]
    (s, rspOk (s.reg .FLT_LOG_WR 0 :: (List.range (4 * n)).map fun i => s.reg .FLT_LOG ((4 * first + i) % 256)))

def execTrvFaultLog (q : Req) (s : State) : Outcome State Fault Refusal :=
  .next (serve specTrvFaultLog q (svcTrvFaultLog q) s)

def specTrvMgmtReset : CmdSpec := { opcode := 0x01F3, trivet := true }

/-- What TRV_MGMT_RESET and TRV_DEVICE_RESET ask for begins 1 ms after the response (R611). -/
def svcTrvReset (dev : Bool) (s : State) : State × Rsp :=
  ({ s with flt := { s.flt with deferred := some (dev, none) } }, rspAccepted)

def execTrvMgmtReset (q : Req) (s : State) : Outcome State Fault Refusal :=
  .next (serve specTrvMgmtReset q (svcTrvReset false) s)

def specTrvDeviceReset : CmdSpec := { opcode := 0x01F4, trivet := true }

def execTrvDeviceReset (q : Req) (s : State) : Outcome State Fault Refusal :=
  .next (serve specTrvDeviceReset q (svcTrvReset true) s)

def execDeferredTrivetReset (s : State) : Outcome State Fault Refusal :=
  match s.flt.deferred with
  | some (dev, some t) =>
    let s := s.elapseTo t
    let s := { s with flt := { s.flt with deferred := none } }
    .next (s.raiseAny (if dev then 0x0905 else 0x0903) 0 0)
  | _ => .next s

end Sys2Proof.Machine
end

