-- ==== Sys2Proof/Machine/Boot.lean ====
section
/-! DEFINITION. Boot from power-on to READY (R106-R113, R482-R484, R495, R526, R533, R595-R597, R635-R638), Trivet's commands
for it, and the claims and other system commands of chapter 02. -/

namespace Sys2Proof.Machine

open Host

/-! ### Power, RESET_N, release (R579, R595-R597) -/

/-- VDD_CORE rises past its power-on threshold: everything is reset and the fault log is cleared; the commands on their way
stay. -/
def execPowerOnReset (s : State) : Outcome State Fault Refusal :=
  let r : State := { free := s.free, pending := s.pending }
  .next r

/-- The balls are sampled and SUPPLY_CHECK begins (R106, R356, R596). -/
def State.sampleStraps (s : State) (bootSrc : Nat) (refsel : Bool) : State :=
  let s := (s.setFld F.SYS_STATE_boot_src 0 bootSrc).setFld F.SYS_STATE_stage 0 1
  { s with sys := { s.sys with resetN := true, held := false, refsel := refsel } }

def execResetNRise (bootSrc : Nat) (refsel : Bool) (s : State) : Outcome State Fault Refusal :=
  if s.sys.resetN then .next s else .next (s.sampleStraps bootSrc refsel)

/-- From its release a device reset boots as from RESET_N rising. -/
def execDeviceResetRelease (bootSrc : Nat) (refsel : Bool) (s : State) : Outcome State Fault Refusal :=
  if s.sys.held then .next (s.sampleStraps bootSrc refsel) else .next s

def execSupplyCheckEnd (s : State) : Outcome State Fault Refusal :=
  if s.stage = 1 then .next (s.setFld F.SYS_STATE_stage 0 2) else .next s

/-! ### HOSC_READY (R380, R427, R526, R531, R596) -/

/-- Host image, or none yet: what Trivet turns to first (R106). -/
def firstImage (src : Nat) : Nat := if src = 1 ∨ src = 2 then 2 else 0

/-- HOSC is ready after the domains were held for `heldNs` (0 without CLK_HOLD): the counter starts at 0, outputs go low, the
monitor arms, LOADING begins. -/
def execHoscReady (heldNs : Nat) (s : State) : Outcome State Fault Refusal :=
  if s.stage ≠ 2 then .next s
  else
    let src := s.fld F.SYS_STATE_boot_src
    let held := s.time.held
    let s := ((s.setFld F.SYS_STATE_stage 0 3).setFld F.CLK_STAT_hosc_ready 0 1).setFld F.CLK_SRC_rdy_hosc 0 1
    let s := { s with
      sys := { s.sys with imageFrom := firstImage src }
      clk := { s.clk with firstWin := !held }
      time := { s.time with
        ticks := 0, running := true, held := false
        outs := (List.range 4).foldl (fun (m : Store OutPin) n => Store.set (fun _ => {}) m n { level := .low }) [] } }
    let s := if held then
        let s := (s.setFld F.CLK_STAT_clk_hold 0 0).refFails true true
        (s.setFld F.TIME_STAT_gap 0 1).post 0x0805 clsWarn (toWord (satN 32 heldNs))
      else s
    .next (if src = 2 then s.applyLink (toWord (1 + 2 * 1 + 2 ^ 8)) 0 0 else s)

/-! ### The image (R107-R110, R113) -/

/-- The staging range in use, as bytes [lo, hi) (R110): the one of a restart once the management core has gone down. -/
def State.staging (s : State) : Nat × Nat :=
  if s.sys.restartCause.isSome then (0x10500000, 0x10800000) else (0x10000000, 0x10300000)

/-- Trivet waits for the next image from flash, or has given up on it. -/
def State.bootFailed (s : State) : State :=
  let s := s.setFld F.SYS_STATE_stage 0 8
  let s := { s with sys := { s.sys with reload := 0 } }
  match s.flt.running with
  | some e => if isMgmt e.code then s.endRecovery outFailed else s
  | none => s

/-- Loading goes on with the next image: 0 slot A, 1 slot B, 2 the host's. -/
def State.nextImage (s : State) (n : Nat) : State :=
  let down := decide (s.stage = 9)
  let s := if down then s else s.setFld F.SYS_STATE_stage 0 3
  { s with sys := { s.sys with imageFrom := n, reload := if down then (if n = 2 then 3 else 1) else 0 } }

/-- An image fails (R108, R109): its cause; slot B follows slot A, the host both where BOOT_SRC says so. -/
def State.imageFails (s : State) (cause : Nat) : State :=
  let s := s.setFld F.SYS_STATE_fail_cause 0 cause
  match s.sys.imageFrom with
  | 0 => (s.setFld F.SYS_STATE_slot_a_failed 0 1).nextImage 1
  | 1 =>
    let s := s.setFld F.SYS_STATE_slot_b_failed 0 1
    if s.fld F.SYS_STATE_boot_src = 3 then s.nextImage 2 else s.bootFailed
  | _ => s.bootFailed

/-- Loading from flash ends; a flash that does not answer fails the slot. -/
def execImageLoadDone (answered : Bool) (s : State) : Outcome State Fault Refusal :=
  let src := s.fld F.SYS_STATE_boot_src
  if ((s.stage = 3 ∧ (src = 0 ∨ src = 3)) ∨ (s.stage = 9 ∧ s.sys.reload = 1)) ∧ s.sys.imageFrom < 2 then
    if answered = false then .next (s.imageFails 6)
    else if s.stage = 9 then .next { s with sys := { s.sys with reload := 2 } }
    else .next (s.setFld F.SYS_STATE_stage 0 4)
  else .next s

/-- Bytes of memory from an address. -/
def State.bytesAt (s : State) (a n : Nat) : List Byte := (List.range n).map fun i => s.byte (a + i)

/-- Body length of the host's image. -/
def State.bodyLen (s : State) : Nat := (s.memWord (s.sys.imageAddr + 0x0C)).toNat

/-- Format of the host's image: magic, body length, and all of it inside the staging range. -/
def State.hostFormat (s : State) : Bool :=
  let a := s.sys.imageAddr
  let n := s.bodyLen
  decide (s.memWord a = 0x314E4C54 ∧ 4 ≤ n ∧ n ≤ 2097152 ∧ n % 4 = 0 ∧ s.staging.1 ≤ a ∧ a + 0xC0 + n ≤ s.staging.2)

/-- Key: the slot exists, is not revoked, and its fused hash is that of the public key. -/
def State.hostKey (s : State) : Bool :=
  let slot := (s.memWord (s.sys.imageAddr + 0x10)).toNat
  decide (slot ≤ 3) && !Config.keyRevoked slot &&
    decide (sha256 (s.bytesAt (s.sys.imageAddr + 0x80) 64) = (Config.keyHash slot).toNat)

/-- Rollback: the security version has reached the fused counter. -/
def State.hostRollback (s : State) : Bool := decide (Config.rollback.toNat ≤ (s.memWord (s.sys.imageAddr + 0x08)).toNat)

/-- CRC of the body. -/
def State.hostCrc (s : State) : Bool :=
  decide ((s.memWord (s.sys.imageAddr + 0x14)).toNat = crc32 (s.bytesAt (s.sys.imageAddr + 0xC0) s.bodyLen))

/-- Signature, over the SHA-256 of the first 64 bytes followed by all from the public key on. -/
def State.hostSignature (s : State) : Bool :=
  let a := s.sys.imageAddr
  let num (o : Nat) : Nat := beNat (s.bytesAt (a + o) 32)
  ecdsaOk (num 0x80, num 0xA0) (num 0x40) (num 0x60)
    (sha256 (s.bytesAt a 64 ++ s.bytesAt (a + 0x80) (64 + s.bodyLen)))

/-- The verdicts of R108: of the host's image from its bytes in the Larder, of an image in flash as Trivet reports them. -/
def State.imageChecks (s : State) (img : ImageChecks) : List Bool :=
  if s.sys.imageFrom = 2 then [s.hostFormat, s.hostKey, s.hostRollback, s.hostCrc, s.hostSignature]
  else [img.format, img.key, img.rollback, img.crc, img.signature]

/-- The first check of R108 that fails, as its cause, 1 to 5 in their order; 0 for none. -/
def State.imageCause (s : State) (img : ImageChecks) : Nat :=
  match (s.imageChecks img).findIdx? (· = false) with
  | some i => i + 1
  | none => 0

/-- First address of the profile that came with a host image (R635). -/
def State.profileAddr (s : State) : Nat := (s.sys.imageAddr + 0xC0 + s.bodyLen + 4095) / 4096 * 4096

/-- Tilin creates the event ring of 4,096 entries and writes the held events into it (R101, R638). -/
def State.makeRing (s : State) : State :=
  if s.sys.ringMade then s
  else
    let s := (s.placeRing 12).getD s
    let s := s.sys.heldEvts.foldl State.ringWrite s
    let s := if s.sys.heldLost then (s.setFld F.SYS_EVT_CTL_overrun 0 1).setFld F.SYS_IRQ_STAT_evt_overrun 0 1 else s
    { s with sys := { s.sys with heldEvts := [], heldLost := false } }

/-- MGMT_START (R574, R635, R638). -/
def State.mgmtStart (s : State) (version : Word) : State :=
  let src := s.fld F.SYS_STATE_boot_src
  let profile := if (src = 1 ∨ src = 2) ∧ s.cal.commissioned = false then s.bytesAt s.profileAddr 300 else s.sys.profile
  let s := s.setFld F.SYS_STATE_stage 0 5
  let s := { s with
    sys := { s.sys with reload := 0, version := version, profile := profile }
    flt := { s.flt with wdogOn := true, wdogLast := s.now } }
  s.makeRing

/-- The checks of R108 end. -/
def execImageVerifyDone (img : ImageChecks) (s : State) : Outcome State Fault Refusal :=
  if s.stage = 4 ∨ (s.stage = 9 ∧ s.sys.reload = 2) then
    match s.imageCause img with
    | 0 => .next (s.mgmtStart (if s.sys.imageFrom = 2 then s.memWord (s.sys.imageAddr + 4) else img.version))
    | c => .next (s.imageFails c)
  else .next s

def specTrvBootExec : CmdSpec := { opcode := 0x01F2, minLen := 2, maxLen := 2, masks := [mAll, 0xFF], trivet := true }

/-- TRV_BOOT_EXEC is accepted (R611). -/
def State.bootExecOk (s : State) : Bool :=
  decide (s.stage = 8 ∨ (s.stage = 3 ∧ s.sys.imageFrom = 2) ∨ (s.stage = 9 ∧ s.sys.reload = 3))

def svcTrvBootExec (q : Req) (s : State) : State × Rsp :=
  let a := (q.arg 1).toNat
  s.check [(!s.bootExecOk, rspErr stBusy),
           (decide (bits (q.arg 2) 7 0 ≠ 0 ∨ a % 64 ≠ 0 ∨ a < s.staging.1 ∨ s.staging.2 ≤ a), rspErr stBadArg)]
    (let s := { s with sys := { s.sys with
        imageFrom := 2, imageAddr := a, reload := if s.stage = 9 then 2 else 0 } }
     (if s.stage = 9 then s else s.setFld F.SYS_STATE_stage 0 4, rspAccepted))

def execTrvBootExec (q : Req) (s : State) : Outcome State Fault Refusal :=
  .next (serve specTrvBootExec q (svcTrvBootExec q) s)

/-! ### CALIBRATING and READY (R482-R484, R495, R635, R636) -/

/-- Word i of the profile. -/
def profileWord (l : List Byte) (i : Nat) : Word :=
  bytesWord (l.getD (4 * i) 0) (l.getD (4 * i + 1) 0) (l.getD (4 * i + 2) 0) (l.getD (4 * i + 3) 0)

/-- Magic, CRC and reserved fields of a profile hold (R636). -/
def profileOk (l : List Byte) : Bool :=
  decide (l.length = 300 ∧ profileWord l 0 = 0x31525043 ∧ (profileWord l 1).toNat = crc32 (l.drop 8) ∧
    bits (profileWord l 2) 31 2 = 0 ∧ profileWord l 74 = 0)

/-- Entry to CALIBRATING with the 300 bytes that flash holds; a host boot uses the copy Tilin made. -/
def execCalibratingEntry (profile : List Byte) (s : State) : Outcome State Fault Refusal :=
  if s.stage = 5 ∧ s.cal.commissioned = false then
    let src := s.fld F.SYS_STATE_boot_src
    let l := if src = 1 ∨ src = 2 then s.sys.profile else profile
    let w (i : Nat) : Word := profileWord l i
    let s := if profileOk l = true ∧ bitAt (w 2) 0 = true then s.setNet ((List.range 68).map fun i => w (3 + i)) else s
    let link : List Word := if profileOk l = true ∧ bitAt (w 2) 1 = true then [w 71, w 72, w 73] else []
    let s := { s with
      sys := { s.sys with linkWords := link }
      cal := { s.cal with step := 1 }
      clk := { s.clk with noRef := 0, noRefAt := s.now } }
    .next (s.setFld F.SYS_STATE_stage 0 6)
  else .next s

/-- The calibration of a startup step. -/
def stepCal (n : Nat) : Nat :=
  match n with
  | 1 => 1
  | 2 => 2
  | 3 => 3
  | 4 => 11
  | 5 => 8
  | 6 => 7
  | 7 => 6
  | 8 => 5
  | 9 => 9
  | 10 => 10
  | _ => 12

/-- The results that a startup step takes, checked (R497); without a network table 0xA and the RX part of 0x9 are not run. -/
def State.stepResults (s : State) (rs : List CalResult) : List CalResult :=
  let c := stepCal s.cal.step
  (rs.filter fun r =>
    decide (r.cal = c) && (if r.quad then decide (r.unit < 8) else decide (r.unit < 64)) &&
      (s.network || !(decide (c = 10) || (decide (c = 9) && !r.tx)))).map (s.judge false)

/-- Memory shares and policies before READY (R233, R274). -/
def State.startShares (s : State) : State :=
  let u := if s.panFitted then s.fld F.MEM_PAN_USABLE_tiles else 0
  let bl := min 16384 (u / 16)
  let s := { s with mem := { s.mem with blTiles := bl } }
  ([(1, 0), (2, 65536), (3, 524288), (6, 0)] : List (Nat × Nat)).foldl
    (fun s m => s.setPolicy m.1 { s.policyOf m.1 with retTiles := min m.2 (u - bl) }) s

/-- The FIR banks hold the stored set of their quadrant's preset. -/
def State.startBanks (s : State) : State :=
  (List.range 4).foldl (fun s q =>
    let l := s.storedSet q (s.fld F.SIEVE_CFG_preset q)
    ((s.setBank q 0 l).setBank q 1 l).setFld F.SIEVE_CFG_shadow_valid q 1) s

/-- The sides leave CAL, and every path that is not degraded enters service (R145, R333, R484). -/
def State.startSides (s : State) : State :=
  let s := { s with cal := { s.cal with commissioned := true, trackAt := s.now } }
  let s := (List.range 4).foldl State.serveQuad s
  let s := (List.range 8).foldl (fun s k => (s.enterSide k sSleep).settleSide k) s
  let s := (List.range 64).foldl (fun s p => s.setFld F.CAL_PATH_STAT_tx_ext_pending p 1) s
  let t (k : Nat) : Int := 8 * Store.get (fun _ => 0) s.flt.temps (k / 2)
  let s := (List.range 8).foldl (fun s k => s.setRun k (t k) s.now) s
  let s := match s.servedQuads with
    | [q] => if s.network then (s.setPhaseValid (2 * q) true).setPhaseValid (2 * q + 1) true else s
    | _ => s
  s.pilotRegs

/-- The link words of the profile take effect (R380). -/
def State.startLink (s : State) : State :=
  match s.sys.linkWords with
  | [w, l, f] => (({ s with sys := { s.sys with linkWords := [] } } : State)).applyLink (w &&& 0xFFFFFF77) (bits l 7 0) f
  | _ => s

/-- The end of startup: READY is its last event (R482); the FAULT of a device reset follows it (R579). -/
def State.startReady (s : State) : State :=
  let s := (s.startShares.startBanks.updateLimit true)
  let s := if s.network then s else s.post 0x0606 clsInfo 0
  let s := s.startSides
  let s := match s.sys.restartCause with
    | some c => ({ s with sys := { s.sys with restartCause := none } } : State).post 0x0104 clsWarn (toWord c)
    | none => s
  let s := ({ s with cal := { s.cal with step := 0 } } : State)
  let s := (s.post 0x0100 clsInfo s.sys.version).atReady
  let code := s.fld F.FLT_RESET_code
  let s := if code = 0 then s else s.postFault code 4 s.flt.resetUnit false false
  s.startLink

/-- All sides go into CAL for step 2. -/
def State.sidesIntoCal (s : State) : State := (List.range 8).foldl (fun s k => s.enterSide k sCal) s

/-- The sample-clock PLLs run: the clocks leave HOSC, as a first start or after a failure before READY (R427, R533). -/
def State.firstClocks (s : State) : State :=
  let was := s.onHosc
  let s := s.spllsUp.offHosc
  if was then s.postResumed none else s

/-- A startup step ends with its results, retries included in order (R482, R483). -/
def execStartupCalStepDone (rs : List CalResult) (s : State) : Outcome State Fault Refusal :=
  if s.stage = 6 ∧ s.flag F.CLK_STAT_ref_ok = true ∧ 1 ≤ s.cal.step ∧ s.cal.step ≤ 11 then
    let n := s.cal.step
    let l := s.stepResults rs
    let s := if n = 2 then s.sidesIntoCal else s
    let s := l.foldl (fun s r => s.calResult r true) s
    let s := if n = 2 then s.firstClocks else s
    if n = 11 then .next s.startReady
    else .next { s with cal := { s.cal with step := n + 1 } }
  else .next s

/-! ### Queries (R88, R607) -/

def specVersionGet : CmdSpec := { opcode := 0x0101, early := true }

def svcVersionGet (_ : Req) (s : State) : State × Rsp := (s, rspOk [s.sys.version, s.reg .SYS_ID 0])

def execVersionGet (q : Req) (s : State) : Outcome State Fault Refusal :=
  .next (serve specVersionGet q (svcVersionGet q) s)

def specSysStateGet : CmdSpec := { opcode := 0x0102, early := true }

def svcSysStateGet (_ : Req) (s : State) : State × Rsp :=
  (s, rspOk [s.reg .SYS_STATE 0, s.reg .SYS_MODE 0, s.reg .FLT_STAT 0, s.reg .CLK_STAT 0])

def execSysStateGet (q : Req) (s : State) : Outcome State Fault Refusal :=
  .next (serve specSysStateGet q (svcSysStateGet q) s)

def specTrvState : CmdSpec := { opcode := 0x01F0, trivet := true }

/-- The states of domains 16 w to 16 w + 15. -/
def State.domainWord (s : State) (w : Nat) : Word :=
  toWord ((List.range 16).foldl (fun n i =>
    let c := 16 * w + i
    n + 4 ^ i * if isDomain c then s.fld F.PWR_DOM_state c else 3) 0)

def svcTrvState (_ : Req) (s : State) : State × Rsp :=
  (s, rspOk ([s.reg .SYS_STATE 0, s.reg .VMON_STAT 0, s.reg .CLK_STAT 0] ++ (List.range 3).map s.domainWord))

def execTrvState (q : Req) (s : State) : Outcome State Fault Refusal := .next (serve specTrvState q (svcTrvState q) s)

def specEvtRingSet : CmdSpec := { opcode := 0x0106, minLen := 1, maxLen := 1, masks := [0x1F] }

def svcEvtRingSet (q : Req) (s : State) : State × Rsp :=
  let k := bits (q.arg 1) 4 0
  if k < 8 ∨ 16 < k then (s, rspErr stBadArg)
  else match s.placeRing k with
    | some t => (t, rspOk)
    | none => (s, rspErr stNoMem)

def execEvtRingSet (q : Req) (s : State) : Outcome State Fault Refusal :=
  .next (serve specEvtRingSet q (svcEvtRingSet q) s)

/-! ### Claims (R91-R97, R545, R607, R610) -/

/-- Indices of a resource type. -/
def resCount (ty : Nat) : Nat :=
  match ty with
  | 1 => 16
  | 2 => 16
  | 3 => 32
  | 4 => 4
  | 5 => 5
  | 6 => 1
  | 7 => 6144
  | _ => 0

def resType (q : Req) : Nat := bits (q.arg 1) 7 0

/-- First index named. -/
def resFirst (q : Req) : Nat := if resType q = resTile then bits (q.arg 2) 12 0 else bits (q.arg 1) 15 8

def resLen (q : Req) : Nat := bits (q.arg 1) 31 16

def resIdx (q : Req) : List Nat := (List.range (resLen q)).map (resFirst q + ·)

/-- Type, length, index and count are within R91 and R607. -/
def resBad (q : Req) : Bool :=
  decide (resCount (resType q) = 0 ∨ q.args.length ≠ (if resType q = resTile then 2 else 1) ∨
    (resType q = resTile ∧ bits (q.arg 1) 15 8 ≠ 0) ∨ resLen q = 0 ∨ resCount (resType q) < resFirst q + resLen q)

/-- Somebody else holds an index. -/
def State.otherHolds (s : State) (mbx ty i : Nat) : Bool := (s.owner ty i).isSome && !s.holds mbx ty i

/-- The indices a claim would meet, conflicts of the strobes included (R94). -/
def claimMeets (ty : Nat) (l : List Nat) : List Nat :=
  if ty = resStrobe then (List.range 5).filter fun i => l.contains i || (if i = 4 then l.any (· < 4) else l.contains 4)
  else l

def specResClaim : CmdSpec := { opcode := 0x0110, minLen := 1, maxLen := 2, masks := [mAll, 0x1FFF] }

def svcResClaim (q : Req) (s : State) : State × Rsp :=
  let ty := resType q
  if resBad q then (s, rspErr stBadArg)
  else
    let l := resIdx q
    if l.all (fun i => s.holds q.mbx ty i) then (s, rspOk)
    else match (claimMeets ty l).find? fun i => s.otherHolds q.mbx ty i with
      | some i => (s, s.rspHeld ty i)
      | none =>
        if ty = resTile ∧ (l.any fun t => decide (s.fld F.PWR_DOM_state (dLar + bankOf t) ≠ 0)) = true then (s, rspErr stNotReady)
        else if ty = resTile ∧ (l.any fun t => decide ((s.tile t).state = .quarantined)) = true then (s, rspErr stNoMem)
        else
          let c : Claim := ⟨q.mbx, s.fld F.SYS_MBX_STAT_port q.mbx, false, 0, s.sys.claimSeq⟩
          let s := (l.filter fun i => (s.owner ty i).isNone).foldl (fun s i => s.setOwner ty i (some c)) s
          ({ s with sys := { s.sys with claimSeq := s.sys.claimSeq + 1 } }, rspOk)

def execResClaim (q : Req) (s : State) : Outcome State Fault Refusal := .next (serve specResClaim q (svcResClaim q) s)

/-- An accepted command of the caller that has not ended uses an index (R610). -/
def State.inUse (s : State) (mbx ty i : Nat) : Bool :=
  let caps := (List.range 4).filterMap fun q => match s.orxCap q with
    | some c => match c.host with
      | some h => if h.mbx = mbx then some (q, c.tile) else none
      | none => none
    | none => none
  let acts := (List.range 16).filterMap s.actOf
  if ty = resTc then s.flag F.TC_CTL_cmd_armed i
  else if ty = resOrx then
    caps.any (fun c => decide (c.1 = i)) || acts.any fun a => match a with
      | .capture p _ _ c => decide (quadOf p = i ∧ c.mbx = mbx)
      | _ => false
  else if ty = resTile then
    caps.any (fun c => decide (c.2 ≤ i ∧ i < c.2 + 16)) || acts.any fun a => match a with
      | .capture _ _ t c => decide (t ≤ i ∧ i < t + 16 ∧ c.mbx = mbx)
      | _ => false
  else if ty = resStrobe then
    acts.any fun a => match a with
      | .strobe n c => decide (n = i ∧ c.mbx = mbx)
      | _ => false
  else false

/-- A pin whose claim ends is an input again (R476); the sequencer stops with its claim (R475). -/
def State.unclaim (s : State) (ty i : Nat) : State :=
  let s := s.setOwner ty i none
  if ty = resGpio then s.setFld F.GPIO_PIN_oe i 0 else if ty = resAux then s.auxStop else s

def specResRelease : CmdSpec := { opcode := 0x0111, minLen := 1, maxLen := 2, masks := [mAll, 0x1FFF] }

def svcResRelease (q : Req) (s : State) : State × Rsp :=
  let ty := resType q
  let l := resIdx q
  if resBad q then (s, rspErr stBadArg)
  else match l.find? fun i => s.otherHolds q.mbx ty i with
    | some i => (s, s.rspHeld ty i)
    | none =>
      s.check [(l.any fun i => !s.holds q.mbx ty i, rspErr stBadArg), (l.any fun i => s.inUse q.mbx ty i, rspErr stBusy)]
        (l.foldl (fun s i => s.unclaim ty i) s, rspOk)

def execResRelease (q : Req) (s : State) : Outcome State Fault Refusal :=
  .next (serve specResRelease q (svcResRelease q) s)

def specResQuery : CmdSpec := { opcode := 0x0112, minLen := 1, maxLen := 2, masks := [mAll, 0x1FFF] }

def svcResQuery (q : Req) (s : State) : State × Rsp :=
  s.check [(resBad q || decide (resLen q ≠ 1), rspErr stBadArg)] 
    (s, { rspOk [s.ownerWord (resType q) (resFirst q)] with holder := true })

def execResQuery (q : Req) (s : State) : Outcome State Fault Refusal := .next (serve specResQuery q (svcResQuery q) s)

end Sys2Proof.Machine
end

