-- ==== Sys2Proof/Machine/Ports.lean ====
section
/-! DEFINITION. Chapter 02: how the two ports reach registers and memory (R59-R77, R104, R110, R456), the mailboxes' rings and
acknowledgements (R82), the frames of CSPI and the management messages of the link. -/

namespace Sys2Proof.Machine

open Host

/-! ### Rings (R70, R82-R84, R88, R89) -/

/-- Trivet serves MBX7: its own five commands, nothing else. -/
def State.trivetServe (s : State) (q : Req) (op : Nat) : State :=
  if op = 0x01F0 then Machine.serve specTrvState q (svcTrvState q) s
  else if op = 0x01F1 then Machine.serve specTrvFaultLog q (svcTrvFaultLog q) s
  else if op = 0x01F2 then Machine.serve specTrvBootExec q (svcTrvBootExec q) s
  else if op = 0x01F3 then Machine.serve specTrvMgmtReset q (svcTrvReset false) s
  else if op = 0x01F4 then Machine.serve specTrvDeviceReset q (svcTrvReset true) s
  else s.stageRsp q.mbx { status := stBadOpcode, trivet := true }

/-- A ring is taken: the request is copied; Trivet answers MBX7, and MBX0 to MBX6 while the management core is down; a ring
for Tilin wakes MGMT (R549). DESIGN CHOICE (log entry 139): a request longer than the area that Trivet answers for Tilin gets
ST_BAD_ARG (R82), not the ST_NOT_READY of R88. -/
def State.takeRing (s : State) (p : Port) (n : Nat) (viaReq : Option (List Word)) : State :=
  let hdr := s.reqWord n 0
  let len := reqLen hdr
  let s := s.setFld F.SYS_MBX_STAT_port n (if p = .link then 1 else 0)
  let byTrivet := decide (n = 7) || !s.coreUp
  let l := if len ≤ 63 then (List.range (len + 1)).map (s.reqWord n) else [hdr]
  let s := s.setMbx n { s.mbx n with copied := l, taken := byTrivet, staged := none, viaReq := viaReq }
  if 63 < len then s.respond n { status := stBadArg, trivet := byTrivet }
  else
    let s := s.setFld F.SYS_MBX_STAT_state n mbBusy
    if n = 7 then s.trivetServe (s.reqOf 7) (reqOpcode hdr)
    else if byTrivet then s.stageRsp n { status := stNotReady, trivet := true }
    else s.wakeDomain dMgmt

/-- A ring arrives (R82). -/
def State.ring (s : State) (p : Port) (n : Nat) : State :=
  if s.mbxState n = mbBusy then s.setFld F.SYS_MBX_STAT_collide n 1 else s.takeRing p n none

def execMailboxRing (port : Port) (n : Nat) (s : State) : Outcome State Fault Refusal :=
  .next (if n < 8 then s.ring port n else s)

/-- ack in DONE. -/
def State.ackMbx (s : State) (n : Nat) : State :=
  if s.mbxState n = mbDone then s.setFld F.SYS_MBX_STAT_state n mbIdle else s

def execMailboxAck (_ : Port) (n : Nat) (s : State) : Outcome State Fault Refusal :=
  .next (if n < 8 then s.ackMbx n else s)

/-! ### Registers by address (R71-R77) -/

/-- A register has a copy i: code 0x1F is no domain, so PWR_DOM leaves its word unassigned (R14, R539, R560). -/
def RegName.hasCopy : RegName → Nat → Bool
  | .PWR_DOM, i => decide (i ≠ 0x1F)
  | _, _ => true

/-- The copy of a register that an address names for a port's reads (R71, R77). -/
def State.regAt (s : State) (p : Port) (a : Nat) : Option (RegName × Nat) :=
  let ps := s.reg .PATH_SEL p.idx
  let bs := s.reg .BEAM_SEL p.idx
  RegName.all.findSome? fun r =>
    match r.place with
    | (.direct, base, stride, n) =>
      if base ≤ a ∧ a < base + stride * n ∧ (a - base) % stride = 0 ∧ r.hasCopy ((a - base) / stride) = true then
        some (r, (a - base) / stride)
      else none
    | (b, base, _, _) =>
      if a ≠ base then none
      else match b with
        | .port => some (r, p.idx)
        | .path => some (r, bits ps 5 0)
        | .quad => some (r, bits ps 5 4)
        | .rxBeam => if bitAt bs 7 then none else some (r, bits bs 5 0)
        | .txBeam => if bitAt bs 7 then some (r, bits bs 5 0) else none
        | _ => some (r, 0)

/-- The 16 items from 16 k. -/
def sixteen (k : Nat) : List Nat := (List.range 16).map (16 * k + ·)

/-- The copies that a write reaches (R74, R75, R77). -/
def State.targets (s : State) (p : Port) (r : RegName) (i : Nat) : List Nat :=
  let ps := s.reg .PATH_SEL p.idx
  let bs := s.reg .BEAM_SEL p.idx
  match r.place.1 with
  | .path => if bitAt ps 9 then List.range 64 else if bitAt ps 8 then sixteen (bits ps 5 4) else [i]
  | .quad => if bitAt ps 9 then List.range 4 else [i]
  | .rxBeam => if bitAt bs 9 then List.range 64 else if bitAt bs 8 then sixteen (bits bs 5 4) else [i]
  | .txBeam => if bitAt bs 9 then List.range 32 else if bitAt bs 8 then sixteen (bits bs 5 4) else [i]
  | _ => [i]

/-- The resource a register belongs to (R72). -/
def RegName.resource (r : RegName) (i : Nat) : Option (Nat × Nat) :=
  match r with
  | .DMA_CH_CTL => some (resDma, i)
  | .DMA_CH_NEXT_LO => some (resDma, i)
  | .DMA_CH_NEXT_HI => some (resDma, i)
  | .DMA_CH_STAT => some (resDma, i)
  | .DMA_CH_ERR_LO => some (resDma, i)
  | .DMA_CH_ERR_HI => some (resDma, i)
  | .DMA_CH_DESCS => some (resDma, i)
  | .DMA_CH_BYTES => some (resDma, i)
  | .TC_CTL => some (resTc, i)
  | .TC_CMP_NS => some (resTc, i)
  | .TC_CMP_WP => some (resTc, i)
  | .TC_PERIOD => some (resTc, i)
  | .GPIO_PIN => some (resGpio, i)
  | .AUX_SEQ_MASK => some (resAux, 0)
  | .AUX_SEQ_CTL => some (resAux, 0)
  | .AUX_BUF_BASE => some (resAux, 0)
  | .AUX_BUF_CTL => some (resAux, 0)
  | .AUX_BUF_WR => some (resAux, 0)
  | .AUX_BUF_RD => some (resAux, 0)
  | .AUX_STAT => some (resAux, 0)
  | _ => none

/-- Channels that a port may clear in DMA_DONE (R478). -/
def State.dmaMask (s : State) (p : Port) : Nat := maskOf ((List.range 32).filter fun n => s.portHolds p resDma n)

/-- A write of BEAM_SEL (R76). -/
def State.writeBeamSel (s : State) (p : Port) (v : Word) : State :=
  if bitAt v 7 = true ∧ 31 < bits v 5 0 then s.accErr p 0xB000 errBadSel else s.writeTyped .BEAM_SEL p.idx v

def execBeamSelWrite (port : Port) (v : Word) (s : State) : Outcome State Fault Refusal := .next (s.writeBeamSel port v)

/-- Write one copy of a register (R12), as its own rule says where it has one. -/
def State.writeCopy (s : State) (p : Port) (r : RegName) (i : Nat) (v : Word) : State :=
  match r with
  | .SYS_MBX_DB => if bitAt v 0 then s.ring p i else s
  | .SYS_MBX_STAT =>
    let s := s.writeTyped .SYS_MBX_STAT i v
    if bitAt v 4 then s.ackMbx i else s
  | .SYS_ACC_ERR =>
    let s := s.writeTyped .SYS_ACC_ERR 0 v
    if bitAt v 4 then s.setFld F.SYS_ACC_ERR_count 0 0 else s
  | .BEAM_SEL => s.writeBeamSel p v
  | .TC_CTL => s.writeTcCtl p i v
  | .TC_CMP_NS => if s.flag F.TC_CTL_cmd_armed i then s else s.writeTyped .TC_CMP_NS i v
  | .TC_CMP_WP => if s.flag F.TC_CTL_cmd_armed i then s else s.writeTyped .TC_CMP_WP i v
  | .TS_OFFSET => s.tsOffset p v
  | .DMA_CH_CTL => s.writeDmaCtl p i v
  | .DMA_CH_NEXT_LO => if s.flag F.DMA_CH_CTL_en i then s else s.writeTyped .DMA_CH_NEXT_LO i (v &&& 0xFFFFFFE0)
  | .DMA_CH_NEXT_HI => if s.flag F.DMA_CH_CTL_en i then s else s.writeTyped .DMA_CH_NEXT_HI i v
  | .DMA_DONE => s.writeTyped .DMA_DONE 0 (v &&& toWord (s.dmaMask p))
  | .AUX_SEQ_CTL => s.writeAuxCtl p v
  | .AUX_SEQ_MASK => if s.flag F.AUX_SEQ_CTL_run then s else s.writeTyped .AUX_SEQ_MASK 0 v
  | .AUX_BUF_BASE => if s.flag F.AUX_SEQ_CTL_run then s else s.writeTyped .AUX_BUF_BASE 0 v
  | .AUX_BUF_CTL =>
    if s.flag F.AUX_SEQ_CTL_run then s.writeTyped .AUX_BUF_CTL 0 (putField v 0 5 (s.fld F.AUX_BUF_CTL_size_log2))
    else s.writeTyped .AUX_BUF_CTL 0 v
  | .FLT_WDOG => if p = .tilin ∧ s.flt.wdogOn = true then { s with flt := { s.flt with wdogLast := s.now } } else s
  | .RX_NF_CFG => (s.writeTyped .RX_NF_CFG i v).nfRestart i
  | .BEAM_RX_NF_CFG => (s.writeTyped .BEAM_RX_NF_CFG i v).nfRestart (64 + i)
  | r => s.writeTyped r i v

/-- A write to a direct register through a port: the cause of its error, 0 for none. -/
def State.writeReg (s : State) (p : Port) (a : Nat) (v : Word) : Nat × State :=
  if 0xC000 ≤ a then (errUnmapped, s.accErr p a errUnmapped)
  else if 0x1000 ≤ a ∧ a < 0x2000 then
    let n := (a - 0x1000) / 0x200
    let o := (a - 0x1000) % 0x200
    (0, if o < 0x100 then s.setReqWord n (o / 4) v else s)
  else match s.regAt p a with
    | none => (0, s)
    | some (r, i) =>
      match r.resource i with
      | some (ty, j) =>
        if s.portHolds p ty j then (0, s.writeCopy p r i v) else (errClaim, s.accErr p a errClaim)
      | none => (0, (s.targets p r i).foldl (fun s j => s.writeCopy p r j v) s)

/-- The state with the live fields of a register as they stand at a read. -/
def State.refresh (s : State) (r : RegName) (i : Nat) : State :=
  match r with
  | .RX_PATH_STAT => s.refreshPath i
  | .TX_EVT => s.refreshLimit i
  | .RX_NF => s.refreshNf i
  | .BEAM_RX_NF => s.refreshNf (64 + i)
  | .BEAM_RX_STAT => s.refreshBeam i
  | .BEAM_RX_RENORM => s.refreshBeam i
  | .BEAM_RX_EVT => s.refreshBeam i
  | .PWR_DOM => s.refreshDom i
  | .ORX_STAT => s.refreshOrx i
  | .DPD_NMSE => s.refreshNmse i
  | _ => s

/-- What the read of one copy returns, and what it leaves (R12): RC fields clear; the minimum of CLK_PACE starts afresh
(R537). -/
def State.readCopy (s : State) (p : Port) (r : RegName) (i : Nat) : Word × State :=
  let l (k : Nat) : Word := Store.get (fun _ => 0) s.time.latch (2 * p.idx + k)
  match r with
  | .TIME_NS => s.readTimeNs p
  | .TIME_SUBNS => (l 0, s)
  | .TIME_WRAPS => (l 1, s)
  | .GPIO_PIN =>
    let f := s.takeFree
    let v := s.reg .GPIO_PIN i
    let level := if bitAt v 1 then bitAt v 0 else bitAt f.1 0
    (putField v 8 1 (if level then 1 else 0), f.2)
  | .DMA_CH_NEXT_LO => (s.reg .DMA_CH_NEXT_LO i &&& 0xFFFFFFE0, s)
  | .CLK_PACE => (s.reg .CLK_PACE 0, s.setFld F.CLK_PACE_min 0 0xFFFF)
  | r =>
    let s := s.refresh r i
    let w := s.reg r i
    (r.readable w, if r.hasRc then s.setReg r i (r.cleared w) else s)

/-- A read of a direct register through a port: the word, the cause of its error (0 for none). -/
def State.readReg (s : State) (p : Port) (a : Nat) : Word × Nat × State :=
  if 0xC000 ≤ a then (0, errUnmapped, s.accErr p a errUnmapped)
  else if 0x1000 ≤ a ∧ a < 0x2000 then
    let n := (a - 0x1000) / 0x200
    let o := (a - 0x1000) % 0x200
    (if o < 0x100 then s.reqWord n (o / 4) else s.rspWord n ((o - 0x100) / 4), 0, s)
  else match s.regAt p a with
    | none => (0, 0, s)
    | some (r, i) =>
      let x := s.readCopy p r i
      (x.1, 0, x.2)

/-- A write to a direct register; one outside the direct registers is no register and does nothing. -/
def execRegisterWrite (port : Port) (addr : Nat) (v : Word) (s : State) : Outcome State Fault Refusal :=
  .next (if addr < 0x10000 then (s.writeReg port (addr / 4 * 4) v).2 else s)

/-- A read of a direct register. -/
def execRcRegisterRead (port : Port) (addr : Nat) (s : State) : Outcome State Fault Refusal :=
  if addr < 0x10000 then
    let x := s.readReg port (addr / 4 * 4)
    .next (x.2.2.setRdata port x.1)
  else .next s

/-! ### Memory through a port (R64, R68, R110, R456, R545) -/

/-- The staging range bypasses the tile rules while no management core runs (R110). -/
def State.bypass (s : State) (a : Nat) : Bool :=
  decide ((s.stage < 5 ∨ 8 ≤ s.stage) ∧ s.staging.1 ≤ a ∧ a < s.staging.2)

/-- A word of memory read by a host: the word, the cause of its error. -/
def State.readMem (s : State) (p : Port) (a : Nat) : Word × Nat × State :=
  match s.target a with
  | .larder t =>
    if s.fld F.PWR_DOM_state (dLar + bankOf t) ≠ 0 then (0, errUnmapped, s.accErr p a errUnmapped)
    else if (s.tile t).state = .quarantined ∧ s.bypass a = false then (0, errTile, s.accErr p a errTile)
    else (s.memWord a, 0, s)
  | .pantry t =>
    if (s.tile (panKey t)).state = .quarantined then (0, errTile, s.accErr p a errTile) else (s.memWord a, 0, s)
  | _ => (0, errWin, s.accErr p a errWin)

/-- A word of memory written by a host. -/
def State.writeMem (s : State) (p : Port) (a : Nat) (v : Word) : Nat × State :=
  match s.target a with
  | .larder t =>
    if s.fld F.PWR_DOM_state (dLar + bankOf t) ≠ 0 then (errUnmapped, s.accErr p a errUnmapped)
    else if s.bypass a then (0, s.setMemWord a v)
    else if (s.tile t).state ≠ .open then (errTile, s.accErr p a errTile)
    else if s.portHolds p resTile t then (0, s.setMemWord a v)
    else (errClaim, s.accErr p a errClaim)
  | .pantry t =>
    if (s.tile (panKey t)).state = .quarantined then (errTile, s.accErr p a errTile)
    else (errClaim, s.accErr p a errClaim)
  | _ => (errWin, s.accErr p a errWin)

/-- A word at a byte address: direct registers, then memory. -/
def State.readAt (s : State) (p : Port) (a : Nat) : Word × Nat × State :=
  if a < 0x10000 then s.readReg p a else s.readMem p a

def State.writeAt (s : State) (p : Port) (a : Nat) (v : Word) : Nat × State :=
  if a < 0x10000 then s.writeReg p a v else s.writeMem p a v

/-! ### CSPI (R59-R65) -/

/-- CSPI accepts frames from the end of SUPPLY_CHECK. -/
def State.cspiUp (s : State) : Bool := decide (2 ≤ s.stage)

def State.setMiso (s : State) (l : List Word) : State := { s with sys := { s.sys with miso := l } }

/-- First address of the window. -/
def State.winBase (s : State) : Nat := s.fld F.SYS_CSPI_CFG_win_base * 2 ^ 25

/-- The byte address of a word address of the window (R63). -/
def State.winByte (s : State) (w : Nat) : Nat := s.winBase + 4 * (w - 0x800000)

/-- The access of one word address for writing (R61, R63, R64): the window reaches no direct register. -/
def State.cspiPut (s : State) (w : Nat) (v : Word) : State :=
  if w < 0x4000 then (s.writeReg .cspi (4 * w) v).2
  else if w < 0x800000 then s
  else
    let a := s.winByte w
    if a < 0x10000 then s.accErr .cspi a errWin else (s.writeMem .cspi a v).2

/-- The byte address of a word address, for SYS_ACC_ADDR. -/
def State.cspiByte (s : State) (w : Nat) : Nat := if w < 0x800000 then 4 * w else s.winByte w

/-- A read's word and the state after it. -/
def wordState (x : Word × Nat × State) : Word × State := (x.1, x.2.2)

/-- The same for reading. -/
def State.cspiGet (s : State) (w : Nat) : Word × State :=
  if w < 0x4000 then wordState (s.readReg .cspi (4 * w))
  else if w < 0x800000 then (0, s)
  else if s.winByte w < 0x10000 then (0, s.accErr .cspi (s.winByte w) errWin)
  else wordState (s.readMem .cspi (s.winByte w))

/-- Words of a WRITE frame, each to the next word address. -/
def State.cspiWords (s : State) (w : Nat) : List Word → State
  | [] => s
  | v :: t => State.cspiWords (s.cspiPut (w % 2 ^ 24) v) (w + 1) t

/-- A WRITE frame whose data part is `nbits` bits long: its complete words take effect (R62). -/
def execCspiWrite (addr nbits : Nat) (data : List Word) (s : State) : Outcome State Fault Refusal :=
  if s.cspiUp then .next ((s.cspiWords addr (data.take (nbits / 32))).setMiso []) else .next s

/-- Words of a READ frame; `late` counts down to the word that is not ready in time (R65). -/
def State.cspiReads (s : State) (w : Nat) (late : Option Nat) : Nat → List Word × State
  | 0 => ([], s)
  | n + 1 =>
    let x := s.cspiGet (w % 2 ^ 24)
    if late = some 0 then
      (List.replicate (n + 1) 0,
       (x.2.setFld F.SYS_CSPI_STAT_rd_late 0 1).accErr .cspi (s.cspiByte (w % 2 ^ 24)) errRdLate)
    else
      let y := State.cspiReads x.2 (w + 1) (late.map (· - 1)) n
      (x.1 :: y.1, y.2)

/-- A READ frame of n words; `late` is the first word that was not ready. -/
def execCspiRead (addr n : Nat) (late : Option Nat) (s : State) : Outcome State Fault Refusal :=
  if s.cspiUp then
    let x := s.cspiReads addr late n
    .next (x.2.setMiso x.1)
  else .next (s.setMiso [])

def execCspiStatus (s : State) : Outcome State Fault Refusal :=
  if s.cspiUp then .next (s.setMiso [s.reg .SYS_CSPI_STAT 0]) else .next (s.setMiso [])

def execCspiUnknownOpcode (op : Nat) (s : State) : Outcome State Fault Refusal :=
  if s.cspiUp = true ∧ op ≠ 0x02 ∧ op ≠ 0x0B ∧ op ≠ 0x05 then
    .next ((s.setFld F.SYS_CSPI_STAT_bad_op 0 1).setMiso [])
  else .next s

/-! ### Management messages (R67-R70) -/

/-- len_8 of a DATA frame of words (R395). -/
def len8Of (words : Nat) : Nat := (4 * words + 27) / 8

/-- Words written from a byte address, ascending. -/
def State.linkWords (s : State) (a : Nat) : List Word → State
  | [] => s
  | v :: t => State.linkWords (s.writeAt .link a v).2 (a + 4) t

/-- REG_WR: a wrong count discards the frame whole. -/
def execRegWr (addr count : Nat) (data : List Word) (s : State) : Outcome State Fault Refusal :=
  if s.rxOpen then
    if count = 0 ∨ 256 < count ∨ data.length ≠ count then .next (s.discardFrame 4 0)
    else .next ((s.received 0 (len8Of (3 + count))).linkWords (addr % 2 ^ 40 / 4 * 4) data)
  else .next s

/-- Words read from a byte address: the words, the cause of the first error. -/
def State.linkReads (s : State) (a : Nat) : Nat → List Word × Nat × State
  | 0 => ([], 0, s)
  | n + 1 =>
    let x := s.readAt .link a
    let y := State.linkReads x.2.2 (a + 4) n
    (x.1 :: y.1, if x.2.1 = 0 then y.2.1 else x.2.1, y.2.2)

/-- REG_RD: answered by one REG_RD_RSP. -/
def execRegRd (addr count : Nat) (s : State) : Outcome State Fault Refusal :=
  if s.rxOpen then
    if count = 0 ∨ 256 < count then .next (s.discardFrame 4 0)
    else
      let a := addr % 2 ^ 40 / 4 * 4
      let x := (s.received 0 (len8Of 3)).linkReads a count
      .next (x.2.2.sendFrame 0 (toWord (0x12 + 65536 * (a / 2 ^ 32)) :: toWord a :: toWord count :: toWord x.2.1 :: x.1))
  else .next s

/-- The stored response of a mailbox, sent again (R70). -/
def State.resend (s : State) (n : Nat) : State :=
  let hdr := s.rspWord n 0
  s.sendRsp n hdr ((List.range (bits hdr 23 16)).map fun i => s.rspWord n (i + 1))

/-- The words of a MBX_REQ in the request area. -/
def State.putRequest (s : State) (n : Nat) (ws : List Word) : State :=
  ws.zipIdx.foldl (fun s x => s.setReqWord n x.2 x.1) s

/-- MBX_REQ: a retry resends the stored response, a ring in BUSY is answered with ST_BUSY, any other is a write of the request
area and a ring. -/
def execMbxReq (mbx : Nat) (header : Word) (args : List Word) (s : State) : Outcome State Fault Refusal :=
  if s.rxOpen = true ∧ mbx < 8 then
    if 63 < args.length then .next (s.discardFrame 4 0)
    else
      let s := s.received 0 (len8Of (2 + args.length))
      if s.mbxState mbx = mbBusy then
        let s := (s.putRequest mbx (header :: args)).setFld F.SYS_MBX_STAT_collide mbx 1
        .next (s.sendRsp mbx (s.rspHeader (reqTag header) { status := stBusy, trivet := decide (mbx = 7) || !s.coreUp }) [])
      else if (s.mbx mbx).lastLink = some (header :: args) then .next (s.resend mbx)
      else .next ((s.putRequest mbx (header :: args)).takeRing .link mbx (some (header :: args)))
  else .next s

end Sys2Proof.Machine
end

