-- ==== Sys2Proof/Machine/Ladle.lean ====
section
/-! DEFINITION. Chapter 14: what a Ladle channel does with a descriptor (R464-R472). Enabling, arming and halting stand in
Memory.lean. -/

namespace Sys2Proof.Machine

open Host

/-! ### Descriptors (R464, R465) -/

/-- The fields of a descriptor. -/
structure Desc where
  src : Nat
  dst : Nat
  len : Nat
  barrier : Bool
  int : Bool
  chainEnd : Bool
  seals : Bool
  wb : Bool
  srcFixed : Bool
  dstFixed : Bool
  reopen : Bool
  pace : Nat
  next : Nat
  /-- Every reserved bit is 0. -/
  clean : Bool
  deriving DecidableEq, Repr

def descOf (l : List Word) : Desc :=
  let w (i : Nat) : Word := l.getD i 0
  { src := (w 0).toNat + 2 ^ 32 * bits (w 1) 7 0
    dst := (w 2).toNat + 2 ^ 32 * bits (w 1) 15 8
    len := bits (w 3) 23 0
    barrier := bitAt (w 1) 16 || bitAt (w 1) 19
    int := bitAt (w 1) 17
    chainEnd := bitAt (w 1) 18
    seals := bitAt (w 1) 19
    wb := bitAt (w 1) 20
    srcFixed := bitAt (w 1) 21
    dstFixed := bitAt (w 1) 22
    reopen := bitAt (w 1) 23
    pace := bits (w 1) 29 24
    next := (w 4).toNat + 2 ^ 32 * bits (w 5) 7 0
    clean := decide (bits (w 1) 31 30 = 0 ∧ bits (w 3) 31 24 = 0 ∧ bits (w 5) 31 8 = 0 ∧ w 6 = 0) }

/-- A pace_sel that names a unit, or another channel. -/
def paceOk (ch p : Nat) : Bool := decide (p = 0 ∨ (16 ≤ p ∧ p ≠ 32 + ch))

/-- Bytes of a range: a fixed address is one word wide. -/
def rangeLen (fixed : Bool) (n : Nat) : Nat := if fixed then min n 4 else n

/-- The memory that holds the first byte of a range: 0 direct registers, 1 Larder, 2 Pantry, 3 remote window, 4 none. -/
def State.rowOf (s : State) (a : Nat) : Nat :=
  match s.target a with
  | .direct _ => 0
  | .larder _ => 1
  | .pantry _ => 2
  | .remote => 3
  | .nowhere => 4

/-- The alignment of R465: registers and remote words are whole words, a register's address is fixed. -/
def State.alignOk (s : State) (a n : Nat) (fixed : Bool) : Bool :=
  match s.rowOf a with
  | 0 => fixed && decide (a % 4 = 0 ∧ n % 4 = 0)
  | 3 => decide (a % 4 = 0 ∧ n % 4 = 0)
  | _ => true

/-- Larder tiles of a range. -/
def tilesOf (a n : Nat) : List Nat :=
  if n = 0 then [] else
    let t := (a - larBase) / 4096
    (List.range ((a + n - 1 - larBase) / 4096 + 1 - t)).map (t + ·)

/-- Pantry tiles of a range. -/
def panTilesOf (a n : Nat) : List Nat :=
  if n = 0 then [] else
    let t := (a - panBase) / 4096
    (List.range ((a + n - 1 - panBase) / 4096 + 1 - t)).map (t + ·)

/-- A range lies wholly within one row, in Larder banks that are ON (R465, R545). -/
def State.mapped (s : State) (a n : Nat) : Bool :=
  decide (s.rowOf a ≠ 4 ∧ s.rowOf a = s.rowOf (a + n - 1)) &&
    (decide (s.rowOf a ≠ 1) || (tilesOf a n).all fun t => decide (s.fld F.PWR_DOM_state (dLar + bankOf t) = 0))

/-- Tilin's own channels. -/
def State.ownedByTilin (s : State) (ch : Nat) : Bool :=
  match s.owner resDma ch with
  | some c => c.internal
  | none => false

/-- The owner of a channel holds a tile. -/
def State.ownerHoldsTile (s : State) (ch t : Nat) : Bool :=
  match s.owner resDma ch with
  | some c => c.internal || s.holds c.mbx resTile t
  | none => false

/-- What the owner of a channel must hold: the TC unit of pace_sel, the destination's tiles; only Tilin writes the
Pantry. -/
def State.dmaClaims (s : State) (ch : Nat) (d : Desc) : Bool :=
  (s.owner resDma ch).isSome && (!(decide (16 ≤ d.pace ∧ d.pace < 32)) || s.unitOfOwner ch (d.pace - 16)) &&
    (decide (d.len = 0) ||
      match s.rowOf d.dst with
      | 1 => (tilesOf d.dst (rangeLen d.dstFixed d.len)).all (s.ownerHoldsTile ch)
      | 2 => s.ownedByTilin ch
      | _ => true)

/-- The first check of a descriptor that fails, as a cause of R467; 0 for none. A range of no bytes is in no row. -/
def State.descCause (s : State) (ch a : Nat) (d : Desc) : Nat :=
  if a % 32 ≠ 0 ∨ d.clean = false ∨ paceOk ch d.pace = false then 4
  else if d.len ≠ 0 ∧ (s.alignOk d.src d.len d.srcFixed = false ∨ s.alignOk d.dst d.len d.dstFixed = false) then 4
  else if d.len ≠ 0 ∧ (s.mapped d.src (rangeLen d.srcFixed d.len) = false ∨
      s.mapped d.dst (rangeLen d.dstFixed d.len) = false) then 6
  else if s.dmaClaims ch d = false then 5
  else 0

/-! ### The remote window (R471) -/

/-- A REG_RD on its way. -/
def State.askRemote (s : State) (ch off count phase : Nat) : State :=
  let s := s.setDma ch { s.dma ch with phase := phase, want := some (off, count), issued := none }
  (s.dmaStat).sendFrame 0 [0x11, toWord off, toWord count]

/-- The next run of a remote source. -/
def State.nextRun (s : State) (ch : Nat) (d : Desc) : State :=
  let k := (s.dma ch).remote.length
  let off := d.src - remBase + (if d.srcFixed then 0 else 4 * k)
  s.askRemote ch off (if d.srcFixed then 1 else min 256 (d.len / 4 - k)) 0

/-- Posted writes of words, one REG_WR per run of up to 256. -/
def State.putRemote (s : State) (ch off : Nat) (fixed : Bool) : Nat → List Word → State
  | 0, _ => s
  | n + 1, l =>
    if l = [] then s
    else
      let k := if fixed then 1 else 256
      let w := l.take k
      let s := s.sendFrame 0 (0x10 :: toWord off :: toWord w.length :: w)
      let s := s.setDma ch { s.dma ch with unacked := some (off + 4 * (w.length - 1)) }
      State.putRemote s ch (if fixed then off else off + 4 * w.length) fixed n (l.drop k)

/-! ### ACTIVE (R466) -/

/-- The tiles of a range. -/
def State.rangeTiles (s : State) (a n : Nat) : List Nat :=
  match s.rowOf a with
  | 1 => tilesOf a n
  | 2 => (panTilesOf a n).map panKey
  | _ => []

/-- The tiles of a descriptor are in use while it runs (R457). -/
def State.dmaUse (s : State) (ch : Nat) (d : Desc) : State :=
  let l := s.rangeTiles d.src (rangeLen d.srcFixed d.len) ++ s.rangeTiles d.dst (rangeLen d.dstFixed d.len)
  l.foldl State.useTile (s.setDma ch { s.dma ch with held := l })

/-- ACTIVE entered: a remote source is asked for, unless OPL is not UP. -/
def State.dmaActive (s : State) (ch : Nat) : State :=
  let d := descOf (s.dma ch).desc
  let s := (s.setFld F.DMA_CH_STAT_state ch dActive).setFld F.DMA_CH_BYTES_bytes ch 0
  let s := (s.setDma ch { s.dma ch with phase := 1, remote := [], want := none, issued := none }).dmaUse ch d
  if d.len = 0 then s
  else if (s.rowOf d.src = 3 ∨ s.rowOf d.dst = 3) ∧ s.linkUp = false then s.dmaHalt ch 8
  else if s.rowOf d.src = 3 then s.nextRun ch d
  else s

/-- A descriptor has been read (R466). -/
def State.dmaFetched (s : State) (ch : Nat) : State :=
  let a := s.dmaNext ch
  match s.target a with
  | .larder t =>
    let l := s.memWords a 8
    let s := s.setDma ch { s.dma ch with desc := l }
    let d := descOf l
    if s.fld F.PWR_DOM_state (dLar + bankOf t) ≠ 0 then (s.setDma ch { s.dma ch with desc := [] }).dmaHalt ch 6
    else if (s.tile t).state = .quarantined then (s.setDma ch { s.dma ch with desc := [] }).dmaHalt ch 3
    else if s.fld F.DMA_CFG_hop_max 0 ≤ s.fld F.DMA_CH_STAT_hop ch then s.dmaHalt ch 1
    else match s.descCause ch a d with
      | 0 =>
        let s := s.setFld F.DMA_CH_STAT_hop ch (s.fld F.DMA_CH_STAT_hop ch + 1)
        if d.pace ≠ 0 ∧ s.flag F.DMA_CH_STAT_pace_pending ch = false then s.setFld F.DMA_CH_STAT_state ch dWait
        else (s.setFld F.DMA_CH_STAT_pace_pending ch 0).dmaActive ch
      | c => s.dmaHalt ch c
  | _ => (s.setDma ch { s.dma ch with desc := [] }).dmaHalt ch 4

def execDescriptorFetched (ch : Nat) (s : State) : Outcome State Fault Refusal :=
  if ch < 32 ∧ s.fld F.DMA_CH_STAT_state ch = dFetch then .next (s.dmaFetched ch) else .next s

/-! ### Pace events (R469) -/

/-- pace_sel values that a channel has selected: of the descriptor in hand while it waits or moves, and of the one that
follows; otherwise of the one it will fetch. -/
def State.pacesOf (s : State) (ch : Nat) : List Nat :=
  let at_ (a : Nat) : Nat := bits (s.memWord (a + 4)) 29 24
  let st := s.fld F.DMA_CH_STAT_state ch
  if st = dActive ∨ st = dWait then
    let d := descOf (s.dma ch).desc
    if d.chainEnd then [d.pace] else [d.pace, at_ d.next]
  else [at_ (s.dmaNext ch)]

/-- A pace event for one channel. -/
def State.paceOne (s : State) (ch : Nat) : State :=
  if s.fld F.DMA_CH_STAT_state ch = dWait then (s.setFld F.DMA_CH_STAT_hop ch 0).dmaActive ch
  else if s.flag F.DMA_CH_STAT_pace_pending ch then s.setFld F.DMA_CH_STAT_pace_ovr ch 1
  else s.setFld F.DMA_CH_STAT_pace_pending ch 1

/-- An event reaches every enabled channel that selects it but those in `skip`. -/
def State.paceEvent (s : State) (sel : Nat) (skip : List Nat) : State :=
  ((List.range 32).filter fun m =>
    s.flag F.DMA_CH_CTL_en m && !skip.contains m &&
      (if s.fld F.DMA_CH_STAT_state m = dWait then decide ((descOf (s.dma m).desc).pace = sel)
       else (s.pacesOf m).contains sel)).foldl State.paceOne s

/-- A TC unit fires with action DMA (R440, R466, R469): it starts the channels that wait for it and paces others. -/
def State.dmaFire (s : State) (u : Nat) : State :=
  let l := (List.range 32).filter fun n =>
    decide (s.fld F.DMA_CH_STAT_state n = dArmed ∧ s.fld F.DMA_CH_CTL_tc_unit n = u) && s.unitOfOwner n u
  (l.foldl State.dmaStart s).paceEvent (16 + u) l

/-! ### Moving the data (R455, R465, R467, R470) -/

/-- The port of a channel's owner. -/
def State.dmaPort (s : State) (ch : Nat) : Port :=
  match s.owner resDma ch with
  | some c => if c.internal then .tilin else if c.port = 1 then .link else .cspi
  | none => .tilin

/-- Read a direct register n times; reads of the unmapped blocks return 0. -/
def State.dmaRegReads (s : State) (p : Port) (a : Nat) : Nat → List Byte × State
  | 0 => ([], s)
  | n + 1 =>
    let x := if 0xC000 ≤ a then ((0 : Word), s) else ((s.readReg p a).1, (s.readReg p a).2.2)
    let y := State.dmaRegReads x.2 p a n
    (wordBytes x.1 ++ y.1, y.2)

/-- A register write is refused under R72. -/
def State.regRefused (s : State) (p : Port) (a : Nat) : Bool :=
  match s.regAt p a with
  | some (r, i) => match r.resource i with
    | some (ty, j) => !s.portHolds p ty j
    | none => false
  | none => false

/-- Words of bytes. -/
def wordsOf (l : List Byte) : List Word := (List.range (l.length / 4)).map fun i => profileWord l i

/-- Write words to a direct register in turn; false: a write was refused. -/
def State.dmaRegWrites (s : State) (p : Port) (a : Nat) : List Word → Bool × State
  | [] => (true, s)
  | w :: t =>
    if s.regRefused p a then (false, s)
    else State.dmaRegWrites (if 0xC000 ≤ a then s else (s.writeReg p a w).2) p a t

/-- Write bytes to memory from an address; a fixed address takes them word by word. -/
def State.dmaPut (s : State) (a : Nat) (fixed : Bool) (l : List Byte) : State :=
  l.zipIdx.foldl (fun s x => s.setByte (if fixed then a + x.2 % 4 else a + x.2) x.1) s

/-- The source's tiles are opened; false: one failed (R455). -/
def State.dmaOpen (s : State) (d : Desc) : Bool × State :=
  (s.rangeTiles d.src (rangeLen d.srcFixed d.len)).foldl (fun (x : Bool × State) t => if x.1 then x.2.openTile t 1 false else x) (true, s)

/-- The destination's tiles. -/
def State.dstTiles (s : State) (d : Desc) : List Nat := s.rangeTiles d.dst (rangeLen d.dstFixed d.len)

/-- The cause that the destination's tiles give: a QUARANTINED one, a SEALED one without reopen. -/
def State.dstCause (s : State) (d : Desc) : Nat :=
  match (s.dstTiles d).find? fun t => decide ((s.tile t).state = .quarantined ∨ ((s.tile t).state = .sealed ∧ d.reopen = false)) with
  | some t => if (s.tile t).state = .quarantined then 3 else 7
  | none => 0

/-- The bytes of the source. -/
def State.dmaBytes (s : State) (ch : Nat) (d : Desc) : List Byte × State :=
  match s.rowOf d.src with
  | 0 => s.dmaRegReads (s.dmaPort ch) d.src (d.len / 4)
  | 3 => ((s.dma ch).remote.flatMap wordBytes, s)
  | _ => ((List.range d.len).map fun i => s.byte (if d.srcFixed then d.src + i % 4 else d.src + i), s)

/-- Source and destination overlap in one memory, neither address fixed (R470). -/
def State.overlaps (s : State) (d : Desc) : Bool :=
  !d.srcFixed && !d.dstFixed && decide (s.rowOf d.src = s.rowOf d.dst ∧ d.src < d.dst + d.len ∧ d.dst < d.src + d.len)

/-- The data move at once: the source is read as it was before. False: the channel has halted. -/
def State.dmaMove (s : State) (ch : Nat) (d : Desc) : Bool × State :=
  match s.dmaOpen d with
  | (false, s) => (false, s.dmaHalt ch 3)
  | (true, s) =>
    match s.dstCause d with
    | 0 =>
      let s := if s.overlaps d then s.setFld F.DMA_CH_STAT_ovl ch 1 else s
      let x := s.dmaBytes ch d
      let s := (x.2.setFld F.DMA_CH_BYTES_bytes ch d.len)
      let s := (s.dstTiles d).foldl State.reopenTile s
      match s.rowOf d.dst with
      | 0 => match s.dmaRegWrites (s.dmaPort ch) d.dst (wordsOf x.1) with
        | (true, s) => (true, s)
        | (false, s) => (false, s.dmaHalt ch 5)
      | 3 => (true, s.putRemote ch (d.dst - remBase) d.dstFixed (d.len / 4 + 1) (wordsOf x.1))
      | _ => (true, s.dmaPut d.dst d.dstFixed x.1)
    | c => (false, s.dmaHalt ch c)

/-! ### Completion (R466, R468) -/

/-- A descriptor completes: seal, status word, counts, DMA_DONE, pace events, then the next or the end of the chain. -/
def State.dmaFinish (s : State) (ch : Nat) (d : Desc) : State :=
  let s := if d.seals ∧ s.rowOf d.dst = 1 then (s.dstTiles d).foldl State.sealTile s else s
  let ovl := s.flag F.DMA_CH_STAT_ovl ch
  let s := if d.wb then s.setMemWord (s.dmaNext ch + 28) (toWord (512 + if ovl then 256 else 0)) else s
  let s := (s.dmaUnuse ch).bump F.DMA_CH_DESCS_descs ch
  let s := if d.int then s.postAt s.now 0x0901 clsDone (toWord (ch + if ovl then 32 else 0)) else s
  let s := if d.chainEnd then
      let s := s.setReg .DMA_DONE 0 (s.reg .DMA_DONE 0 ||| toWord (2 ^ ch))
      ((s.setFld F.DMA_CH_CTL_en ch 0).setFld F.DMA_CH_STAT_state ch dIdle).setFld F.DMA_CH_STAT_pace_pending ch 0
    else
      let s := (s.setReg .DMA_CH_NEXT_LO ch (toWord d.next)).setFld F.DMA_CH_NEXT_HI_next_hi ch (d.next / 2 ^ 32)
      s.setFld F.DMA_CH_STAT_state ch dFetch
  s.paceEvent (32 + ch) []

/-- An ACTIVE channel goes on: its data move, its barrier is asked for, or it completes; while an answer is awaited nothing
changes. -/
def State.dmaGoOn (s : State) (ch : Nat) : State :=
  let c := s.dma ch
  let d := descOf c.desc
  if c.want.isSome then s
  else if s.dmaClaims ch d = false then s.dmaHalt ch 5
  else
    let x := if c.phase = 3 ∨ d.len = 0 then (true, s) else s.dmaMove ch d
    if x.1 = false then x.2
    else
      let s := x.2
      match (s.dma ch).unacked with
      | some off =>
        if c.phase ≠ 3 ∧ d.barrier = true ∧ (d.len = 0 ∨ s.rowOf d.dst = 3) then
          if s.linkUp then s.askRemote ch off 1 2 else s.dmaHalt ch 8
        else s.dmaFinish ch d
      | none => s.dmaFinish ch d

def execDescriptorComplete (ch : Nat) (s : State) : Outcome State Fault Refusal :=
  if ch < 32 ∧ s.fld F.DMA_CH_STAT_state ch = dActive then .next (s.dmaGoOn ch) else .next s

/-- No answer within 100 µs. -/
def execDmaResponseTimeout (ch : Nat) (s : State) : Outcome State Fault Refusal :=
  match (s.dma ch).issued with
  | some t =>
    if ch < 32 ∧ (s.dma ch).want.isSome = true then
      .next ((s.elapseTo (t + 100000)).dmaHalt ch 2)
    else .next s
  | none => .next s

/-- The answer to a remote read or a barrier. -/
def State.remoteAnswer (s : State) (ch cause : Nat) (data : List Word) : State :=
  let c := s.dma ch
  let d := descOf c.desc
  if cause ≠ 0 then s.dmaHalt ch 9
  else if c.phase = 2 then (s.setDma ch { c with phase := 3, want := none, issued := none, unacked := none }).dmaStat
  else
    let c : DmaCh := { c with remote := c.remote ++ data, want := none, issued := none, phase := 1 }
    let s := (s.setDma ch c).dmaStat
    if c.remote.length < d.len / 4 then s.nextRun ch d else s

/-- REG_RD_RSP: the words of `data` are the answer to the channel that waits for this address and count; a count that does not
fit its words breaks the frame. -/
def execRegRdRsp (addr count cause : Nat) (data : List Word) (s : State) : Outcome State Fault Refusal :=
  if s.rxOpen then
    if count = 0 ∨ 256 < count ∨ data.length ≠ count then .next (s.discardFrame 4 0)
    else
      let s := s.received 0 (len8Of (4 + count))
      match (List.range 32).find? fun n => decide ((s.dma n).want = some (addr, count)) with
      | some n => .next (s.remoteAnswer n cause data)
      | none => .next s
  else .next s

end Sys2Proof.Machine
end

