-- ==== Sys2Proof/Machine/Fire.lean ====
section
/-! DEFINITION. Chapter 13: what a TC unit does when it fires (R439-R444), and preparations that miss their deadline (R25,
R26). -/

namespace Sys2Proof.Machine

open Host

/-! ### TIME_EVT (R442) -/

def State.outPin (s : State) (n : Nat) : OutPin := Store.get (fun _ => {}) s.time.outs n

/-- The level of a TIME_EVT ball at t: a pulse falls at its end. -/
def OutPin.at_ (o : OutPin) (t : Int) : Pin :=
  match o.pulseEnd with
  | some e => if e ≤ t then .low else o.level
  | none => o.level

/-- The ticks of R426 per advance, and their distance in units of 2^-56 ns. -/
def State.tickStep (s : State) : Int := if s.flag F.TIME_STAT_on_hosc then s.increment else s.increment / 3

/-- The first tick of R426 at or after a compare time that the counter has just reached, in units of 2^-56 ns (R439). -/
def State.fireTick (s : State) (c : T48) : Int :=
  let v := s.time.ticks
  let goal := s.nsAt c * 2 ^ 56
  let step := s.tickStep
  if s.flag F.TIME_STAT_on_hosc = true ∨ v - s.increment ≥ goal then v
  else if goal ≤ v - s.increment + step then v - s.increment + step
  else if goal ≤ v - s.increment + 2 * step then v - s.increment + 2 * step
  else v

/-- The end of a pulse of w ticks that starts at a tick, in whole ns rounded up; 0 acts as 1 (R442, R446). -/
def State.pulseStop (s : State) (w : Nat) (t : Int) : Int := (t + max 1 w * s.tickStep + 2 ^ 56 - 1) / 2 ^ 56

/-- What an output becomes in mode m at a tick: pulse, toggle, high, low. -/
def State.driveOut (s : State) (o : OutPin) (m w : Nat) (t : Int) : OutPin :=
  match m with
  | 0 => { o with level := .high, pulseEnd := some (s.pulseStop w t) }
  | 1 => { o with level := if o.at_ (t / 2 ^ 56) = .high then .low else .high, pulseEnd := none }
  | 2 => { o with level := .high, pulseEnd := none }
  | _ => { o with level := .low, pulseEnd := none }

/-- Action OUT of unit u at the tick that its compare time c fires; of two units that fire on one output in one tick the
higher-numbered sets the level (R439, R442). -/
def State.fireOut (s : State) (u : Nat) (c : T48) : State :=
  let n := s.fld F.TC_CTL_out_sel u
  let o := s.outPin n
  let tick := s.fireTick c
  let t := BitVec.ofInt 48 (tick / 2 ^ 56)
  let later := match o.last with
    | some (t', u') => decide (t' = t ∧ u < u')
    | none => false
  if later then s
  else
    let o := { s.driveOut o (s.fld F.TC_CTL_out_mode u) (s.fld F.TC_CTL_pulse_w u) tick with last := some (t, u) }
    { s with time := { s.time with outs := Store.set (fun _ => {}) s.time.outs n o } }

/-! ### Actions of block commands (R440) -/

/-- The crossing of R443 of an action; 0 for an action without a preparation of R25. -/
def TcAction.crossing : TcAction → Nat
  | .burst _ | .ack _ => 2
  | .capture .. => 4
  | .beamCfg .. | .beamSwap .. | .txbCfg .. => 1
  | .rxGain .. => 5
  | .sieveCfg .. | .firSwap .. => 3
  | .rffe .. | .pa .. | .strobe .. => 6
  | .mode | .lo .. | .side .. | .cal .. | .profile .. => 0

/-- A preparation that State shows to be incomplete: fewer than the first 64 samples of a LINK burst in the FIFO, or a
capture tile that is not OPEN (R25). DESIGN CHOICE (log entry 139): a burst of fewer than 64 samples needs all of them. -/
def State.unprepared (s : State) (u : Nat) : TcAction → Bool
  | .burst _ => match s.burst u with
    | some b => decide (b.got < min 64 b.n)
    | none => false
  | .capture _ _ tile _ => !s.capOpen tile
  | _ => false

/-- A dropped action reports what its command reports (R25, R26). -/
def State.dropAction (s : State) (u : Nat) (t : T48) : TcAction → State
  | .burst _ => match s.burst u with
    | some b => s.removeBurst u b
    | none => s
  | .ack _ => match s.burst u with
    | some b => (s.removeBurst u b).ackDrop b.ctx 9
    | none => s
  | .capture p att tile cmd => s.captureAt t p att tile cmd true
  | .beamCfg beams qmask shift excl cmd => s.beamCfgAt t beams qmask shift excl cmd true
  | .beamSwap tx beams cmd => s.beamSwapAt t tx beams cmd true
  | .txbCfg beams source rateK pair pv qmask shift cmd => s.txbCfgAt t beams source rateK pair pv qmask shift cmd true
  | .rxGain paths g cmd => s.gainAt t paths g cmd true
  | .sieveCfg qmask preset rs inc cmd => s.sieveCfgAt t qmask preset rs inc cmd true
  | .firSwap qmask f cmd => s.firSwapAt t qmask f cmd true
  | .rffe _ _ cmd => s.cmdDone cmd stLate 0
  | .pa _ off cmd => s.postAt t 0x0503 clsDone (toWord (stLate + if off then 2 ^ 15 else 0)) (some cmd)
  | .strobe n cmd => s.postAt t 0x0504 clsDone (toWord (stLate + 256 * n)) (some cmd)
  | .mode | .lo .. | .side .. | .cal .. | .profile .. => s

/-- Drop an action whose preparation missed its deadline: the unit is freed, LATE is posted and the action's own report
follows. -/
def State.dropPrepared (s : State) (u : Nat) (a : TcAction) : State :=
  let t := s.unitC u
  ((s.disarm u).postLate u a.crossing t).dropAction u t a

/-- An action occurs at its compare time (R24, R440). -/
def State.takeAction (s : State) (u : Nat) (t : T48) : TcAction → State
  | .mode => s.modeFire
  | .burst _ | .ack _ => s.burstCompare u
  | .capture p att tile cmd => s.captureAt t p att tile cmd false
  | .beamCfg beams qmask shift excl cmd => s.beamCfgAt t beams qmask shift excl cmd false
  | .beamSwap tx beams cmd => s.beamSwapAt t tx beams cmd false
  | .txbCfg beams source rateK pair pv qmask shift cmd => s.txbCfgAt t beams source rateK pair pv qmask shift cmd false
  | .rxGain paths g cmd => s.gainAt t paths g cmd false
  | .sieveCfg qmask preset rs inc cmd => s.sieveCfgAt t qmask preset rs inc cmd false
  | .firSwap qmask f cmd => s.firSwapAt t qmask f cmd false
  | .rffe q n cmd => s.rffeArmedTrigger q n cmd
  | .lo qmask tx freq cmd => s.tuneAt qmask tx freq cmd
  | .pa paths off cmd => s.paSeqAt paths off cmd
  | .strobe n cmd => s.strobe n cmd
  | .side qmask tx enable cmd => s.sideSet qmask tx enable cmd
  | .cal .. => s.calAt u
  | .profile profiles codes cmd => s.profileAt t profiles codes cmd

/-! ### Firing (R439) -/

/-- A unit armed by a command fires: it disarms, and its action occurs or is dropped. -/
def State.fireCmd (s : State) (u : Nat) : State :=
  match s.actOf u with
  | none => s.disarm u
  | some a =>
    if s.unprepared u a then s.dropPrepared u a
    else (s.disarm u).takeAction u (s.unitC u) a

/-- A unit armed by the host registers, by TC_ARM or by Tilin fires: OUT, DMA, or a Skillet control cycle, which changes
nothing that State holds. A periodic unit takes its next compare time; a single unit disarms. -/
def State.fireHost (s : State) (u : Nat) : State :=
  let t := s.unitC u
  let s := match s.fld F.TC_CTL_action u with
    | 1 => s.fireOut u t
    | 2 => s.dmaFire u
    | _ => s
  if s.flag F.TC_CTL_periodic u then
    let c := t + BitVec.setWidth 48 (s.reg .TC_PERIOD u)
    ((s.setReg .TC_CMP_NS u (toWord c.toNat)).setReg .TC_CMP_WP u (toWord (c.toNat / 2 ^ 32))).takeC u c
  else s.disarm u

/-- An armed unit reaches its compare time (R439): time passes to it, fired sets, the action occurs. -/
def execTcFire (unit : Nat) (s : State) : Outcome State Fault Refusal :=
  if unit < 16 ∧ s.armed unit = true then
    let s := (s.elapseTo (s.unitC unit)).setFld F.TC_CTL_fired unit 1
    .next (if s.flag F.TC_CTL_cmd_armed unit then s.fireCmd unit else s.fireHost unit)
  else .next s

/-! ### The fabric's deadlines (R25) -/

/-- How long before its compare time an action's preparation must be complete, in ns. -/
def State.prepLead (s : State) : TcAction → Nat
  | .burst _ | .ack _ => 20000
  | .mode => msec s.mode.lead
  | _ => 10000

/-- The preparation is one that State shows complete. -/
def State.prepShown (s : State) (u : Nat) (a : TcAction) : Bool :=
  match a with
  | .burst _ | .capture .. => !s.unprepared u a
  | _ => false

/-- The deadline of an armed unit's preparation passes with it incomplete: the action is dropped with LATE, a mode change
with MODE_LATE (R25, R26, R443). -/
def execPreparationDeadline (unit : Nat) (s : State) : Outcome State Fault Refusal :=
  if unit < 16 ∧ s.armed unit = true then
    match s.actOf unit with
    | none => .next s
    | some a =>
      let s := s.elapseTo (tAdd (s.unitC unit) (-(s.prepLead a : Int)))
      match a, s.mode.pend with
      | .mode, some p => .next ((s.dropPend p).modeLate p 1)
      | .mode, none => .next s
      | a, _ =>
        if a.crossing = 0 ∨ s.prepShown unit a = true then .next s else .next (s.dropPrepared unit a)
  else .next s

end Sys2Proof.Machine
end

