-- ==== Sys2Proof/Machine/Place.lean ====
section
/-! DEFINITION. Chapter 06: the rows that place work on a Skillet, which is a wake source of its domain (R549, R551). -/

namespace Sys2Proof.Machine

open Host

/-- Every Skillet with a context placed or a fit running is woken, if it is not ON. -/
def State.wakeWork (s : State) : State :=
  (List.range 12).foldl (fun s k => if s.sklPlaced k || s.sklFits k then s.wakeDomain (dSkl + k) else s) s

/-- A detection (R216-R219): what the bank reports of bin f at half chip n of a beam and code. -/
def execDetection (d : BinReport) (s : State) : Outcome State Fault Refusal :=
  match s.report_ d.beam d.code d.bin d.half d.freq with
  | none => .next s
  | some (d, p, pn) =>
    let s := ((s.elapseTo d.at_).countDet d).sentinelSeen d
    if s.tracked.any fun c => s.duplicates d p c.2 then .next (s.bump F.BEAM_DET_CNT_duplicates d.beam)
    else .next (s.place d p pn).wakeWork

/-- The retry of a candidate on context n and Skillet k, with tiles l: every known interferer is cancelled in what it reads
(R243, R244). -/
def State.startRetry (s : State) (c : Cand) (n k : Nat) (l : List Nat) : State :=
  let y := c.ctx
  let known := (s.interferersOf c).length
  let x : Ctx :=
    { state := .acquire, retry := true, skillet := k, code := y.code, profile := y.profile, beams := y.beams,
      freq := y.freq, timing := y.timing, detSnr := y.detSnr, snr := y.detSnr, det := y.det, nInt := y.nInt,
      chipTile := l.getD 0 0, recTile := l.getD 1 0, load := y.load, swapSeen := y.swapSeen,
      packetEnd := y.packetEnd, cand := c.ctxNo, interferers := known, attempt := c.attempts + 1 }
  let eq := match s.profile y.profile, s.eq c.slot with
    | some p, some e => some (e.again p y.freq
        { key := c.slot, took := e.ret.length, rest := (s.cancelled c p).take (y.retHalves p), since := s.cyc })
    | _, _ => none
  let s := { s with rxb := { s.rxb with
      cands := s.rxb.cands.map fun d => if d = c then { c with attempts := c.attempts + 1, queued := false } else d
      sicRetries := s.rxb.sicRetries + 1 } }
  ((s.setCtx n x).setEq n eq).logPlace lgSicJob n s.now (c.ctxNo + 256 * (known % 16) + 4096 * (c.attempts + 1)) c.ctx.det.toNat

/-- The retention and regeneration tiles that a retry opens (R454). -/
def State.retryTiles (s : State) (c : Cand) : List Nat :=
  (c.ctx.retTiles ++ (s.interferersOf c).flatMap (·.tiles)).map panKey

/-- A queued retry starts once contexts and capacity allow (R226, R244), in a mode that opens contexts (R38, R42, R210); a
tile that fails when it is opened aborts it (R222, R455). -/
def execSicRetryStart (s : State) : Outcome State Fault Refusal :=
  match s.rxb.cands.find? (fun c => c.queued && !s.retrying c) with
  | none => .next s
  | some c =>
    match s.freeNo, s.bestSkillet c.ctx.load none, s.takePool 2 with
    | some n, some k, some (l, s') =>
      if opensContexts s.modeNo = true ∧ s.policy.sicFree + s.openCtxs.length ≤ s.cLimit ∧ s.openCtxs.length < s.cLimit then
        let bad := (s.retryTiles c).find? s.tileFails
        let s := (s'.startRetry c n k l).wakeWork
        .next (match bad with
          | some t => (s.quarantineOpen t 6).abort n cTileBad
          | none => s)
      else .next s
    | _, _, _ => .next s

end Sys2Proof.Machine
end

