-- ==== Sys2Proof/Machine/Take.lean ====
section
/-! DEFINITION. Chapters 02 and 20: Tilin takes the commands that wait in MBX0 to MBX6 (R85, R600). -/

namespace Sys2Proof.Machine

open Host

/-- The command of an opcode that Tilin serves (R600): its answer on a request; none for an opcode that is not listed, or that
Trivet serves. -/
def commandOf (op : Nat) (q : Req) (s : State) : Option (Outcome State Fault Refusal) :=
  match op with
  | 0x0101 => some (execVersionGet q s)
  | 0x0102 => some (execSysStateGet q s)
  | 0x0103 => some (execModeSet q s)
  | 0x0104 => some (execModeCancel q s)
  | 0x0105 => some (execModeCfgSet q s)
  | 0x0106 => some (execEvtRingSet q s)
  | 0x0110 => some (execResClaim q s)
  | 0x0111 => some (execResRelease q s)
  | 0x0112 => some (execResQuery q s)
  | 0x0201 => some (execLoTune q s)
  | 0x0202 => some (execRadioCfgSet q s)
  | 0x0203 => some (execRadioStateGet q s)
  | 0x0204 => some (execRadioSideSet q s)
  | 0x0210 => some (execRxGainSet q s)
  | 0x0220 => some (execRffeXfer q s)
  | 0x0221 => some (execRffeSeqLoad q s)
  | 0x0222 => some (execRffeSeqArm q s)
  | 0x0230 => some (execSieveCfgSet q s)
  | 0x0231 => some (execSieveFirLoad q s)
  | 0x0232 => some (execSieveFirSwap q s)
  | 0x0233 => some (execSieveFirRead q s)
  | 0x0240 => some (execCoexCfgSet q s)
  | 0x0241 => some (execCoexStatGet q s)
  | 0x0250 => some (execClkCfgSet q s)
  | 0x0251 => some (execClkStatGet q s)
  | 0x0252 => some (execClkResume q s)
  | 0x0301 => some (execBeamCfgSet q s)
  | 0x0302 => some (execBeamWeightLoad q s)
  | 0x0303 => some (execBeamSwap q s)
  | 0x0304 => some (execBeamWeightRead q s)
  | 0x0305 => some (execTxbCfgSet q s)
  | 0x0306 => some (execTxbLinkTcSet q s)
  | 0x0401 => some (execProfileLoad q s)
  | 0x0402 => some (execCodeLoad q s)
  | 0x0403 => some (execProfileEnable q s)
  | 0x0404 => some (execDetThrSet q s)
  | 0x0405 => some (execTongsPolicySet q s)
  | 0x0406 => some (execTongsPolicyGet q s)
  | 0x0407 => some (execPlaceLogSet q s)
  | 0x0408 => some (execCtxRead q s)
  | 0x0409 => some (execCtxSummary q s)
  | 0x040A => some (execBgLoad q s)
  | 0x040B => some (execDecCfgSet q s)
  | 0x040C => some (execBacklogCfgSet q s)
  | 0x040D => some (execBacklogStat q s)
  | 0x0501 => some (execPaCfgSet q s)
  | 0x0502 => some (execPaSeq q s)
  | 0x0503 => some (execPaBiasStrobe q s)
  | 0x0504 => some (execAckCfgSet q s)
  | 0x0505 => some (execAckStat q s)
  | 0x0510 => some (execDpdCfgSet q s)
  | 0x0511 => some (execDpdCoefLoad q s)
  | 0x0512 => some (execDpdCoefRead q s)
  | 0x0513 => some (execDpdReset q s)
  | 0x0514 => some (execOrxCapture q s)
  | 0x0515 => some (execDpdStatGet q s)
  | 0x0601 => some (execCalRun q s)
  | 0x0602 => some (execCalCfgSet q s)
  | 0x0603 => some (execCalStatGet q s)
  | 0x0604 => some (execCalRestore q s)
  | 0x0605 => some (execCalNetLoad q s)
  | 0x0606 => some (execCalResultRead q s)
  | 0x0701 => some (execLinkCfgSet q s)
  | 0x0702 => some (execLinkStateGet q s)
  | 0x0703 => some (execLinkRetrain q s)
  | 0x0704 => some (execLinkLoopSet q s)
  | 0x0705 => some (execFrameContentSet q s)
  | 0x0706 => some (execFrameStatGet q s)
  | 0x0801 => some (execTimeCfgSet q s)
  | 0x0802 => some (execTimeStep q s)
  | 0x0803 => some (execTimeGet q s)
  | 0x0804 => some (execTcArm q s)
  | 0x0805 => some (execTcDisarm q s)
  | 0x0901 => some (execTileSeal q s)
  | 0x0902 => some (execTileOpen q s)
  | 0x0903 => some (execTileVerify q s)
  | 0x0904 => some (execMemStat q s)
  | 0x0905 => some (execQuarList q s)
  | 0x0906 => some (execQuarRetest q s)
  | 0x0907 => some (execDmaCfgSet q s)
  | 0x0A01 => some (execPwrDomainSet q s)
  | 0x0A02 => some (execPwrOpSet q s)
  | 0x0A03 => some (execPwrStatGet q s)
  | 0x0A04 => some (execVmonCfgSet q s)
  | 0x0B01 => some (execFaultStatGet q s)
  | 0x0B02 => some (execFaultInject q s)
  | _ => none

/-- A mailbox waits to be taken. -/
def State.waits (s : State) (n : Nat) : Bool := decide (s.mbxState n = mbBusy) && !(s.mbx n).taken

/-- The mailbox Tilin takes next: the first that waits, beginning after the one it served last (R85). DESIGN CHOICE (log
entry 139): before any has been served it begins with MBX0. -/
def State.nextMbx (s : State) : Option Nat := ((List.range 7).map fun i => (s.sys.served + 1 + i) % 7).find? s.waits

/-- Mailbox n is taken. -/
def State.markTaken (s : State) (n : Nat) : State :=
  let s := s.setMbx n { s.mbx n with taken := true }
  { s with sys := { s.sys with served := n } }

/-- A command has come to its internal steps: it was not turned away. -/
def State.underWay (s : State) (n : Nat) : Bool :=
  match (s.mbx n).staged with
  | some r => decide (r.status = stOk ∨ r.status = stAccepted)
  | none => true

/-- Mailbox n is taken and its command started; an opcode Tilin does not serve answers ST_BAD_OPCODE (R600). -/
def State.takeMbx (s : State) (n : Nat) : Outcome State Fault Refusal :=
  let q := s.reqOf n
  let s := s.markTaken n
  match commandOf (reqOpcode ((s.mbx n).copied.headD 0)) q s with
  | some o => o
  | none => .next (s.stageRsp n (rspErr stBadOpcode))

/-- Tilin takes the next mailbox that waits and starts its command (R85). -/
def execCommandTake (s : State) : Outcome State Fault Refusal :=
  match s.coreUp, s.nextMbx with
  | true, some n => s.takeMbx n
  | _, _ => .next s

/-- The command that mailbox n waits with would come to its internal steps. -/
def State.stepsAhead (s : State) (n : Nat) : Bool :=
  match s.takeMbx n with
  | .next t => t.underWay n
  | _ => false

/-- A command finishes: its staged response is written (R82). `late`: an internal step of the command that is next in turn
exceeds its bound (R86), which only the block's timing decides; it answers ST_TIMEOUT and nothing else has changed. -/
def execCommandFinish (f : Finish) (s : State) : Outcome State Fault Refusal :=
  let n := f.mailbox
  if f.late then
    if s.coreUp = true ∧ s.nextMbx = some n ∧ s.stepsAhead n = true then .next ((s.markTaken n).respond n (rspErr stTimeout))
    else .next s
  else if n < 8 ∧ s.mbxState n = mbBusy then
    match (s.mbx n).staged with
    | some r => .next (s.respond n r)
    | none => .next s
  else .next s

end Sys2Proof.Machine
end

