-- ==== Sys2Proof/Machine/Dispatch.lean ====
section
/-! DEFINITION. One arm per constructor of Instr, in the order of spec/opcode_table.json. -/

namespace Sys2Proof.Machine

open Sys2Proof

/-- The effect of a command on everything but the queue. -/
def exec (i : Instr) (s : State) : Host.Outcome State Fault Refusal :=
  match i with
  | .versionGet q => Sys2Proof.Machine.execVersionGet q s
  | .sysStateGet q => Sys2Proof.Machine.execSysStateGet q s
  | .modeSet q => Sys2Proof.Machine.execModeSet q s
  | .modeCancel q => Sys2Proof.Machine.execModeCancel q s
  | .modeCfgSet q => Sys2Proof.Machine.execModeCfgSet q s
  | .evtRingSet q => Sys2Proof.Machine.execEvtRingSet q s
  | .resClaim q => Sys2Proof.Machine.execResClaim q s
  | .resRelease q => Sys2Proof.Machine.execResRelease q s
  | .resQuery q => Sys2Proof.Machine.execResQuery q s
  | .trvState q => Sys2Proof.Machine.execTrvState q s
  | .trvFaultLog q => Sys2Proof.Machine.execTrvFaultLog q s
  | .trvBootExec q => Sys2Proof.Machine.execTrvBootExec q s
  | .trvMgmtReset q => Sys2Proof.Machine.execTrvMgmtReset q s
  | .trvDeviceReset q => Sys2Proof.Machine.execTrvDeviceReset q s
  | .loTune q => Sys2Proof.Machine.execLoTune q s
  | .radioCfgSet q => Sys2Proof.Machine.execRadioCfgSet q s
  | .radioStateGet q => Sys2Proof.Machine.execRadioStateGet q s
  | .radioSideSet q => Sys2Proof.Machine.execRadioSideSet q s
  | .rxGainSet q => Sys2Proof.Machine.execRxGainSet q s
  | .rffeXfer q => Sys2Proof.Machine.execRffeXfer q s
  | .rffeSeqLoad q => Sys2Proof.Machine.execRffeSeqLoad q s
  | .rffeSeqArm q => Sys2Proof.Machine.execRffeSeqArm q s
  | .sieveCfgSet q => Sys2Proof.Machine.execSieveCfgSet q s
  | .sieveFirLoad q => Sys2Proof.Machine.execSieveFirLoad q s
  | .sieveFirSwap q => Sys2Proof.Machine.execSieveFirSwap q s
  | .sieveFirRead q => Sys2Proof.Machine.execSieveFirRead q s
  | .coexCfgSet q => Sys2Proof.Machine.execCoexCfgSet q s
  | .coexStatGet q => Sys2Proof.Machine.execCoexStatGet q s
  | .clkCfgSet q => Sys2Proof.Machine.execClkCfgSet q s
  | .clkStatGet q => Sys2Proof.Machine.execClkStatGet q s
  | .clkResume q => Sys2Proof.Machine.execClkResume q s
  | .beamCfgSet q => Sys2Proof.Machine.execBeamCfgSet q s
  | .beamWeightLoad q => Sys2Proof.Machine.execBeamWeightLoad q s
  | .beamSwap q => Sys2Proof.Machine.execBeamSwap q s
  | .beamWeightRead q => Sys2Proof.Machine.execBeamWeightRead q s
  | .txbCfgSet q => Sys2Proof.Machine.execTxbCfgSet q s
  | .txbLinkTcSet q => Sys2Proof.Machine.execTxbLinkTcSet q s
  | .profileLoad q => Sys2Proof.Machine.execProfileLoad q s
  | .codeLoad q => Sys2Proof.Machine.execCodeLoad q s
  | .profileEnable q => Sys2Proof.Machine.execProfileEnable q s
  | .detThrSet q => Sys2Proof.Machine.execDetThrSet q s
  | .tongsPolicySet q => Sys2Proof.Machine.execTongsPolicySet q s
  | .tongsPolicyGet q => Sys2Proof.Machine.execTongsPolicyGet q s
  | .placeLogSet q => Sys2Proof.Machine.execPlaceLogSet q s
  | .ctxRead q => Sys2Proof.Machine.execCtxRead q s
  | .ctxSummary q => Sys2Proof.Machine.execCtxSummary q s
  | .bgLoad q => Sys2Proof.Machine.execBgLoad q s
  | .decCfgSet q => Sys2Proof.Machine.execDecCfgSet q s
  | .backlogCfgSet q => Sys2Proof.Machine.execBacklogCfgSet q s
  | .backlogStat q => Sys2Proof.Machine.execBacklogStat q s
  | .paCfgSet q => Sys2Proof.Machine.execPaCfgSet q s
  | .paSeq q => Sys2Proof.Machine.execPaSeq q s
  | .paBiasStrobe q => Sys2Proof.Machine.execPaBiasStrobe q s
  | .ackCfgSet q => Sys2Proof.Machine.execAckCfgSet q s
  | .ackStat q => Sys2Proof.Machine.execAckStat q s
  | .dpdCfgSet q => Sys2Proof.Machine.execDpdCfgSet q s
  | .dpdCoefLoad q => Sys2Proof.Machine.execDpdCoefLoad q s
  | .dpdCoefRead q => Sys2Proof.Machine.execDpdCoefRead q s
  | .dpdReset q => Sys2Proof.Machine.execDpdReset q s
  | .orxCapture q => Sys2Proof.Machine.execOrxCapture q s
  | .dpdStatGet q => Sys2Proof.Machine.execDpdStatGet q s
  | .calRun q => Sys2Proof.Machine.execCalRun q s
  | .calCfgSet q => Sys2Proof.Machine.execCalCfgSet q s
  | .calStatGet q => Sys2Proof.Machine.execCalStatGet q s
  | .calRestore q => Sys2Proof.Machine.execCalRestore q s
  | .calNetLoad q => Sys2Proof.Machine.execCalNetLoad q s
  | .calResultRead q => Sys2Proof.Machine.execCalResultRead q s
  | .linkCfgSet q => Sys2Proof.Machine.execLinkCfgSet q s
  | .linkStateGet q => Sys2Proof.Machine.execLinkStateGet q s
  | .linkRetrain q => Sys2Proof.Machine.execLinkRetrain q s
  | .linkLoopSet q => Sys2Proof.Machine.execLinkLoopSet q s
  | .frameContentSet q => Sys2Proof.Machine.execFrameContentSet q s
  | .frameStatGet q => Sys2Proof.Machine.execFrameStatGet q s
  | .timeCfgSet q => Sys2Proof.Machine.execTimeCfgSet q s
  | .timeStep q => Sys2Proof.Machine.execTimeStep q s
  | .timeGet q => Sys2Proof.Machine.execTimeGet q s
  | .tcArm q => Sys2Proof.Machine.execTcArm q s
  | .tcDisarm q => Sys2Proof.Machine.execTcDisarm q s
  | .tileSeal q => Sys2Proof.Machine.execTileSeal q s
  | .tileOpen q => Sys2Proof.Machine.execTileOpen q s
  | .tileVerify q => Sys2Proof.Machine.execTileVerify q s
  | .memStat q => Sys2Proof.Machine.execMemStat q s
  | .quarList q => Sys2Proof.Machine.execQuarList q s
  | .quarRetest q => Sys2Proof.Machine.execQuarRetest q s
  | .dmaCfgSet q => Sys2Proof.Machine.execDmaCfgSet q s
  | .pwrDomainSet q => Sys2Proof.Machine.execPwrDomainSet q s
  | .pwrOpSet q => Sys2Proof.Machine.execPwrOpSet q s
  | .pwrStatGet q => Sys2Proof.Machine.execPwrStatGet q s
  | .vmonCfgSet q => Sys2Proof.Machine.execVmonCfgSet q s
  | .faultStatGet q => Sys2Proof.Machine.execFaultStatGet q s
  | .faultInject q => Sys2Proof.Machine.execFaultInject q s
  | .cspiWrite addr nbits data => Sys2Proof.Machine.execCspiWrite addr nbits data s
  | .cspiRead addr n late => Sys2Proof.Machine.execCspiRead addr n late s
  | .cspiStatus => Sys2Proof.Machine.execCspiStatus s
  | .cspiUnknownOpcode op => Sys2Proof.Machine.execCspiUnknownOpcode op s
  | .regWr addr count data => Sys2Proof.Machine.execRegWr addr count data s
  | .regRd addr count => Sys2Proof.Machine.execRegRd addr count s
  | .mbxReq mbx header args => Sys2Proof.Machine.execMbxReq mbx header args s
  | .regRdRsp addr count cause data => Sys2Proof.Machine.execRegRdRsp addr count cause data s
  | .registerWrite port addr v => Sys2Proof.Machine.execRegisterWrite port addr v s
  | .rcRegisterRead port addr => Sys2Proof.Machine.execRcRegisterRead port addr s
  | .timeNsRead port => Sys2Proof.Machine.execTimeNsRead port s
  | .mailboxRing port n => Sys2Proof.Machine.execMailboxRing port n s
  | .mailboxAck port n => Sys2Proof.Machine.execMailboxAck port n s
  | .beamSelWrite port v => Sys2Proof.Machine.execBeamSelWrite port v s
  | .tcCtlWrite port unit v => Sys2Proof.Machine.execTcCtlWrite port unit v s
  | .tsOffsetWrite port v => Sys2Proof.Machine.execTsOffsetWrite port v s
  | .dmaChCtlWrite port ch v => Sys2Proof.Machine.execDmaChCtlWrite port ch v s
  | .auxSeqCtlWrite port v => Sys2Proof.Machine.execAuxSeqCtlWrite port v s
  | .watchdogKick => Sys2Proof.Machine.execWatchdogKick s
  | .commandTake => Sys2Proof.Machine.execCommandTake s
  | .commandFinish f => Sys2Proof.Machine.execCommandFinish f s
  | .rateLimitWindowEnd code scope => Sys2Proof.Machine.execRateLimitWindowEnd code scope s
  | .powerOnReset => Sys2Proof.Machine.execPowerOnReset s
  | .resetNRise bootSrc refsel => Sys2Proof.Machine.execResetNRise bootSrc refsel s
  | .supplyCheckEnd => Sys2Proof.Machine.execSupplyCheckEnd s
  | .hoscReady heldNs => Sys2Proof.Machine.execHoscReady heldNs s
  | .imageLoadDone answered => Sys2Proof.Machine.execImageLoadDone answered s
  | .imageVerifyDone img => Sys2Proof.Machine.execImageVerifyDone img s
  | .calibratingEntry profile => Sys2Proof.Machine.execCalibratingEntry profile s
  | .startupCalStepDone rs => Sys2Proof.Machine.execStartupCalStepDone rs s
  | .clkNoRefTick => Sys2Proof.Machine.execClkNoRefTick s
  | .resetNAssert => Sys2Proof.Machine.execResetNAssert s
  | .deviceResetRelease bootSrc refsel => Sys2Proof.Machine.execDeviceResetRelease bootSrc refsel s
  | .refclkActivityLoss => Sys2Proof.Machine.execRefclkActivityLoss s
  | .clockMonitorWindow ref lnk => Sys2Proof.Machine.execClockMonitorWindow ref lnk s
  | .refOkRestored => Sys2Proof.Machine.execRefOkRestored s
  | .clockResumeDone => Sys2Proof.Machine.execClockResumeDone s
  | .hoscStop => Sys2Proof.Machine.execHoscStop s
  | .spllLockLoss q => Sys2Proof.Machine.execSpllLockLoss q s
  | .spllRelock q => Sys2Proof.Machine.execSpllRelock q s
  | .paceMonitorRefresh index => Sys2Proof.Machine.execPaceMonitorRefresh index s
  | .gateHandshakeTimeout d b who => Sys2Proof.Machine.execGateHandshakeTimeout d b who s
  | .loLockLoss q tx => Sys2Proof.Machine.execLoLockLoss q tx s
  | .loLock q tx => Sys2Proof.Machine.execLoLock q tx s
  | .operatingPointStep d => Sys2Proof.Machine.execOperatingPointStep d s
  | .colDividerRampStep => Sys2Proof.Machine.execColDividerRampStep s
  | .timeNsWrap => Sys2Proof.Machine.execTimeNsWrap s
  | .ppsEdge t frac => Sys2Proof.Machine.execPpsEdge t frac s
  | .ppsLossTimeout => Sys2Proof.Machine.execPpsLossTimeout s
  | .timeMarkSend => Sys2Proof.Machine.execTimeMarkSend s
  | .timeMarkReceived seq compl t frac => Sys2Proof.Machine.execTimeMarkReceived seq compl t frac s
  | .markInfoReceived info => Sys2Proof.Machine.execMarkInfoReceived info s
  | .tcFire unit => Sys2Proof.Machine.execTcFire unit s
  | .preparationDeadline unit => Sys2Proof.Machine.execPreparationDeadline unit s
  | .modePrepStart => Sys2Proof.Machine.execModePrepStart s
  | .modeDrainEnd => Sys2Proof.Machine.execModeDrainEnd s
  | .forcedModeChange => Sys2Proof.Machine.execForcedModeChange s
  | .sentinelDwellBoundary => Sys2Proof.Machine.execSentinelDwellBoundary s
  | .sentinelRunRestart => Sys2Proof.Machine.execSentinelRunRestart s
  | .sentinelPrewake => Sys2Proof.Machine.execSentinelPrewake s
  | .overloadStart p c high r => Sys2Proof.Machine.execOverloadStart p c high r s
  | .loopFilterRelease p c => Sys2Proof.Machine.execLoopFilterRelease p c s
  | .overloadEnd p c t => Sys2Proof.Machine.execOverloadEnd p c t s
  | .disturbanceWindowClose p => Sys2Proof.Machine.execDisturbanceWindowClose p s
  | .noiseFloorBlock p clean sum residI residQ refEnd => Sys2Proof.Machine.execNoiseFloorBlock p clean sum residI residQ refEnd s
  | .noiseFloorStale beam n => Sys2Proof.Machine.execNoiseFloorStale beam n s
  | .beamMeterBlock b sum m => Sys2Proof.Machine.execBeamMeterBlock b sum m s
  | .rffeTransactionDone q data parityOk => Sys2Proof.Machine.execRffeTransactionDone q data parityOk s
  | .sieveFadeEnd q => Sys2Proof.Machine.execSieveFadeEnd q s
  | .rxFifoOverflow fifo n => Sys2Proof.Machine.execRxFifoOverflow fifo n s
  | .txFifoEmpty beam => Sys2Proof.Machine.execTxFifoEmpty beam s
  | .burstAirEnd u => Sys2Proof.Machine.execBurstAirEnd u s
  | .paOnStart p => Sys2Proof.Machine.execPaOnStart p s
  | .paOffStart p => Sys2Proof.Machine.execPaOffStart p s
  | .paDelayExpiry p => Sys2Proof.Machine.execPaDelayExpiry p s
  | .biasSlewTick p => Sys2Proof.Machine.execBiasSlewTick p s
  | .biasCurrentLimitHold p => Sys2Proof.Machine.execBiasCurrentLimitHold p s
  | .dacQueueUnderflow p => Sys2Proof.Machine.execDacQueueUnderflow p s
  | .dacQueueRefilled p => Sys2Proof.Machine.execDacQueueRefilled p s
  | .loOffsetMove u => Sys2Proof.Machine.execLoOffsetMove u s
  | .burstHoldPoint u => Sys2Proof.Machine.execBurstHoldPoint u s
  | .coexGntRise => Sys2Proof.Machine.execCoexGntRise s
  | .burstHoldExpiry u => Sys2Proof.Machine.execBurstHoldExpiry u s
  | .coexGntFall => Sys2Proof.Machine.execCoexGntFall s
  | .burstWake u => Sys2Proof.Machine.execBurstWake u s
  | .txReturnCheck q => Sys2Proof.Machine.execTxReturnCheck q s
  | .sideTransitionDone q tx => Sys2Proof.Machine.execSideTransitionDone q tx s
  | .dpdApplyStep p => Sys2Proof.Machine.execDpdApplyStep p s
  | .adaptCaptureStart q u => Sys2Proof.Machine.execAdaptCaptureStart q u s
  | .orxCaptureEnd q words => Sys2Proof.Machine.execOrxCaptureEnd q words s
  | .dpdFitStart q k => Sys2Proof.Machine.execDpdFitStart q k s
  | .dpdFitStale q => Sys2Proof.Machine.execDpdFitStale q s
  | .dpdFitDone q f => Sys2Proof.Machine.execDpdFitDone q f s
  | .detection d => Sys2Proof.Machine.execDetection d s
  | .preambleTrainingDone c t => Sys2Proof.Machine.execPreambleTrainingDone c t s
  | .syncMatch c errs tSync frac t => Sys2Proof.Machine.execSyncMatch c errs tSync frac t s
  | .syncWindowEnd c => Sys2Proof.Machine.execSyncWindowEnd c s
  | .captureCheckEnd c mean => Sys2Proof.Machine.execCaptureCheckEnd c mean s
  | .headerComplete c llr t => Sys2Proof.Machine.execHeaderComplete c llr t s
  | .lockLost c mean freq => Sys2Proof.Machine.execLockLost c mean freq s
  | .lastPayloadSymbol c llr t => Sys2Proof.Machine.execLastPayloadSymbol c llr t s
  | .ldpcContextStart k => Sys2Proof.Machine.execLdpcContextStart k s
  | .ldpcBlockEnd k => Sys2Proof.Machine.execLdpcBlockEnd k s
  | .ldpcBlockOverrun k => Sys2Proof.Machine.execLdpcBlockOverrun k s
  | .decodingEnd c => Sys2Proof.Machine.execDecodingEnd c s
  | .sicRetryStart => Sys2Proof.Machine.execSicRetryStart s
  | .retentionExpiry => Sys2Proof.Machine.execRetentionExpiry s
  | .recordCommitted => Sys2Proof.Machine.execRecordCommitted s
  | .backlogSealTimeout => Sys2Proof.Machine.execBacklogSealTimeout s
  | .frameStart => Sys2Proof.Machine.execFrameStart s
  | .frameSent => Sys2Proof.Machine.execFrameSent s
  | .creditFrame ws => Sys2Proof.Machine.execCreditFrame ws s
  | .burstFrame beam ws => Sys2Proof.Machine.execBurstFrame beam ws s
  | .burstSampleFrame beam id m last b => Sys2Proof.Machine.execBurstSampleFrame beam id m last b s
  | .creditGrantTimer => Sys2Proof.Machine.execCreditGrantTimer s
  | .eventFrameClose => Sys2Proof.Machine.execEventFrameClose s
  | .iqFrameFormed stream t blocks => Sys2Proof.Machine.execIqFrameFormed stream t blocks s
  | .degradeMeasureWindow rate => Sys2Proof.Machine.execDegradeMeasureWindow rate s
  | .laneSignalDetect lane => Sys2Proof.Machine.execLaneSignalDetect lane s
  | .blockLockGain lane inverted => Sys2Proof.Machine.execBlockLockGain lane inverted s
  | .blockLockLoss lane => Sys2Proof.Machine.execBlockLockLoss lane s
  | .amRowReceived ams => Sys2Proof.Machine.execAmRowReceived ams s
  | .amLockLoss lane => Sys2Proof.Machine.execAmLockLoss lane s
  | .amRowSend => Sys2Proof.Machine.execAmRowSend s
  | .helloSend => Sys2Proof.Machine.execHelloSend s
  | .helloRowReceived row => Sys2Proof.Machine.execHelloRowReceived row s
  | .lstatReceived row => Sys2Proof.Machine.execLstatReceived row s
  | .bondRowReceived row => Sys2Proof.Machine.execBondRowReceived row s
  | .fillerRowReceived fill => Sys2Proof.Machine.execFillerRowReceived fill s
  | .fillerRowSend => Sys2Proof.Machine.execFillerRowSend s
  | .trainingTimeout => Sys2Proof.Machine.execTrainingTimeout s
  | .helloSilence => Sys2Proof.Machine.execHelloSilence s
  | .backoffEnd => Sys2Proof.Machine.execBackoffEnd s
  | .fallbackExpiry => Sys2Proof.Machine.execFallbackExpiry s
  | .laneRetrainRestart lane => Sys2Proof.Machine.execLaneRetrainRestart lane s
  | .lnkRefclkLoss => Sys2Proof.Machine.execLnkRefclkLoss s
  | .deferredLinkChange => Sys2Proof.Machine.execDeferredLinkChange s
  | .pantryTrainingDone answered supported rate size => Sys2Proof.Machine.execPantryTrainingDone answered supported rate size s
  | .dqsRetrain ok => Sys2Proof.Machine.execDqsRetrain ok s
  | .descriptorFetched ch => Sys2Proof.Machine.execDescriptorFetched ch s
  | .descriptorComplete ch => Sys2Proof.Machine.execDescriptorComplete ch s
  | .dmaResponseTimeout ch => Sys2Proof.Machine.execDmaResponseTimeout ch s
  | .auxConversionDone code => Sys2Proof.Machine.execAuxConversionDone code s
  | .auxPacedSweep => Sys2Proof.Machine.execAuxPacedSweep s
  | .calEntry q tx => Sys2Proof.Machine.execCalEntry q tx s
  | .calEntryTimeout q => Sys2Proof.Machine.execCalEntryTimeout q s
  | .calRunEnd q rs => Sys2Proof.Machine.execCalRunEnd q rs s
  | .kettleCheck temps => Sys2Proof.Machine.execKettleCheck temps s
  | .kettleSetEnd q tx rs => Sys2Proof.Machine.execKettleSetEnd q tx rs s
  | .phaseTrackingRound rs drive => Sys2Proof.Machine.execPhaseTrackingRound rs drive s
  | .correctionStep q tx => Sys2Proof.Machine.execCorrectionStep q tx s
  | .domainBlockAnswer d b => Sys2Proof.Machine.execDomainBlockAnswer d b s
  | .domainAnswerTimeout => Sys2Proof.Machine.execDomainAnswerTimeout s
  | .domainTransitionDone d => Sys2Proof.Machine.execDomainTransitionDone d s
  | .mgmtWait raced => Sys2Proof.Machine.execMgmtWait raced s
  | .skilletWait k raced => Sys2Proof.Machine.execSkilletWait k raced s
  | .headerSag d => Sys2Proof.Machine.execHeaderSag d s
  | .vmonWarnCrossing rail code => Sys2Proof.Machine.execVmonWarnCrossing rail code s
  | .vmonWarnRecovery rail code => Sys2Proof.Machine.execVmonWarnRecovery rail code s
  | .vmonRstCrossing rail code => Sys2Proof.Machine.execVmonRstCrossing rail code s
  | .temperatureRead codes => Sys2Proof.Machine.execTemperatureRead codes s
  | .thermHoldClear => Sys2Proof.Machine.execThermHoldClear s
  | .skilletParityError k => Sys2Proof.Machine.execSkilletParityError k s
  | .mgmtException => Sys2Proof.Machine.execMgmtException s
  | .watchdogExpiry => Sys2Proof.Machine.execWatchdogExpiry s
  | .mgmtResumeDone => Sys2Proof.Machine.execMgmtResumeDone s
  | .recoveryEnd ok rs => Sys2Proof.Machine.execRecoveryEnd ok rs s
  | .headerGoodFlagReturn d => Sys2Proof.Machine.execHeaderGoodFlagReturn d s
  | .lnkRefclkRestored => Sys2Proof.Machine.execLnkRefclkRestored s
  | .frameDiscard ended bytes => Sys2Proof.Machine.execFrameDiscard ended bytes s
  | .retentionTileAllocation c => Sys2Proof.Machine.execRetentionTileAllocation c s
  | .burstPathSumStart u => Sys2Proof.Machine.execBurstPathSumStart u s
  | .unneededDomainEntry => Sys2Proof.Machine.execUnneededDomainEntry s
  | .txbOpfRaise => Sys2Proof.Machine.execTxbOpfRaise s
  | .blockLockHeld => Sys2Proof.Machine.execBlockLockHeld s
  | .deferredTrivetReset => Sys2Proof.Machine.execDeferredTrivetReset s
  | .pathSumSaturation p => Sys2Proof.Machine.execPathSumSaturation p s
  | .actuatorSaturation p xs => Sys2Proof.Machine.execActuatorSaturation p xs s

end Sys2Proof.Machine
end

