-- ==== Sys2Proof/Machine/Balls.lean ====
section
/-! DEFINITION. Chapter 19: what the device drives on its digital outputs and PA_BIAS, computed from State (R586, R590, R596,
R598). -/

namespace Sys2Proof.Machine

/-- An output ball of R586, by path, quadrant, lane or number; both balls of a pair as one. -/
inductive Ball
  | paEn (p : Nat) | paBias (p : Nat) | rffe (q : Nat) | cspiMiso | irqN | pwrWarnN | oplTx (lane : Nat)
  | qspiSclk | qspiCsN | ddr | ddrResetN | gpio (n : Nat) | timeEvt (n : Nat) | coexReq | coexPri | jtagTdo
  deriving DecidableEq, Repr

/-- What an output ball shows: high impedance, a level, electrical idle, driven with content, or num / den volts. -/
inductive BallOut
  | z | low | high | idle | driven | volts (num den : Nat)
  deriving DecidableEq, Repr

def levelOut (b : Bool) : BallOut := if b then .high else .low

def pinOut : Pin → BallOut
  | .z => .z
  | .low => .low
  | .high => .high

/-- In reset: RESET_N low or unpowered, or a device reset up to its release (R579, R586). -/
def State.inReset (s : State) : Bool := !s.sys.resetN || s.sys.held

/-- Flash is the image's source and LOADING has begun (R596). -/
def State.qspiOn (s : State) : Bool :=
  decide (3 ≤ s.stage) && decide (s.fld F.SYS_STATE_boot_src = 0 ∨ s.fld F.SYS_STATE_boot_src = 3)

/-- Training of the Pantry has begun (R461, R462, R596). -/
def State.panTrained (s : State) : Bool := decide (s.fld F.MEM_PAN_STAT_state ≠ 1 ∨ s.stage = 6 ∨ s.stage = 7)

/-- An output from its release on (R586): by the time it is first driven, and as its block drives it; PA_BIAS with
code × 2.5 V / 4,095 (R285). -/
def State.ballRun (s : State) : Ball → BallOut
  | .paEn p => if s.paState p = pUnconf then .z else levelOut (s.flag F.TX_PATH_STAT_pa_en p)
  | .paBias p => if s.paState p = pUnconf then .z else .volts (5 * s.fld F.PA_BIAS_OUT_out p) (2 * 4095)
  | .rffe q => if s.flag F.CLK_STAT_hosc_ready then (if s.flag F.RFFE_STAT_busy q && s.flag F.RFFE_CTL_en q then .driven else .low) else .z
  | .cspiMiso => .z
  | .irqN => if s.irqLow then .low else .z
  | .pwrWarnN => if s.pwr.warnLow then .low else .z
  | .oplTx n =>
    if (s.flag F.LNK_CFG_en && (s.fld F.LNK_CFG_lane_en).testBit n) || decide (s.fld F.LNK_LANE_STAT_loop n ≠ 0) ||
        s.flag F.LNK_LANE_STAT_prbs_on n then .driven else .idle
  | .qspiSclk => if s.qspiOn then .low else .z
  | .qspiCsN => if s.qspiOn then .high else .z
  | .ddr => if s.flag F.CLK_STAT_hosc_ready then (if s.panTrained then .driven else .low) else .z
  | .ddrResetN => if s.flag F.CLK_STAT_hosc_ready then (levelOut s.panTrained) else .z
  | .gpio n => if s.flag F.GPIO_PIN_oe n then levelOut (s.flag F.GPIO_PIN_out n) else .z
  | .timeEvt n => pinOut ((s.outPin n).at_ s.ns)
  | .coexReq => if s.flag F.CLK_STAT_hosc_ready then levelOut (s.flag F.COEX_STAT_req) else .z
  | .coexPri => if s.flag F.CLK_STAT_hosc_ready then levelOut (s.flag F.COEX_STAT_pri) else .z
  | .jtagTdo => .z

/-- An output ball (R586, R598): in reset every output is at high impedance. -/
def State.ball (s : State) (b : Ball) : BallOut := if s.inReset then .z else s.ballRun b

end Sys2Proof.Machine
end

