-- ==== Sys2Proof/Safety.lean ====
section
/-! DEFINITION. The terms the statements are made in: what a command needs of the state before it schedules or reads a
region, what stays unchanged, the canonical form, and which commands a mailbox carries. -/

namespace Sys2Proof.Machine

/-- The schedule at argument word n names a time and a unit its mailbox holds, that unit is free, and the lead is kept
(R97, R440, R604). -/
abbrev State.canSchedule (s : State) (q : Req) (n leadNs : Nat) : Prop :=
  (schedOf q n).now = false ∧ s.holds q.mbx resTc (schedOf q n).unit = true ∧ s.armed (schedOf q n).unit = false ∧
    atOrAfter (schedOf q n).t (s.now + BitVec.ofNat 48 leadNs) = true

/-- The region at argument word n holds at least `need` tiles, lies in the Larder and is held by the mailbox (R604). -/
abbrev State.regionOk (s : State) (q : Req) (n need : Nat) : Prop :=
  max 1 need ≤ regionCount q n ∧ regionFirst q n + regionCount q n ≤ 6144 ∧
    ∀ i < regionCount q n, s.holds q.mbx resTile (regionFirst q n + i) = true

/-- The tiles [t, t + n) are OPEN. -/
abbrev State.tilesOpen (s : State) (t n : Nat) : Prop := ∀ i < n, (s.tile (t + i)).state = .open

/-- A register whose write is by field type alone (R12), with no rule of its own beside. -/
def RegName.plainWrite (r : RegName) : Bool :=
  !([RegName.SYS_MBX_DB, .SYS_MBX_STAT, .SYS_ACC_ERR, .BEAM_SEL, .TC_CTL, .TC_CMP_NS, .TC_CMP_WP, .TS_OFFSET, .DMA_CH_CTL,
    .DMA_CH_NEXT_LO, .DMA_CH_NEXT_HI, .DMA_DONE, .AUX_SEQ_CTL, .AUX_SEQ_MASK, .AUX_BUF_BASE, .AUX_BUF_CTL, .FLT_WDOG,
    .RX_NF_CFG, .BEAM_RX_NF_CFG] : List RegName).contains r

/-- A register whose read is by field type alone (R12), with no live field and no rule of its own. -/
def RegName.plainRead (r : RegName) : Bool :=
  !([RegName.TIME_NS, .TIME_SUBNS, .TIME_WRAPS, .GPIO_PIN, .DMA_CH_NEXT_LO, .CLK_PACE, .RX_PATH_STAT, .RX_NF, .BEAM_RX_NF,
    .BEAM_RX_STAT, .BEAM_RX_RENORM, .BEAM_RX_EVT, .TX_EVT, .PWR_DOM, .ORX_STAT, .DPD_NMSE] : List RegName).contains r

/-- A direct register's address outside the mailbox areas and below the unmapped blocks (R71). -/
abbrev plainAddr (a : Nat) : Prop := a < 0xC000 ∧ ¬ (0x1000 ≤ a ∧ a < 0x2000)

/-- A byte address names an OPEN Larder tile of a bank that is ON, outside the bypassed staging range, held from port p. -/
def State.writable (s : State) (p : Port) (a : Nat) : Prop :=
  ∃ t, s.target a = .larder t ∧ s.fld F.PWR_DOM_state (dLar + bankOf t) = 0 ∧ s.bypass a = false ∧
    (s.tile t).state = .open ∧ s.portHolds p resTile t = true

/-- A byte address names a Larder tile of a bank that is ON and not QUARANTINED. -/
def State.readableMem (s : State) (a : Nat) : Prop :=
  ∃ t, s.target a = .larder t ∧ s.fld F.PWR_DOM_state (dLar + bankOf t) = 0 ∧ (s.tile t).state ≠ .quarantined

/-- Every copy of every register outside a list of copies reads as before. -/
def RegsBut (l : List (RegName × Nat)) (s t : State) : Prop := ∀ r i, (r, i) ∉ l → t.reg r i = s.reg r i

/-- Every byte of memory reads as before. -/
def SameBytes (s t : State) : Prop := ∀ a, t.byte a = s.byte a

/-- Registers and memory are in their canonical form. -/
abbrev State.canonical (s : State) : Prop :=
  Store.wf regDefault s.regs = true ∧ Store.wf (byteDefault s.mem.undef) s.mem.bytes = true

/-- The request of a mailbox command and what the command reference says of it; none for a row no mailbox carries. -/
def requestOf (i : Instr) : Option (CmdSpec × Req) :=
  match i with
  | .versionGet q => some (specVersionGet, q)
  | .sysStateGet q => some (specSysStateGet, q)
  | .modeSet q => some (specModeSet, q)
  | .modeCancel q => some (specModeCancel, q)
  | .modeCfgSet q => some (specModeCfgSet, q)
  | .evtRingSet q => some (specEvtRingSet, q)
  | .resClaim q => some (specResClaim, q)
  | .resRelease q => some (specResRelease, q)
  | .resQuery q => some (specResQuery, q)
  | .trvState q => some (specTrvState, q)
  | .trvFaultLog q => some (specTrvFaultLog, q)
  | .trvBootExec q => some (specTrvBootExec, q)
  | .trvMgmtReset q => some (specTrvMgmtReset, q)
  | .trvDeviceReset q => some (specTrvDeviceReset, q)
  | .loTune q => some (specLoTune, q)
  | .radioCfgSet q => some (specRadioCfgSet, q)
  | .radioStateGet q => some (specRadioStateGet, q)
  | .radioSideSet q => some (specRadioSideSet, q)
  | .rxGainSet q => some (specRxGainSet, q)
  | .rffeXfer q => some (specRffeXfer, q)
  | .rffeSeqLoad q => some (specRffeSeqLoad, q)
  | .rffeSeqArm q => some (specRffeSeqArm, q)
  | .sieveCfgSet q => some (specSieveCfgSet, q)
  | .sieveFirLoad q => some (specSieveFirLoad, q)
  | .sieveFirSwap q => some (specSieveFirSwap, q)
  | .sieveFirRead q => some (specSieveFirRead, q)
  | .coexCfgSet q => some (specCoexCfgSet, q)
  | .coexStatGet q => some (specCoexStatGet, q)
  | .clkCfgSet q => some (specClkCfgSet, q)
  | .clkStatGet q => some (specClkStatGet, q)
  | .clkResume q => some (specClkResume, q)
  | .beamCfgSet q => some (specBeamCfgSet, q)
  | .beamWeightLoad q => some (specBeamWeightLoad, q)
  | .beamSwap q => some (specBeamSwap, q)
  | .beamWeightRead q => some (specBeamWeightRead, q)
  | .txbCfgSet q => some (specTxbCfgSet, q)
  | .txbLinkTcSet q => some (specTxbLinkTcSet, q)
  | .profileLoad q => some (specProfileLoad, q)
  | .codeLoad q => some (specCodeLoad, q)
  | .profileEnable q => some (specProfileEnable, q)
  | .detThrSet q => some (specDetThrSet, q)
  | .tongsPolicySet q => some (specTongsPolicySet, q)
  | .tongsPolicyGet q => some (specTongsPolicyGet, q)
  | .placeLogSet q => some (specPlaceLogSet, q)
  | .ctxRead q => some (specCtxRead, q)
  | .ctxSummary q => some (specCtxSummary, q)
  | .bgLoad q => some (specBgLoad, q)
  | .decCfgSet q => some (specDecCfgSet, q)
  | .backlogCfgSet q => some (specBacklogCfgSet, q)
  | .backlogStat q => some (specBacklogStat, q)
  | .paCfgSet q => some (specPaCfgSet, q)
  | .paSeq q => some (specPaSeq, q)
  | .paBiasStrobe q => some (specPaBiasStrobe, q)
  | .ackCfgSet q => some (specAckCfgSet, q)
  | .ackStat q => some (specAckStat, q)
  | .dpdCfgSet q => some (specDpdCfgSet, q)
  | .dpdCoefLoad q => some (specDpdCoefLoad, q)
  | .dpdCoefRead q => some (specDpdCoefRead, q)
  | .dpdReset q => some (specDpdReset, q)
  | .orxCapture q => some (specOrxCapture, q)
  | .dpdStatGet q => some (specDpdStatGet, q)
  | .calRun q => some (specCalRun, q)
  | .calCfgSet q => some (specCalCfgSet, q)
  | .calStatGet q => some (specCalStatGet, q)
  | .calRestore q => some (specCalRestore, q)
  | .calNetLoad q => some (specCalNetLoad, q)
  | .calResultRead q => some (specCalResultRead, q)
  | .linkCfgSet q => some (specLinkCfgSet, q)
  | .linkStateGet q => some (specLinkStateGet, q)
  | .linkRetrain q => some (specLinkRetrain, q)
  | .linkLoopSet q => some (specLinkLoopSet, q)
  | .frameContentSet q => some (specFrameContentSet, q)
  | .frameStatGet q => some (specFrameStatGet, q)
  | .timeCfgSet q => some (specTimeCfgSet, q)
  | .timeStep q => some (specTimeStep, q)
  | .timeGet q => some (specTimeGet, q)
  | .tcArm q => some (specTcArm, q)
  | .tcDisarm q => some (specTcDisarm, q)
  | .tileSeal q => some (specTileSeal, q)
  | .tileOpen q => some (specTileOpen, q)
  | .tileVerify q => some (specTileVerify, q)
  | .memStat q => some (specMemStat, q)
  | .quarList q => some (specQuarList, q)
  | .quarRetest q => some (specQuarRetest, q)
  | .dmaCfgSet q => some (specDmaCfgSet, q)
  | .pwrDomainSet q => some (specPwrDomainSet, q)
  | .pwrOpSet q => some (specPwrOpSet, q)
  | .pwrStatGet q => some (specPwrStatGet, q)
  | .vmonCfgSet q => some (specVmonCfgSet, q)
  | .faultStatGet q => some (specFaultStatGet, q)
  | .faultInject q => some (specFaultInject, q)
  | .cspiWrite _ _ _ => none
  | .cspiRead _ _ _ => none
  | .cspiStatus => none
  | .cspiUnknownOpcode _ => none
  | .regWr _ _ _ => none
  | .regRd _ _ => none
  | .mbxReq _ _ _ => none
  | .regRdRsp _ _ _ _ => none
  | .registerWrite _ _ _ => none
  | .rcRegisterRead _ _ => none
  | .timeNsRead _ => none
  | .mailboxRing _ _ => none
  | .mailboxAck _ _ => none
  | .beamSelWrite _ _ => none
  | .tcCtlWrite _ _ _ => none
  | .tsOffsetWrite _ _ => none
  | .dmaChCtlWrite _ _ _ => none
  | .auxSeqCtlWrite _ _ => none
  | .watchdogKick => none
  | .commandTake => none
  | .commandFinish _ => none
  | .rateLimitWindowEnd _ _ => none
  | .powerOnReset => none
  | .resetNRise _ _ => none
  | .supplyCheckEnd => none
  | .hoscReady _ => none
  | .imageLoadDone _ => none
  | .imageVerifyDone _ => none
  | .calibratingEntry _ => none
  | .startupCalStepDone _ => none
  | .clkNoRefTick => none
  | .resetNAssert => none
  | .deviceResetRelease _ _ => none
  | .refclkActivityLoss => none
  | .clockMonitorWindow _ _ => none
  | .refOkRestored => none
  | .clockResumeDone => none
  | .hoscStop => none
  | .spllLockLoss _ => none
  | .spllRelock _ => none
  | .paceMonitorRefresh _ => none
  | .gateHandshakeTimeout _ _ _ => none
  | .loLockLoss _ _ => none
  | .loLock _ _ => none
  | .operatingPointStep _ => none
  | .colDividerRampStep => none
  | .timeNsWrap => none
  | .ppsEdge _ _ => none
  | .ppsLossTimeout => none
  | .timeMarkSend => none
  | .timeMarkReceived _ _ _ _ => none
  | .markInfoReceived _ => none
  | .tcFire _ => none
  | .preparationDeadline _ => none
  | .modePrepStart => none
  | .modeDrainEnd => none
  | .forcedModeChange => none
  | .sentinelDwellBoundary => none
  | .sentinelRunRestart => none
  | .sentinelPrewake => none
  | .overloadStart _ _ _ _ => none
  | .loopFilterRelease _ _ => none
  | .overloadEnd _ _ _ => none
  | .disturbanceWindowClose _ => none
  | .noiseFloorBlock _ _ _ _ _ _ => none
  | .noiseFloorStale _ _ => none
  | .beamMeterBlock _ _ _ => none
  | .rffeTransactionDone _ _ _ => none
  | .sieveFadeEnd _ => none
  | .rxFifoOverflow _ _ => none
  | .txFifoEmpty _ => none
  | .burstAirEnd _ => none
  | .paOnStart _ => none
  | .paOffStart _ => none
  | .paDelayExpiry _ => none
  | .biasSlewTick _ => none
  | .biasCurrentLimitHold _ => none
  | .dacQueueUnderflow _ => none
  | .dacQueueRefilled _ => none
  | .loOffsetMove _ => none
  | .burstHoldPoint _ => none
  | .coexGntRise => none
  | .burstHoldExpiry _ => none
  | .coexGntFall => none
  | .burstWake _ => none
  | .txReturnCheck _ => none
  | .sideTransitionDone _ _ => none
  | .dpdApplyStep _ => none
  | .adaptCaptureStart _ _ => none
  | .orxCaptureEnd _ _ => none
  | .dpdFitStart _ _ => none
  | .dpdFitStale _ => none
  | .dpdFitDone _ _ => none
  | .detection _ => none
  | .preambleTrainingDone _ _ => none
  | .syncMatch _ _ _ _ _ => none
  | .syncWindowEnd _ => none
  | .captureCheckEnd _ _ => none
  | .headerComplete _ _ _ => none
  | .lockLost _ _ _ => none
  | .lastPayloadSymbol _ _ _ => none
  | .ldpcContextStart _ => none
  | .ldpcBlockEnd _ => none
  | .ldpcBlockOverrun _ => none
  | .decodingEnd _ => none
  | .sicRetryStart => none
  | .retentionExpiry => none
  | .recordCommitted => none
  | .backlogSealTimeout => none
  | .frameStart => none
  | .frameSent => none
  | .creditFrame _ => none
  | .burstFrame _ _ => none
  | .burstSampleFrame _ _ _ _ _ => none
  | .creditGrantTimer => none
  | .eventFrameClose => none
  | .iqFrameFormed _ _ _ => none
  | .degradeMeasureWindow _ => none
  | .laneSignalDetect _ => none
  | .blockLockGain _ _ => none
  | .blockLockLoss _ => none
  | .amRowReceived _ => none
  | .amLockLoss _ => none
  | .amRowSend => none
  | .helloSend => none
  | .helloRowReceived _ => none
  | .lstatReceived _ => none
  | .bondRowReceived _ => none
  | .fillerRowReceived _ => none
  | .fillerRowSend => none
  | .trainingTimeout => none
  | .helloSilence => none
  | .backoffEnd => none
  | .fallbackExpiry => none
  | .laneRetrainRestart _ => none
  | .lnkRefclkLoss => none
  | .deferredLinkChange => none
  | .pantryTrainingDone _ _ _ _ => none
  | .dqsRetrain _ => none
  | .descriptorFetched _ => none
  | .descriptorComplete _ => none
  | .dmaResponseTimeout _ => none
  | .auxConversionDone _ => none
  | .auxPacedSweep => none
  | .calEntry _ _ => none
  | .calEntryTimeout _ => none
  | .calRunEnd _ _ => none
  | .kettleCheck _ => none
  | .kettleSetEnd _ _ _ => none
  | .phaseTrackingRound _ _ => none
  | .correctionStep _ _ => none
  | .domainBlockAnswer _ _ => none
  | .domainAnswerTimeout => none
  | .domainTransitionDone _ => none
  | .mgmtWait _ => none
  | .skilletWait _ _ => none
  | .headerSag _ => none
  | .vmonWarnCrossing _ _ => none
  | .vmonWarnRecovery _ _ => none
  | .vmonRstCrossing _ _ => none
  | .temperatureRead _ => none
  | .thermHoldClear => none
  | .skilletParityError _ => none
  | .mgmtException => none
  | .watchdogExpiry => none
  | .mgmtResumeDone => none
  | .recoveryEnd _ _ => none
  | .headerGoodFlagReturn _ => none
  | .lnkRefclkRestored => none
  | .frameDiscard _ _ => none
  | .retentionTileAllocation _ => none
  | .burstPathSumStart _ => none
  | .unneededDomainEntry => none
  | .txbOpfRaise => none
  | .blockLockHeld => none
  | .deferredTrivetReset => none
  | .pathSumSaturation _ => none
  | .actuatorSaturation _ _ => none

end Sys2Proof.Machine
end

