-- ==== Sys2Proof/Certificates/Slice0/Obligations.lean ====
section
/-! DEFINITION. The statements about the block, by the rules of spec/. Each name says what it states. -/

open Sys2Proof Sys2Proof.Machine

/-- A request that passes the common tests (State.precheck) completes: VERSION_GET returns the Tilin version and SYS_ID;
SYS_STATE_GET returns SYS_STATE, SYS_MODE, FLT_STAT and CLK_STAT; RES_QUERY of one index in range returns word 1 of
the claim form for it, with holder_valid; TRV_STATE returns SYS_STATE, VMON_STAT, CLK_STAT and three words of domain
states; TRV_FAULT_LOG with a count of at least 1 returns FLT_LOG_WR and the named entries, wrapping. The next state
is the state before with that response staged in the mailbox, so nothing else changes. -/
def Obligations.SystemQueriesAnswer : Prop :=
  (∀ q s, s.precheck specVersionGet q = none →
    exec (.versionGet q) s = .next (s.stageRsp q.mbx (rspOk [s.sys.version, s.reg .SYS_ID 0]))) ∧
  (∀ q s, s.precheck specSysStateGet q = none →
    exec (.sysStateGet q) s =
      .next (s.stageRsp q.mbx (rspOk [s.reg .SYS_STATE 0, s.reg .SYS_MODE 0, s.reg .FLT_STAT 0, s.reg .CLK_STAT 0]))) ∧
  (∀ q s, s.precheck specResQuery q = none → resBad q = false → resLen q = 1 →
    exec (.resQuery q) s = .next (s.stageRsp q.mbx { rspOk [s.ownerWord (resType q) (resFirst q)] with holder := true })) ∧
  (∀ q s, s.precheck specTrvState q = none →
    exec (.trvState q) s = .next (s.stageRsp q.mbx { rspOk [s.reg .SYS_STATE 0, s.reg .VMON_STAT 0, s.reg .CLK_STAT 0,
      s.domainWord 0, s.domainWord 1, s.domainWord 2] with trivet := true })) ∧
  (∀ q s, s.precheck specTrvFaultLog q = none → bits (q.arg 1) 11 8 ≠ 0 →
    exec (.trvFaultLog q) s = .next (s.stageRsp q.mbx { rspOk (s.reg .FLT_LOG_WR 0 ::
      (List.range (4 * bits (q.arg 1) 11 8)).map fun i => s.reg .FLT_LOG ((4 * bits (q.arg 1) 5 0 + i) % 256)) with
      trivet := true }))

/-- An admitted TRV_MGMT_RESET (TRV_DEVICE_RESET) answers ST_ACCEPTED from Trivet and leaves nothing but the note that a
restart (a device reset) begins 1 ms after the response. An admitted TRV_BOOT_EXEC with a 64-byte aligned address in
the staging range, in a state in which it is accepted, answers ST_ACCEPTED, makes the Larder image at that address
the one to check, and enters the verification: stage VERIFYING (4), or in stage MGMT_DOWN (9) the reload's check
with the stage unchanged. -/
def Obligations.TrivetResetsAreDeferred : Prop :=
  (∀ q s, s.precheck specTrvMgmtReset q = none →
    exec (.trvMgmtReset q) s = .next (({ s with flt := { s.flt with deferred := some (false, none) } } : State).stageRsp q.mbx
      { rspAccepted with trivet := true })) ∧
  (∀ q s, s.precheck specTrvDeviceReset q = none →
    exec (.trvDeviceReset q) s = .next (({ s with flt := { s.flt with deferred := some (true, none) } } : State).stageRsp q.mbx
      { rspAccepted with trivet := true })) ∧
  (∀ q s, s.precheck specTrvBootExec q = none → s.bootExecOk = true → bits (q.arg 2) 7 0 = 0 → (q.arg 1).toNat % 64 = 0 →
    s.staging.1 ≤ (q.arg 1).toNat → (q.arg 1).toNat < s.staging.2 →
    (s.stage ≠ 9 → exec (.trvBootExec q) s = .next ((({ s with sys := { s.sys with
        imageFrom := 2, imageAddr := (q.arg 1).toNat, reload := 0 } } : State).setFld F.SYS_STATE_stage 0 4).stageRsp q.mbx
        { rspAccepted with trivet := true })) ∧
    (s.stage = 9 → exec (.trvBootExec q) s = .next (({ s with sys := { s.sys with
        imageFrom := 2, imageAddr := (q.arg 1).toNat, reload := 2 } } : State).stageRsp q.mbx
        { rspAccepted with trivet := true })))

/-- A RES_CLAIM that passes the common tests, names a resource type, count and range that exist, meets no index of
another owner (for the strobes the conflicting ones included) and, for tiles, only tiles in powered banks that are
not QUARANTINED, answers ST_OK; afterwards its mailbox holds every named index, the owner of every other index is as
before, and registers, memory and every record but that of chapter 02 are unchanged. -/
def Obligations.ClaimTakesEveryIndex : Prop :=
  ∀ q s, s.precheck specResClaim q = none → resBad q = false →
    (∀ i ∈ claimMeets (resType q) (resIdx q), s.otherHolds q.mbx (resType q) i = false) →
    (∀ i ∈ resIdx q, s.otherHolds q.mbx (resType q) i = false) →
    (resType q = resTile → ∀ t ∈ resIdx q, s.fld F.PWR_DOM_state (dLar + bankOf t) = 0 ∧ (s.tile t).state ≠ .quarantined) →
    ∃ t, exec (.resClaim q) s = .next t ∧ (t.mbx q.mbx).staged = some rspOk ∧
      (∀ i ∈ resIdx q, t.holds q.mbx (resType q) i = true) ∧
      (∀ ty i, i < 8192 → ¬ (ty = resType q ∧ i ∈ resIdx q) → t.owner ty i = s.owner ty i) ∧ t = { s with sys := t.sys }

/-- A RES_RELEASE that passes the common tests, names indices that exist, all held by its mailbox and none used by a
command of it that has not ended, answers ST_OK; afterwards nobody owns a named index, the owner of every other
index is as before, a released GPIO pin is an input, and every byte of memory is unchanged. -/
def Obligations.ReleaseFreesEveryIndex : Prop :=
  ∀ q s, s.precheck specResRelease q = none → resBad q = false → (∀ i ∈ resIdx q, s.holds q.mbx (resType q) i = true) →
    (∀ i ∈ resIdx q, s.inUse q.mbx (resType q) i = false) →
    ∃ t, exec (.resRelease q) s = .next t ∧ (t.mbx q.mbx).staged = some rspOk ∧
      (∀ i ∈ resIdx q, t.owner (resType q) i = none) ∧
      (∀ ty i, i < 8192 → ¬ (ty = resType q ∧ i ∈ resIdx q) → t.owner ty i = s.owner ty i) ∧
      (resType q = resGpio → ∀ i ∈ resIdx q, t.flag F.GPIO_PIN_oe i = false) ∧ SameBytes s t ∧ t.pending = s.pending

/-- An admitted EVT_RING_SET with k from 8 to 16, when there is a run of tiles for the ring, answers ST_OK; SYS_EVT_BASE
is the first byte of the lowest such run, SYS_EVT_CTL.size_log2 is k, both indices are 0, the ring exists, unread
entries of the old ring set overrun and its interrupt, and every byte of memory is unchanged. -/
def Obligations.EventRingIsReplaced : Prop :=
  ∀ q s t, s.precheck specEvtRingSet q = none → 8 ≤ bits (q.arg 1) 4 0 → bits (q.arg 1) 4 0 ≤ 16 →
    s.ringSpot (max 1 (2 ^ bits (q.arg 1) 4 0 / 256)) = some t →
    ∃ u, exec (.evtRingSet q) s = .next u ∧ (u.mbx q.mbx).staged = some rspOk ∧
      u.reg .SYS_EVT_BASE 0 = toWord (tileAddr t) ∧ u.fld F.SYS_EVT_CTL_size_log2 = bits (q.arg 1) 4 0 ∧
      u.fld F.SYS_EVT_WR_wr = 0 ∧ u.fld F.SYS_EVT_RD_rd = 0 ∧ u.sys.ringMade = true ∧ u.sys.ringTile = t ∧
      (s.sys.ringMade = true → s.fld F.SYS_EVT_WR_wr ≠ s.fld F.SYS_EVT_RD_rd →
        u.fld F.SYS_EVT_CTL_overrun = 1 ∧ u.fld F.SYS_IRQ_STAT_evt_overrun = 1) ∧
      u.mem = s.mem ∧ RegsBut [(.SYS_EVT_BASE, 0), (.SYS_EVT_CTL, 0), (.SYS_EVT_WR, 0), (.SYS_EVT_RD, 0), (.SYS_IRQ_STAT, 0)] s u

/-- An admitted MODE_SET whose tests all pass (length, REFCLK, thermal hold, the schedule with a lead of MODE_LEAD + 1
ms, the preset and beam count of the mode, inc, the load, the paths of MIRROR and SURVEY, no change pending, a
fitted Pantry for SURVEY) answers ST_ACCEPTED: the change is pending at its compare time, the unit is armed with
action MODE, SYS_MODE shows pending, the mode and the unit, the Sieve's swap-pending fields are brought up to date,
and nothing else changes. An admitted MODE_CANCEL by the mailbox of the pending change, no later than MODE_LEAD
before it, answers ST_OK: nothing is pending, the unit is disarmed, beam configurations staged with the change are
dropped. An admitted MODE_CFG_SET in range with nothing pending stores MODE_LEAD and SENTINEL_DWELL and changes
nothing else. -/
def Obligations.ModeCommandsSchedule : Prop :=
  (∀ q s, s.precheck specModeSet q = none →
    (q.args.length = if pathMode (bits (q.arg 1) 2 0) then 7 else 5) →
    (bits (q.arg 1) 2 0 ≠ mHold → s.onHosc = false ∧ s.flag F.FLT_STAT_therm_hold = false) →
    s.canSchedule q 3 (msec (s.mode.lead + 1)) →
    (∀ p, fixedPreset (bits (q.arg 1) 2 0) = some p → p = bits (q.arg 1) 5 4) →
    beamRange (bits (q.arg 1) 2 0) (bits (q.arg 1) 14 8) = true → (bitAt (q.arg 1) 6 = true → 2 ^ 31 ≤ (q.arg 2).toNat) →
    s.modeLoadOk (bits (q.arg 1) 2 0) (bits (q.arg 1) 14 8)
      (modeRate (bits (q.arg 1) 5 4) (bitAt (q.arg 1) 6) (q.arg 2).toNat) = true →
    (pathMode (bits (q.arg 1) 2 0) = true → pathsOf q 6 ≠ 0) → s.mode.pend = none →
    (bits (q.arg 1) 2 0 = mSurvey → s.panFitted = true) →
    exec (.modeSet q) s = .next (({ ((((s.armCmd (schedOf q 3).unit (schedOf q 3).t 7 .mode).setFld F.SYS_MODE_pending 0 1).setFld
        F.SYS_MODE_pending_mode 0 (bits (q.arg 1) 2 0)).setFld F.SYS_MODE_tc_unit 0 (schedOf q 3).unit) with
      mode := { s.mode with pend := some { target := bits (q.arg 1) 2 0, preset := bits (q.arg 1) 5 4, rsEn := bitAt (q.arg 1) 6, beams := bits (q.arg 1) 14 8, inc := q.arg 2, paths := pathsOf q 6, unit := (schedOf q 3).unit, at_ := (schedOf q 3).t, cmd := q.cmd, lead := s.mode.lead } } } : State).sieveRegs.stageRsp q.mbx rspAccepted)) ∧
  (∀ q s p, s.precheck specModeCancel q = none → s.mode.pend = some p → p.cmd.mbx = q.mbx →
    atOrAfter p.at_ (tAdd s.now (msec p.lead)) = true →
    ∃ u, u = (s.disarm p.unit).setFld F.SYS_MODE_pending 0 0 ∧ exec (.modeCancel q) s =
      .next (((({ u with mode := { u.mode with pend := none } } : State).dropWithMode p.at_).modeTx u.modeNo p.at_).sieveRegs.stageRsp
        q.mbx rspOk)) ∧
  (∀ q s, s.precheck specModeCfgSet q = none → 2 ≤ bits (q.arg 1) 7 0 → bits (q.arg 1) 7 0 ≤ 100 → 10 ≤ bits (q.arg 1) 29 16 →
    bits (q.arg 1) 29 16 ≤ 10000 → s.mode.pend = none →
    exec (.modeCfgSet q) s = .next (({ s with mode := { s.mode with
      lead := bits (q.arg 1) 7 0, dwell := bits (q.arg 1) 29 16 } } : State).stageRsp q.mbx rspOk))

/-- Admitted and with every test of theirs passed: LO_TUNE marks the named sides as tuning and arms its unit with action
LO; RADIO_CFG_SET applies RETURN_STATE, hold, tolerance and bindings side by side; RADIO_STATE_GET returns the four
registers of each quadrant; RADIO_SIDE_SET acts at once with now = 1 and otherwise arms its unit; COEX_CFG_SET
writes COEX_CFG; COEX_STAT_GET returns COEX_STAT and the saturated counts. The next state is exactly that, with the
response staged. -/
def Obligations.RadioCommandsComplete : Prop :=
  (∀ q s, s.precheck specLoTune q = none → s.onHosc = false → s.canSchedule q 3 200000 → bits (q.arg 1) 3 0 ≠ 0 →
    loOk (q.arg 2).toNat = true →
    (bitAt (q.arg 1) 8 = false → s.opensNow = false ∧ s.rxSplit (bits (q.arg 1) 3 0) (q.arg 2).toNat = false) →
    (∀ k ∈ sidesOf (bits (q.arg 1) 3 0) (bitAt (q.arg 1) 8), (s.side k).tuning = false) →
    (bitAt (q.arg 1) 8 = true → ∀ a ∈ maskList 4 (bits (q.arg 1) 3 0), s.tuneMeets a (schedOf q 3).t = false) →
    exec (.loTune q) s = .next ((((sidesOf (bits (q.arg 1) 3 0) (bitAt (q.arg 1) 8)).foldl
        (fun s k => s.setSide k { s.side k with tuning := true }) s).armCmd (schedOf q 3).unit (schedOf q 3).t 9
        (.lo (bits (q.arg 1) 3 0) (bitAt (q.arg 1) 8) (q.arg 2).toNat q.cmd)).stageRsp q.mbx rspAccepted)) ∧
  (∀ q s, s.precheck specRadioCfgSet q = none → bits (q.arg 1) 3 0 ≠ 0 → bits (q.arg 2) 9 0 ≤ 1000 →
    (bitAt (q.arg 1) 8 = false → bits (q.arg 1) 31 16 = 0 ∧ bits (q.arg 2) 9 0 = 0 ∧
      (bits (q.arg 1) 9 9 = 1 → s.sentinelNow = false)) →
    exec (.radioCfgSet q) s = .next (((sidesOf (bits (q.arg 1) 3 0) (bitAt (q.arg 1) 8)).foldl
      (fun s k => s.cfgSide k (bits (q.arg 1) 9 9) (bits (q.arg 1) 31 16) (bits (q.arg 2) 9 0) (bits (q.arg 3) 15 0))
      s).stageRsp q.mbx rspOk)) ∧
  (∀ q s, s.precheck specRadioStateGet q = none →
    exec (.radioStateGet q) s = .next (s.stageRsp q.mbx (rspOk
      [s.reg .RADIO_STAT 0, s.reg .LO_RX_FREQ 0, s.reg .LO_TX_FREQ 0, s.reg .LO_RX_CTR 0,
       s.reg .RADIO_STAT 1, s.reg .LO_RX_FREQ 1, s.reg .LO_TX_FREQ 1, s.reg .LO_RX_CTR 1,
       s.reg .RADIO_STAT 2, s.reg .LO_RX_FREQ 2, s.reg .LO_TX_FREQ 2, s.reg .LO_RX_CTR 2,
       s.reg .RADIO_STAT 3, s.reg .LO_RX_FREQ 3, s.reg .LO_TX_FREQ 3, s.reg .LO_RX_CTR 3]))) ∧
  (∀ q s, s.precheck specRadioSideSet q = none → bits (q.arg 1) 3 0 ≠ 0 →
    (bitAt (q.arg 1) 9 = false → ∀ k ∈ sidesOf (bits (q.arg 1) 3 0) (bitAt (q.arg 1) 8), s.modeNeeds k = false) →
    ((schedOf q 2).now = true → exec (.radioSideSet q) s =
      .next ((s.sideSet (bits (q.arg 1) 3 0) (bitAt (q.arg 1) 8) (bitAt (q.arg 1) 9) q.cmd).stageRsp q.mbx rspAccepted)) ∧
    (s.canSchedule q 2 200000 → exec (.radioSideSet q) s =
      .next ((s.armCmd (schedOf q 2).unit (schedOf q 2).t 0xB
        (.side (bits (q.arg 1) 3 0) (bitAt (q.arg 1) 8) (bitAt (q.arg 1) 9) q.cmd)).stageRsp q.mbx rspAccepted))) ∧
  (∀ q s, s.precheck specCoexCfgSet q = none → 1 ≤ bits (q.arg 1) 15 6 → bits (q.arg 1) 15 6 ≤ 1000 →
    bits (q.arg 1) 29 16 ≤ 10000 → s.flag F.COEX_STAT_req = false →
    exec (.coexCfgSet q) s = .next ((s.setReg .COEX_CFG 0 (q.arg 1)).stageRsp q.mbx rspOk)) ∧
  (∀ q s, s.precheck specCoexStatGet q = none →
    exec (.coexStatGet q) s = .next (s.stageRsp q.mbx (rspOk [s.reg .COEX_STAT 0, toWord (satN 32 s.radio.cxDefers),
      pack16 (satN 16 s.radio.cxNoGnt) (satN 16 s.radio.cxOverlap),
      pack16 (satN 16 s.radio.cxRevoked) (satN 16 s.radio.cxLongest)])))

/-- Admitted and with every test of theirs passed: RX_GAIN_SET arms its unit and shows the pending index on each named
path; RFFE_XFER puts its transaction on an idle bus with nothing held before it and time enough before the next
trigger, and otherwise holds it in order; RFFE_SEQ_LOAD stores the sequence; RFFE_SEQ_ARM arms its unit with action
RFFE. The next state is exactly that, with the response staged (RFFE_XFER is answered when its transaction ends). -/
def Obligations.ReceiveCommandsComplete : Prop :=
  (∀ q s, s.precheck specRxGainSet q = none → s.onHosc = false → s.canSchedule q 4 200000 → pathsOf q 1 ≠ 0 →
    bits (q.arg 3) 6 0 ≤ 120 →
    (∀ p ∈ maskList 64 (pathsOf q 1), s.flag F.RX_PATH_STAT_degraded p = false ∧ s.flag F.RX_GAIN_pending p = false) →
    exec (.rxGainSet q) s = .next (((maskList 64 (pathsOf q 1)).foldl
      (fun s p => (s.setFld F.RX_GAIN_pending p 1).setFld F.RX_GAIN_pending_idx p (bits (q.arg 3) 6 0))
      (s.armCmd (schedOf q 4).unit (schedOf q 4).t 5 (.rxGain (pathsOf q 1) (bits (q.arg 3) 6 0) q.cmd))).stageRsp q.mbx
      rspAccepted)) ∧
  (∀ q s x, s.precheck specRffeXfer q = none → rffeXferBad q = false → x = RffeXfer.mk q.mbx (q.arg 1) (q.args.drop 1) false →
    (s.rffeHeld (bits (q.arg 1) 1 0) = [] ∧ s.xferMayStart (bits (q.arg 1) 1 0) x = true → exec (.rffeXfer q) s =
      .next (((s.setXfer (bits (q.arg 1) 1 0) (some x)).setFld F.RFFE_STAT_busy (bits (q.arg 1) 1 0) 1).beginBus (bits (q.arg 1) 1 0)
        s.now)) ∧
    (¬ (s.rffeHeld (bits (q.arg 1) 1 0) = [] ∧ s.xferMayStart (bits (q.arg 1) 1 0) x = true) → exec (.rffeXfer q) s =
      .next (s.setHeld (bits (q.arg 1) 1 0) (s.rffeHeld (bits (q.arg 1) 1 0) ++ [x])))) ∧
  (∀ q s, s.precheck specRffeSeqLoad q = none → 1 ≤ bits (q.arg 1) 13 8 → bits (q.arg 1) 13 8 ≤ 62 →
    q.args.length = 1 + bits (q.arg 1) 13 8 → (∀ w ∈ q.args.drop 1, rffeEntryBad w = false) →
    (∀ i, s.rffeRunning (bits (q.arg 1) 1 0) ≠ some (bits (q.arg 1) 6 4, i)) →
    s.rffeArmed (bits (q.arg 1) 1 0) (bits (q.arg 1) 6 4) = false →
    s.rffeHeldWords (bits (q.arg 1) 1 0) (bits (q.arg 1) 6 4) + bits (q.arg 1) 13 8 ≤ 64 →
    exec (.rffeSeqLoad q) s =
      .next ((s.setRffeSeq (bits (q.arg 1) 1 0) (bits (q.arg 1) 6 4) (q.args.drop 1)).stageRsp q.mbx rspOk)) ∧
  (∀ q s, s.precheck specRffeSeqArm q = none → s.canSchedule q 2 200000 →
    s.rffeSeq (bits (q.arg 1) 1 0) (bits (q.arg 1) 6 4) ≠ [] →
    (∀ i, s.rffeRunning (bits (q.arg 1) 1 0) ≠ some (bits (q.arg 1) 6 4, i)) →
    s.rffeArmed (bits (q.arg 1) 1 0) (bits (q.arg 1) 6 4) = false →
    exec (.rffeSeqArm q) s = .next ((s.armCmd (schedOf q 2).unit (schedOf q 2).t 8
      (.rffe (bits (q.arg 1) 1 0) (bits (q.arg 1) 6 4) q.cmd)).stageRsp q.mbx rspAccepted))

/-- Admitted and with every test of theirs passed: SIEVE_CFG_SET arms its unit with the preset, resampler and inc and
raises the operating points that the new rates need; SIEVE_FIR_LOAD from a region whose first tile opens stores the
coefficients as the quadrant's shadow bank, now valid, when the preset is the current one, and otherwise as the
preset's stored set; SIEVE_FIR_SWAP arms its unit with the cross-fade; SIEVE_FIR_READ copies the active or shadow
bank to the region and returns its tap count. -/
def Obligations.SieveCommandsComplete : Prop :=
  (∀ q s n r, s.precheck specSieveCfgSet q = none → n = Rate.mk (bits (q.arg 1) 5 4) (bitAt (q.arg 1) 8) (q.arg 2).toNat →
    r = (fun x => if (bits (q.arg 1) 3 0).testBit x then n else s.quadRate x) → perQuadMode s.modeNo = true →
    (∀ p, s.mode.pend = some p → perQuadMode p.target = true) → s.canSchedule q 3 200000 → bits (q.arg 1) 3 0 ≠ 0 →
    2 ^ 31 ≤ (q.arg 2).toNat → (∀ b ∈ s.enabledBeams, uniformMask r (s.fld F.BEAM_RX_CFG_qmask b) = true) →
    ratesOk r s.enabledBeams (fun b => s.fld F.BEAM_RX_CFG_qmask b) = true →
    (∀ x ∈ maskList 4 (bits (q.arg 1) 3 0), s.swapPending x = false ∧ s.presetPending x = false) →
    exec (.sieveCfgSet q) s = .next ((((s.armCmd (schedOf q 3).unit (schedOf q 3).t 5
      (.sieveCfg (bits (q.arg 1) 3 0) n.preset n.rs (q.arg 2) q.cmd)).sieveRegs).raiseFor r s.enabledBeams
      (fun b => s.fld F.BEAM_RX_CFG_qmask b) (bits (q.arg 1) 3 0)).stageRsp q.mbx rspAccepted)) ∧
  (∀ q s u l, s.precheck specSieveFirLoad q = none → s.regionOk q 2 1 → s.openTile (regionFirst q 2) 3 true = (true, u) →
    l = u.tileWords (regionFirst q 2) (firTaps (bits (q.arg 1) 5 4)) → l.all coefOk = true →
    (s.fld F.SIEVE_CFG_preset (bits (q.arg 1) 1 0) = bits (q.arg 1) 5 4 →
      u.swapPending (bits (q.arg 1) 1 0) = false → u.fade (bits (q.arg 1) 1 0) = none →
      exec (.sieveFirLoad q) s = .next (((u.setBank (bits (q.arg 1) 1 0)
        (1 - u.fld F.SIEVE_CFG_active_bank (bits (q.arg 1) 1 0)) l).setFld F.SIEVE_CFG_shadow_valid (bits (q.arg 1) 1 0)
        1).stageRsp q.mbx rspOk)) ∧
    (s.fld F.SIEVE_CFG_preset (bits (q.arg 1) 1 0) ≠ bits (q.arg 1) 5 4 →
      exec (.sieveFirLoad q) s =
        .next ((u.setStored (bits (q.arg 1) 1 0) (bits (q.arg 1) 5 4) l).stageRsp q.mbx rspOk))) ∧
  (∀ q s, s.precheck specSieveFirSwap q = none → s.canSchedule q 2 200000 → bits (q.arg 1) 3 0 ≠ 0 → 4 ≤ bits (q.arg 1) 7 4 →
    bits (q.arg 1) 7 4 ≤ 10 →
    (∀ x ∈ maskList 4 (bits (q.arg 1) 3 0), s.flag F.SIEVE_CFG_shadow_valid x = true ∧ s.swapPending x = false ∧
      s.fade x = none) →
    exec (.sieveFirSwap q) s = .next ((s.armCmd (schedOf q 2).unit (schedOf q 2).t 5
      (.firSwap (bits (q.arg 1) 3 0) (bits (q.arg 1) 7 4) q.cmd)).sieveRegs.stageRsp q.mbx rspAccepted)) ∧
  (∀ q s r, s.precheck specSieveFirRead q = none → s.regionOk q 2 1 →
    r = s.bankWords (bits (q.arg 1) 1 0) (if bitAt (q.arg 1) 4 then 1 - s.fld F.SIEVE_CFG_active_bank (bits (q.arg 1) 1 0)
      else s.fld F.SIEVE_CFG_active_bank (bits (q.arg 1) 1 0)) →
    exec (.sieveFirRead q) s =
      .next ((r.2.putTileWords (regionFirst q 2) r.1).stageRsp q.mbx (rspOk [toWord r.1.length])))

/-- Admitted and with every test of theirs passed: CLK_CFG_SET writes the master preference and auto_resume, sets the
named synthesisers' Whisk mode and seed, and starts a resume where auto_resume finds REFCLK valid on HOSC after
READY; CLK_STAT_GET returns the clock registers and the unlock counts; CLK_RESUME on HOSC with REFCLK valid and none
running starts a resume and answers ST_ACCEPTED. -/
def Obligations.ClockCommandsComplete : Prop :=
  (∀ q s u, s.precheck specClkCfgSet q = none → bits (q.arg 1) 17 16 ≠ 3 →
    (maskList 8 (bits (q.arg 1) 15 8) = [] ∨ q.arg 2 ≠ 0) →
    u = (maskList 8 (bits (q.arg 1) 15 8)).foldl (fun s k => (((s.setFld F.SYN_CTL_whisk_mode k (bits (q.arg 1) 17 16)).setReg
        .WHISK_SEED k (q.arg 2)).setSide k { s.side k with whiskNew := true }))
      ((s.setFld F.CLK_CFG_master 0 (bits (q.arg 1) 1 0)).setFlag F.CLK_CFG_auto_resume 0 (bitAt (q.arg 1) 2)) →
    (bitAt (q.arg 1) 2 = true ∧ u.flag F.CLK_STAT_ref_ok = true ∧ u.onHosc = true ∧ u.flag F.CLK_STAT_resuming = false ∧
      u.stage = 7 → exec (.clkCfgSet q) s = .next ((u.startResume none).stageRsp q.mbx rspOk)) ∧
    (¬ (bitAt (q.arg 1) 2 = true ∧ u.flag F.CLK_STAT_ref_ok = true ∧ u.onHosc = true ∧ u.flag F.CLK_STAT_resuming = false ∧
      u.stage = 7) → exec (.clkCfgSet q) s = .next (u.stageRsp q.mbx rspOk))) ∧
  (∀ q s, s.precheck specClkStatGet q = none →
    exec (.clkStatGet q) s = .next (s.stageRsp q.mbx (rspOk ([s.reg .CLK_STAT 0, s.reg .CLK_MON 0, s.reg .CLK_PACE 0,
      s.reg .CLK_GATE_CNT 0, s.reg .SPLL_STAT 0, s.reg .SPLL_STAT 1, s.reg .SPLL_STAT 2, s.reg .SPLL_STAT 3] ++
      (List.range 4).map fun q => pack16 (satN 16 (Store.get (fun _ => 0) s.radio.unlocks (2 * q)))
        (satN 16 (Store.get (fun _ => 0) s.radio.unlocks (2 * q + 1))))))) ∧
  (∀ q s, s.precheck specClkResume q = none → s.onHosc = true → s.flag F.CLK_STAT_resuming = false →
    s.flag F.CLK_STAT_ref_ok = true →
    exec (.clkResume q) s = .next ((s.startResume (some q.cmd)).stageRsp q.mbx rspAccepted))

/-- Admitted and with every test of theirs passed: BEAM_CFG_SET arms its unit with qmask, shift and excl_nbr and marks
the beams pending, or with with_mode stages the configuration for its own mailbox's pending mode change;
BEAM_WEIGHT_LOAD from tiles that open copies 64 words per beam into the shadow banks; BEAM_SWAP arms its unit and
marks the beams pending; BEAM_WEIGHT_READ copies the active or shadow bank's 64 weights to the region; TXB_CFG_SET
arms its unit and marks the TX beams pending; TXB_LINK_TC_SET names the units of LINK bursts. The next state is
exactly that, with the response staged. -/
def Obligations.BeamCommandsComplete : Prop :=
  (∀ q s r l f, s.precheck specBeamCfgSet q = none → r = s.quadRate → l = maskList 64 (pathsOf q 1) →
    f = (fun b => if l.contains b then bits (q.arg 3) 3 0 else s.fld F.BEAM_RX_CFG_qmask b) → bitAt (q.arg 3) 16 = false →
    s.canSchedule q 4 200000 → pathsOf q 1 ≠ 0 → bits (q.arg 3) 3 0 ≠ 0 → bits (q.arg 3) 10 8 ≤ 6 →
    uniformMask r (bits (q.arg 3) 3 0) = true → ratesOk r s.enabledBeams f = true →
    (∀ b ∈ l, s.flag F.BEAM_RX_STAT_pending b = false) →
    exec (.beamCfgSet q) s = .next ((((s.armCmd (schedOf q 4).unit (schedOf q 4).t 5 (.beamCfg (pathsOf q 1) (bits (q.arg 3) 3 0)
      (bits (q.arg 3) 10 8) (bitAt (q.arg 3) 12) q.cmd)).pendRx l).raiseFor r s.enabledBeams f 0).stageRsp q.mbx rspAccepted)) ∧
  (∀ q s p l c, s.precheck specBeamCfgSet q = none → l = maskList 64 (pathsOf q 1) → bitAt (q.arg 3) 16 = true →
    s.pendOf q = some p → pathsOf q 1 ≠ 0 → bits (q.arg 3) 3 0 ≠ 0 → bits (q.arg 3) 10 8 ≤ 6 →
    ratesOk (fun _ => Rate.mk p.preset p.rsEn p.inc.toNat) (List.range p.beams)
      (fun b => if l.contains b then bits (q.arg 3) 3 0 else s.fld F.BEAM_RX_CFG_qmask b) = true →
    (∀ b ∈ l, s.flag F.BEAM_RX_STAT_pending b = false) → atOrAfter p.at_ (tAdd s.now (msec p.lead)) = true →
    c = ModeCfg.mk (pathsOf q 1) (bits (q.arg 3) 3 0) (bits (q.arg 3) 10 8) (bitAt (q.arg 3) 12) q.cmd →
    exec (.beamCfgSet q) s = .next ((({ s with beam := { s.beam with withMode := s.beam.withMode ++ [c] } } : State).pendRx
      l).stageRsp q.mbx rspAccepted)) ∧
  (∀ q s u first n tx, s.precheck specBeamWeightLoad q = none → first = bits (q.arg 1) 5 0 → n = bits (q.arg 1) 13 8 + 1 →
    tx = bitAt (q.arg 1) 15 → first + n ≤ (if tx then 32 else 64) → s.regionOk q 2 (ceilDiv n 16) →
    s.openTiles (regionFirst q 2) 3 true (ceilDiv n 16) = (true, u) → (∀ i < n, u.beamPending tx (first + i) = false) →
    exec (.beamWeightLoad q) s = .next ((((List.range n).map (first + ·)).foldl
      (fun x b => x.loadShadow tx b (x.memWords (tileAddr (regionFirst q 2) + 256 * (b - first)) 64)) u).stageRsp q.mbx rspOk)) ∧
  (∀ q s l tx, s.precheck specBeamSwap q = none → l = maskList 64 (pathsOf q 1) → tx = bitAt (q.arg 3) 0 →
    s.canSchedule q 4 200000 → pathsOf q 1 ≠ 0 → (tx = true → q.arg 2 = 0) →
    (∀ b ∈ l, s.shadowValid tx b = true ∧ s.beamPending tx b = false) →
    (tx = true → exec (.beamSwap q) s = .next (((s.armCmd (schedOf q 4).unit (schedOf q 4).t 5
      (.beamSwap true (pathsOf q 1) q.cmd)).pendTx l).stageRsp q.mbx rspAccepted)) ∧
    (tx = false → exec (.beamSwap q) s = .next (((s.armCmd (schedOf q 4).unit (schedOf q 4).t 5
      (.beamSwap false (pathsOf q 1) q.cmd)).pendRx l).stageRsp q.mbx rspAccepted))) ∧
  (∀ q s beam bank, s.precheck specBeamWeightRead q = none → s.regionOk q 2 1 →
    (bitAt (q.arg 1) 7 = true → bits (q.arg 1) 5 0 < 32) → beam = bits (q.arg 1) 5 0 + (if bitAt (q.arg 1) 7 then 64 else 0) →
    bank = (if bitAt (q.arg 1) 8 then 1 - s.activeBank beam else s.activeBank beam) →
    exec (.beamWeightRead q) s = .next ((s.putTileWords (regionFirst q 2)
      ((List.range 64).map fun p => s.weight beam bank p)).stageRsp q.mbx rspOk)) ∧
  (∀ q s l w k, s.precheck specTxbCfgSet q = none → l = maskList 32 (q.arg 1).toNat → w = q.arg 2 → s.canSchedule q 3 200000 →
    (q.arg 1).toNat ≠ 0 → bits w 1 0 ≠ 3 → k = (if bits w 6 4 = 0 then 8 else bits w 6 4) → 3 ≤ k → bits w 19 16 ≠ 0 → bits w 26 24 ≤ 5 →
    (∀ b ∈ l, s.flag F.TXB_STAT_pending b = false ∧
      (s.flag F.TXB_STAT_busy b = true → s.fld F.TXB_STAT_source b = bits w 1 0 ∧ s.rateCode b = k)) →
    exec (.txbCfgSet q) s = .next (((s.armCmd (schedOf q 3).unit (schedOf q 3).t 5 (.txbCfg (q.arg 1).toNat (bits w 1 0)
      k (bits w 13 8) (bitAt w 14) (bits w 19 16) (bits w 26 24) q.cmd)).pendTx l).stageRsp q.mbx rspAccepted)) ∧
  (∀ q s, s.precheck specTxbLinkTcSet q = none → 1 ≤ bits (q.arg 1) 7 4 → bits (q.arg 1) 7 4 ≤ 8 →
    bits (q.arg 1) 3 0 + bits (q.arg 1) 7 4 ≤ 16 →
    (∀ i < bits (q.arg 1) 7 4, s.holds q.mbx resTc (bits (q.arg 1) 3 0 + i) = true) → (∀ x ∈ s.bursts, x.2.ack = true) →
    exec (.txbLinkTcSet q) s = .next (({ s with tx := { s.tx with
      linkTc := some (q.mbx, bits (q.arg 1) 3 0, bits (q.arg 1) 7 4) } } : State).stageRsp q.mbx rspOk))

/-- Admitted and with every test of theirs passed: PROFILE_LOAD from a tile that opens stores the waveform profile,
unbinds its code slots and returns its longest duration; CODE_LOAD stores a code of the profile's length in its
slot; PROFILE_ENABLE arms its unit with both masks; DET_THR_SET sets the threshold of each named slot; BG_LOAD
stores a valid base graph; DEC_CFG_SET sets max_iter and alpha. The next state is exactly that, with the response
staged. -/
def Obligations.ProfileCommandsComplete : Prop :=
  (∀ q s u l p n, s.precheck specProfileLoad q = none → s.regionOk q 2 1 → s.openTile (regionFirst q 2) 3 true = (true, u) →
    n = bits (q.arg 1) 2 0 →
    l = u.tileWords (regionFirst q 2) (8 + codeWords (bits ((u.tileWords (regionFirst q 2) 8).getD 0 0) 27 24)) →
    p = Profile.ofWords l → profileReservedOk (u.tileWords (regionFirst q 2) 8) = true → p.valid = true →
    u.rxb.profMask.testBit n = false → u.profileUsed n = false →
    exec (.profileLoad q) s =
      .next ((((u.setProfile n p).unbind n).searchRegs).stageRsp q.mbx (rspOk [toWord (p.tMax u.graph)]))) ∧
  (∀ q s u p slot k, s.precheck specCodeLoad q = none → s.regionOk q 2 1 → s.openTile (regionFirst q 2) 3 true = (true, u) →
    slot = bits (q.arg 1) 3 0 → s.profile (bits (q.arg 1) 6 4) = some p → u.profile (bits (q.arg 1) 6 4) = some p →
    s.rxb.codeMask.testBit slot = false →
    k = CodeSlot.mk (bits (q.arg 1) 6 4) (u.tileWords (regionFirst q 2) (codeWords p.sfLog2)) →
    exec (.codeLoad q) s = .next ((({ u with rxb := { u.rxb with
      codes := Store.set (fun _ => none) u.rxb.codes slot (some k) } } : State).searchRegs).stageRsp q.mbx rspOk)) ∧
  (∀ q s, s.precheck specProfileEnable q = none → s.canSchedule q 2 200000 →
    s.masksReady (bits (q.arg 1) 7 0) (bits (q.arg 1) 31 16) = true → s.profilePending = false →
    exec (.profileEnable q) s = .next ((s.armCmd (schedOf q 2).unit (schedOf q 2).t 0xC
      (.profile (bits (q.arg 1) 7 0) (bits (q.arg 1) 31 16) q.cmd)).stageRsp q.mbx rspAccepted)) ∧
  (∀ q s, s.precheck specDetThrSet q = none → 4 ≤ bits (q.arg 1) 23 16 → bits (q.arg 1) 23 16 ≤ 160 →
    exec (.detThrSet q) s = .next (((maskList 16 (bits (q.arg 1) 15 0)).foldl
      (fun s c => s.setThr c (bits (q.arg 1) 23 16)) s).stageRsp q.mbx rspOk)) ∧
  (∀ q s u l n, s.precheck specBgLoad q = none → s.regionOk q 2 1 → s.openTile (regionFirst q 2) 3 true = (true, u) →
    n = bits (q.arg 1) 1 0 → l = u.tileWords (regionFirst q 2) 1024 → bgValid l = true → u.slotNamed n = false →
    u.slotUsed n = false →
    exec (.bgLoad q) s = .next (({ u with rxb := { u.rxb with
      bg := Store.set (fun _ => none) u.rxb.bg n (some (BaseGraph.ofWords l)) } } : State).stageRsp q.mbx rspOk)) ∧
  (∀ q s, s.precheck specDecCfgSet q = none → 1 ≤ bits (q.arg 1) 5 0 → bits (q.arg 1) 5 0 ≤ 50 → 8 ≤ bits (q.arg 1) 12 8 →
    bits (q.arg 1) 12 8 ≤ 16 →
    exec (.decCfgSet q) s = .next (({ s with rxb := { s.rxb with
      maxIter := bits (q.arg 1) 5 0, alpha := bits (q.arg 1) 12 8 } } : State).stageRsp q.mbx rspOk))

/-- Admitted and with every test of theirs passed: TONGS_POLICY_SET stores the merged policy of its mode, logged and
applied at once in the mode in force; TONGS_POLICY_GET returns it; PLACE_LOG_SET starts the log in a held region of
1 to 64 tiles or stops it; CTX_READ and CTX_SUMMARY return their words; BACKLOG_CFG_SET stores the drop policy and
BL_TILES; BACKLOG_STAT returns its counts (with no record held, the oldest number is a free value, log entry 3). The
next state is exactly that, with the response staged. -/
def Obligations.PlacementCommandsComplete : Prop :=
  (∀ q s m p, s.precheck specTongsPolicySet q = none → m = bits (q.arg 1) 2 0 → p = (s.policyOf m).merge q → m ∈ policyModes →
    (m = mReach → bitAt (q.arg 1) 22 = false) → p.valid = true →
    (bitAt (q.arg 1) 23 = true → p.retTiles = 0 ∨
      (s.panFitted = true ∧ s.blTiles + p.retTiles ≤ s.fld F.MEM_PAN_USABLE_tiles)) →
    ((s.setPolicy m p).modeNo = m → exec (.tongsPolicySet q) s =
      .next (((((s.setPolicy m p).logPlace lgPolicy 255 s.now m 0).updateLimit false)).stageRsp q.mbx rspOk)) ∧
    ((s.setPolicy m p).modeNo ≠ m → exec (.tongsPolicySet q) s = .next ((s.setPolicy m p).stageRsp q.mbx rspOk))) ∧
  (∀ q s, s.precheck specTongsPolicyGet q = none → bits (q.arg 1) 2 0 ∈ policyModes →
    exec (.tongsPolicyGet q) s = .next (s.stageRsp q.mbx (rspOk (s.policyOf (bits (q.arg 1) 2 0)).words))) ∧
  (∀ q s, s.precheck specPlaceLogSet q = none →
    (regionCount q 1 = 0 → exec (.placeLogSet q) s = .next ((s.setLog none).stageRsp q.mbx rspOk)) ∧
    (regionCount q 1 ≤ 64 → s.regionOk q 1 1 → exec (.placeLogSet q) s =
      .next ((s.setLog (some (PlaceLog.mk (regionFirst q 1) (regionCount q 1) 0))).stageRsp q.mbx rspOk))) ∧
  (∀ q s x, s.precheck specCtxRead q = none → x = s.report (bits (q.arg 1) 7 0) false →
    ∃ ws, exec (.ctxRead q) s = .next (s.stageRsp q.mbx (rspOk ws)) ∧ ws.length = 7 ∧
      ws.getD 2 0 = BitVec.ofInt 32 x.freq ∧ ws.getD 3 0 = pack16 (if x.measured then unsN 16 x.snr else 0) (unsN 16 x.detSnr) ∧
      ws.getD 4 0 = (if x.synced then toWord x.tSync.toNat else 0) ∧ ws.getD 5 0 = toWord x.det.toNat) ∧
  (∀ q s, s.precheck specCtxSummary q = none →
    ∃ ws, exec (.ctxSummary q) s = .next (s.stageRsp q.mbx (rspOk ws)) ∧ ws.length = 12 ∧
      ws.getD 0 0 = pack16 (s.ctxIn .free) (s.ctxIn .acquire) ∧ ws.getD 3 0 = pack16 (s.ctxIn .deliver) s.cLimit ∧
      (∀ i < 6, ws.getD (4 + i) 0 = pack16 (satN 16 (Store.get (fun _ => 0) s.rxb.aborts (2 * i + 1)))
        (satN 16 (Store.get (fun _ => 0) s.rxb.aborts (2 * i + 2)))) ∧
      ws.getD 10 0 = toWord (satN 32 s.rxb.recLost)) ∧
  (∀ q s, s.precheck specBacklogCfgSet q = none → (bits (q.arg 1) 21 0 ≠ 0 → s.panFitted = true) →
    bits (q.arg 1) 21 0 + s.maxRet ≤ s.fld F.MEM_PAN_USABLE_tiles → (bits (q.arg 1) 21 0 = s.blTiles ∨ s.blRecords = []) →
    exec (.backlogCfgSet q) s = .next (({ s with
      rxb := { s.rxb with blNewest := bitAt (q.arg 1) 24 }
      mem := { s.mem with blTiles := bits (q.arg 1) 21 0 } } : State).stageRsp q.mbx rspOk)) ∧
  (∀ q s, s.precheck specBacklogStat q = none →
    ∃ t ws, exec (.backlogStat q) s = .next (t.stageRsp q.mbx (rspOk ws)) ∧ ws.length = 7 ∧
      (t = s ∨ t = { s with free := s.free + 1 }) ∧ ws.getD 2 0 = toWord s.blRecords.length ∧
      (∀ r l, s.blRecords = r :: l → t = s ∧ ws.getD 3 0 = toWord r.1) ∧ ws.getD 4 0 = toWord (satN 32 s.rxb.blOver) ∧
      ws.getD 5 0 = toWord (satN 32 s.rxb.blDropped) ∧ ws.getD 6 0 = toWord (satN 32 s.rxb.blLost))

/-- Admitted and with every test of theirs passed: PA_CFG_SET configures each named path; PA_SEQ of STATIC paths arms
its unit with action PA; PA_BIAS_STROBE fires the held strobe at once with now = 1 and otherwise arms its unit;
ACK_CFG_SET stores the profile's acknowledgement configuration and, with a count above 0, names the units; ACK_STAT
returns the saturated counts. The next state is exactly that, with the response staged. -/
def Obligations.TransmitCommandsComplete : Prop :=
  (∀ q s l, s.precheck specPaCfgSet q = none → l = maskList 64 (pathsOf q 1) → pathsOf q 1 ≠ 0 → bits (q.arg 3) 9 0 ≤ 1000 →
    bits (q.arg 3) 19 10 ≤ 1000 → bits (q.arg 3) 29 20 ≤ 1000 → 1 ≤ bits (q.arg 4) 7 0 → 1 ≤ bits (q.arg 4) 17 8 →
    bits (q.arg 4) 17 8 ≤ 1000 → leadUs (bits (q.arg 5) 11 0) (bits (q.arg 5) 27 16) (bits (q.arg 4) 7 0) (bits (q.arg 4) 17 8)
      (bits (q.arg 3) 9 0) (bits (q.arg 3) 19 10) (bits (q.arg 3) 29 20) ≤ 10000 →
    (∀ p ∈ l, s.paState p ≤ 1 ∧ s.flag F.TX_PATH_STAT_degraded p = false) →
    exec (.paCfgSet q) s =
      .next ((l.foldl (fun s p => s.paConfigure p (q.arg 3) (q.arg 4) (q.arg 5)) s).stageRsp q.mbx rspOk)) ∧
  (∀ q s l off, s.precheck specPaSeq q = none → l = maskList 64 (pathsOf q 1) → off = bitAt (q.arg 3) 0 → pathsOf q 1 ≠ 0 →
    s.canSchedule q 4 200000 →
    (∀ p ∈ l, s.paStatic p = true ∧ s.flag F.TX_EVT_bias_sc p = false ∧ s.flag F.TX_PATH_STAT_degraded p = false ∧
      s.paState p = if off then pRfOn else pOff) →
    exec (.paSeq q) s = .next ((s.armCmd (schedOf q 4).unit (schedOf q 4).t 0xA (.pa (pathsOf q 1) off q.cmd)).stageRsp q.mbx
      rspAccepted)) ∧
  (∀ q s n, s.precheck specPaBiasStrobe q = none → n = bits (q.arg 1) 2 0 → n ≤ 4 → s.holds q.mbx resStrobe n = true →
    ((schedOf q 2).now = true → exec (.paBiasStrobe q) s = .next (((s.elapse 1).strobe n q.cmd).stageRsp q.mbx rspAccepted)) ∧
    (s.canSchedule q 2 200000 → exec (.paBiasStrobe q) s = .next ((s.armCmd (schedOf q 2).unit (schedOf q 2).t 0xA
      (.strobe n q.cmd)).stageRsp q.mbx rspAccepted))) ∧
  (∀ q s c, s.precheck specAckCfgSet q = none → 16 ≤ bits (q.arg 1) 26 16 → bits (q.arg 1) 26 16 ≤ 1024 →
    500 ≤ bits (q.arg 2) 23 0 → bits (q.arg 2) 23 0 ≤ 10000000 → bits (q.arg 4) 6 4 ≤ 4 →
    bits (q.arg 4) 3 0 + bits (q.arg 4) 6 4 ≤ 16 →
    (∀ i < bits (q.arg 4) 6 4, s.holds q.mbx resTc (bits (q.arg 4) 3 0 + i) = true) →
    (∀ x ∈ s.bursts, x.2.ack = true → x.2.profile ≠ bits (q.arg 1) 2 0) →
    c = AckCfg.mk (bitAt (q.arg 1) 3) (bitAt (q.arg 1) 4) (bits (q.arg 1) 12 8) (bits (q.arg 1) 26 16) (bits (q.arg 2) 23 0)
      (bits (q.arg 3) 15 0) →
    exec (.ackCfgSet q) s = .next (({ s with tx := { s.tx with
      ackCfg := Store.set (fun _ => none) s.tx.ackCfg (bits (q.arg 1) 2 0) (some c)
      ackTc := if bits (q.arg 4) 6 4 = 0 then s.tx.ackTc else some (q.mbx, bits (q.arg 4) 3 0, bits (q.arg 4) 6 4) } } :
      State).stageRsp q.mbx rspOk)) ∧
  (∀ q s, s.precheck specAckStat q = none →
    exec (.ackStat q) s = .next (s.stageRsp q.mbx (rspOk ([toWord (satN 32 s.tx.ackSent), toWord (satN 32 s.tx.ackUncomp)] ++
      (List.range 5).map fun i => pack16 (satN 16 (Store.get (fun _ => 0) s.tx.ackDrops (2 * i + 1)))
        (satN 16 (Store.get (fun _ => 0) s.tx.ackDrops (2 * i + 2)))))))

/-- Admitted and with every test of theirs passed: DPD_CFG_SET writes DPD_CFG of each named path; DPD_COEF_LOAD of a
legal set stages it as the path's target from the host; DPD_COEF_READ copies the active, target or settled set to
the region; DPD_RESET stages the identity set on each named path; ORX_CAPTURE arms its unit with the capture;
DPD_STAT_GET returns the path's saturated counts. The next state is exactly that, with the response staged. -/
def Obligations.PredistortionCommandsComplete : Prop :=
  (∀ q s l, s.precheck specDpdCfgSet q = none → l = maskList 64 (pathsOf q 1) → pathsOf q 1 ≠ 0 → 1 ≤ bits (q.arg 3) 29 16 →
    bits (q.arg 3) 29 16 ≤ 10000 → 10 ≤ bits (q.arg 3) 13 8 → bits (q.arg 3) 13 8 ≤ 50 →
    (∀ p ∈ l, (s.flag F.DPD_CFG_bypass p = bitAt (q.arg 3) 0 ∨ s.paState p ≤ pOff) ∧
      s.flag F.TX_PATH_STAT_degraded p = false) →
    exec (.dpdCfgSet q) s = .next ((l.foldl (fun s p => s.setReg .DPD_CFG p (q.arg 3)) s).stageRsp q.mbx rspOk)) ∧
  (∀ q s u set p, s.precheck specDpdCoefLoad q = none → p = bits (q.arg 1) 5 0 → s.regionOk q 2 1 →
    s.flag F.TX_PATH_STAT_degraded p = false → s.openTile (regionFirst q 2) 3 true = (true, u) →
    set = u.tileWords (regionFirst q 2) 64 → setOk set = true →
    exec (.dpdCoefLoad q) s = .next (((((u.dpdClear p).fitDiscard p).dpdStage p set 1)).stageRsp q.mbx rspOk)) ∧
  (∀ q s x n, s.precheck specDpdCoefRead q = none → x = s.dpdOf (bits (q.arg 1) 5 0) → n = bits (q.arg 1) 9 8 → s.regionOk q 2 1 →
    n ≠ 3 → (n = 1 → x.target ≠ none) →
    exec (.dpdCoefRead q) s = .next ((s.putTileWords (regionFirst q 2)
      (if n = 0 then x.active else if n = 1 then x.target.getD [] else x.settled)).stageRsp q.mbx rspOk)) ∧
  (∀ q s l, s.precheck specDpdReset q = none → l = maskList 64 (pathsOf q 1) → pathsOf q 1 ≠ 0 →
    (∀ p ∈ l, s.flag F.TX_PATH_STAT_degraded p = false) →
    exec (.dpdReset q) s = .next ((l.foldl (fun s p => (s.dpdClear p).dpdStage p identitySet 0) s).stageRsp q.mbx rspOk)) ∧
  (∀ q s p, s.precheck specOrxCapture q = none → p = bits (q.arg 1) 5 0 → s.onHosc = false → s.regionOk q 2 16 →
    s.holds q.mbx resOrx (quadOf p) = true → s.canSchedule q 3 200000 → s.hostCapture (quadOf p) = false →
    s.domState (dQuad + 4 * quadOf p + 3) = 0 →
    exec (.orxCapture q) s = .next ((s.armCmd (schedOf q 3).unit (schedOf q 3).t 4
      (.capture p (bits (q.arg 1) 12 8) (regionFirst q 2) q.cmd)).stageRsp q.mbx rspAccepted)) ∧
  (∀ q s p x r k, s.precheck specDpdStatGet q = none → p = bits (q.arg 1) 5 0 → x = s.dpdOf p →
    r = (fun i => satN 16 (Store.get (fun _ => 0) s.dpd.rejects (16 * p + i))) →
    k = (fun i => satN 16 (Store.get (fun _ => 0) s.dpd.skips (8 * p + i))) →
    exec (.dpdStatGet q) s = .next (s.stageRsp q.mbx (rspOk [toWord (satN 32 x.accepts), pack16 (r 1) (r 2),
      pack16 (r 3) (r 4), pack16 (r 5) (r 6), pack16 (r 7) 0, pack16 (k 1) (k 2), pack16 (k 3) (k 4), pack16 (k 5) (k 6),
      pack16 (satN 16 x.applies) (satN 16 x.reversions)])))

/-- Admitted and with every test of theirs passed: CAL_RUN adds its run and arms its unit, or with now = 1 begins it;
CAL_CFG_SET writes CAL_CFG and KETTLE_WAIT; CAL_STAT_GET returns CAL_Q_STAT, the last run times, the accepts, a
saturated count per cause, the rejects and unaligned captures, and the pilot drive; CAL_RESTORE of a degraded path
side begins its run (answered at its end); CAL_NET_LOAD puts the table in force; CAL_RESULT_READ copies the unit's
block to the region. The opaque words and the count of CAL_RESULT_READ are free values (log entry 3). -/
def Obligations.CalibrationCommandsComplete : Prop :=
  (∀ q s qm m sides r, s.precheck specCalRun q = none → s.onHosc = false → bits (q.arg 1) 11 0 &&& 0x808 = 0 →
    qm = bits (q.arg 1) 19 16 → qm ≠ 0 → m = pathsOf q 2 → (m = 0 ↔ bitAt (q.arg 1) 24 = false) →
    sides = s.runSides (bits (q.arg 1) 11 0) qm →
    (usesOrx (bits (q.arg 1) 11 0) = true → ∀ k ∈ sides, k % 2 = 1 → s.holds q.mbx resOrx (k / 2) = false) →
    (∀ k ∈ sides, s.sideState k ≠ sOff) →
    (∀ p ∈ maskList 64 m, qm.testBit (quadOf p) = true → (2 * quadOf p ∈ sides → s.degraded p false = false) ∧
      (2 * quadOf p + 1 ∈ sides → s.degraded p true = false)) →
    s.modeChanging = false → (∀ a ∈ maskList 4 qm, s.runOn a = none) →
    r = CalRun.mk 0 (bits (q.arg 1) 11 0) qm (if bitAt (q.arg 1) 24 then m else 2 ^ 64 - 1) sides [] (some q.cmd)
      (if (schedOf q 4).now then none else some (schedOf q 4).unit) (schedOf q 4).t false [] none →
    ((schedOf q 4).now = true → exec (.calRun q) s =
      .next ((({ s with cal := { s.cal with runs := s.cal.runs ++ [r] } } : State).beginRun r).stageRsp q.mbx rspAccepted)) ∧
    (s.canSchedule q 4 200000 → exec (.calRun q) s =
      .next ((({ s with cal := { s.cal with runs := s.cal.runs ++ [r] } } : State).armCmd (schedOf q 4).unit (schedOf q 4).t 0xB
        (.cal (bits (q.arg 1) 11 0) qm r.paths q.cmd)).stageRsp q.mbx rspAccepted))) ∧
  (∀ q s, s.precheck specCalCfgSet q = none → 1 ≤ bits (q.arg 1) 31 22 → bits (q.arg 1) 31 22 ≤ 1000 → 1 ≤ bits (q.arg 1) 21 12 →
    bits (q.arg 1) 21 12 ≤ 1000 → 1 ≤ bits (q.arg 1) 4 0 → bits (q.arg 1) 4 0 ≤ 30 → 10 ≤ bits (q.arg 2) 13 0 →
    bits (q.arg 2) 13 0 ≤ 10000 →
    exec (.calCfgSet q) s = .next (({ s.setReg .CAL_CFG 0 (q.arg 1) with
      cal := { s.cal with wait := bits (q.arg 2) 13 0 } } : State).stageRsp q.mbx rspOk)) ∧
  (∀ q s a, s.precheck specCalStatGet q = none → a = bits (q.arg 1) 1 0 →
    exec (.calStatGet q) s = .next (s.stageRsp q.mbx (rspOk ([s.reg .CAL_Q_STAT a,
      Store.get (fun _ => 0) s.cal.lastRun (2 * a), Store.get (fun _ => 0) s.cal.lastRun (2 * a + 1),
      toWord (satN 32 (Store.get (fun _ => 0) s.cal.accepts a))] ++
      packBytes 28 ((calCauses.map fun c => satN 8 (Store.get (fun _ => 0) s.cal.causes (256 * a + c))) ++ [0, 0, 0]) ++
      [pack16 (satN 16 (Store.get (fun _ => 0) s.cal.causes (256 * a))) (satN 16 (Store.get (fun _ => 0) s.cal.unaligned a)),
       toWord (unsN 8 (Store.get (fun _ => 0) s.cal.drive a))])))) ∧
  (∀ q s p tx r, s.precheck specCalRestore q = none → p = bits (q.arg 1) 5 0 → tx = bitAt (q.arg 1) 8 → s.degraded p tx = true →
    s.runOn (quadOf p) = none →
    r = CalRun.mk 2 (restoreCals tx) (2 ^ quadOf p) (2 ^ p) [2 * quadOf p + if tx then 1 else 0] [] (some q.cmd) none s.now
      false [] none →
    exec (.calRestore q) s = .next (({ s with cal := { s.cal with runs := s.cal.runs ++ [r] } } : State).beginRun r)) ∧
  (∀ q s u, s.precheck specCalNetLoad q = none → s.regionOk q 1 1 → (∀ r ∈ s.cal.runs, r.begun = false) →
    s.openTile (regionFirst q 1) 3 true = (true, u) →
    exec (.calNetLoad q) s = .next ((u.setNet (u.tileWords (regionFirst q 1) 68)).stageRsp q.mbx rspOk)) ∧
  (∀ q s u, s.precheck specCalResultRead q = none → s.regionOk q 2 1 →
    u = (if bitAt (q.arg 1) 8 then 64 + bits (q.arg 1) 1 0 else bits (q.arg 1) 5 0) →
    (Config.calWords u).toNat + 1 ≤ 1024 * regionCount q 2 →
    exec (.calResultRead q) s = .next ((s.putTileWords (regionFirst q 2) (calBlock u (Config.calWords u).toNat)).stageRsp q.mbx
      (rspOk [toWord (4 * ((Config.calWords u).toNat + 1))])))

/-- Admitted and with every test of theirs passed: LINK_CFG_SET applies its words at once, or defers them to 1 ms after
the response where the change takes the link down; LINK_STATE_GET returns the link and lane registers; LINK_RETRAIN
of an enabled link defers a retrain, or ends the backoff in LINK_DOWN; LINK_LOOP_SET on a disabled link sets the
loop and PRBS of its lanes; FRAME_CONTENT_SET stores m0, m_min, prune_log2 and drain_pct; FRAME_STAT_GET returns the
stream's counts and credit. The next state is exactly that, with the response staged. -/
def Obligations.LinkCommandsComplete : Prop :=
  (∀ q s, s.precheck specLinkCfgSet q = none → bits (q.arg 1) 6 4 + 1 ≤ popCount 8 (bits (q.arg 1) 15 8) →
    (bits (q.arg 2) 7 0 ≠ 0 → ffeOk (q.arg 3) = true) →
    (s.cfgDrops (q.arg 1) = true → exec (.linkCfgSet q) s = .next (({ s with link := { s.link with
      deferred := some (LinkChange.mk q.mbx (some (q.arg 1)) (bits (q.arg 2) 7 0) (q.arg 3) none) } } : State).stageRsp q.mbx
      rspOk)) ∧
    (s.cfgDrops (q.arg 1) = false → exec (.linkCfgSet q) s =
      .next ((s.applyLink (q.arg 1) (bits (q.arg 2) 7 0) (q.arg 3)).stageRsp q.mbx rspOk))) ∧
  (∀ q s, s.precheck specLinkStateGet q = none →
    exec (.linkStateGet q) s = .next (s.stageRsp q.mbx (rspOk ([s.reg .LNK_STAT 0, s.reg .LNK_TRAIN 0, s.reg .LNK_PARTNER 0] ++
      ((List.range 8).map fun n => s.reg .LNK_LANE_STAT n) ++ ((List.range 8).map fun n => s.reg .LNK_LANE_ERR n) ++
      [s.reg .LNK_RM_CNT 0])))) ∧
  (∀ q s, s.precheck specLinkRetrain q = none → s.flag F.LNK_CFG_en = true →
    (s.linkState = lDown → exec (.linkRetrain q) s = .next (s.endBackoff.stageRsp q.mbx rspOk)) ∧
    (s.linkState ≠ lDown → exec (.linkRetrain q) s = .next (({ s with link := { s.link with
      deferred := some (LinkChange.mk q.mbx none 0 0 none) } } : State).stageRsp q.mbx rspOk))) ∧
  (∀ q s u, s.precheck specLinkLoopSet q = none → s.flag F.LNK_CFG_en = false → bits (q.arg 1) 7 0 ≠ 0 →
    u = (maskList 8 (bits (q.arg 1) 7 0)).foldl (fun s n => ((s.setFld F.LNK_LANE_STAT_loop n (bits (q.arg 1) 9 8)).setFlag
      F.LNK_LANE_STAT_prbs_on n (bitAt (q.arg 1) 16)).setFld F.LNK_LANE_STAT_prbs_sync n 0) s →
    exec (.linkLoopSet q) s = .next ((u.setFlag F.LNK_STAT_loop 0
      ((List.range 8).any fun n => decide (u.fld F.LNK_LANE_STAT_loop n ≠ 0))).stageRsp q.mbx rspOk)) ∧
  (∀ q s m0 mMin u, s.precheck specFrameContentSet q = none → mOfCode (bits (q.arg 1) 7 4) = some m0 →
    mOfCode (bits (q.arg 1) 11 8) = some mMin → (bits (q.arg 1) 2 0 = mRelay ∨ bits (q.arg 1) 2 0 = mMirror) → mMin ≤ m0 →
    1 ≤ bits (q.arg 1) 22 16 → bits (q.arg 1) 22 16 ≤ 100 →
    u = ({ s with link := { s.link with
      content := Store.set contentDefault s.link.content (bits (q.arg 1) 2 0) (m0, mMin, bits (q.arg 1) 15 12) } } :
      State).setFld F.LNK_BL_DRAIN_drain_pct 0 (bits (q.arg 1) 22 16) →
    (s.modeNo = bits (q.arg 1) 2 0 → exec (.frameContentSet q) s =
      .next ((u.newRuns.evaluate false).stageRsp q.mbx rspOk)) ∧
    (s.modeNo ≠ bits (q.arg 1) 2 0 → exec (.frameContentSet q) s = .next (u.stageRsp q.mbx rspOk))) ∧
  (∀ q s k lim sent, s.precheck specFrameStatGet q = none → k = bits (q.arg 1) 7 0 →
    (lim, sent) = (if creditedTx.contains k then (perStream s.link.limit k, perStream s.link.sent k)
      else if grantedRx.contains k then (perStream s.link.grant k, perStream s.link.got k) else (0, 0)) →
    exec (.frameStatGet q) s = .next (s.stageRsp q.mbx (rspOk [toWord (perStream s.link.sentN k),
      toWord (perStream s.link.recvN k), toWord lim, toWord sent,
      pack16 (satN 16 (perStream s.link.errs k)) (satN 16 (perStream s.link.drops k))])))

/-- Admitted and with every test of theirs passed: TIME_CFG_SET writes the servo source, PPS edge, mark interval, gains,
PPS phase and epoch base; TIME_STEP with no unit armed takes the next advance, moves the counter, and every moment a
duration runs from, by the signed step (log entry 141), sets stepped and posts TIME_STEPPED with the command's own
mark; TIME_GET returns the epoch, TIME_NS, wraps, fraction, rate word, integrator and TIME_STAT; TC_ARM writes the
compare time, the period and TC_CTL with arm and takes C; TC_DISARM of a unit no command armed disarms it. The next
state is exactly that, with the response staged. -/
def Obligations.TimeCommandsComplete : Prop :=
  (∀ q s, s.precheck specTimeCfgSet q = none → 1 ≤ bits (q.arg 1) 31 16 → bits (q.arg 1) 31 16 ≤ 1000 →
    (q.arg 3).toNat ≤ 999999999 →
    exec (.timeCfgSet q) s = .next (({ ((((s.setFld F.TIME_CFG_src 0 (bits (q.arg 1) 1 0)).setFld F.TIME_CFG_pps_edge 0
        (bits (q.arg 1) 2 2)).setFld F.TIME_CFG_mark_ms 0 (bits (q.arg 1) 31 16)).setReg .TIME_GAIN 0 (q.arg 2)) with
      time := { s.time with ppsPhase := (q.arg 3).toNat, epochBase := q.arg 5 ++ q.arg 4 } } : State).stageRsp q.mbx rspOk)) ∧
  (∀ q s u, s.precheck specTimeStep q = none → bits (q.arg 2) 31 16 = (if bitAt (q.arg 2) 15 then 0xFFFF else 0) →
    s.anyArmed = false →
    u = s.tick.stepBy (stepOf q) → u.time.ticks = s.tick.time.ticks + stepOf q * 2 ^ 56 ∧ u.regs = s.tick.regs ∧ exec (.timeStep q) s = .next (((u.setFld F.TIME_STAT_stepped 0 1).post 0x0804 clsInfo (q.arg 1) (some q.cmd)).stageRsp q.mbx
      rspOk)) ∧
  (∀ q s, s.precheck specTimeGet q = none →
    exec (.timeGet q) s = .next (s.stageRsp q.mbx (rspOk [s.epoch.setWidth 32, (s.epoch >>> 32).setWidth 32, s.timeNs,
      toWord s.timeWraps, s.timeSub, s.reg .TS_RATE 0, s.reg .TS_INTEG 0, s.reg .TIME_STAT 0]))) ∧
  (∀ q s u c, s.precheck specTcArm q = none → u = bits (q.arg 1) 3 0 →
    c = BitVec.ofNat 48 ((q.arg 3).toNat + 2 ^ 32 * bits (q.arg 4) 15 0) →
    (bits (q.arg 2) 7 4 = 1 ∨ bits (q.arg 2) 7 4 = 2) → (bitAt (q.arg 2) 1 = true → 100 ≤ (q.arg 5).toNat) →
    s.holds q.mbx resTc u = true → s.armed u = false → s.cmpPast c = false →
    exec (.tcArm q) s = .next ((((((s.setReg .TC_CMP_NS u (q.arg 3)).setReg .TC_CMP_WP u (q.arg 4)).setReg .TC_PERIOD u
      (q.arg 5)).writeTyped .TC_CTL u ((q.arg 2 &&& 0x00FF0FF2) ||| 1)).takeC u c).stageRsp q.mbx rspOk)) ∧
  (∀ q s u, s.precheck specTcDisarm q = none → u = bits (q.arg 1) 3 0 → s.holds q.mbx resTc u = true →
    s.flag F.TC_CTL_cmd_armed u = false →
    exec (.tcDisarm q) s = .next ((s.disarm u).stageRsp q.mbx rspOk))

/-- Admitted and with every test of theirs passed: TILE_SEAL seals the OPEN tiles of the region and returns their
number; TILE_OPEN reopens the SEALED ones and returns theirs; TILE_VERIFY of a region whose SEALED tiles all match
returns 0 and changes nothing, and of one with a mismatch verifies every tile and returns ST_FAULT with the first;
MEM_STAT returns its seven words; QUAR_LIST copies both lists; QUAR_RETEST march-tests the QUARANTINED tiles no host
holds (whether a tile passes is the silicon's, log entry 3) and returns how many returned to use; DMA_CFG_SET with
every channel idle writes the hop limit. -/
def Obligations.MemoryCommandsComplete : Prop :=
  (∀ q s l, s.precheck specTileSeal q = none → s.regionOk q 1 1 →
    l = (regionTiles q 1).filter (fun t => (s.tile t).state = .open) →
    exec (.tileSeal q) s = .next ((l.foldl State.sealTile s).stageRsp q.mbx (rspOk [toWord l.length]))) ∧
  (∀ q s l, s.precheck specTileOpen q = none → s.regionOk q 1 1 →
    l = (regionTiles q 1).filter (fun t => (s.tile t).state = .sealed) →
    exec (.tileOpen q) s = .next ((l.foldl State.reopenTile s).stageRsp q.mbx (rspOk [toWord l.length]))) ∧
  (∀ q s, s.precheck specTileVerify q = none → s.regionOk q 1 1 →
    ((∀ t ∈ regionTiles q 1, s.tileFails t = false) → exec (.tileVerify q) s = .next (s.stageRsp q.mbx (rspOk [0]))) ∧
    (∀ t, (regionTiles q 1).find? s.tileFails = some t → exec (.tileVerify q) s =
      .next ((s.verifyTiles (regionTiles q 1)).stageRsp q.mbx { status := stFault, words := [toWord (t + 2 ^ 31)] }))) ∧
  (∀ q s, s.precheck specMemStat q = none →
    exec (.memStat q) s = .next (s.stageRsp q.mbx (rspOk [s.reg .MEM_PAN_STAT 0, s.reg .MEM_PAN_USABLE 0, s.reg .MEM_LAR_STAT 0,
      toWord s.blTiles, toWord s.maxRet, toWord s.surveyTiles,
      toWord ((if s.sys.ringMade then s.sys.ringTiles else 0) + 65536 * s.freeTiles)]))) ∧
  (∀ q s lar pan, s.precheck specQuarList q = none → s.regionOk q 1 1 → lar = s.quarList 0 6144 →
    pan = (s.quarList 0x400000 0x800000).map (· - 0x400000) → lar.length + pan.length ≤ 1024 * regionCount q 1 →
    exec (.quarList q) s = .next ((s.putTileWords (regionFirst q 1) (lar.map toWord ++ pan.map fun p =>
      toWord (p + 2 ^ 22))).stageRsp q.mbx (rspOk [toWord (lar.length + 65536 * pan.length)]))) ∧
  (∀ q s l, s.precheck specQuarRetest q = none → 1 ≤ regionCount q 1 → regionFirst q 1 + regionCount q 1 ≤ 6144 →
    l = (regionTiles q 1).filter (fun t => (s.tile t).state = .quarantined) →
    (∀ t ∈ l, ∀ c, s.owner resTile t = some c → c.internal = true) →
    exec (.quarRetest q) s = .next ((((s.retestTiles l 0).2.quarRegs).updateLimit true).stageRsp q.mbx
      (rspOk [toWord (s.retestTiles l 0).1]))) ∧
  (∀ q s, s.precheck specDmaCfgSet q = none → bits (q.arg 1) 15 0 ≠ 0 → s.dmaBusy = false →
    exec (.dmaCfgSet q) s = .next ((s.setFld F.DMA_CFG_hop_max 0 (bits (q.arg 1) 15 0)).stageRsp q.mbx rspOk))

/-- An admitted PWR_DOMAIN_SET that no test refuses and whose domains are all at rest: ON with every domain ON takes the
setpoints and answers ST_OK; ON with a domain down starts those domains' transitions; RET or OFF with every domain
already there records the request and answers ST_OK; otherwise the group's blocks are asked. With a domain in
transition the request waits in order. PWR_OP_SET writes the fixed operating points and raises the domains they fix;
PWR_STAT_GET returns the domain's word, counts and block list; VMON_CFG_SET writes the thresholds of the named
rails. -/
def Obligations.PowerCommandsComplete : Prop :=
  (∀ q s r, s.precheck specPwrDomainSet q = none → r = PwrReq.mk q.cmd (bits (q.arg 1) 1 0) (bits (q.arg 1) 13 8)
      (bits (q.arg 1) 18 16) (maskList 64 (pathMask (q.arg 2) (q.arg 3))) → s.powerRefused r = none →
    ((∃ d ∈ r.group, s.domBusy d = true) → exec (.pwrDomainSet q) s =
      .next { s with pwr := { s.pwr with waiting := s.pwr.waiting ++ [r] } }) ∧
    ((∀ d ∈ r.group, s.domBusy d = false) →
      (r.target = 0 → exec (.pwrDomainSet q) s = .next (s.powerOn r)) ∧
      (r.target ≠ 0 → (∀ d ∈ r.group, s.domState d = r.target) → exec (.pwrDomainSet q) s =
        .next ((s.hostReq r.target r.group).stageRsp q.mbx rspOk)) ∧
      (r.target ≠ 0 → (∃ d ∈ r.group, s.domState d ≠ r.target) → exec (.pwrDomainSet q) s =
        .next (s.askGroup (some q.cmd) r.target r.group)))) ∧
  (∀ q s u, s.precheck specPwrOpSet q = none → u = ((s.setFld F.PWR_SIEVE_OP_fixed 0 (bits (q.arg 1) 3 0)).setFlag
      F.PWR_OP_col_fixed 0 (bitAt (q.arg 1) 4)).setFlag F.PWR_OP_txb_fixed 0 (bitAt (q.arg 1) 5) →
    exec (.pwrOpSet q) s = .next ((([dCol, dTxb, dSieve, dSieve + 1, dSieve + 2, dSieve + 3].filter u.opFixed).foldl
      State.raiseOp u).stageRsp q.mbx rspOk)) ∧
  (∀ q s d, s.precheck specPwrStatGet q = none → d = bits (q.arg 1) 5 0 → isDomain d = true →
    exec (.pwrStatGet q) s = .next ((s.refreshDom d).stageRsp q.mbx (rspOk ([(s.refreshDom d).reg .PWR_DOM d,
      pack16 (satN 16 (Store.get (fun _ => 0) s.pwr.refusals d)) (satN 16 (Store.get (fun _ => 0) s.pwr.forced d)),
      toWord (domainBlocks d).length] ++ packBytes (domainBlocks d).length (domainBlocks d))))) ∧
  (∀ q s, s.precheck specVmonCfgSet q = none → bits (q.arg 1) 7 0 ≠ 0 → 4 ≤ bits (q.arg 2) 4 0 → bits (q.arg 2) 4 0 ≤ 16 →
    12 ≤ bits (q.arg 2) 12 8 → bits (q.arg 2) 12 8 ≤ 24 → bits (q.arg 2) 4 0 + 4 ≤ bits (q.arg 2) 12 8 →
    exec (.vmonCfgSet q) s = .next (((maskList 8 (bits (q.arg 1) 7 0)).foldl
      (fun s r => s.setReg .VMON_CFG r (toWord (bits (q.arg 2) 4 0 + 256 * bits (q.arg 2) 12 8))) s).stageRsp q.mbx rspOk))

/-- An admitted FAULT_STAT_GET returns FLT_STAT, FLT_CUR, FLT_RESET, FLT_CNT, the sixteen places of the queue in serving
order and the saturated count of every code, and changes nothing. An admitted FAULT_INJECT in HOLD of a listed code
that may be injected answers ST_OK after raising that fault for its unit, as if it had occurred. -/
def Obligations.FaultCommandsComplete : Prop :=
  (∀ q s, s.precheck specFaultStatGet q = none →
    exec (.faultStatGet q) s = .next (s.stageRsp q.mbx (rspOk ([s.reg .FLT_STAT 0, s.reg .FLT_CUR 0, s.reg .FLT_RESET 0,
      s.reg .FLT_CNT 0] ++ (((serveOrder s.flt.queue).map fun (e : FaultEnt) => toWord (e.code + 65536 * e.sev + 2 ^ 19 * min 31 e.merges +
      2 ^ 24 * (e.unit % 256))) ++ List.replicate 16 0).take 16 ++
      packBytes 28 (faultCodes.map fun c => satN 8 (Store.get (fun _ => 0) s.flt.counts c)))))) ∧
  (∀ q s, s.precheck specFaultInject q = none → s.modeNo = mHold → bits (q.arg 1) 15 0 ∈ faultCodes →
    bits (q.arg 1) 15 0 ≠ 0x0102 → bits (q.arg 1) 15 0 ≠ 0x0205 →
    exec (.faultInject q) s =
      .next ((s.raiseAny (bits (q.arg 1) 15 0) (bits (q.arg 1) 23 16) 0).stageRsp q.mbx rspOk))

/-- With CSPI up, a WRITE frame of one word writes a plain register by field type, or a word of a writable Larder tile
through the window; a READ frame of one word returns the memory word; STATUS returns SYS_CSPI_STAT; an unknown
opcode sets bad_op. With the link receiving, REG_WR of one word writes the same two ways, REG_RD of one memory word
is answered by one REG_RD_RSP frame, REG_RD_RSP ends a remote read or a barrier of the channel that waits for it,
MBX_REQ in BUSY sets collide and answers ST_BUSY, a repeated request resends the stored response, and any other
MBX_REQ writes the request area and is taken as a ring. -/
def Obligations.HostFramesComplete : Prop :=
  (∀ addr v s r i, s.cspiUp = true → addr < 0x4000 → plainAddr (4 * addr) → s.regAt .cspi (4 * addr) = some (r, i) →
    r.plainWrite = true → r.resource i = none → s.targets .cspi r i = [i] →
    exec (.cspiWrite addr 32 [v]) s = .next ((s.setReg r i (r.written (s.reg r i) v)).setMiso [])) ∧
  (∀ addr v s, s.cspiUp = true → 0x800000 ≤ addr → addr < 2 ^ 24 → s.writable .cspi (s.winByte addr) →
    exec (.cspiWrite addr 32 [v]) s = .next ((s.setMemWord (s.winByte addr) v).setMiso [])) ∧
  (∀ addr s, s.cspiUp = true → 0x800000 ≤ addr → addr < 2 ^ 24 → s.readableMem (s.winByte addr) →
    exec (.cspiRead addr 1 none) s = .next (s.setMiso [s.memWord (s.winByte addr)])) ∧
  (∀ s, s.cspiUp = true → exec .cspiStatus s = .next (s.setMiso [s.reg .SYS_CSPI_STAT 0])) ∧
  (∀ op s, s.cspiUp = true → op ≠ 0x02 → op ≠ 0x0B → op ≠ 0x05 →
    exec (.cspiUnknownOpcode op) s = .next ((s.setFld F.SYS_CSPI_STAT_bad_op 0 1).setMiso [])) ∧
  (∀ a v s u r i, s.rxOpen = true → a % 4 = 0 → plainAddr a → u = s.received 0 (len8Of 4) → u.regAt .link a = some (r, i) →
    r.plainWrite = true → r.resource i = none → u.targets .link r i = [i] →
    exec (.regWr a 1 [v]) s = .next (u.setReg r i (r.written (u.reg r i) v))) ∧
  (∀ a v s u, s.rxOpen = true → a % 4 = 0 → a < 2 ^ 40 → u = s.received 0 (len8Of 4) → u.writable .link a →
    exec (.regWr a 1 [v]) s = .next (u.setMemWord a v)) ∧
  (∀ a s u, s.rxOpen = true → a % 4 = 0 → a < 2 ^ 40 → u = s.received 0 (len8Of 3) → u.readableMem a →
    exec (.regRd a 1) s = .next (u.sendFrame 0
      [toWord (0x12 + 65536 * (a / 2 ^ 32)), toWord a, toWord 1, toWord 0, u.memWord a])) ∧
  (∀ a n data s u ch c, s.rxOpen = true → 1 ≤ n → n ≤ 256 → data.length = n → u = s.received 0 (len8Of (4 + n)) →
    (List.range 32).find? (fun k => decide ((u.dma k).want = some (a, n))) = some ch → c = u.dma ch →
    (c.phase = 2 → exec (.regRdRsp a n 0 data) s =
      .next (u.setDma ch { c with phase := 3, want := none, issued := none, unacked := none }).dmaStat) ∧
    (c.phase ≠ 2 → (descOf c.desc).len / 4 ≤ c.remote.length + n → exec (.regRdRsp a n 0 data) s =
      .next (u.setDma ch { c with remote := c.remote ++ data, want := none, issued := none, phase := 1 }).dmaStat)) ∧
  (∀ n h args s u w, s.rxOpen = true → n < 8 → args.length ≤ 63 → u = s.received 0 (len8Of (2 + args.length)) →
    w = (u.putRequest n (h :: args)).setFld F.SYS_MBX_STAT_collide n 1 →
    (u.mbxState n = mbBusy → exec (.mbxReq n h args) s =
      .next (w.sendRsp n (w.rspHeader (reqTag h) { status := stBusy, trivet := decide (n = 7) || !w.coreUp }) [])) ∧
    (u.mbxState n ≠ mbBusy → (u.mbx n).lastLink = some (h :: args) → exec (.mbxReq n h args) s = .next (u.resend n)) ∧
    (u.mbxState n ≠ mbBusy → (u.mbx n).lastLink ≠ some (h :: args) →
      exec (.mbxReq n h args) s = .next ((u.putRequest n (h :: args)).takeRing .link n (some (h :: args)))))

/-- A register write of a plain register with no claim rule writes its one copy by field type; a read of a plain
register returns it and clears its RC fields; TIME_NS read latches fraction and wraps; a ring in BUSY sets collide,
in any other state the request is taken; ack in DONE returns the mailbox to IDLE; BEAM_SEL, TC_CTL, TS_OFFSET,
DMA_CH_CTL and AUX_SEQ_CTL writes take effect as their rules say; the watchdog write restarts its time; Tilin takes
the next waiting mailbox, whose command finishes with ST_TIMEOUT and no other effect where an internal step exceeds
its bound; a staged response is written when its command finishes; a posting window ends 1 ms after its start. -/
def Obligations.RegisterAccessesComplete : Prop :=
  (∀ p a v s r i, a % 4 = 0 → plainAddr a → s.regAt p a = some (r, i) → r.plainWrite = true → r.resource i = none →
    s.targets p r i = [i] → exec (.registerWrite p a v) s = .next (s.setReg r i (r.written (s.reg r i) v))) ∧
  (∀ p a s r i, a % 4 = 0 → plainAddr a → s.regAt p a = some (r, i) → r.plainRead = true →
    exec (.rcRegisterRead p a) s = .next ((if r.hasRc then s.setReg r i (r.cleared (s.reg r i)) else s).setRdata p
      (r.readable (s.reg r i)))) ∧
  (∀ p s l, l = Store.set (fun _ => 0) (Store.set (fun _ => 0) s.time.latch (2 * p.idx) s.timeSub) (2 * p.idx + 1)
      (toWord s.timeWraps) →
    exec (.timeNsRead p) s = .next (({ s with time := { s.time with latch := l } } : State).setRdata p s.timeNs)) ∧
  (∀ p n s, n < 8 →
    (s.mbxState n = mbBusy → exec (.mailboxRing p n) s = .next (s.setFld F.SYS_MBX_STAT_collide n 1)) ∧
    (s.mbxState n ≠ mbBusy → exec (.mailboxRing p n) s = .next (s.takeRing p n none))) ∧
  (∀ p n s, n < 8 → s.mbxState n = mbDone → exec (.mailboxAck p n) s = .next (s.setFld F.SYS_MBX_STAT_state n mbIdle)) ∧
  (∀ p v s, (bitAt v 7 = false ∨ bits v 5 0 ≤ 31) →
    exec (.beamSelWrite p v) s = .next (s.setReg .BEAM_SEL p.idx (RegName.BEAM_SEL.written (s.reg .BEAM_SEL p.idx) v))) ∧
  (∀ p u v s t, u < 16 → s.portHolds p resTc u = true → s.flag F.TC_CTL_cmd_armed u = false →
    t = s.setReg .TC_CTL u (RegName.TC_CTL.written (s.reg .TC_CTL u) v) →
    (bitAt v 0 = false → exec (.tcCtlWrite p u v) s = .next t) ∧
    (bitAt v 0 = true → (bits v 7 4 = 1 ∨ bits v 7 4 = 2) → (bitAt v 1 = true → 100 ≤ (t.reg .TC_PERIOD u).toNat) →
      t.cmpPast (t.cmpTime u) = false → exec (.tcCtlWrite p u v) s = .next (t.takeC u (t.cmpTime u)))) ∧
  (∀ p v s, (s.fld F.TIME_CFG_src = 0 ∨ (s.fld F.TIME_CFG_src = 2 ∧ p = .tilin)) →
    exec (.tsOffsetWrite p v) s = .next (s.servo v.toInt)) ∧
  (∀ p n v s t, n < 32 → s.portHolds p resDma n = true → s.flag F.DMA_CH_CTL_en n = false → s.fld F.DMA_CH_STAT_state n = 0 →
    t = s.setReg .DMA_CH_CTL n (RegName.DMA_CH_CTL.written (s.reg .DMA_CH_CTL n) v) → t.fld F.DMA_CH_STAT_state n = 0 →
    (bitAt v 0 = false → exec (.dmaChCtlWrite p n v) s = .next t) ∧
    (bitAt v 0 = true → t.flag F.DMA_CH_CTL_tc_start n = false → exec (.dmaChCtlWrite p n v) s =
      .next ((t.setFld F.DMA_CH_STAT_hop n 0).setFld F.DMA_CH_STAT_state n 2)) ∧
    (bitAt v 0 = true → t.flag F.DMA_CH_CTL_tc_start n = true → t.unitOfOwner n (t.fld F.DMA_CH_CTL_tc_unit n) = true →
      exec (.dmaChCtlWrite p n v) s = .next (t.setFld F.DMA_CH_STAT_state n 1))) ∧
  (∀ p v s t, s.portHolds p resAux 0 = true → s.flag F.AUX_SEQ_CTL_run = false →
    t = s.setReg .AUX_SEQ_CTL 0 (RegName.AUX_SEQ_CTL.written (s.reg .AUX_SEQ_CTL 0) (v &&& 0xFFFFFFFE)) →
    (bitAt v 0 = false → exec (.auxSeqCtlWrite p v) s = .next t) ∧
    (bitAt v 0 = true → t.reg .AUX_SEQ_MASK 0 ≠ 0 → t.auxRingOk = true →
      exec (.auxSeqCtlWrite p v) s = 
        .next (t.auxTiles.foldl State.useTile (t.setFld F.AUX_SEQ_CTL_run 0 1)).auxSweep)) ∧
  (∀ s, s.flt.wdogOn = true → exec .watchdogKick s = .next { s with flt := { s.flt with wdogLast := s.now } }) ∧
  (∀ s n t, s.coreUp = true → s.nextMbx = some n →
    (commandOf (reqOpcode (((s.markTaken n).mbx n).copied.headD 0)) (s.reqOf n) (s.markTaken n) = some (.next t) →
      exec .commandTake s = .next t ∧ exec (.commandFinish ⟨n, true⟩) s =
        .next (if t.underWay n = true then (s.markTaken n).respond n (rspErr stTimeout) else s)) ∧
    (commandOf (reqOpcode (((s.markTaken n).mbx n).copied.headD 0)) (s.reqOf n) (s.markTaken n) = none →
      exec .commandTake s = .next ((s.markTaken n).stageRsp n (rspErr stBadOpcode)))) ∧
  (∀ n s r, n < 8 → s.mbxState n = mbBusy → (s.mbx n).staged = some r → exec (.commandFinish ⟨n, false⟩) s = .next (s.respond n r)) ∧
  (∀ code scope s w, s.window code scope = some w → exec (.rateLimitWindowEnd code scope) s =
    .next ((s.elapseTo (w.start + 1000000)).closeWindow code scope (w.start + 1000000)))

/-- Power-on reset gives the reset state with the waiting commands; RESET_N rising and the release of a device reset
sample the balls and enter stage 1; the supply check ends at stage 2; HOSC ready without CLK_HOLD starts the counter
at 0, drives the outputs low and enters stage 3; a loaded slot goes to VERIFY, a verified image starts the
management core, a failed one counts its cause; entry to CALIBRATING takes the profile; each startup step takes its
results and moves on, the last one ends in READY; RESET_N low takes the actions of a device reset with by_pin; a
stopped HOSC, a rail below VMON_RST and the end of 1 ms after TRV_*_RESET reset likewise. -/
def Obligations.BootCommandsComplete : Prop :=
  (∀ s, exec .powerOnReset s = .next { free := s.free, pending := s.pending }) ∧
  (∀ b r s, s.sys.resetN = false → exec (.resetNRise b r) s = .next (s.sampleStraps b r)) ∧
  (∀ b r s, s.sys.held = true → exec (.deviceResetRelease b r) s = .next (s.sampleStraps b r)) ∧
  (∀ s, s.stage = 1 → exec .supplyCheckEnd s = .next (s.setFld F.SYS_STATE_stage 0 2)) ∧
  (∀ h s u, s.stage = 2 → s.time.held = false → s.fld F.SYS_STATE_boot_src ≠ 2 →
    u = ((s.setFld F.SYS_STATE_stage 0 3).setFld F.CLK_STAT_hosc_ready 0 1).setFld F.CLK_SRC_rdy_hosc 0 1 →
    exec (.hoscReady h) s = .next { u with
      sys := { u.sys with imageFrom := firstImage (s.fld F.SYS_STATE_boot_src) }
      clk := { u.clk with firstWin := true }
      time := { u.time with
        ticks := 0
        running := true
        held := false
        outs := (List.range 4).foldl (fun (m : Store OutPin) n => Store.set (fun _ => {}) m n { level := .low }) [] } }) ∧
  (∀ s, s.stage = 3 → (s.fld F.SYS_STATE_boot_src = 0 ∨ s.fld F.SYS_STATE_boot_src = 3) → s.sys.imageFrom < 2 →
    exec (.imageLoadDone true) s = .next (s.setFld F.SYS_STATE_stage 0 4) ∧
    exec (.imageLoadDone false) s = .next (s.imageFails 6)) ∧
  (∀ img s, s.stage = 4 →
    (s.imageCause img = 0 → exec (.imageVerifyDone img) s = .next (s.mgmtStart
      (if s.sys.imageFrom = 2 then s.memWord (s.sys.imageAddr + 4) else img.version))) ∧
    (s.imageCause img ≠ 0 → exec (.imageVerifyDone img) s = .next (s.imageFails (s.imageCause img)))) ∧
  (∀ l s u, s.stage = 5 → s.cal.commissioned = false → s.fld F.SYS_STATE_boot_src = 0 → profileOk l = true →
    bitAt (profileWord l 2) 0 = true → bitAt (profileWord l 2) 1 = false →
    u = s.setNet ((List.range 68).map fun i => profileWord l (3 + i)) →
    exec (.calibratingEntry l) s = .next (({ u with
      sys := { u.sys with linkWords := [] }
      cal := { u.cal with step := 1 }
      clk := { u.clk with noRef := 0, noRefAt := u.now } } : State).setFld F.SYS_STATE_stage 0 6)) ∧
  (∀ rs s u, s.stage = 6 → s.flag F.CLK_STAT_ref_ok = true → 1 ≤ s.cal.step → s.cal.step ≤ 11 →
    (s.cal.step ≠ 2 → u = (s.stepResults rs).foldl (fun s r => s.calResult r true) s →
      (s.cal.step = 11 → exec (.startupCalStepDone rs) s = .next u.startReady) ∧
      (s.cal.step ≠ 11 → exec (.startupCalStepDone rs) s = .next { u with cal := { u.cal with step := s.cal.step + 1 } })) ∧
    (s.cal.step = 2 → u = ((s.stepResults rs).foldl (fun s r => s.calResult r true) s.sidesIntoCal).firstClocks →
      exec (.startupCalStepDone rs) s = .next { u with cal := { u.cal with step := 3 } })) ∧
  (∀ s, s.sys.resetN = true → exec .resetNAssert s = .next (s.noteReset 0 0 true).internalReset) ∧
  (∀ s, exec .hoscStop s = .next (s.deviceReset 0x0205 0 0)) ∧
  (∀ rail code s, rail < 8 → exec (.vmonRstCrossing rail code) s = .next (s.deviceReset 0x0102 rail (toWord code))) ∧
  (∀ s dev t, s.flt.deferred = some (dev, some t) → exec .deferredTrivetReset s =
    .next (({ s.elapseTo t with
      flt := { (s.elapseTo t).flt with deferred := none } } : State).raiseAny (if dev then 0x0905 else 0x0903) 0 0))

/-- A parity error, an overrun block, a management-core exception and the watchdog's 250 ms raise their faults; a header
shortfall on a domain that is ON stops its clocks (TXB's, the feeding of the queues too) and raises its fault, the
good flag's return restarts them and runs the recovery's actions; a recovery of a Skillet ends DONE with its self-
test and FAILED without it; Tilin's resumption posts MGMT_RESTART and reads READY; five temperatures are taken, with
forward bias, THERM_CRIT and THERM_WARN as they say; 1 s below Tj_max - 5 clears the hold. -/
def Obligations.FaultRowsComplete : Prop :=
  (∀ k s, k < 12 → exec (.skilletParityError k) s = .next ((s.raiseAny 0x0401 k 0).skilletAbort k)) ∧
  (∀ k s a, s.assistOf k = some a → exec (.ldpcBlockOverrun k) s = .next ((s.raiseAny 0x0401 k 0).skilletAbort k)) ∧
  (∀ s, s.coreUp = true → exec .mgmtException s = .next (s.raiseAny 0x0902 0 0)) ∧
  (∀ s, s.flt.wdogOn = true →
    exec .watchdogExpiry s = .next ((s.elapseTo (s.flt.wdogLast + 250000000)).raiseAny 0x0901 0 0)) ∧
  (∀ s c, s.sys.restartCause = some c → s.stage = 5 → s.cal.commissioned = true →
    exec .mgmtResumeDone s = .next (({ s with sys := { s.sys with restartCause := none }, cal := { s.cal with trackAt := s.now } } : State).post 0x0104 clsWarn
      (toWord c)).atReady) ∧
  (∀ d s code unit u, isDomain d = true → s.domState d = 0 → s.sagging d = false → s.sys.resetN = true →
    sagFault d = some (code, unit) → u = (if d = dTxb then (s.setSag d true).queuesStop else s.setSag d true) →
    (u.fld F.VMON_STAT_warn).testBit 0 = false → exec (.headerSag d) s = .next (u.raiseAny code unit 0)) ∧
  (∀ d s e, s.sagging d = true → s.flt.running = some e → (e.code = 0x0103 ∨ e.code = 0x0104) → e.unit = d →
    exec (.headerGoodFlagReturn d) s = .next ((s.setSag d false).sagActions d)) ∧
  (∀ ok rs s e, s.flt.running = some e → e.code = 0x0401 → e.unit < 12 →
    exec (.recoveryEnd ok rs) s = .next ((s.endSkillet e.unit ok).2.endRecovery (if (s.endSkillet e.unit ok).1 then outDone else outFailed))) ∧
  (∀ ok rs s e, s.flt.running = some e → (e.code = 0x0201 ∨ e.code = 0x0202 ∨ e.code = 0x0203 ∨ e.code = 0x0204 ∨
      e.code = 0x0302 ∨ e.code = 0x0303 ∨ e.code = 0x0504) →
    exec (.recoveryEnd ok rs) s = .next ((s.recoveryCal e rs).2.endRecovery outDone)) ∧
  (∀ l s u, l.length = 5 → s.sys.resetN = true → s.sys.held = false →
    u = (((s.takeTemps l).biasTemp (sensorCode l 4)).rearmWarn l).noteCool l →
    (hotSensor l (tjMax - 5) = none → exec (.temperatureRead l) s = .next u) ∧
    (∀ n, hotSensor l (tjMax + 5) = none → hotSensor l (tjMax - 5) = some n → u.flt.warned = false →
      exec (.temperatureRead l) s =
        .next (({ u with flt := { u.flt with warned := true } } : State).raiseAny 0x0503 n (toWord (sensorCode l n)))) ∧
    (∀ n m, hotSensor l (tjMax + 5) = some n → hotSensor l (tjMax - 5) = some m → u.flt.crit = false →
      exec (.temperatureRead l) s =
        .next ((({ u with flt := { u.flt with crit := true } } : State).raiseAny 0x0504 n
          (toWord (sensorCode l n))).thermWarn l))) ∧
  (∀ s t, s.flt.coolSince = some t → s.flag F.FLT_STAT_therm_hold = true → exec .thermHoldClear s =
    .next (({ s.elapseTo (t + 1000000000) with
      flt := { (s.elapseTo (t + 1000000000)).flt with crit := false } } : State).setFld F.FLT_STAT_therm_hold 0 0))

/-- TIME_NS runs to its next wrap; an accepted PPS edge is captured, sets pps_valid and with src = PPS gives the servo
its offset, one within 0.9 s is counted as rejected; 1.5 s without an edge clears pps_valid, sets pps_loss and posts
PPS_LOSS; a mark leaves as a row with its departure captured and its MARK_INFO; a received mark with a right
complement is captured; a matching MARK_INFO with src = LINK drives the servo with its offset; an armed unit fires
at its compare time: OUT drives its output, a command's unit takes its action and disarms, and a preparation found
incomplete at its deadline is dropped with LATE. -/
def Obligations.TimeRowsComplete : Prop :=
  (∀ s, exec .timeNsWrap s = .next (s.elapse (2 ^ 32 - s.timeNs.toNat))) ∧
  (∀ t frac s u v, u = s.elapseTo t →
    v = ({ ((u.setReg .TS_PPS_NS 0 (toWord t.toNat)).setReg .TS_PPS_WF 0 (pack16 (t.toNat / 2 ^ 32) frac)) with
      time := { u.time with lastPps := some t } } : State).setFld F.TIME_STAT_pps_valid 0 1 →
    ((∀ p, u.time.lastPps = some p → 900000000 ≤ (t - p).toNat) → v.fld F.TIME_CFG_src ≠ 1 →
      exec (.ppsEdge t frac) s = .next v) ∧
    ((∀ p, u.time.lastPps = some p → 900000000 ≤ (t - p).toNat) → v.fld F.TIME_CFG_src = 1 →
      exec (.ppsEdge t frac) s = .next (v.servo (ppsOffset v.time.ppsPhase t))) ∧
    (∀ p, u.time.lastPps = some p → (t - p).toNat < 900000000 →
      exec (.ppsEdge t frac) s = .next (u.bump F.TIME_STAT_pps_rejects 0))) ∧
  (∀ s p, s.time.lastPps = some p → s.flag F.TIME_STAT_pps_valid = true → exec .ppsLossTimeout s =
    .next ((((s.elapseTo (p + 1500000000)).setFld F.TIME_STAT_pps_valid 0 0).setFld F.TIME_STAT_pps_loss 0 1).post 0x0802
      clsWarn 0)) ∧
  (∀ s u v, s.linkUp = true → u = s.setFld F.TS_MARK_SEQ_tx_seq 0 (s.fld F.TS_MARK_SEQ_tx_seq + 1) →
    v = (u.setReg .TS_MARK_TX_NS 0 u.timeNs).setReg .TS_MARK_TX_WF 0 (pack16 u.timeWraps (u.timeSub.toNat / 65536)) →
    ∃ w, w = { v with time := { v.time with staleTx := false, markInfo := v.markInfo } } ∧ exec .timeMarkSend s =
      .next ((w.freshRows.sendRow (markRow (w.fld F.TS_MARK_SEQ_tx_seq))).sendFrame 2 v.markInfo)) ∧
  (∀ seq t frac s u, s.linkUp = true → seq < 65536 →
    u = (((s.elapseTo t).setFld F.TS_MARK_SEQ_rx_seq 0 seq).setReg .TS_MARK_RX_NS 0 (toWord t.toNat)).setReg .TS_MARK_RX_WF 0
      (pack16 (t.toNat / 2 ^ 32) frac) →
    exec (.timeMarkReceived seq (65535 - seq) t frac) s = .next { u with time := { u.time with staleRx := false } }) ∧
  (∀ a b c d e f s, s.linkUp = true → bits a 7 0 = 1 → bits d 15 0 = s.fld F.TS_MARK_SEQ_tx_seq →
    bits a 23 8 = s.fld F.TS_MARK_SEQ_rx_seq → s.time.staleTx = false → s.time.staleRx = false → s.fld F.TIME_CFG_src = 2 →
    exec (.markInfoReceived [a, b, c, d, e, f]) s = .next (s.servo (BitVec.ofInt 32 (markOffset (stamp b c)
      (stamp (s.reg .TS_MARK_RX_NS 0) (s.reg .TS_MARK_RX_WF 0)) (stamp (s.reg .TS_MARK_TX_NS 0) (s.reg .TS_MARK_TX_WF 0))
      (stamp e f))).toInt)) ∧
  (∀ n s u, n < 16 → s.armed n = true → u = (s.elapseTo (s.unitC n)).setFld F.TC_CTL_fired n 1 →
    (u.flag F.TC_CTL_cmd_armed n = false → u.fld F.TC_CTL_action n = 1 →
      (u.fireOut n (u.unitC n)).flag F.TC_CTL_periodic n = false →
      exec (.tcFire n) s = .next ((u.fireOut n (u.unitC n)).disarm n)) ∧
    (∀ a, u.flag F.TC_CTL_cmd_armed n = true → u.actOf n = some a → u.unprepared n a = false →
      exec (.tcFire n) s = .next ((u.disarm n).takeAction n (u.unitC n) a))) ∧
  (∀ n s u a, n < 16 → s.armed n = true → s.actOf n = some a → u = s.elapseTo (tAdd (s.unitC n) (-(s.prepLead a : Int))) →
    (∀ p, a = .mode → u.mode.pend = some p → exec (.preparationDeadline n) s = .next ((u.dropPend p).modeLate p 1)) ∧
    (a.crossing ≠ 0 → u.prepShown n a = false → exec (.preparationDeadline n) s =
      .next (((u.disarm n).postLate n a.crossing (u.unitC n)).dropAction n (u.unitC n) a)))

/-- At T - MODE_LEAD an unprepared pending change prepares the mode; 100 microseconds after T the domains the mode does
not need are asked for RET; at the drain point MODE_DONE is posted with the mode, its degrade step and the time
since T; a forced change outside HOLD applies HOLD and posts MODE_FORCED, and MODE_DEGRADED after a Pantry failure;
in SENTINEL a dwell boundary rotates to the next quadrant in service, a paused run restarts at the next 1 ms
boundary, and the next quadrant wakes 100 microseconds before its dwell; a FIFO overflow aborts the contexts it
meets, sets sample_loss, posts RX_OVF and raises RX_OVF's fault. -/
def Obligations.ModeRowsComplete : Prop :=
  (∀ s p u, s.mode.pend = some p → p.prepared = false →
    u = (s.elapseTo (tAdd p.at_ (-(msec p.lead : Nat)))).prepareMode p →
    exec .modePrepStart s = .next { u with mode := { u.mode with pend := some { p with prepared := true } } }) ∧
  (∀ s d u v, (s.mode.drains.find? fun d => !d.entered) = some d → u = s.elapseTo (tAdd d.t 100000) →
    v = (u.unneeded.filter fun x => decide (u.domState x = 0) && !u.domBusy x).foldl (fun s x => s.askGroup none 1 [x]) u →
    exec .unneededDomainEntry s = .next { v with
      mode := { v.mode with drains := v.mode.drains.map fun e => if e = d then { e with entered := !v.txbHeld } else e } }) ∧
  (∀ s d, s.mode.drains.find? s.modeDrained = some d → d.forced = true → exec .modeDrainEnd s =
    .next { s with mode := { s.mode with drains := s.mode.drains.erase d } }) ∧
  (∀ s d, s.mode.drains.find? s.modeDrained = some d → d.forced = false → exec .modeDrainEnd s =
    .next (({ s with mode := { s.mode with drains := s.mode.drains.erase d } } : State).postAt d.t 0x0106 clsDone
      (toWord (d.target + 16 * d.step + 2 ^ 12 * satN 20 ((s.now - d.t).toNat / 1000))) (some d.cmd))) ∧
  (∀ s c t u w v, s.mode.forced = some (c, t) → u = s.elapseTo t → w = { u with mode := { u.mode with forced := none } } →
    w.mode.pend = none → w.modeNo ≠ mHold →
    v = ((w.applyMode t (w.holdChange t) false).drainFrom t mHold ⟨0, 0⟩ true).postAt t 0x0109 clsWarn (toWord (c + 16 * w.modeNo)) →
    (c ≠ 1 → exec .forcedModeChange s = .next v) ∧
    (c = 1 → exec .forcedModeChange s = .next (v.post 0x0105 clsWarn (toWord (2 + 2 ^ 12 * w.modeNo))))) ∧
  (∀ s u, s.modeNo = mSentinel → s.mode.paused = false → u = s.elapseTo s.dwellEnd →
    exec .sentinelDwellBoundary s = .next ({ u with mode := { u.mode with dwellNo := u.mode.dwellNo + 1 } } : State).rotate) ∧
  (∀ s u, s.modeNo = mSentinel → s.mode.paused = true → s.openCtxs = [] → u = s.elapseTo (nextMs s.now) →
    exec .sentinelRunRestart s = .next ({ u with mode := { u.mode with ts := nextMs s.now, dwellNo := 0 } } : State).rotate) ∧
  (∀ s u, s.modeNo = mSentinel → s.mode.paused = false → u = s.elapseTo (tAdd s.dwellEnd (-100000)) →
    exec .sentinelPrewake s = .next ((u.wakeDomain (dOrx u.nextAwake)).wakeSide (2 * u.nextAwake))) ∧
  (∀ f n s u, f < 128 →
    u = (s.abortWhere cSampleLoss fun x => x.state.live && !x.retry && x.beams.any fun b =>
      if f < 64 then decide (b = f) else (s.beamPaths b).contains (f - 64)).setFld F.SYS_MODE_sample_loss 0 1 →
    exec (.rxFifoOverflow f n) s = .next ((u.post 0x0213 clsWarn (toWord (f + 256 * satN 16 n))).raiseFault 0x0402 f))

/-- After HOSC_READY the loss of REFCLK edges is a failure of REFCLK, before it the domains stop in CLK_HOLD; a window
records its counts, accepts REFCLK in the first, finds nothing wrong while the rate holds, counts passes while
ref_ok is 0; 100 passes restore ref_ok and may start the resume, whose run of 0x9 and 0xA leaves its results and
whose end locks the sides, takes them and reports CLK_RESUMED; a second without REFCLK before READY posts
CLK_NO_REF; a PLL that unlocks parks its quadrant, mutes it and posts SPLL_UNLOCK, and at its third loss within 1 s
raises SPLL_REPEAT, one that relocks returns it; the pace index refreshes with its minimum; a gate that does not
answer is forced, counted, posted and raised as GATE_FAULT. -/
def Obligations.ClockRowsComplete : Prop :=
  (∀ s, s.stage ≠ 0 → s.flag F.CLK_STAT_hosc_ready = true → exec .refclkActivityLoss s = .next (s.refFails true false)) ∧
  (∀ s, s.stage ≠ 0 → s.flag F.CLK_STAT_hosc_ready = false → exec .refclkActivityLoss s =
    .next (({ s with time := { s.time with held := true } } : State).setFld F.CLK_STAT_clk_hold 0 1)) ∧
  (∀ ref lnk s u, s.flag F.CLK_STAT_hosc_ready = true →
    u = (s.setFld F.CLK_MON_ref_count 0 ref).setFld F.CLK_MON_lnk_count 0 lnk →
    (u.clk.firstWin = true → refRateOf ref ≠ 0 → exec (.clockMonitorWindow ref lnk) s =
      .next (((({ u with clk := { u.clk with firstWin := false } } : State).setFld F.CLK_STAT_ref_rate 0
        (refRateOf ref)).setFld F.CLK_STAT_ref_ok 0 1).setFld F.CLK_SRC_rdy_ref 0 1)) ∧
    (u.clk.firstWin = false → u.flag F.CLK_STAT_ref_ok = true → refRateOf ref = u.fld F.CLK_STAT_ref_rate →
      exec (.clockMonitorWindow ref lnk) s = .next u) ∧
    (u.clk.firstWin = false → u.flag F.CLK_STAT_ref_ok = false → refRateOf ref ≠ 0 → refRateOf ref = u.clk.passRate →
      exec (.clockMonitorWindow ref lnk) s =
        .next { u with clk := { u.clk with passes := u.clk.passes + 1, passRate := refRateOf ref } })) ∧
  (∀ s u, s.flag F.CLK_STAT_ref_ok = false → 100 ≤ s.clk.passes → s.stage = 7 →
    u = ((s.setFld F.CLK_STAT_ref_rate 0 s.clk.passRate).setFld F.CLK_STAT_ref_ok 0 1).setFld F.CLK_SRC_rdy_ref 0 1 →
    (u.stage = 7 → u.onHosc = true → u.flag F.CLK_CFG_auto_resume = true → u.flag F.CLK_STAT_resuming = false →
      exec .refOkRestored s =
        .next (({ u with clk := { u.clk with passes := 0, noRef := 0 } } : State).startResume none)) ∧
    (u.stage = 7 → u.flag F.CLK_CFG_auto_resume = false →
      exec .refOkRestored s = .next { u with clk := { u.clk with passes := 0, noRef := 0 } })) ∧
  (∀ s w u v, s.flag F.CLK_STAT_resuming = true → s.flag F.CLK_STAT_ref_ok = true →
    w = ((List.range 8).foldl State.resumeSide s.spllsUp) → u = w.runApply (w.clk.found.map (w.judge false)) →
    v = ((u.elapseTo (nextMs u.now)).setFld F.CLK_STAT_resuming 0 0).offHosc →
    exec .clockResumeDone s = .next (((List.range 8).foldl State.settleSide
      { v with clk := { v.clk with resume := none, found := [] } }).postResumed s.clk.resume)) ∧
  (∀ s u, s.stage = 6 → s.flag F.CLK_STAT_ref_ok = false → u = s.elapseTo (s.clk.noRefAt + 1000000000) →
    exec .clkNoRefTick s = .next (({ u with
      clk := { u.clk with noRef := u.clk.noRef + 1, noRefAt := u.clk.noRefAt + 1000000000 } } : State).post 0x0210 clsWarn
        (pack16 (satN 16 (u.clk.noRef + 1)) (u.fld F.CLK_MON_ref_count)))) ∧
  (∀ q s u l, q < 4 → (s.fld F.CLK_STAT_spll_lock).testBit q = true → s.fld F.CLK_STAT_master_cur ≠ q →
    u = ((((((s.setSpll q false).setFld F.CLK_EVT_spll_unlock 0 1).bump F.SPLL_STAT_unlocks q).parkQuad q).quadMute q).post 0x020D
      clsWarn (toWord q)).tickReady →
    l = u.recent (Store.get (fun _ => []) u.flt.unlocks (8 + q)) 1000000000 →
    (l.length < 3 → exec (.spllLockLoss q) s =
      .next { u with flt := { u.flt with unlocks := Store.set (fun _ => []) u.flt.unlocks (8 + q) l } }) ∧
    (3 ≤ l.length → exec (.spllLockLoss q) s =
      .next (({ u with flt := { u.flt with unlocks := Store.set (fun _ => []) u.flt.unlocks (8 + q) [] } } : State).raiseThen 0x0202 q 0
        fun s => s.spllRepeat q))) ∧
  (∀ q s, q < 4 → s.flag F.CLK_STAT_ref_ok = true → (s.fld F.CLK_STAT_spll_lock).testBit q = false →
    exec (.spllRelock q) s =
      .next (((pathsOfQuad q).foldl State.settleClose (s.setSpll q true)).tickReady.returnRun q)) ∧
  (∀ n s u, 1024 ≤ n → u = s.setFld F.CLK_PACE_index 0 n → exec (.paceMonitorRefresh n) s =
    .next { u.setFld F.CLK_PACE_min 0 (min (u.fld F.CLK_PACE_min) (u.fld F.CLK_PACE_index)) with
      clk := { u.clk with paceSince := none, paceTold := false } }) ∧
  (∀ d b w s u, isDomain d = true →
    u = ((((s.bump F.CLK_GATE_CNT_forced 0).setFld F.CLK_EVT_gate_forced 0 1).post 0x0212 clsWarn (toWord d)).raiseFault 0x0207
      d).gateError w →
    ((∀ e ∈ u.pwr.entries, e.left.contains (d, b) = false) → exec (.gateHandshakeTimeout d b w) s = .next u) ∧
    (∀ e, (u.pwr.entries.find? fun e => e.left.contains (d, b)) = some e → exec (.gateHandshakeTimeout d b w) s =
      .next (({ u.setFld F.PWR_DOM_forced_gate d 1 with
        pwr := { u.pwr with
          forced := Store.set (fun _ => 0) u.pwr.forced d (Store.get (fun _ => 0) u.pwr.forced d + 1) } } : State).agreed e
            d b))) ∧
  (∀ q rs s, s.runOn q = none → s.flag F.CLK_STAT_resuming = true → s.flag F.CLK_STAT_ref_ok = true →
    exec (.calRunEnd q rs) s = .next { s with
      clk := { s.clk with found := s.clk.found ++ rs.filter fun r => decide (r.cal = 9 ∨ r.cal = 10) } })

/-- A block that agrees is taken out of its entry, one that refuses or does not answer within 20 microseconds rolls it
back; a domain completes its transition, with its contents, jobs and waiting requests; the management core and an
idle Skillet WAIT into RET, a raced wake sets wake_race; a step of an operating-point change moves divider or
supply, COL's divider in eight steps of 1 microsecond; TXB is raised 100 microseconds before a burst compare; a rail
below VMON_WARN is noted, posted and raised, and its recovery logged and posted. -/
def Obligations.PowerRowsComplete : Prop :=
  (∀ d b s e, (s.pwr.entries.find? fun e => e.left.contains (d, b)) = some e →
    (s.blockRefuses d b = none → exec (.domainBlockAnswer d b) s = .next (s.agreed e d b)) ∧
    (∀ c, s.blockRefuses d b = some c → exec (.domainBlockAnswer d b) s = .next (s.rollback e d b c))) ∧
  (∀ s e l d b m, s.pwr.entries = e :: l → e.left = (d, b) :: m →
    exec .domainAnswerTimeout s = .next ((s.elapseTo (e.start + 20000)).rollback e d b 3)) ∧
  (∀ d s t w u, s.trans d = some t →
    w = (((s.setTrans d none).setFld F.PWR_DOM_state d t).domArrives d (s.fld F.PWR_DOM_state d) t).jobArrived d →
    u = (if t = 0 then w.opAtExit d else w) →
    ((t = 0 ∨ Store.get (fun _ => false) u.pwr.wake d = false) →
      exec (.domainTransitionDone d) s = .next (u.setWake d false).evalWaiting) ∧
    (t ≠ 0 → Store.get (fun _ => false) u.pwr.wake d = true → exec (.domainTransitionDone d) s =
      .next (((u.setWake d false).setFld F.PWR_DOM_wake_race d 1).setTrans d (some 0)).evalWaiting)) ∧
  (∀ s u, 5 ≤ s.stage → s.domBusy dMgmt = false → s.domState dMgmt = 0 → s.pwr.stalled = false →
    u = { s with pwr := { s.pwr with stalled := true } } →
    exec (.mgmtWait true) s = .next (s.setFld F.PWR_DOM_wake_race dMgmt 1) ∧
    ((u.fld F.PWR_MODE_mode = 0 ∨ u.needOf dMgmt = 2) → exec (.mgmtWait false) s = .next u) ∧
    (u.fld F.PWR_MODE_mode ≠ 0 → u.needOf dMgmt ≠ 2 → exec (.mgmtWait false) s = .next (u.askGroup none 1 [dMgmt]))) ∧
  (∀ k s, k < 12 → s.domBusy (dSkl + k) = false → s.domState (dSkl + k) = 0 → s.sklPlaced k = false → s.sklFits k = false →
    s.assistOf k = none →
    exec (.skilletWait k true) s = .next (s.setFld F.PWR_DOM_wake_race (dSkl + k) 1) ∧
    exec (.skilletWait k false) s = .next (s.askGroup none 1 [dSkl + k])) ∧
  (∀ d s, opDomain d = true → s.onHosc = false →
    (∀ c, s.opChange d = some c → c.toF = c.second → d ≠ dCol →
      exec (.operatingPointStep d) s = .next (s.dividerMoved d c).evalWaiting) ∧
    (∀ c, s.opChange d = some c → c.toF ≠ c.second → exec (.operatingPointStep d) s = .next (s.supplyMoved d c)) ∧
    (s.opChange d = none → s.flag F.PWR_DOM_oph d = false → s.opFixed d = false → s.ophOk d = true → s.opPending = false →
      s.domState d = 0 → s.domBusy d = false → exec (.operatingPointStep d) s = .next (s.setOp d (some { toF := false })))) ∧
  (∀ s c u, s.opChange dCol = some c → c.toF = c.second → s.onHosc = false → u = s.elapse 1000 →
    (c.ramp < 7 → exec .colDividerRampStep s = .next (u.setOp dCol (some { c with ramp := c.ramp + 1 }))) ∧
    (7 ≤ c.ramp → exec .colDividerRampStep s = .next (u.dividerMoved dCol c).evalWaiting)) ∧
  (∀ s x, s.nextCompare = some x →
    exec .txbOpfRaise s = .next ((s.elapseTo (tAdd x.2.compare (-100000))).raiseOp dTxb)) ∧
  (∀ r c s u, r < 8 → (s.fld F.VMON_STAT_warn).testBit r = false →
    u = s.setFld F.VMON_STAT_warn 0 (s.fld F.VMON_STAT_warn + 2 ^ r) →
    exec (.vmonWarnCrossing r c) s =
      .next ((({ u.setFld F.VMON_STAT_warn_seen 0 (u.fld F.VMON_STAT_warn_seen ||| 2 ^ r) with
        pwr := { u.pwr with warnLow := true } } : State).post 0x0A02 clsWarn (toWord r)).raiseFault 0x0101 r (toWord c))) ∧
  (∀ r c s u, r < 8 → (s.fld F.VMON_STAT_warn).testBit r = true →
    u = s.setFld F.VMON_STAT_warn 0 (s.fld F.VMON_STAT_warn - 2 ^ r) →
    exec (.vmonWarnRecovery r c) s =
      .next ((({ u with pwr := { u.pwr with warnLow := decide (u.fld F.VMON_STAT_warn ≠ 0) } } : State).logFault 0x0101 1 r 0
        false false false (toWord c)).post 0x0A02 clsWarn (toWord (r + 8))))

/-- A run of extreme codes as long as RX_OVR_CFG.run starts an overload or extends the one in progress, a shorter one
does nothing; the loop filter is released 16 cycles after the last run; the quiet interval ends the overload, keeps
its clip flags and the windows of the other paths; a disturbance window with nothing running closes 250 ns after its
last end; a clean block counts for the noise floor and a DC loop held leaves it there, in HOLD the block wakes the
path's side; the floor goes stale stale_ms after its last block; a beam meter block writes BEAM_RX_PWR and
excl_samples and counts for the floor when nothing was flagged; an RFFE transaction ends its sequence step or
transfer; a fade's end swaps banks; saturation counts and posts. -/
def Obligations.ReceivePathRowsComplete : Prop :=
  (∀ p c high t n s, p < 64 → c < 2 → s.sampling p = true →
    (n < s.runOf p → exec (.overloadStart p c high ⟨t, n⟩) s = .next s) ∧
    (∀ u f d, s.runOf p ≤ n → u = s.elapseTo t → f = u.cycleOf t → d = f + (u.runOf p - 1 : Nat) →
      (∀ e, u.ovrEv (2 * p + c) = some e → exec (.overloadStart p c high ⟨t, n⟩) s =
        .next (u.setOvrEv (2 * p + c) (some { e with runs := e.runs ++ [(f, high)], last := d, held := true }))) ∧
      (u.ovrEv (2 * p + c) = none → exec (.overloadStart p c high ⟨t, n⟩) s = .next (u.overload p c high f d)))) ∧
  (∀ p c s e, s.ovrEv (2 * p + c) = some e → e.held = true → exec (.loopFilterRelease p c) s =
    .next ((s.elapseTo (s.cycleTime (e.last + 16))).setOvrEv (2 * p + c) (some { e with held := false }))) ∧
  (∀ p c t s e u, s.ovrEv (2 * p + c) = some e → u = s.elapseTo (tAdd t (fsNs (s.quietOf p))) →
    exec (.overloadEnd p c t) s = .next ((othersOf p).foldl (fun s x => s.calm (u.cycleOf t) x)
      ((u.setOvrEv (2 * p + c) none).keepClip (2 * p + c) e (u.cycleOf t)))) ∧
  (∀ p s w, s.distWin p = some w → w.running = 0 → exec (.disturbanceWindowClose p) s =
    .next (((s.elapseTo (s.cycleTime w.close)).keepWin p w).setDistWin p none)) ∧
  (∀ p sum i q e s, p < 64 → s.sampling p = true → s.pathQualifies p = true → (s.nfCount p sum).dcHeld p = true →
    exec (.noiseFloorBlock p () sum i q e) s = .next (s.nfCount p sum)) ∧
  (∀ p i q sum s, p < 64 → s.sampling p = true → s.pathQualifies p = false → s.fld F.RX_PATH_STAT_state p = 2 →
    s.flaggedNow p = false → s.dcHeld p = false → exec (.noiseFloorBlock p () sum i q true) s =
      .next ((s.setReg .RX_DC_STAT p (pack16 (unsN 16 i) (unsN 16 q))).rejectPath 12 p false 0xC1)) ∧
  (∀ p sum i q e s k u, p < 64 → s.sampling p = false → k = 2 * quadOf p → s.mayWake k = true → u = s.wakeFor k →
    exec (.noiseFloorBlock p () sum i q e) s = .next (((u.elapse (u.blockNs p)).blockDone p sum i q e).restSide k)) ∧
  (∀ n s t, n < 64 →
    (Store.get (fun _ => none) s.rx.counted n = some t →
      exec (.noiseFloorStale false n) s = .next ((s.elapseTo (BitVec.ofInt 48 (t + (msec (s.nfStale n) : Nat)))).refreshNf n)) ∧
    (Store.get (fun _ => none) s.rx.counted (n + 64) = some t →
      exec (.noiseFloorStale true n) s = .next ((s.elapseTo (BitVec.ofInt 48 (t + (msec (s.nfStale (n + 64)) : Nat)))).refreshNf (n + 64)))) ∧
  (∀ b sum s u, b < 64 → s.flag F.BEAM_RX_STAT_enabled b = true →
    u = ((s.setReg .BEAM_RX_PWR b (toWord (unsN 16 (nfOf ⟨sum, s.nfWin (64 + b)⟩) + 2 ^ 31))).bump F.BEAM_RX_EXCL_SMP_excl_samples b
      0).setFlag F.BEAM_RX_STAT_sat b false →
    (u.beamQualifies b = true →
      exec (.beamMeterBlock b sum ⟨0, false, false, false, false, false⟩) s = .next (u.nfCount (64 + b) sum).searchRegs) ∧
    (u.beamQualifies b = false → exec (.beamMeterBlock b sum ⟨0, false, false, false, false, false⟩) s = .next u)) ∧
  (∀ q d ok s,
    (∀ x, s.rffeXfer q = some x → exec (.rffeTransactionDone q d ok) s =
      .next (((s.endBus q (s.busNs q x)).endXfer q x d ok).afterXfer q)) ∧
    (∀ n i u, s.rffeXfer q = none → s.rffeRunning q = some (n, i) → u = s.endBus q (s.entryNs q ((s.rffeSeq q n).getD i 0)) →
      (i + 1 < (u.rffeSeq q n).length →
        exec (.rffeTransactionDone q d ok) s = .next ((u.setRunning q (some (n, i + 1))).beginBus q u.now)) ∧
      ((u.rffeSeq q n).length ≤ i + 1 → exec (.rffeTransactionDone q d ok) s =
        .next (((((u.setRunning q none).setFld F.RFFE_STAT_seq_active q 0).setFld F.RFFE_STAT_busy q 0).seqDone q).releaseXfer
          q)))) ∧
  (∀ q s f u, s.fade q = some f → f.cmd.mbx < 8 →
    u = s.elapseTo (s.cycleTime (s.fadeOver q f + groupCycles (s.fld F.SIEVE_CFG_preset q))) →
    exec (.sieveFadeEnd q) s = .next ((((u.setFade q none).setFld F.SIEVE_CFG_fading q 0).setFld F.SIEVE_CFG_active_bank q
      (1 - u.fld F.SIEVE_CFG_active_bank q)).sieveDone f.t stOk q true f.cmd)) ∧
  (∀ p s, p < 64 → s.sideState (2 * quadOf p + 1) = sRun → exec (.pathSumSaturation p) s =
    .next (((s.bump F.TXS_SAT_CNT_sat_samples p).setFld F.TXS_STAT_sat p 1).postLimited 0x0303 p (toWord p) s.now)) ∧
  (∀ p s, p < 64 → s.sideState (2 * quadOf p + 1) = sRun → s.flag F.DPD_CFG_bypass p = false →
    dpdSum (s.dpdOf p).active (s.zLine p) ≠ dpdOut false (s.dpdOf p).active (s.zLine p) → exec (.actuatorSaturation p ()) s =
      .next (((s.bump F.DPD_SAT_CNT_sat_samples p).setFld F.DPD_EVT_sat p 1).postLimited 0x0508 p (toWord p) s.now))

/-- A sleeping TX side wakes 65 microseconds before a compare; each path's on start falls L_on before A and each off
start d_rf after the end, unless another burst keeps the path on; the hold point passes a burst with lock and grant
and holds any other; an expired hold drops the burst; pre-compensation moves 5 microseconds before A; at the path-
sum start the burst is in the air; at the air end the beam is free and the off starts are due; an empty FIFO marks
the burst starved; a slew tick moves the bias by its step, a delay moves the PA sequence on; an underflow empties
and mutes the queue, 128 entries restart it; a held current limit mutes the path. -/
def Obligations.BurstRowsComplete : Prop :=
  (∀ u s b v, s.burst u = some b → b.phase = .waiting → v = s.elapseTo (tAdd b.compare (-65000)) →
    ((s.burstQuads b).any fun q => decide (s.sideState (2 * q + 1) = sSleep)) = true →
    exec (.burstWake u) s = .next ((v.burstQuads b).foldl (fun s q => s.wakeSide (2 * q + 1)) v)) ∧
  (∀ p s u b, firstBurst (s.bursts.filter fun x =>
      decide (x.2.phase ≠ .waiting) && s.usesPath x.2 p && !(x.2.started.contains p)) = some (u, b) →
    exec (.paOnStart p) s = .next (((s.elapseTo (b.air - BitVec.ofNat 48 (s.leadOn p))).setBurst u
      (some { b with started := p :: b.started })).paOnStart p)) ∧
  (∀ p s t v w, (s.tx.tails.find? fun t => t.paths.contains p) = some t → v = s.elapseTo (tAdd t.fin (s.dRf p)) →
    w = { v with tx := { v.tx with
      tails := (v.tx.tails.map fun x => if x = t then { t with paths := t.paths.erase p } else x).filter fun x =>
        decide (x.paths ≠ []) } } →
    (w.keptOn 16 p t.fin = true → exec (.paOffStart p) s = .next w.coexPins) ∧
    (w.keptOn 16 p t.fin = false → exec (.paOffStart p) s = .next (w.paOffStart p).coexPins)) ∧
  (∀ p s t v w, (s.pa p).slewAt = some t → v = s.elapseTo t →
    v.fld F.PA_BIAS_OUT_out p + v.fld F.PA_SLEW_step p < v.fld F.PA_BIAS_OUT_target p → 0 < v.fld F.PA_SLEW_step p →
    w = v.setFld F.PA_BIAS_OUT_out p (v.fld F.PA_BIAS_OUT_out p + v.fld F.PA_SLEW_step p) →
    exec (.biasSlewTick p) s =
      .next (w.setPa p { s.pa p with slewAt := some (tAdd t (usec (w.fld F.PA_SLEW_tick_us p))) })) ∧
  (∀ p s t v w, (s.pa p).timer = some t → v = s.elapseTo t → v.paState p = pBiasUp →
    w = (v.paTo p pEn).setFld F.TX_PATH_STAT_pa_en p 1 → exec (.paDelayExpiry p) s =
      .next (w.setPa p { s.pa p with timer := some (tAdd t (usec (w.fld F.PA_DLY_d_en p))) })) ∧
  (∀ u s b h v w, s.burst u = some b → b.phase = .compared → h = b.air - BitVec.ofNat 48 (s.burstRf b) → v = s.elapseTo h →
    v.grantSince (b.air - BitVec.ofNat 48 v.tGnt) = true →
    (v.lockSince b h = true → exec (.burstHoldPoint u) s = .next (v.passHold u b 0)) ∧
    (v.lockSince b h = false → w = (v.setBurst u (some { b with phase := .held })).showHold b true →
      exec (.burstHoldPoint u) s = .next (((w.burstQuads b).foldl
        (fun s q => s.setFld F.RADIO_EVT_burst_hold q 1) w).tryRelease u))) ∧
  (∀ u s b f, s.burst u = some b → b.phase = .held → s.lockSince b (s.lockLast b) = false →
    s.grantSince (s.grantLast b) = true → f = (s.elapseTo (s.lockLast b)).takeFree →
    exec (.burstHoldExpiry u) s = .next ((f.2.postHold b true false f.1.toNat).dropBurst u 1 9)) ∧
  (∀ u s b v, s.burst u = some b → b.ack = true → b.uncomp = false → b.moved = false → b.phase ≠ .waiting → b.phase ≠ .held →
    v = (s.elapseTo (tAdd b.start (-5000))).setBurst u (some { b with moved := true }) → exec (.loOffsetMove u) s =
      .next ((v.burstQuads b).foldl (fun s q => s.setOfs q true (b.ofs.getD q 0)) v)) ∧
  (∀ u s b, s.burst u = some b → b.phase = .released → exec (.burstPathSumStart u) s =
    .next (((((s.elapseTo (tAdd b.start (-586))).startLine u).setBurst u (some { b with phase := .air })).setFld F.TXB_STAT_busy
      b.beam 1).sentUnaligned b)) ∧
  (∀ u s b v w, s.burst u = some b → b.phase = .air → b.ack = false → b.starved = false → b.n ≤ b.got →
    v = (((s.elapseTo b.stop).ofsBack b).setFld F.TXB_STAT_busy b.beam 0).burstDone b → v.burstPaths b ≠ [] →
    w = (v.setBurst u none).endLine u →
    exec (.burstAirEnd u) s = .next ({ w with
      tx := { w.tx with tails := w.tx.tails ++ [⟨b.stop, b.pri, v.burstPaths b⟩] } } : State).coexPins) ∧
  (∀ beam s u b, (s.bursts.find? fun x => decide (x.2.beam = beam ∧ x.2.phase = .air)) = some (u, b) →
    s.lineEmpty u = true → exec (.txFifoEmpty beam) s = .next ((s.setBurst u (some { b with starved := true })).setFld F.TXB_EVT_starved beam 1)) ∧
  (∀ p s, p < 64 → s.sideState (2 * quadOf p + 1) = sRun →
    (s.isDry p = false → exec (.dacQueueUnderflow p) s = .next (s.queueUnderflow p)) ∧
    (s.isDry p = true → s.burstOn p = false →
      (s.txPath p = none → exec (.dacQueueRefilled p) s = .next ((s.setDry p false).setFld F.TX_PATH_STAT_q_fill p 128)) ∧
      (∀ x, s.txPath p = some x → exec (.dacQueueRefilled p) s =
        .next (((s.setTxPath p (some { x with queue := List.replicate 128 (8192, 8192) })).setDry p false).setFld
          F.TX_PATH_STAT_q_fill p 128)))) ∧
  (∀ p s, p < 64 → s.flag F.TX_PATH_STAT_bias_drv p = true → exec (.biasCurrentLimitHold p) s =
    .next ((((((s.setFld F.TX_EVT_bias_sc p 1).setFld F.TX_EVT_bias_limit p 1)).mutePath p).post 0x0502 clsWarn
      (toWord (p + 64 * s.paState p))).raiseFault 0x0502 p))

/-- A lock gained on a side past SLEEP takes its effect and opens the phase of a side newly locked; a lock lost on an RX
side settles its paths, counts, posts LO_UNLOCK, and at the third loss within 1 s raises LO_REPEAT; a rising grant
is noted and releases held bursts, a falling one revokes those in the air; a side's transition arrives in its state
and goes on where a wake or a burst wants it; at a 1 microsecond tick an idle TX side in RUN begins its way to the
state its mode gives it. -/
def Obligations.RadioRowsComplete : Prop :=
  (∀ q tx s k, k = 2 * q + (if tx then 1 else 0) → q < 4 → sStandby ≤ s.sideState k → s.locked k = false →
    ((s.lockGained k).network = false → exec (.loLock q tx) s = .next (s.lockGained k)) ∧
    ((s.lockGained k).network = true → exec (.loLock q tx) s =
      .next ((s.lockGained k).setPhaseValid k (decide ((s.lockGained k).servedQuads = [q]))))) ∧
  (∀ q s u v l m, q < 4 → s.locked (2 * q) = true → u = (s.setLock (2 * q) false).setFld F.RADIO_EVT_lock_lost q 1 →
    m = Store.set (fun _ => 0) u.radio.unlocks (2 * q) (Store.get (fun _ => 0) u.radio.unlocks (2 * q) + 1) →
    v = ((pathsOfQuad q).foldl (fun (s : State) p =>
      if 2 ≤ s.fld F.RX_PATH_STAT_state p then s.settleOpen p else s)
      { u with radio := { u.radio with unlocks := m } }).post 0x0207 clsWarn (toWord q) →
    l = v.recent (Store.get (fun _ => []) v.flt.unlocks (2 * q)) 1000000000 →
    (l.length < 3 → exec (.loLockLoss q false) s =
      .next { v with flt := { v.flt with unlocks := Store.set (fun _ => []) v.flt.unlocks (2 * q) l } }) ∧
    (3 ≤ l.length → exec (.loLockLoss q false) s =
      .next (({ v with flt := { v.flt with unlocks := Store.set (fun _ => []) v.flt.unlocks (2 * q) [] } } : State).raiseThen 0x0203
        (2 * q) 0 fun s => s.relockLo (2 * q)))) ∧
  (∀ s u, u = ({ s with radio := { s.radio with gnt := some (s.radio.gnt.getD s.ns) } } : State).setFld F.COEX_STAT_gnt 0 1 →
    (u.flag F.COEX_CFG_en = true → exec .coexGntRise s = .next u.tryReleases) ∧
    (u.flag F.COEX_CFG_en = false → exec .coexGntRise s = .next u)) ∧
  (∀ s u, u = ({ s with radio := { s.radio with gnt := none } } : State).setFld F.COEX_STAT_gnt 0 0 →
    (u.flag F.COEX_CFG_en = true → exec .coexGntFall s = .next (((u.bursts.filter fun x =>
      decide (x.2.phase = .air) && atOrAfter u.now x.2.start).map (·.1)).foldl State.revoke u)) ∧
    (u.flag F.COEX_CFG_en = false → exec .coexGntFall s = .next u)) ∧
  (∀ q s k st u, k = 2 * q → (s.side k).going = some st →
    u = ((s.enterSide k st).setSide k { (s.enterSide k st).side k with want := false }).sideArrived k →
    (st ≠ sSleep → exec (.sideTransitionDone q false) s = .next u) ∧
    (st = sSleep → (s.side k).want = true → exec (.sideTransitionDone q false) s = .next (u.settleSide k)) ∧
    (st = sSleep → (s.side k).want = false → (s.side k).discard = false → exec (.sideTransitionDone q false) s = .next u)) ∧
  (∀ q s k u, k = 2 * q + 1 → u = s.elapse (1000 - s.now.toNat % 1000) → (u.side k).going = none → u.compareNear q = false →
    (u.bursts.any fun e => u.drives e.2 q && decide (e.2.phase ≠ .waiting)) = false → u.paIdle q = true →
    (u.sideState k = sRun → exec (.txReturnCheck q) s =
      .next (u.setSide k { u.side k with going := some (u.targetNow k) })) ∧
    (u.sideState k = sStandby → u.targetNow k = sSleep → exec (.txReturnCheck q) s = .next (u.toward k sSleep)))

/-- An interval of the applier replaces the lowest differing coefficient whole, and at the last one the set is applied;
an adaptation capture starts on the next path of a burst in the air with its tiles and the observation receiver
taken; a host capture of 8,192 samples ends in its sealed tiles with ORX_DONE, an adaptation capture whose samples
fail no test waits for a fit; a Skillet granted opens the capture's tiles; 50 ms without one makes the fit stale; a
fit accepted is staged, one that fails a test is counted. -/
def Obligations.AdaptationRowsComplete : Prop :=
  (∀ p s u i x new, (s.dpdOf p).target.isSome = true → u = (s.elapseTo (s.dpdOf p).nextAt).dpdOpen p → x = u.dpdOf p →
    firstDiff x.active (x.target.getD x.active) = some i →
    new = (x.active.set (2 * i) ((x.target.getD x.active).getD (2 * i) 0)).set (2 * i + 1)
      ((x.target.getD x.active).getD (2 * i + 1) 0) →
    (new ≠ x.target.getD x.active → exec (.dpdApplyStep p) s =
      .next (((u.setDpd p { x with active := new, steps := x.steps + 1, replaced := x.replaced + 1 }).setFld
        F.DPD_STAT_apply_pos p i).setFld F.DPD_STAT_applying p 1)) ∧
    (new = x.target.getD x.active → exec (.dpdApplyStep p) s =
      .next (((u.setDpd p { x with active := new, steps := x.steps + 1, replaced := x.replaced + 1 }).setFld
        F.DPD_STAT_apply_pos p i).dpdApplied p))) ∧
  (∀ q n s b p t v w c, q < 4 → s.burst n = some b → s.nextPath q = some p → b.phase = .air → s.drives b q = true →
    s.paState p = pRfOn → 56000 ≤ (b.fin - b.air).toNat → txMode s.modeNo = true → s.orxCap q = none → s.orxFit q = none →
    v = (s.elapseTo (tAdd b.start (20000 - 586))).setChosen q (some p) →
    v.orxHost q = false → v.owner resOrx q = none → v.workRun 16 = some t →
    w = ((List.range 16).foldl (fun s i => s.setOwner resTile (t + i) (some ⟨0, 0, true, 1, 0⟩)) v).setOwner resOrx q
      (some ⟨0, 0, true, 1, 0⟩) →
    c = { path := p, att := w.fld F.ORX_ATT_att p, host := none, tile := t, start := w.now, unit := n,
          before := b.underflow.contains p } →
    exec (.adaptCaptureStart q n) s = .next (w.startCap q c)) ∧
  (∀ q l s c u w v, s.orxCap q = some c → l.length = 8192 → u = s.elapseTo (tAdd c.start 33334) → w = u.capWords c.path l →
    v = (((u.sealCap c w).setCap q none).setFld F.ORX_STAT_busy q 0).orxRest q →
    (∀ cmd, c.host = some cmd → exec (.orxCaptureEnd q l) s =
      .next ((v.bump F.ORX_CNT_captures q).postAt c.start 0x0507 clsDone (toWord (stOk + 256 * c.path)) (some cmd))) ∧
    (c.host = none → capSkip w (v.capAborted c) = none → exec (.orxCaptureEnd q l) s =
      .next (((v.setOwner resOrx q none).bump F.ORX_CNT_captures q).setFit q
        (some { path := c.path, tile := c.tile, ended := (v.setOwner resOrx q none).now }))) ∧
    (∀ a, c.host = none → capSkip w (v.capAborted c) = some a → exec (.orxCaptureEnd q l) s =
      .next (((v.setOwner resOrx q none).freeCap c.tile).dpdSkip q c.path a))) ∧
  (∀ q k s f, s.orxFit q = some f → k < 12 → f.skillet = none → s.sklOn k = true → s.sklFits k = false →
    s.sklLoad k none < 64000000 → atOrAfter s.now (f.ended + 50000000) = false → (s.openTiles f.tile 4 false 16).1 = true →
    exec (.dpdFitStart q k) s = 
      .next ((((List.range 16).foldl (fun s i => s.useTile (f.tile + i)) (s.openTiles f.tile 4 false 16).2).setFit q
        (some { f with skillet := some k })).wakeDomain (dSkl + k))) ∧
  (∀ q s f, s.orxFit q = some f → f.skillet = none →
    exec (.dpdFitStale q) s = .next ((s.elapseTo (f.ended + 50000000)).fitStale q f)) ∧
  (∀ q f s w p v t, s.orxFit q = some w → w.skillet.isSome = true → f.est.length = 64 → w.discard = false → p = w.path →
    v = (s.setFit q none).freeCap w.tile → v.flag F.TX_PATH_STAT_degraded p = false → (v.dpdOf p).loopDone = true →
    t = blend (v.fld F.DPD_CFG_mu p) (v.dpdOf p).active f.est →
    (fitCause (v.dpdOf p).active t f (v.fld F.DPD_CFG_nmse_max_db p) = none →
      exec (.dpdFitDone q f) s = .next ((v.dpdAccept p t f.nmseT).dpdServed q p)) ∧
    (∀ c, fitCause (v.dpdOf p).active t f (v.fld F.DPD_CFG_nmse_max_db p) = some c →
      exec (.dpdFitDone q f) s = .next ((v.dpdReject p c).dpdServed q p)))

/-- What the correlator bank reports is a searched slot's peak that meets its threshold; one of no open context is
placed; training moves ACQUIRE to SYNC; a sync match moves on to HEADER with its time; the sync window's end aborts
with FALSE_LOCK; the capture test passes or aborts with COLLIDED; a good header starts the payload, one whose CRC
fails aborts with FALSE_LOCK; a lost lock aborts with TRACK_LOST; the last symbol queues decoding; a Skillet takes
the next context, decodes its blocks one by one, and at the end a payload whose CRC holds is delivered, one whose
CRC fails aborts with CRC_FAIL; a tile that fails when opened takes the TILE_BAD way; retries, retention, records
and the open backlog tile go on at their times. -/
def Obligations.ReceptionRowsComplete : Prop :=
  (∀ b c f n freq d p k s, s.report_ b c f n freq = some (d, p, k) →
    d.beam = b ∧ d.code = c ∧ d.freq = freq ∧ s.searched c = true ∧ s.profile k = some p ∧ f.natAbs ≤ p.maxBin ∧
    (∃ w l, s.codeSlot c = some w ∧ s.lambdaAt p w.code b c f n = some l ∧ lambdaMeets l (s.thrAt b c) = true ∧
      s.isPeak p w.code b c f n l = true ∧ d.snr = snrOf l) ∧
    ∀ u, u = ((s.elapseTo d.at_).countDet d).sentinelSeen d →
      ((u.tracked.any fun c => u.duplicates d p c.2) = true →
        exec (.detection ⟨b, c, f, n, freq⟩) s = .next (u.bump F.BEAM_DET_CNT_duplicates d.beam)) ∧
      ((u.tracked.any fun c => u.duplicates d p c.2) = false →
        exec (.detection ⟨b, c, f, n, freq⟩) s = .next (u.place d p k).wakeWork)) ∧
  (∀ c s e, s.eq c = some e → (s.ctx c).state = .acquire → 16 ≤ e.count →
    exec (.preambleTrainingDone c ()) s = .next ((s.ctxTileBad c).getD (s.trained c .sync))) ∧
  (∀ c s p n k t u, s.profile (s.ctx c).profile = some p → (s.eq c).bind (·.match_) = some (n, k) →
    ((s.ctx c).state = .acquire ∨ (s.ctx c).state = .sync) → n ≤ syncWindow (s.ctx c) p → t = s.stampOf p.chipRate k →
    u = s.trained c .header → exec (.syncMatch c () () () ()) s = .next ((s.ctxTileBad c).getD (u.setCtx c { u.ctx c with
      tSync := BitVec.ofInt 48 (t / 2 ^ 16), tFrac := (t % 2 ^ 16).toNat, synced := true }))) ∧
  (∀ c s p u, s.profile (s.ctx c).profile = some p → ((s.ctx c).state = .acquire ∨ (s.ctx c).state = .sync) →
    (s.ctx c).retry = false → u = s.elapseTo (tAdd (syncEnd (s.ctx c) p) (s.symbolLag (s.ctx c) p)) →
    (u.syncMissed c p = true → exec (.syncWindowEnd c) s = .next (u.abort c cFalseLock)) ∧
    (u.syncMissed c p = false → exec (.syncWindowEnd c) s = .next u)) ∧
  (∀ c s p e, s.profile (s.ctx c).profile = some p → s.eq c = some e →
    ((s.ctx c).state = .sync ∨ (s.ctx c).state = .header ∨ (s.ctx c).state = .payload) → (s.ctx c).capture = true →
    (e.capLeft = 0 ∨ ((s.ctx c).state = .payload ∧ p.headerSymbols + (s.ctx c).paySymbols ≤ e.track.length)) →
    (s.captureFails c p = true → exec (.captureCheckEnd c ()) s = .next (s.abort c cCollided)) ∧
    (s.captureFails c p = false → exec (.captureCheckEnd c ()) s =
      .next (s.setCtx c { s.ctx c with capture := false, captured := true }))) ∧
  (∀ c s p e w u h, s.profile (s.ctx c).profile = some p → s.eq c = some e → (s.ctx c).state = .header →
    p.headerSymbols ≤ e.track.length → s.ctxTileBad c = none → w = decideHeader (e.llr.take 120) → h = Header.ofWord w →
    u = s.setCtx c { s.ctx c with hdr := some h, crc8 := h.crc8 } →
    (crc8Ok w = false → exec (.headerComplete c () ()) s =
      .next ((s.setCtx c { s.ctx c with crc8 := h.crc8 }).abort c cFalseLock)) ∧
    (∀ g f, crc8Ok w = true → h.length ≤ p.maxPayload → u.headerSub (u.ctx c) p h = 0 → h.length ≠ 0 →
      selectGraph u.graph p.bgMask h.length h.rate = some (g, f) →
      exec (.headerComplete c () ()) s = .next (u.startPayload c p g f))) ∧
  (∀ c s p e, s.profile (s.ctx c).profile = some p → s.eq c = some e → (s.ctx c).state = .payload →
    ((e.errs.length = 64 ∧ e.sinrNow < p.sinrMin - 24) ∨ 60000 < (incHz (s.eqHz e p) e.inc 1).natAbs) →
    exec (.lockLost c () ()) s = .next (s.abort c cTrackLost)) ∧
  (∀ c s p e, s.profile (s.ctx c).profile = some p → s.eq c = some e → (s.ctx c).state = .payload → (s.ctx c).capture = false →
    p.headerSymbols + (s.ctx c).paySymbols ≤ e.track.length → exec (.lastPayloadSymbol c () ()) s =
      .next ((s.ctxTileBad c).getD (s.queueDecode c (((e.llr.drop 120).take (s.codedBits (s.ctx c))).map (sat 127))))) ∧
  (∀ k s n x, s.assistOf k = none → s.nextDecode k = some (n, x) → exec (.ldpcContextStart k) s =
    .next ((s.ctxTileBad n).getD ((s.setCtx n { x with
      block := 0, hard := [], decAt := none, decCfg := (s.rxb.maxIter, s.rxb.alpha) }).setAssist k (some n)))) ∧
  (∀ k s n x g f a r u, s.assistOf k = some n → x = s.ctx n → s.fitOf x = some (g, f, a) → x.state = .decode → x.block < f.c →
    r = decodeBlock g f a x.block x.decCfg.1 x.decCfg.2 x.llr →
    u = s.setCtx n { x with
      block := x.block + 1, hard := x.hard ++ r.1, iters := max x.iters r.2.1,
      unconverged := x.unconverged || !r.2.2, decCfg := (s.rxb.maxIter, s.rxb.alpha) } →
    (x.block + 1 = f.c → exec (.ldpcBlockEnd k) s = .next (u.setAssist k none)) ∧
    (x.block + 1 ≠ f.c → exec (.ldpcBlockEnd k) s = .next u)) ∧
  (∀ c s h x y, x = s.ctx c → x.hdr = some h → s.decoded x = true → s.ctxTileBad c = none →
    y = { x with crc24 := crc24Received h.length x.hard } →
    (crc24Ok h x.hard = true → exec (.decodingEnd c) s =
      .next ((s.setCtx c { y with payload := bytesOfBits h.length x.hard }).deliver c true)) ∧
    (crc24Ok h x.hard = false → exec (.decodingEnd c) s = .next ((s.setCtx c y).abort c cCrcFail))) ∧
  (∀ s c n k l t u, s.rxb.cands.find? (fun c => c.queued && !s.retrying c) = some c → s.freeNo = some n →
    s.bestSkillet c.ctx.load none = some k → s.takePool 2 = some (l, t) → opensContexts s.modeNo = true →
    s.policy.sicFree + s.openCtxs.length ≤ s.cLimit → s.openCtxs.length < s.cLimit → u = (t.startRetry c n k l).wakeWork →
    ((s.retryTiles c).find? s.tileFails = none → exec .sicRetryStart s = .next u) ∧
    (∀ b, (s.retryTiles c).find? s.tileFails = some b →
      exec .sicRetryStart s = .next ((u.quarantineOpen b 6).abort n cTileBad)) ∧
    ((t.startRetry c n k l).ctx n).state = .acquire ∧ ((t.startRetry c n k l).ctx n).retry = true ∧
    ((t.startRetry c n k l).ctx n).attempt = c.attempts + 1 ∧ ((t.startRetry c n k l).ctx n).interferers = (t.interferersOf c).length) ∧
  (∀ s t u w, earliest (s.rxb.cands.map (·.expiry) ++ s.rxb.regen.map (·.expiry)) = some t → u = s.elapseTo t →
    w = (u.rxb.regen.filter fun r => atOrAfter t r.expiry).foldl (fun s r => s.freeRets r.tiles)
      ((u.rxb.cands.filter fun c => atOrAfter t c.expiry).foldl State.expireCand u) →
    exec .retentionExpiry s =
      .next { w with rxb := { w.rxb with regen := w.rxb.regen.filter fun r => !(atOrAfter t r.expiry) } }) ∧
  (∀ c s x p e, x = s.ctx c → x.state ≠ .free → x.retained = true → s.profile x.profile = some p → s.eq c = some e →
    x.needsTile p e.ret.length = true →
    (∀ t u, s.takeRet 2 = some (t, u) → exec (.retentionTileAllocation c) s =
      .next (((u.addTile x t).1.setCtx c (u.addTile x t).2).logRetain c x t)) ∧
    (s.takeRet 2 = none → exec (.retentionTileAllocation c) s =
      .next ((s.dropRetention c).logPlace lgRetain c s.now (x.retTiles.length + 2 ^ 22) 0))) ∧
  (∀ c s d, (s.ctx c).state = .free → s.candNeeds c = some d → exec (.retentionTileAllocation c) s = .next (s.candTile d)) ∧
  (∀ s r l u v, s.rxb.recQ = r :: l → u = { s with rxb := { s.rxb with recQ := l } } →
    v = (if r.toBacklog then u.toBacklog r else u.sendFrame 3 r.words) →
    (r.delivers = true → (v.ctx r.ctx).state = .deliver → exec .recordCommitted s = .next (v.freeCtx r.ctx 0)) ∧
    (r.delivers = false → exec .recordCommitted s = .next v)) ∧
  (∀ s t, s.openBacklog = some t →
    exec .backlogSealTimeout s = .next ((s.elapseTo (t.firstAt + 10000000)).sealBacklog t))

/-- At a frame boundary the ready frame of highest priority starts, with none ready a backlog tile that may drain; a
sent frame is counted; a CREDIT frame sets the limits of the credited streams; the grant timer sends a grant; a
burst frame whose plan holds arms its unit, one that does not is rejected; a sample frame adds its samples to its
burst; an open event frame closes 20 microseconds after its first event; an IQ frame that fits the buffer is formed
with its content, one that does not is dropped; a frame that fails a check is discarded and counted; a measured rate
above 98 percent takes the next step of the ladder. -/
def Obligations.FramingRowsComplete : Prop :=
  (∀ s u, s.linkUp = true → s.link.sending = none → u = s.noteStall →
    (∀ f, u.pickReady = some f → exec .frameStart s = .next (({ u with link := { u.link with
      ready := Store.set (fun _ => []) u.link.ready f.stream ((u.readyOf f.stream).erase f) } } : State).startFrame f)) ∧
    (∀ t, u.pickReady = none → u.drainable = some t → exec .frameStart s = .next (u.startDrain t))) ∧
  (∀ s f u, s.link.sending = some f →
    u = ({ s with link := { s.link with
      sending := none, sentN := State.countStream s.link.sentN f.stream 1 } } : State).freshRows.sendBlocks [(true, rowOf [0x87])] →
    (f.stream = 4 → exec .frameSent s = .next u.drained) ∧ (f.stream ≠ 4 → exec .frameSent s = .next (u.resynced f))) ∧
  (∀ l s u lim, s.rxOpen = true → creditOk l = true → u = s.received 0 ((4 * l.length + 27) / 8) →
    lim = ((creditEntries l).filter fun e => creditedTx.contains e.1).foldl
      (fun (m : Store Nat) e => Store.set (fun _ => 0) m e.1 e.2) u.link.limit →
    exec (.creditFrame l) s = .next ({ u with link := { u.link with limit := lim } } : State).creditRegs) ∧
  (∀ s, s.linkUp = true → exec .creditGrantTimer s = .next s.grantCredit) ∧
  (∀ beam l s u, s.rxOpen = true → beam < 32 → burstOk l = true → u = s.received (0x50 + beam) 5 →
    (∀ st, u.burstPlan (u.linkBurst beam l) = .inl st →
      exec (.burstFrame beam l) s = .next (u.burstReject beam (u.linkBurst beam l).id st)) ∧
    (∀ n, u.burstPlan (u.linkBurst beam l) = .inr n → exec (.burstFrame beam l) s =
      .next ((u.armCmd n (u.linkBurst beam l).compare 3 (.burst beam)).setBurst n (some (u.linkBurst beam l))))) ∧
  (∀ beam id m last n payload s u b l, s.rxOpen = true → beam < 32 → iqDecode m n payload = some l →
    (s.bursts.find? fun x => decide (x.2.beam = beam ∧ x.2.ack = false ∧ x.2.id = id)) = some (u, b) →
    exec (.burstSampleFrame beam id m last ⟨n, payload⟩) s =
      .next (((s.received (0x50 + beam) ((payload.length + 27) / 8)).feedLine u beam (l.take (b.n - b.got))).setBurst u
        (some { b with got := min b.n (b.got + l.length), gotLast := b.gotLast || last }))) ∧
  (∀ s, s.link.evtOpen ≠ [] → exec .eventFrameClose s = .next (s.elapseTo (s.link.evtAt + 20000)).closeEvents) ∧
  (∀ stream t n s u st q l f c v, s.linkUp = true → st = s.stepNow → st.iq = true →
    ((s.iqStreams.take st.count).find? fun x => decide (x.1 = stream)) = some (stream, q) → 1 ≤ n →
    n ≤ framesK st.m (s.quadRate q) → c = s.cycleOf t → u = s.elapseTo (s.cycleTime (c + s.blockCycles stream n)) →
    u.streamBlocks stream c n = some l →
    f = { stream := stream, first := !(Store.get (fun _ => false) u.link.run stream)
          gap := Store.get (fun _ => false) u.link.gap stream, mCode := mCode st.m, prune := st.prune
          blocks := l.length, step := u.fld F.SYS_MODE_degrade_step
          at_ := some (toWord (u.cycleTime ((u.timesFrom (u.streamPath stream) c 1).headD c)).toNat)
          payload := l.flatMap fun b => iqEncode b st.m (if st.prune then some (u.content u.modeNo).2.2 else none) } →
    v = u.measureIq f l →
    (v.iqBuffered + 8 * f.len8 ≤ 2 ^ 20 → exec (.iqFrameFormed stream t n) s = .next { v.formFrame f with
      link := { (v.formFrame f).link with
        gap := Store.set (fun _ => false) (v.formFrame f).link.gap stream false
        run := Store.set (fun _ => false) (v.formFrame f).link.run stream true } }) ∧
    (2 ^ 20 < v.iqBuffered + 8 * f.len8 → exec (.iqFrameFormed stream t n) s = .next (v.dropIq stream))) ∧
  (∀ ended l s c, s.linkUp = true → c = s.frameCheck ended l →
    (c = 0 → exec (.frameDiscard ended l) s = .next s) ∧
    (c ≠ 0 → exec (.frameDiscard ended l) s = .next (s.discardFrame c (l.getD 1 0).toNat))) ∧
  (∀ s, s.linkUp = true → (s.modeNo = mRelay ∨ s.modeNo = mMirror) → s.onPruneStep = true →
    98 * s.capacity < 100 * 16384 * s.iqRate → exec (.degradeMeasureWindow ()) s = .next s.nextStep)

/-- A lane detects a signal, gains and loses block lock and AM lock, takes its AM row; training goes from LOCK to ALIGN
when enough lanes have held, back to LINK_DOWN at its time limits; 10 ms without HELLO in UP and a lost LNK_REFCLK
take the link down, a restored one lets training leave LINK_DOWN; the backoff's end starts an attempt in DETECT; the
fallback's end asks for a retrain; HELLO, LSTAT, BOND and FILLER rows are sent and taken with their effect; a pair
outside the bond restarts; a deferred change takes effect at its time. -/
def Obligations.LinkPhyRowsComplete : Prop :=
  (∀ n s, n < 8 → s.flag F.LNK_LANE_STAT_signal n = false →
    exec (.laneSignalDetect n) s = .next ((s.setFld F.LNK_LANE_STAT_signal n 1).adapt n).tryDetect) ∧
  (∀ n i s u, n < 8 → s.flag F.LNK_LANE_STAT_signal n = true →
    u = (if s.flag F.LNK_LANE_STAT_block_lock n = true then s else s.setLockAt n (some s.now)) → exec (.blockLockGain n i) s =
      .next ((u.setFld F.LNK_LANE_STAT_block_lock n 1).setFlag F.LNK_LANE_STAT_rx_inverted n i)) ∧
  (∀ n s, n < 8 → s.flag F.LNK_LANE_STAT_block_lock n = true →
    exec (.blockLockLoss n) s =
      .next (((s.freshRows.unlockPair n).bump F.LNK_LANE_ERR_hdr_errs n 16).rxLost n 1 s.lockedMask)) ∧
  (∀ l s, exec (.amRowReceived l) s = .next (((l.foldl State.takeAm s.freshRows).lstatOnChange s.lockedMask).tryAlign)) ∧
  (∀ n s, n < 8 → s.flag F.LNK_LANE_STAT_am_lock n = true → 3 ≤ perStream s.link.amBad n → exec (.amLockLoss n) s =
    .next ((((s.freshRows.setAmBad n 0).setFld F.LNK_LANE_STAT_am_lock n 0).setAligned n false).rxLost n 2 s.lockedMask)) ∧
  (∀ s, s.linkState = lLock → s.minLanes ≤ s.readyLanes (fun r => s.flag F.LNK_LANE_STAT_block_lock r) →
    exec .blockLockHeld s = .next ((s.elapseTo s.lockHeldAt).freshRows.linkTo lAlign).tryAlign) ∧
  (∀ s u, u = s.freshRows.applyFfe.sendAms →
    (u.linkState ≠ lHello → u.linkState ≠ lUp → exec .amRowSend s = .next u) ∧
    (u.linkState = lHello → u.sendLstat.linkState ≠ lUp → exec .amRowSend s = .next u.sendLstat) ∧
    (u.linkState = lUp → u.sendLstat.linkState = lUp → exec .amRowSend s =
      .next (u.sendLstat.txBond (u.sendLstat.fld F.LNK_STAT_tx_bond ||| u.sendLstat.addable) 2 0))) ∧
  (∀ s u v, s.linkState = lHello → u = s.freshRows → u.linkState ≠ lUp →
    v = u.sendRow (helloRow u.laneEn u.rate25Ok u.link.helloGot false (u.fld F.LNK_CFG_node_id) u.link.helloSeq) →
    exec .helloSend s = .next ({ v with link := { v.link with
      helloSeq := (v.link.helloSeq + 1) % 256
      helloSent := v.link.helloSent + if u.link.helloGot then 1 else 0
      retrainHello := false } } : State).tryAgree) ∧
  (∀ row s v u, s.linkState = lUp → helloOk row = true → v = s.freshRows.setReg .LNK_PARTNER 0 (helloWord row) →
    u = { v with link := { v.link with peerNode := some (rowByte row 4 + 256 * rowByte row 5), heard := true } } →
    u.linkState = lUp → (rowByte row 3).testBit 2 = false →
    exec (.helloRowReceived row) s = .next { u with link := { u.link with lastHello := u.now } }) ∧
  (∀ row s, (helloOk row = false → exec (.helloRowReceived row) s = .next (s.badRow row)) ∧
    (complOk 0x55 row = false → exec (.lstatReceived row) s = .next (s.badRow row)) ∧
    (complOk 0x66 row = false → exec (.bondRowReceived row) s = .next (s.badRow row))) ∧
  (∀ row s u v since, (s.linkState = lHello ∨ s.linkState = lUp) → complOk 0x55 row = true → u = s.freshRows →
    since = (List.range 8).foldl (fun (m : Store (Option T48)) n =>
      if (rowByte row 1).testBit n then
        (if u.link.peerLocked.testBit n then m else Store.set (fun _ => none) m n (some u.now))
      else Store.set (fun _ => none) m n none) u.link.lockedSince →
    v = (List.range 8).foldl (fun s n => s.setFlag F.LNK_LANE_STAT_partner_locked n ((rowByte row 1).testBit n))
      { u with link := { u.link with peerLocked := rowByte row 1, lockedSince := since } } →
    (v.linkState = lUp → exec (.lstatReceived row) s = .next (v.txBond (v.fld F.LNK_STAT_tx_bond &&& rowByte row 1) 1 4)) ∧
    (v.linkState ≠ lUp → exec (.lstatReceived row) s = .next v)) ∧
  (∀ row s u v w, s.linkState = lUp → complOk 0x66 row = true → u = s.freshRows →
    v = (({ u with link := { u.link with discard := false } } : State).staleMarks) →
    w = (v.setBonds (v.fld F.LNK_STAT_tx_bond) (rowByte row 1)).bondEvents false (u.fld F.LNK_STAT_rx_bond) (rowByte row 1)
      (v.setBonds (v.fld F.LNK_STAT_tx_bond) (rowByte row 1)).rxCause →
    ({ w with link := { w.link with lossCause := [] } } : State).minLanes ≤ popCount 8 (rowByte row 1) →
    exec (.bondRowReceived row) s =
      .next (({ w with link := { w.link with lossCause := [] } } : State).evaluate false)) ∧
  (∀ n s, (s.linkState = lHello ∨ s.linkState = lUp) →
    (24 < n → exec (.fillerRowReceived n) s = .next (s.bump F.LNK_RM_CNT_deleted 0)) ∧
    (n < 8 → exec (.fillerRowReceived n) s = .next (s.bump F.LNK_RM_CNT_inserted 0)) ∧
    (8 ≤ n → n ≤ 24 → exec (.fillerRowReceived n) s = .next s)) ∧
  (∀ s, exec .fillerRowSend s = .next (s.freshRows.sendRow (rowOf [0x1E]))) ∧
  (∀ s u, s.linkState ≠ lDown → s.linkState ≠ lUp → (s.linkState = lDetect ∨ u.link.rateStep = false) →
    u = s.elapseTo (s.link.since + BitVec.ofNat 48 (trainTimeout s.linkState).1) →
    exec .trainingTimeout s = .next (u.linkDown (trainTimeout s.linkState).2 true)) ∧
  (∀ s, s.linkState = lUp →
    exec .helloSilence s = .next ((s.elapseTo (s.link.lastHello + 10000000)).linkDown 7 true)) ∧
  (∀ s u, s.linkState = lDown → s.flag F.LNK_CFG_en = true → s.link.refLost = false →
    u = s.elapseTo (s.link.since + BitVec.ofNat 48 (msec (s.fld F.LNK_TRAIN_backoff_ms))) → exec .backoffEnd s =
      .next ((((u.setRate (decide (u.fld F.LNK_CFG_rate_mode = 2))).linkTo lDetect).newAttempt.bump
        F.LNK_TRAIN_attempts 0).tryDetect)) ∧
  (∀ s t u, s.link.fallbackEnd = some t → u = (s.elapseTo t).setFallback false → exec .fallbackExpiry s =
    .next { u with link := { u.link with
      retrainHello := decide (u.linkState = lUp) && !u.flag F.LNK_STAT_rate25 } }) ∧
  (∀ n s, n < 8 → s.linkState = lUp → s.laneEn.testBit n = true → s.flag F.LNK_LANE_STAT_in_rx_bond n = false →
    s.pairLocked n = false → exec (.laneRetrainRestart n) s = .next ((s.unlockPair n).adapt n)) ∧
  (∀ s, exec .lnkRefclkLoss s = .next (({ s with link := { s.link with refLost := true } } : State).linkDown 9 false)) ∧
  (∀ s, exec .lnkRefclkRestored s = .next { s with link := { s.link with refLost := false } }) ∧
  (∀ s c t u, s.link.deferred = some c → c.at_ = some t →
    u = { s.elapseTo t with link := { (s.elapseTo t).link with deferred := none } } →
    (∀ w, c.cfg = some w → exec .deferredLinkChange s = .next (u.applyLink w c.lanes c.ffe)) ∧
    (c.cfg = none → u.linkState = lDown → exec .deferredLinkChange s = .next u.endBackoff) ∧
    (c.cfg = none → u.linkState ≠ lDown → exec .deferredLinkChange s = .next (u.linkDown 8 false)))

/-- Pantry training ends ABSENT without an answer, FAILED when unsupported or at no rate, and READY with its rate, size
and usable tiles; a DQS retrain that passes clears the earlier failure, a second failure in succession fails the
Pantry; a fetched descriptor that passes its checks makes its channel wait for its pace or go ACTIVE, one that fails
a check halts it with its cause; a channel whose move, barrier and claims are in order completes its descriptor; 100
microseconds without an answer halt a channel with TIMEOUT; a conversion enters the auxiliary ring and the next
input or sweep follows; a paced sweep starts or is counted as skipped. -/
def Obligations.MemoryRowsComplete : Prop :=
  (∀ sup r size s, s.fld F.MEM_PAN_STAT_state = 1 →
    exec (.pantryTrainingDone false sup r size) s = .next (s.pantryTo 0 1) ∧
    exec (.pantryTrainingDone true false r size) s = .next (s.pantryTo 5 3) ∧
    (usableTiles size ≠ 0 → exec (.pantryTrainingDone true true none size) s = .next (s.pantryTo 5 2)) ∧
    (∀ k, usableTiles size ≠ 0 → r = some k → exec (.pantryTrainingDone true true r size) s =
      .next ((((s.setFld F.MEM_PAN_STAT_rate 0 k).setFld F.MEM_PAN_STAT_size 0 size).setFld F.MEM_PAN_USABLE_tiles 0
        (usableTiles size)).pantryTo 2 0))) ∧
  (∀ s, s.pantryReady = true →
    exec (.dqsRetrain true) s = .next { s with mem := { s.mem with dqsFailed := false } } ∧
    (s.mem.dqsFailed = false → exec (.dqsRetrain false) s = .next { s with mem := { s.mem with dqsFailed := true } }) ∧
    (s.mem.dqsFailed = true → exec (.dqsRetrain false) s =
      .next (({ s with mem := { s.mem with dqsFailed := false } } : State).pantryTo 5 5))) ∧
  (∀ ch s a t u d v, ch < 32 → s.fld F.DMA_CH_STAT_state ch = dFetch → a = s.dmaNext ch → s.target a = .larder t →
    u = s.setDma ch { s.dma ch with desc := s.memWords a 8 } → d = descOf (s.memWords a 8) →
    u.fld F.PWR_DOM_state (dLar + bankOf t) = 0 →
    (u.fld F.DMA_CFG_hop_max ≤ u.fld F.DMA_CH_STAT_hop ch → exec (.descriptorFetched ch) s = .next (u.dmaHalt ch 1)) ∧
    (u.fld F.DMA_CH_STAT_hop ch < u.fld F.DMA_CFG_hop_max → u.descCause ch a d ≠ 0 →
      exec (.descriptorFetched ch) s = .next (u.dmaHalt ch (u.descCause ch a d))) ∧
    (u.fld F.DMA_CH_STAT_hop ch < u.fld F.DMA_CFG_hop_max → u.descCause ch a d = 0 →
      v = u.setFld F.DMA_CH_STAT_hop ch (u.fld F.DMA_CH_STAT_hop ch + 1) →
      (d.pace ≠ 0 → v.flag F.DMA_CH_STAT_pace_pending ch = false →
        exec (.descriptorFetched ch) s = .next (v.setFld F.DMA_CH_STAT_state ch dWait)) ∧
      (d.pace = 0 → exec (.descriptorFetched ch) s = .next ((v.setFld F.DMA_CH_STAT_pace_pending ch 0).dmaActive ch)))) ∧
  (∀ ch s d, ch < 32 → s.fld F.DMA_CH_STAT_state ch = dActive → (s.dma ch).want = none → d = descOf (s.dma ch).desc →
    s.dmaClaims ch d = true →
    (d.len = 0 → (s.dma ch).unacked = none → exec (.descriptorComplete ch) s = .next (s.dmaFinish ch d)) ∧
    ((s.dma ch).phase ≠ 3 → d.len ≠ 0 → (s.dmaMove ch d).1 = true → ((s.dmaMove ch d).2.dma ch).unacked = none →
      exec (.descriptorComplete ch) s = .next ((s.dmaMove ch d).2.dmaFinish ch d))) ∧
  (∀ ch s t, ch < 32 → (s.dma ch).issued = some t → (s.dma ch).want.isSome = true →
    exec (.dmaResponseTimeout ch) s = .next ((s.elapseTo (t + 100000)).dmaHalt ch 2)) ∧
  (∀ c s i l u, s.mem.auxLeft = i :: l → u = s.auxEntry i (if i = 15 then 0 else c) →
    (l ≠ [] → exec (.auxConversionDone c) s = .next { u with mem := { u.mem with auxLeft := l } }) ∧
    (l = [] → u.flag F.AUX_SEQ_CTL_paced = true → exec (.auxConversionDone c) s =
      .next (({ u with mem := { u.mem with auxLeft := l } } : State).setFld F.AUX_STAT_busy 0 0)) ∧
    (l = [] → u.flag F.AUX_SEQ_CTL_paced = false → exec (.auxConversionDone c) s =
      .next ({ u with mem := { u.mem with auxLeft := l } } : State).auxSweep)) ∧
  (∀ s, s.flag F.AUX_SEQ_CTL_run = true → s.flag F.AUX_SEQ_CTL_paced = true →
    (s.mem.auxLeft = [] → exec .auxPacedSweep s = .next s.auxSweep) ∧
    (s.mem.auxLeft ≠ [] → exec .auxPacedSweep s = .next (s.bump F.AUX_STAT_sweep_skips 0)))

/-- A side that is ready enters its run; a TX side that could not enter within 1 s ends it with ST_TIMEOUT; an on-
request run ends with its results, its t_last and CAL_DONE, with ST_CAL_REJECT if one was rejected; the 10 ms check
raises what is due and begins the Kettle's sets; a set's end takes its results and starts the corrections; a
tracking round of one quadrant marks its phase valid, of more takes its measurements; an interval of a side's
corrections moves each value and sets the next. -/
def Obligations.CalibrationRowsComplete : Prop :=
  (∀ q tx s r k, s.runOn q = some r → k = 2 * q + (if tx then 1 else 0) → r.begun = true → r.sides.contains k = true →
    r.entered.contains k = false → s.calReady k = true →
    (tx = false ∨ s.txEntryOk q (s.runNs r) (usesOrx r.cals) (s.radiates r) = true) →
    exec (.calEntry q tx) s = .next (s.takeSide r k)) ∧
  (∀ q s r, s.runOn q = some r → r.begun = true → r.kind = 0 →
    r.sides.any (fun k => decide (k % 2 = 1) && !r.entered.contains k) = true → exec (.calEntryTimeout q) s =
      .next (((s.elapseTo (r.start + 1000000000)).endRun r).calDone r stTimeout 0)) ∧
  (∀ q rs s r u v, s.runOn q = some r → r.begun = true → r.kind = 0 → r.sides.all (fun k => r.entered.contains k) = true →
    u = s.runApply (s.runResults r rs) →
    v = ((s.runResults r rs).filter fun x => x.quad && decide (x.cause = 0 ∧ x.unit < 4)).foldl
      (fun s x => s.unmarkQuad (2 * x.unit + if x.tx then 1 else 0) x.cal)
      ((setsOf r).foldl (fun s k => s.setRun k (r.temp (k / 2)) r.start) u) →
    ((∀ x ∈ s.runResults r rs, x.cause = 0) → exec (.calRunEnd q rs) s = .next ((v.endRun r).calDone r stOk 0)) ∧
    (∀ x, (s.runResults r rs).find? (fun x => decide (x.cause ≠ 0)) = some x →
      exec (.calRunEnd q rs) s = .next ((v.endRun r).calDone r stCalReject x.cal))) ∧
  (∀ l s, s.stage = 7 → l.length = 4 → s.onHosc = false →
    (s.flag F.CAL_CFG_kettle_en = false → exec (.kettleCheck l) s =
      .next ((List.range 4).foldl (fun s q => (s.kettleRx q l).kettleTx q l) s)) ∧
    (s.flag F.CAL_CFG_kettle_en = true → exec (.kettleCheck l) s =
      .next ((List.range 4).foldl (fun s q => (s.kettleRx q l).kettleTx q l) ((List.range 8).foldl (fun s k =>
        if s.kettlePend k = false ∧ s.kettleDue k (l.getD (k / 2) 0) = true ∧ sSleep ≤ s.sideState k then
          (s.setKettle k true).kettleEvent k false (l.getD (k / 2) 0 - Store.get (fun _ => 0) s.cal.tLast k)
        else s) s)))) ∧
  (∀ q tx rs s r k u, k = 2 * q + (if tx then 1 else 0) → s.runOn q = some r → r.kind = 1 → r.sides = [k] →
    u = (s.runResults r rs).foldl (fun s x => s.calResult x false) s →
    exec (.kettleSetEnd q tx rs) s = .next ((((u.setRun k (r.temp q) r.start).setKettle k false).endRun r).startSteps k)) ∧
  (∀ rs drive s u v, s.stage = 7 → s.flag F.CAL_CFG_track_en = true → s.network = true → s.onHosc = false →
    u = s.elapseTo (s.cal.trackAt + BitVec.ofNat 48 (msec (s.fld F.CAL_CFG_track_ms))) →
    v = { u with cal := { u.cal with trackAt := u.now } } →
    (∀ q, v.servedQuads = [q] → exec (.phaseTrackingRound rs drive) s =
      .next ((v.setPhaseValid (2 * q) true).setPhaseValid (2 * q + 1) true)) ∧
    (∀ a b m ks w l z, v.servedQuads = a :: b :: m → ks = (List.range 8).filter (fun k => v.mayWake k) →
      w = ks.foldl State.wakeFor v → l = (rs.filter (w.roundTakes v.pilotSource)).map (w.judge true) →
      z = { w with cal := { w.cal with drive := Store.set (fun _ => 0) w.cal.drive v.pilotSource drive } } →
      exec (.phaseTrackingRound rs drive) s = .next (ks.foldl State.restSide (((z.roundSpan l).roundSide v.pilotSource false
        l).roundSide v.pilotSource true l)).pilotRegs)) ∧
  (∀ q tx s t k u, k = 2 * q + (if tx then 1 else 0) → Store.get (fun _ => none) s.cal.stepAt k = some t →
    u = (s.elapseTo t).stepSide k →
    exec (.correctionStep q tx) s = .next (u.setStepAt k (if u.sideMoves k then some (tAdd t (u.stepNs k)) else none)))

/-- State.reset, which lists no register, no byte of memory and no waiting command, is canonical: the sparse registers
and bytes have strictly rising keys and no entry equals what an unlisted key reads as. -/
def Obligations.ResetIsCanonical : Prop :=
  State.reset.canonical ∧ State.reset.pending = []

/-- For every state whose registers and memory bytes are in canonical form (keys strictly rising, no entry equal to its
default, the default of a byte depending on the banks that have lost their contents), and whatever command stands at
the front of the queue or none, the next state of a step has registers and memory bytes in canonical form. So equal
contents stay equal data, through every register write, memory write, loss of a bank and device reset. -/
def Obligations.StepsKeepTheCanonicalForm : Prop :=
  ∀ s t, s.canonical → step s = .next t → t.canonical

/-- For every constructor of Instr with every operand, in every state, exec answers a next state. A row whose
precondition does not hold leaves the state unchanged, a mailbox command whose tests fail stages the failing status,
and an access that errs is recorded in SYS_ACC_ERR; the spec gives each of them that effect, so nothing stops the
block. -/
def Obligations.EveryCommandCompletes : Prop :=
  ∀ c s, ∃ t, exec c s = .next t

/-- For every command and state, the next state of exec holds the same waiting commands: commands arrive from outside
only, and neither a device reset nor a restart of the management core invents or drops one that has not reached the
block. -/
def Obligations.CommandsLeaveTheQueue : Prop :=
  ∀ c s t, exec c s = .next t → t.pending = s.pending

/-- For every command c, rest l and state s: step of s with queue c :: l is exec c of s with queue l. With an empty
queue a step is one advance of the time counter (the model's choice for the block's clock, log entry 9): while the
counter runs, its reading grows by 12.20703125 ns, or 10 ns on HOSC, times 1 + r × 2^-32, in units of 2^-56 ns, and
the sample paths take the FS cycles of that advance; while it does not run, nothing changes. -/
def Obligations.StepRunsTheFrontCommand : Prop :=
  (∀ (s : State) c l, step ({ s with pending := c :: l } : State) = exec c { s with pending := l }) ∧
  (∀ s, s.pending = [] → s.time.running = false → step s = .next s) ∧
  (∀ s r, s.pending = [] → s.time.running = true → r = (s.reg .TS_RATE 0).toInt →
    (s.flag F.TIME_STAT_on_hosc = true → step s = .next ((s.pass 1).advanceTo (s.time.ticks + 10 * 2 ^ 56 + 10 * 2 ^ 24 * r))) ∧
    (s.flag F.TIME_STAT_on_hosc = false →
      step s = .next ((s.pass 1).advanceTo (s.time.ticks + 879609302220800000 + 204800000 * r))))

/-- In State.reset every copy of every register but SYS_ID, HOSC_TRIM and WHISK_SEED holds in each field the value of
its table's Reset column, and every bit outside the fields reads 0. SYS_ID reads 0x6464_1101 on grade FE and
0x6464_1100 on FB, and WHISK_SEED of synthesiser k reads 0x5A5A_5A00 + k. Fields whose column says boot, strap or x
hold 0 until they are written: the model's choice, log entry 1. -/
def Obligations.ResetRegistersHoldTheirTables : Prop :=
  (∀ (r : RegName) (i : Nat), r ≠ .SYS_ID → r ≠ .HOSC_TRIM → r ≠ .WHISK_SEED →
    (∀ f ∈ r.fields, bits (State.reset.reg r i) (f.lo + f.width - 1) f.lo = f.reset) ∧
    (∀ n, n < 32 → (∀ f ∈ r.fields, n < f.lo ∨ f.lo + f.width ≤ n) → (State.reset.reg r i).getLsbD n = false)) ∧
  (∀ i, State.reset.reg .SYS_ID i = if Config.gradeFE then 0x64641101 else 0x64641100) ∧
  (∀ k, State.reset.reg .WHISK_SEED k = BitVec.ofNat 32 (0x5A5A5A00 + k))

/-- For every register, field f of its table and bit n of f: a write of v to a register that holds w leaves in bit n v's
bit if f is RW, w's bit cleared by a 1 if f is W1C, set by a 1 if f is W1S, and w's bit if f is RO, RC or WO; a read
returns 0 in a WO field and w's bit in every other; a read leaves 0 in an RC field and w's bit in every other. A bit
in no field of the table is not changed by a write or a read. -/
def Obligations.FieldTypesGovernEachBit : Prop :=
  (∀ (r : RegName) f n (w v : Word), f ∈ r.fields → f.lo ≤ n → n < f.lo + f.width →
    (r.written w v).getLsbD n = (match f.kind with
      | .rw => v.getLsbD n
      | .w1c => w.getLsbD n && !v.getLsbD n
      | .w1s => w.getLsbD n || v.getLsbD n
      | .ro => w.getLsbD n
      | .rc => w.getLsbD n
      | .wo => w.getLsbD n) ∧
    (r.readable w).getLsbD n = (if f.kind = .wo then false else w.getLsbD n) ∧
    (r.cleared w).getLsbD n = (if f.kind = .rc then false else w.getLsbD n)) ∧
  (∀ (r : RegName) n (w v : Word), (∀ f ∈ r.fields, n < f.lo ∨ f.lo + f.width ≤ n) →
    (r.written w v).getLsbD n = w.getLsbD n ∧ (r.cleared w).getLsbD n = w.getLsbD n)

/-- For every port and word v with bit 7 set and bits [5:0] above 31: the BEAM_SEL write leaves every port's BEAM_SEL as
it was. From CSPI or the link it sets SYS_ACC_ERR.valid and SYS_IRQ_STAT.acc_err; when no earlier error stood, cause
is 2 (BAD_SEL) and the port is the writer's. Only SYS_ACC_ERR, SYS_ACC_ADDR and SYS_IRQ_STAT can change among the
registers, and no byte of memory. Tilin's own port changes nothing at all. -/
def Obligations.BadBeamSelectionIsIgnored : Prop :=
  ∀ p v s, bitAt v 7 = true → 31 < bits v 5 0 →
    ∃ t, exec (.beamSelWrite p v) s = .next t ∧ (∀ i, t.reg .BEAM_SEL i = s.reg .BEAM_SEL i) ∧
      (p = .tilin → t = s) ∧
      (p ≠ .tilin → t.flag F.SYS_ACC_ERR_valid = true ∧ t.fld F.SYS_IRQ_STAT_acc_err = 1 ∧
        (s.flag F.SYS_ACC_ERR_valid = false → t.fld F.SYS_ACC_ERR_cause = 2 ∧ t.fld F.SYS_ACC_ERR_port = p.idx)) ∧
      RegsBut [(.SYS_ACC_ERR, 0), (.SYS_ACC_ADDR, 0), (.SYS_IRQ_STAT, 0)] s t ∧ SameBytes s t ∧ t.pending = s.pending

/-- A register write in 0xC000 to 0xFFFF, where there is no register, is such an error. With none recorded it sets
valid, cause 4 (UNMAPPED), the port, addr_hi 0, count 0 and SYS_ACC_ADDR, the word's byte address; with one recorded
it adds 1 to count up to 0xFF and keeps cause, port, addr_hi and SYS_ACC_ADDR; either way acc_err is set. From
Tilin's port nothing changes. A write of SYS_ACC_ERR with bit 4 set clears valid and count. No other register and no
byte of memory changes. -/
def Obligations.FirstAccessErrorIsKept : Prop :=
  (∀ p a v s, 0xC000 ≤ a → a < 0x10000 → p ≠ .tilin →
    ∃ t, exec (.registerWrite p a v) s = .next t ∧ t.flag F.SYS_ACC_ERR_valid = true ∧ t.fld F.SYS_IRQ_STAT_acc_err = 1 ∧
      (s.flag F.SYS_ACC_ERR_valid = false → t.fld F.SYS_ACC_ERR_cause = 4 ∧ t.fld F.SYS_ACC_ERR_port = p.idx ∧
        t.fld F.SYS_ACC_ERR_addr_hi = 0 ∧ t.fld F.SYS_ACC_ERR_count = 0 ∧
        (t.reg .SYS_ACC_ADDR 0).toNat = a / 4 * 4) ∧
      (s.flag F.SYS_ACC_ERR_valid = true → t.fld F.SYS_ACC_ERR_count = min 255 (s.fld F.SYS_ACC_ERR_count + 1) ∧
        t.fld F.SYS_ACC_ERR_cause = s.fld F.SYS_ACC_ERR_cause ∧ t.fld F.SYS_ACC_ERR_port = s.fld F.SYS_ACC_ERR_port ∧
        t.fld F.SYS_ACC_ERR_addr_hi = s.fld F.SYS_ACC_ERR_addr_hi ∧ t.reg .SYS_ACC_ADDR 0 = s.reg .SYS_ACC_ADDR 0) ∧
      RegsBut [(.SYS_ACC_ERR, 0), (.SYS_ACC_ADDR, 0), (.SYS_IRQ_STAT, 0)] s t ∧ SameBytes s t) ∧
  (∀ a v s, 0xC000 ≤ a → a < 0x10000 → exec (.registerWrite .tilin a v) s = .next s) ∧
  (∀ p v s, bitAt v 4 = true →
    ∃ t, exec (.registerWrite p 0x30 v) s = .next t ∧ t.flag F.SYS_ACC_ERR_valid = false ∧ t.fld F.SYS_ACC_ERR_count = 0 ∧
      t.fld F.SYS_ACC_ERR_cause = s.fld F.SYS_ACC_ERR_cause ∧ RegsBut [(.SYS_ACC_ERR, 0)] s t ∧ SameBytes s t)

/-- The registers of a claimable resource are those of the DMA channels, the TC units, the GPIO pins and the auxiliary
sequencer. From CSPI or the link, a write to such a register whose resource no mailbox of that port holds (nobody,
Tilin, or a claim made on the other port) changes no register but SYS_ACC_ERR, SYS_ACC_ADDR and SYS_IRQ_STAT and no
byte of memory, and with no earlier error recorded sets cause 1 (CLAIM). A write from the port of the claim has the
register's own effect. A read never errs, whoever holds the resource. -/
def Obligations.UnclaimedResourceWritesAreIgnored : Prop :=
  (∀ p a v s r i ty j, a % 4 = 0 → plainAddr a → s.regAt p a = some (r, i) → r.resource i = some (ty, j) → p ≠ .tilin →
    (∀ c, s.owner ty j = some c → c.internal = true ∨ c.port ≠ p.idx) →
    ∃ t, exec (.registerWrite p a v) s = .next t ∧ t.flag F.SYS_ACC_ERR_valid = true ∧
      (s.flag F.SYS_ACC_ERR_valid = false → t.fld F.SYS_ACC_ERR_cause = 1 ∧ t.fld F.SYS_ACC_ERR_port = p.idx) ∧
      RegsBut [(.SYS_ACC_ERR, 0), (.SYS_ACC_ADDR, 0), (.SYS_IRQ_STAT, 0)] s t ∧ SameBytes s t) ∧
  (∀ p a v s r i ty j c, a % 4 = 0 → plainAddr a → s.regAt p a = some (r, i) → r.resource i = some (ty, j) → p ≠ .tilin →
    s.owner ty j = some c → c.internal = false → c.port = p.idx →
    exec (.registerWrite p a v) s = .next (s.writeCopy p r i v)) ∧
  (∀ p a (s : State), a < 0xC000 → (s.readReg p a).2.1 = 0) ∧
  (∀ (r : RegName) i, r.resource i ≠ none ↔ r ∈ [RegName.DMA_CH_CTL, .DMA_CH_NEXT_LO, .DMA_CH_NEXT_HI, .DMA_CH_STAT, .DMA_CH_ERR_LO,
    .DMA_CH_ERR_HI, .DMA_CH_DESCS, .DMA_CH_BYTES, .TC_CTL, .TC_CMP_NS, .TC_CMP_WP, .TC_PERIOD, .GPIO_PIN, .AUX_SEQ_MASK,
    .AUX_SEQ_CTL, .AUX_BUF_BASE, .AUX_BUF_CTL, .AUX_BUF_WR, .AUX_BUF_RD, .AUX_STAT])

/-- For every plain register outside the claimable resources, a write changes exactly the copies that the port's
selection names, each by field type from its own old value, no other register and no byte of memory. In the path
window these are P0 to P63 with all_bcast (whatever quad_bcast holds), the 16 paths of the selected path's quadrant
with quad_bcast alone, else the selected path; in the beam window B0 to B63 or TB0 to TB31 with all_bcast, the 16
beams that share beam[5:4] with group_bcast alone, else the selected beam. The copy a read names is the single
selected one, whatever the broadcast bits hold. -/
def Obligations.BroadcastWritesReachEveryTarget : Prop :=
  (∀ p a v s r i, a % 4 = 0 → plainAddr a → s.regAt p a = some (r, i) → r.resource i = none → r.plainWrite = true →
    ∃ t, exec (.registerWrite p a v) s = .next t ∧
      (∀ j ∈ s.targets p r i, t.reg r j = r.written (s.reg r j) v) ∧
      RegsBut ((s.targets p r i).map fun j => (r, j)) s t ∧ SameBytes s t) ∧
  (∀ p a (s : State) (r : RegName) i w, s.regAt p a = some (r, i) → w = s.reg .PATH_SEL p.idx → r.place.1 = .path →
    i = bits w 5 0 ∧ ∀ j, j ∈ s.targets p r i ↔
      if bitAt w 9 then j < 64 else if bitAt w 8 then j / 16 = i / 16 else j = i) ∧
  (∀ p a (s : State) (r : RegName) i w, s.regAt p a = some (r, i) → w = s.reg .BEAM_SEL p.idx → (r.place.1 = .rxBeam ∨ r.place.1 = .txBeam) →
    i = bits w 5 0 ∧ (bitAt w 7 = true ↔ r.place.1 = .txBeam) ∧ ∀ j, j ∈ s.targets p r i ↔
      if bitAt w 9 then j < (if r.place.1 = .txBeam then 32 else 64) else if bitAt w 8 then j / 16 = i / 16 else j = i) ∧
  (∀ p a (s : State) (r : RegName) i, s.regAt p a = some (r, i) → a % 4 = 0 → plainAddr a → r.plainRead = true →
    exec (.rcRegisterRead p a) s = .next ((if r.hasRc then s.setReg r i (r.cleared (s.reg r i)) else s).setRdata p
      (r.readable (s.reg r i))))

/-- For n below 8: a ring in IDLE or DONE with length_words at most 63 leads to BUSY with the request area copied and
the port recorded; with more than 63 it leads to DONE with a response of ST_BAD_ARG and length 0; a ring in BUSY
only sets collide; finishing a BUSY mailbox with a staged response leads to DONE with mbx_done[n] set, last_status
the response's and the response area holding its header and words; ack in DONE leads to IDLE and in any other state
changes nothing. The mailbox Tilin takes next is the first waiting one of MBX0 to MBX6 counted cyclically from the
one after the mailbox served last. -/
def Obligations.MailboxesMoveByTheirTable : Prop :=
  (∀ p n s, n < 8 → s.mbxState n ≠ mbBusy → reqLen (s.reqWord n 0) ≤ 63 →
    ∃ t, exec (.mailboxRing p n) s = .next t ∧ t.mbxState n = mbBusy ∧
      (t.mbx n).copied = (List.range (reqLen (s.reqWord n 0) + 1)).map (s.reqWord n) ∧
      t.fld F.SYS_MBX_STAT_port n = (if p = .link then 1 else 0) ∧ SameBytes s t) ∧
  (∀ p n s, n < 8 → s.mbxState n ≠ mbBusy → 63 < reqLen (s.reqWord n 0) →
    ∃ t, exec (.mailboxRing p n) s = .next t ∧ t.mbxState n = mbDone ∧ t.fld F.SYS_MBX_STAT_last_status n = stBadArg ∧
      bits (t.rspWord n 0) 7 0 = stBadArg ∧ bits (t.rspWord n 0) 23 16 = 0 ∧ SameBytes s t) ∧
  (∀ p n s, n < 8 → s.mbxState n = mbBusy →
    exec (.mailboxRing p n) s = .next (s.setFld F.SYS_MBX_STAT_collide n 1) ∧
    (s.setFld F.SYS_MBX_STAT_collide n 1).mbxState n = mbBusy) ∧
  (∀ n s r, n < 8 → s.mbxState n = mbBusy → (s.mbx n).staged = some r → r.status < 256 → r.words.length < 64 →
    ∃ t, exec (.commandFinish ⟨n, false⟩) s = .next t ∧ t.mbxState n = mbDone ∧ t.fld F.SYS_MBX_STAT_last_status n = r.status ∧
      (t.fld F.SYS_IRQ_STAT_mbx_done).testBit n = true ∧ bits (t.rspWord n 0) 7 0 = r.status ∧
      bits (t.rspWord n 0) 23 16 = r.words.length ∧
      (∀ k, k < r.words.length → t.rspWord n (k + 1) = r.words.getD k 0) ∧ SameBytes s t) ∧
  (∀ p n s, n < 8 →
    (s.mbxState n = mbDone → exec (.mailboxAck p n) s = .next (s.setFld F.SYS_MBX_STAT_state n mbIdle)) ∧
    (s.mbxState n ≠ mbDone → exec (.mailboxAck p n) s = .next s)) ∧
  (∀ (s : State) n, s.nextMbx = some n ↔ ∃ i < 7, n = (s.sys.served + 1 + i) % 7 ∧ s.waits n = true ∧
    ∀ j < i, s.waits ((s.sys.served + 1 + j) % 7) = false)

/-- RES_CLAIM of strobe index 4 by a mailbox that does not hold it answers ST_HELD while any of indices 0 to 3 is held
by another owner, and RES_CLAIM of one index k from 0 to 3 by a mailbox that does not hold k answers ST_HELD while
index 4 is held by another owner. The next state is the state before with that response staged, so no claim changes. -/
def Obligations.StrobeClaimsConflict : Prop :=
  (∀ q s k, s.precheck specResClaim q = none → resBad q = false → resType q = resStrobe → resFirst q = 4 → resLen q = 1 →
    s.holds q.mbx resStrobe 4 = false → k < 4 → s.otherHolds q.mbx resStrobe k = true →
    ∃ ws, exec (.resClaim q) s = .next (s.stageRsp q.mbx { status := stHeld, words := ws })) ∧
  (∀ q s, s.precheck specResClaim q = none → resBad q = false → resType q = resStrobe → resFirst q < 4 → resLen q = 1 →
    s.holds q.mbx resStrobe (resFirst q) = false → s.otherHolds q.mbx resStrobe 4 = true →
    ∃ ws, exec (.resClaim q) s = .next (s.stageRsp q.mbx { status := stHeld, words := ws }))

/-- With the ring made and a ring of at most 65,536 entries, posting an event writes at base + 16 wr word 0 with code,
tag and mailbox of its command (cmd = 1) or cmd = 0, sw_ts and class, word 1 with TIME_NS, word 2 with TIME_WRAPS
and seq, word 3 with arg. Seq then rises by 1 modulo 2^16, wr by 1 modulo the size, SYS_IRQ_STAT.evt is set. If wr
would meet rd, rd has first moved on by 1 and overrun and evt_overrun are set; otherwise rd and overrun stay. No
other byte of memory and no other register changes. -/
def Obligations.PostedEventsEnterTheRing : Prop :=
  ∀ (s u : State) (t : T48) code cls arg cmd sw size wr rd a, s.sys.ringMade = true → s.fld F.SYS_EVT_CTL_size_log2 ≤ 16 →
    u = s.postAt t code cls arg cmd sw → size = 2 ^ s.fld F.SYS_EVT_CTL_size_log2 → wr = s.fld F.SYS_EVT_WR_wr % size →
    rd = s.fld F.SYS_EVT_RD_rd % size → a = (s.reg .SYS_EVT_BASE 0).toNat + 16 * wr →
    bits (u.memWord a) 15 0 = code % 65536 ∧ bits (u.memWord a) 31 29 = cls % 8 ∧ bitAt (u.memWord a) 28 = sw ∧
    bitAt (u.memWord a) 27 = cmd.isSome ∧
    (∀ c, cmd = some c → bits (u.memWord a) 23 16 = c.tag % 256 ∧ bits (u.memWord a) 26 24 = c.mbx % 8) ∧
    (u.memWord (a + 4)).toNat = t.toNat % 2 ^ 32 ∧ bits (u.memWord (a + 8)) 15 0 = t.toNat / 2 ^ 32 ∧
    bits (u.memWord (a + 8)) 31 16 = s.sys.evtSeq.toNat ∧ u.memWord (a + 12) = arg ∧ u.sys.evtSeq = s.sys.evtSeq + 1 ∧
    u.fld F.SYS_EVT_WR_wr = (wr + 1) % size ∧ u.fld F.SYS_IRQ_STAT_evt = 1 ∧
    ((wr + 1) % size = rd → u.fld F.SYS_EVT_RD_rd = (rd + 1) % size ∧ u.fld F.SYS_EVT_CTL_overrun = 1 ∧
      u.fld F.SYS_IRQ_STAT_evt_overrun = 1) ∧
    ((wr + 1) % size ≠ rd → u.reg .SYS_EVT_RD 0 = s.reg .SYS_EVT_RD 0 ∧ u.reg .SYS_EVT_CTL 0 = s.reg .SYS_EVT_CTL 0) ∧
    (∀ b, b < a ∨ a + 16 ≤ b → u.byte b = s.byte b) ∧
    RegsBut [(.SYS_EVT_WR, 0), (.SYS_EVT_RD, 0), (.SYS_EVT_CTL, 0), (.SYS_IRQ_STAT, 0)] s u

/-- For a TC unit held through the writing port (CSPI or link): while cmd_armed, a write of TC_CTL changes nothing; with
arm = 1 and an action other than 1 or 2 it changes nothing; with arm = 0 it is stored by field type and the unit is
not armed, nothing else changing; with arm = 1, periodic and a period below 100 it is stored with arm 0 and missed
set; with a compare time at or before the next tick it is stored with arm 0 and missed set and LATE with crossing 7
is posted. -/
def Obligations.TcControlWritesAreGuarded : Prop :=
  (∀ p u v s, u < 16 → p ≠ .tilin → s.portHolds p resTc u = true →
    (s.flag F.TC_CTL_cmd_armed u = true → exec (.tcCtlWrite p u v) s = .next s) ∧
    (bitAt v 0 = true → bits v 7 4 ≠ 1 → bits v 7 4 ≠ 2 → exec (.tcCtlWrite p u v) s = .next s) ∧
    (s.flag F.TC_CTL_cmd_armed u = false → bitAt v 0 = false →
      ∃ t, exec (.tcCtlWrite p u v) s = .next t ∧ t.armed u = false ∧
        t.reg .TC_CTL u = RegName.TC_CTL.written (s.reg .TC_CTL u) v ∧ RegsBut [(.TC_CTL, u)] s t ∧ SameBytes s t)) ∧
  (∀ p u v s w, u < 16 → s.portHolds p resTc u = true → s.flag F.TC_CTL_cmd_armed u = false → bitAt v 0 = true →
    (bits v 7 4 = 1 ∨ bits v 7 4 = 2) → w = s.setReg .TC_CTL u (RegName.TC_CTL.written (s.reg .TC_CTL u) v) →
    (bitAt v 1 = true → (s.reg .TC_PERIOD u).toNat < 100 →
      exec (.tcCtlWrite p u v) s = .next ((w.setFld F.TC_CTL_arm u 0).setFld F.TC_CTL_missed u 1)) ∧
    ((bitAt v 1 = false ∨ 100 ≤ (s.reg .TC_PERIOD u).toNat) → s.cmpPast (s.cmpTime u) = true →
      exec (.tcCtlWrite p u v) s = .next (((w.setFld F.TC_CTL_arm u 0).setFld F.TC_CTL_missed u 1).postLate u 7 (s.cmpTime u))))

/-- With the host as source, or Tilin writing with the link as source, a write of TS_OFFSET gives I' = clamp(I +
round(ki ofs)) and r' = clamp(I' + round(kp ofs)), kp and ki being UQ8.8 and the clamp to ±2,147,483, where the
rounded product y of x/256 is the nearest integer, and away from zero halfway. TIME_STAT.servo_sat is set when a
clamp acted and otherwise unchanged. No register but TS_INTEG, TS_RATE and TIME_STAT and no byte of memory changes. -/
def Obligations.ServoFollowsOffsets : Prop :=
  (∀ p (v : Word) s i0 i r0 r, (s.fld F.TIME_CFG_src = 0 ∨ (s.fld F.TIME_CFG_src = 2 ∧ p = .tilin)) →
    i0 = (s.reg .TS_INTEG 0).toInt + divHalfAway (s.fld F.TIME_GAIN_ki * v.toInt) 256 →
    i = max (-2147483) (min 2147483 i0) → r0 = i + divHalfAway (s.fld F.TIME_GAIN_kp * v.toInt) 256 →
    r = max (-2147483) (min 2147483 r0) →
    ∃ t, exec (.tsOffsetWrite p v) s = .next t ∧ (t.reg .TS_INTEG 0).toInt = i ∧ (t.reg .TS_RATE 0).toInt = r ∧
      ((i ≠ i0 ∨ r ≠ r0) → t.fld F.TIME_STAT_servo_sat = 1) ∧
      (i = i0 → r = r0 → t.reg .TIME_STAT 0 = s.reg .TIME_STAT 0) ∧
      RegsBut [(.TS_INTEG, 0), (.TS_RATE, 0), (.TIME_STAT, 0)] s t ∧ SameBytes s t ∧ t.pending = s.pending) ∧
  (∀ x y : Int, y = divHalfAway x 256 →
    (0 ≤ x → 256 * y - 128 ≤ x ∧ x < 256 * y + 128) ∧ (x < 0 → 256 * y - 128 < x ∧ x ≤ 256 * y + 128))

/-- The CRC-32C of the ASCII bytes "123456789" is 0xE306_9283. Sealing an OPEN tile leaves it SEALED with the CRC of its
4,096 bytes, and changes no byte and no register; a consumer then opens it, changing nothing. A consumer that opens
a SEALED Larder tile whose contents no longer match is refused, and the tile is QUARANTINED; a consumer of a
QUARANTINED tile is refused and nothing changes. -/
def Obligations.SealedTilesAreVerified : Prop :=
  crc32c [0x31, 0x32, 0x33, 0x34, 0x35, 0x36, 0x37, 0x38, 0x39] = 0xE3069283 ∧
  (∀ (s u : State) k, (s.tile k).state = .open → u = s.sealTile k →
    (u.tile k).state = .sealed ∧
    (u.tile k).sum = BitVec.ofNat 32 (crc32c ((List.range 4096).map fun i => s.byte (tileAddr k + i))) ∧
    (∀ j, j ≠ k → u.tile j = s.tile j) ∧ SameBytes s u ∧ u.regs = s.regs ∧ (∀ c b, u.openTile k c b = (true, u))) ∧
  (∀ (s : State) k c b, k < 6144 → (s.tile k).state = .sealed →
    (s.tile k).sum ≠ BitVec.ofNat 32 (crc32c ((List.range 4096).map fun i => s.byte (tileAddr k + i))) →
    (s.openTile k c b).1 = false ∧ ((s.openTile k c b).2.tile k).state = .quarantined) ∧
  (∀ (s : State) k c b, (s.tile k).state = .quarantined → s.openTile k c b = (false, s))

/-- While a management core has run (outside the bypass of the boot staging range), with a of a Larder tile t in a bank
that is ON, or of a usable Pantry tile, through CSPI's window and through REG_WR and REG_RD (u: the state once the
frame is received): an OPEN Larder tile held from the same port is written, one not so held gives CLAIM, a SEALED
one and any QUARANTINED tile TILE, a Pantry tile CLAIM; all but QUARANTINED tiles read their data, unchecked, and
those read 0 with TILE. The remote window gives WIN_TARGET both ways. Every refused access leaves the state but for
the error recorded. -/
def Obligations.HostMemoryAccessFollowsTheTile : Prop :=
  (∀ addr (v : Word) s a e, s.cspiUp = true → 5 ≤ s.stage → s.stage < 8 → 0x800000 ≤ addr → addr < 2 ^ 24 → a = s.winByte addr →
    (∀ t, s.target a = .larder t → s.fld F.PWR_DOM_state (dLar + bankOf t) = 0 →
      e = (if (s.tile t).state ≠ .open then errTile else errClaim) →
      ((s.tile t).state = .open ∧ s.portHolds .cspi resTile t = true →
        exec (.cspiWrite addr 32 [v]) s = .next ((s.setMemWord a v).setMiso [])) ∧
      (¬ ((s.tile t).state = .open ∧ s.portHolds .cspi resTile t = true) →
        exec (.cspiWrite addr 32 [v]) s = .next ((s.accErr .cspi a e).setMiso [])) ∧
      ((s.tile t).state ≠ .quarantined → exec (.cspiRead addr 1 none) s = .next (s.setMiso [s.memWord a])) ∧
      ((s.tile t).state = .quarantined → exec (.cspiRead addr 1 none) s = .next ((s.accErr .cspi a errTile).setMiso [0]))) ∧
    (∀ t, s.target a = .pantry t → e = (if (s.tile (panKey t)).state = .quarantined then errTile else errClaim) →
      exec (.cspiWrite addr 32 [v]) s = .next ((s.accErr .cspi a e).setMiso []) ∧
      ((s.tile (panKey t)).state ≠ .quarantined → exec (.cspiRead addr 1 none) s = .next (s.setMiso [s.memWord a])) ∧
      ((s.tile (panKey t)).state = .quarantined →
        exec (.cspiRead addr 1 none) s = .next ((s.accErr .cspi a errTile).setMiso [0]))) ∧
    (s.target a = .remote → exec (.cspiWrite addr 32 [v]) s = .next ((s.accErr .cspi a errWin).setMiso []) ∧
      exec (.cspiRead addr 1 none) s = .next ((s.accErr .cspi a errWin).setMiso [0]))) ∧
  (∀ a (v : Word) s u e, s.rxOpen = true → u = s.received 0 (len8Of 4) → 5 ≤ u.stage → u.stage < 8 → a % 4 = 0 → a < 2 ^ 40 →
    (∀ t, u.target a = .larder t → u.fld F.PWR_DOM_state (dLar + bankOf t) = 0 →
      e = (if (u.tile t).state ≠ .open then errTile else errClaim) →
      ((u.tile t).state = .open ∧ u.portHolds .link resTile t = true → exec (.regWr a 1 [v]) s = .next (u.setMemWord a v)) ∧
      (¬ ((u.tile t).state = .open ∧ u.portHolds .link resTile t = true) →
        exec (.regWr a 1 [v]) s = .next (u.accErr .link a e))) ∧
    (∀ t, u.target a = .pantry t → e = (if (u.tile (panKey t)).state = .quarantined then errTile else errClaim) →
      exec (.regWr a 1 [v]) s = .next (u.accErr .link a e)) ∧
    (u.target a = .remote → exec (.regWr a 1 [v]) s = .next (u.accErr .link a errWin))) ∧
  (∀ a s u h, s.rxOpen = true → u = s.received 0 (len8Of 3) → 5 ≤ u.stage → u.stage < 8 → a % 4 = 0 → a < 2 ^ 40 →
    h = (fun cause => [toWord (0x12 + 65536 * (a / 2 ^ 32)), toWord a, toWord 1, toWord cause]) →
    (∀ t k, (u.target a = .larder t ∧ k = t ∧ u.fld F.PWR_DOM_state (dLar + bankOf t) = 0) ∨
        (u.target a = .pantry t ∧ k = panKey t) →
      ((u.tile k).state ≠ .quarantined → exec (.regRd a 1) s = .next (u.sendFrame 0 (h 0 ++ [u.memWord a]))) ∧
      ((u.tile k).state = .quarantined →
        exec (.regRd a 1) s = .next ((u.accErr .link a errTile).sendFrame 0 (h errTile ++ [0])))) ∧
    (u.target a = .remote → exec (.regRd a 1) s = .next ((u.accErr .link a errWin).sendFrame 0 (h errWin ++ [0]))))

/-- For each of the 89 mailbox commands: readiness fails with ST_NOT_READY, then a word count outside the layout's range
with ST_BAD_ARG, then a 1 in a reserved bit of an argument word with ST_BAD_ARG, then, for a command that schedules
a radio-visible action while an S3 recovery runs, and for a command that names a unit whose recovery runs, ST_FAULT.
The next state is the state before with a response of that status and no words staged in the command's mailbox. -/
def Obligations.RefusedCommandsChangeNothing : Prop :=
  ∀ i c q s e, requestOf i = some (c, q) →
    (s.served c = false → e = stNotReady → exec i s = .next (s.stageRsp q.mbx { status := e, trivet := c.trivet })) ∧
    (s.served c = true → (q.args.length < c.minLen ∨ c.maxLen < q.args.length) → e = stBadArg →
      exec i s = .next (s.stageRsp q.mbx { status := e, trivet := c.trivet })) ∧
    (s.served c = true → c.minLen ≤ q.args.length → q.args.length ≤ c.maxLen → reservedOk c.masks q.args = false →
      e = stBadArg → exec i s = .next (s.stageRsp q.mbx { status := e, trivet := c.trivet })) ∧
    (s.served c = true → c.minLen ≤ q.args.length → q.args.length ≤ c.maxLen → reservedOk c.masks q.args = true →
      c.radio = true → s.s3Running = true → e = stFault →
      exec i s = .next (s.stageRsp q.mbx { status := e, trivet := c.trivet })) ∧
    (s.served c = true → c.minLen ≤ q.args.length → q.args.length ≤ c.maxLen → reservedOk c.masks q.args = true →
      (∃ u ∈ c.units q, s.underRecovery u.1 u.2 = true) → e = stFault →
      exec i s = .next (s.stageRsp q.mbx { status := e, trivet := c.trivet }))

/-- RESET_N low on a running device counts a reset in FLT_RESET.boots, sets by_pin and code 0, keeps the log, its index
and FLT_CNT, and gives every other copy of every register its reset value. A stopped HOSC on a running device is a
device reset: one more log entry with code 0x0205 and severity 4 at the log's index, FLT_RESET with code 0x0205 and
by_pin 0, FLT_CNT.faults one more, saturating; every other register copy outside the four takes its reset value. In
both the waiting commands stay. -/
def Obligations.ResetsKeepTheFaultLog : Prop :=
  (∀ s, s.sys.resetN = true → ∃ t, exec .resetNAssert s = .next t ∧
    t.fld F.FLT_RESET_boots = (s.fld F.FLT_RESET_boots + 1) % 256 ∧ t.fld F.FLT_RESET_by_pin = 1 ∧ t.fld F.FLT_RESET_code = 0 ∧
    (∀ i, t.reg .FLT_LOG i = s.reg .FLT_LOG i ∧ t.reg .FLT_LOG_WR i = s.reg .FLT_LOG_WR i ∧ t.reg .FLT_CNT i = s.reg .FLT_CNT i) ∧
    (∀ r i, r ≠ .FLT_LOG → r ≠ .FLT_LOG_WR → r ≠ .FLT_RESET → r ≠ .FLT_CNT → t.reg r i = r.resetValue i) ∧
    t.pending = s.pending) ∧
  (∀ s n, s.sys.resetN = true → s.sys.held = false → n = s.fld F.FLT_LOG_WR_wr → ∃ t, exec .hoscStop s = .next t ∧
    t.fld F.FLT_RESET_boots = (s.fld F.FLT_RESET_boots + 1) % 256 ∧ t.fld F.FLT_RESET_by_pin = 0 ∧
    t.fld F.FLT_RESET_code = 0x0205 ∧ t.fld F.FLT_CNT_faults = min 65535 (s.fld F.FLT_CNT_faults + 1) ∧
    t.fld F.FLT_LOG_WR_wr = (n + 1) % 64 ∧ t.reg .FLT_LOG (4 * n) = faultWord 0x0205 4 0 ∧
    (∀ i, i < 4 * n ∨ 4 * n + 4 ≤ i → t.reg .FLT_LOG i = s.reg .FLT_LOG i) ∧
    (∀ r i, r ≠ .FLT_LOG → r ≠ .FLT_LOG_WR → r ≠ .FLT_RESET → r ≠ .FLT_CNT → t.reg r i = r.resetValue i) ∧
    t.pending = s.pending)

/-- Right after reset, after RESET_N is taken low, and after a device reset for a supply below its limit or a stopped
HOSC, every output ball of R586 is at high impedance, whatever it showed before; from RESET_N rising the lanes of
OPL show electrical idle. -/
def Obligations.ResetFloatsEveryOutput : Prop :=
  (∀ b, State.reset.ball b = .z) ∧
  (∀ s, s.sys.resetN = true → ∃ t, exec .resetNAssert s = .next t ∧ ∀ b, t.ball b = .z) ∧
  (∀ r c s, r < 8 → s.sys.resetN = true → s.sys.held = false → ∃ t, exec (.vmonRstCrossing r c) s = .next t ∧ ∀ b, t.ball b = .z) ∧
  (∀ s, s.sys.resetN = true → s.sys.held = false → ∃ t, exec .hoscStop s = .next t ∧ ∀ b, t.ball b = .z) ∧
  (∀ n src ref, n < 8 → src < 4 → ∃ t, exec (.resetNRise src ref) State.reset = .next t ∧ t.ball (.oplTx n) = .idle)

/-- divHalfEven of a by b is an integer nearest a/b, even where two are as near. renormOf gives r = 0 with nothing kept,
16,384 with less than a quarter kept, otherwise between 4,096 and 16,384, and 4,096 with everything kept. A beam
component is the rounded acc r / 2^(27 + s) and a path sum component the rounded acc / 2^(15 + t), both limited to
±32,767, flagged exactly where the limit acted. The last sample of a cross-fade is the new bank's, and equal banks
fade without a change. A lane's descrambler that starts from its scrambler's 58 bits returns every bit that was
scrambled and ends with the same 58 bits. -/
def Obligations.SampleArithmeticRoundsExactly : Prop :=
  (∀ (a : Int) (b : Nat), 0 < b → 2 * (a - b * divHalfEven a b).natAbs ≤ b ∧
    (2 * (a - b * divHalfEven a b).natAbs = b → divHalfEven a b % 2 = 0)) ∧
  (∀ all kept, renormOf all 0 = 0 ∧ (0 < kept → 4 * kept < all → renormOf all kept = 16384) ∧
    (0 < kept → kept ≤ all → all ≤ 4 * kept → 4096 ≤ renormOf all kept ∧ renormOf all kept ≤ 16384) ∧
    (0 < kept → renormOf kept kept = 4096)) ∧
  (∀ (acc : Int) (r s : Nat) v, v = divHalfEven (acc * r) (2 ^ (27 + s)) →
    (beamOut acc r s).1 = max (-32767) (min 32767 v) ∧ ((beamOut acc r s).2 = true ↔ (beamOut acc r s).1 ≠ v)) ∧
  (∀ acc t v, v = divHalfEven acc (2 ^ (15 + t)) →
    (pathSumOut acc t).1 = max (-32767) (min 32767 v) ∧ ((pathSumOut acc t).2 = true ↔ (pathSumOut acc t).1 ≠ v)) ∧
  (∀ f k old new, 1 ≤ f → fadeOut f (2 ^ f - 1) old new = sat24 new ∧ fadeOut f k new new = sat24 new) ∧
  (∀ s l, (descrambleBits s (scrambleBits s l).1).1 = l ∧ (descrambleBits s (scrambleBits s l).1).2 = (scrambleBits s l).2)
end

