-- ==== Sys2Proof/Laws/Store.lean ====
section
/-! SUPPORT. The laws of a store: a read after a write, and the canonical form that every write keeps. -/

namespace Sys2Proof.Machine

variable {α : Type}

@[simp] theorem Store.get_nil (d : Nat → α) (k : Nat) : Store.get d [] k = d k := rfl

theorem Store.get_insert (d : Nat → α) (m : Store α) (k : Nat) (x : α) (j : Nat) :
    Store.get d (Store.insert m k x) j = if k = j then x else Store.get d m j := by
  induction m with
  | nil => rfl
  | cons e t ih =>
    obtain ⟨i, v⟩ := e
    simp only [Store.insert]
    split
    · rfl
    · split
      · subst i
        simp only [Store.get]
        split <;> rfl
      · simp only [Store.get, ih]
        split
        · subst i
          rw [if_neg (by omega)]
        · rfl

theorem Store.get_erase (d : Nat → α) (m : Store α) (k j : Nat) :
    Store.get d (Store.erase m k) j = if k = j then d j else Store.get d m j := by
  induction m with
  | nil => simp [Store.erase]
  | cons e t ih =>
    obtain ⟨i, v⟩ := e
    simp only [Store.erase]
    split
    · subst i
      rw [ih]
      simp only [Store.get]
      split <;> rfl
    · simp only [Store.get, ih]
      split
      · subst i
        rw [if_neg (by omega)]
      · rfl

/-- A read after a write. -/
theorem Store.get_set [DecidableEq α] (d : Nat → α) (m : Store α) (k : Nat) (x : α) (j : Nat) :
    Store.get d (Store.set d m k x) j = if k = j then x else Store.get d m j := by
  unfold Store.set
  split
  · rename_i h
    rw [Store.get_erase]
    split
    · rename_i e
      rw [← e, h]
    · rfl
  · exact Store.get_insert ..

@[simp] theorem Store.get_set_same [DecidableEq α] (d : Nat → α) (m : Store α) (k : Nat) (x : α) :
    Store.get d (Store.set d m k x) k = x := by
  rw [Store.get_set, if_pos rfl]

theorem Store.get_set_other [DecidableEq α] (d : Nat → α) (m : Store α) (k : Nat) (x : α) (j : Nat) (h : k ≠ j) :
    Store.get d (Store.set d m k x) j = Store.get d m j := by
  rw [Store.get_set, if_neg h]

/-! ### The canonical form -/

variable [DecidableEq α]

/-- What `wfFrom` says of its lower bound. -/
def Store.above : Option Nat → Nat → Bool
  | none, _ => true
  | some l, j => decide (l < j)

theorem Store.wfFrom_cons (d : Nat → α) (lo : Option Nat) (j : Nat) (v : α) (t : Store α) :
    Store.wfFrom d lo ((j, v) :: t) = (Store.above lo j && decide (v ≠ d j) && Store.wfFrom d (some j) t) := by
  cases lo <;> rfl

theorem Store.wfFrom_mono (d : Nat → α) (m : Store α) (lo : Option Nat) (l : Nat) (h : Store.wfFrom d (some l) m = true)
    (hl : ∀ k, lo = some k → k ≤ l) : Store.wfFrom d lo m = true := by
  cases m with
  | nil => cases lo <;> rfl
  | cons e t =>
    obtain ⟨j, v⟩ := e
    rw [Store.wfFrom_cons] at h ⊢
    simp only [Bool.and_eq_true] at h ⊢
    refine ⟨⟨?_, h.1.2⟩, h.2⟩
    have h1 := h.1.1
    cases lo with
    | none => rfl
    | some k =>
      have := hl k rfl
      simp only [Store.above, decide_eq_true_eq] at h1 ⊢
      omega

theorem Store.wfFrom_insert (d : Nat → α) (m : Store α) (lo : Option Nat) (k : Nat) (x : α)
    (h : Store.wfFrom d lo m = true) (hk : Store.above lo k = true) (hx : x ≠ d k) :
    Store.wfFrom d lo (Store.insert m k x) = true := by
  induction m generalizing lo with
  | nil => simp [Store.insert, Store.wfFrom_cons, hk, hx, Store.wfFrom]
  | cons e t ih =>
    obtain ⟨j, v⟩ := e
    rw [Store.wfFrom_cons] at h
    simp only [Bool.and_eq_true, decide_eq_true_eq] at h
    simp only [Store.insert]
    split
    · rename_i hlt
      rw [Store.wfFrom_cons, Store.wfFrom_cons]
      simp only [Bool.and_eq_true, decide_eq_true_eq]
      exact ⟨⟨hk, hx⟩, ⟨⟨decide_eq_true hlt, h.1.2⟩, h.2⟩⟩
    · split
      · subst j
        simp [Store.wfFrom_cons, hk, hx, h.2]
      · rename_i h1 h2
        rw [Store.wfFrom_cons]
        simp only [Bool.and_eq_true, decide_eq_true_eq]
        refine ⟨h.1, ih (some j) h.2 ?_⟩
        simp only [Store.above, decide_eq_true_eq]
        omega

theorem Store.wfFrom_erase (d : Nat → α) (m : Store α) (lo : Option Nat) (k : Nat) (h : Store.wfFrom d lo m = true) :
    Store.wfFrom d lo (Store.erase m k) = true := by
  induction m generalizing lo with
  | nil => exact h
  | cons e t ih =>
    obtain ⟨j, v⟩ := e
    rw [Store.wfFrom_cons] at h
    simp only [Bool.and_eq_true, decide_eq_true_eq] at h
    simp only [Store.erase]
    split
    · refine ih lo (Store.wfFrom_mono d t lo j h.2 ?_)
      rintro l rfl
      have := h.1.1
      simp only [Store.above, decide_eq_true_eq] at this
      omega
    · rw [Store.wfFrom_cons]
      simp only [Bool.and_eq_true, decide_eq_true_eq]
      exact ⟨h.1, ih (some j) h.2⟩

/-- A write keeps the canonical form. -/
theorem Store.wf_set (d : Nat → α) (m : Store α) (k : Nat) (x : α) (h : Store.wf d m = true) :
    Store.wf d (Store.set d m k x) = true := by
  unfold Store.set
  split
  · exact Store.wfFrom_erase d m none k h
  · rename_i hx
    exact Store.wfFrom_insert d m none k x h rfl hx

/-- The entries that a test keeps stay canonical, also under a default that agrees with the old one on them. -/
theorem Store.wf_filter (d d' : Nat → α) (p : Nat → Bool) (m : Store α) (h : Store.wf d m = true)
    (hd : ∀ k, p k = true → d' k = d k) : Store.wf d' (m.filter fun x => p x.1) = true := by
  suffices H : ∀ lo, Store.wfFrom d lo m = true → Store.wfFrom d' lo (m.filter fun x => p x.1) = true from H none h
  clear h
  induction m with
  | nil => intro lo _; cases lo <;> rfl
  | cons e t ih =>
    intro lo h
    obtain ⟨j, v⟩ := e
    rw [Store.wfFrom_cons] at h
    simp only [Bool.and_eq_true, decide_eq_true_eq] at h
    rw [List.filter_cons]
    split
    · rename_i hp
      rw [Store.wfFrom_cons]
      simp only [Bool.and_eq_true, decide_eq_true_eq]
      exact ⟨⟨h.1.1, by rw [hd j hp]; exact h.1.2⟩, ih (some j) h.2⟩
    · refine ih lo (Store.wfFrom_mono d t lo j h.2 ?_)
      rintro l rfl
      have := h.1.1
      simp only [Store.above, decide_eq_true_eq] at this
      omega

end Sys2Proof.Machine
end

