-- ==== Sys2Proof/Laws/HoldsBase.lean ====
section
/-! SUPPORT. What every shared operation over registers, samples, memory, events and responses keeps: the canonical
form and the queue: each answers a next state (OutHolds). -/

namespace Sys2Proof.Machine
open Host

/-! ### Registers -/

def State.Holds (W : Bool × List Instr) (s : State) : Prop :=
  (W.1 = true → Store.wf regDefault s.regs = true) ∧ (W.1 = true → Store.wf (byteDefault s.mem.undef) s.mem.bytes = true) ∧
    s.pending = W.2

def OutHolds (W : Bool × List Instr) : Outcome State Fault Refusal → Prop
  | .next t => t.Holds W
  | _ => False

theorem id_holds {W : Bool × List Instr} {s : State} (h : s.Holds W) : (id s).Holds W := h

theorem next_holds {W : Bool × List Instr} {t : State} (h : t.Holds W) : OutHolds W (.next t) := h

theorem ite_holds {W : Bool × List Instr} {c : Prop} [Decidable c] {a b : State} (ha : a.Holds W) (hb : b.Holds W) :
    (if c then a else b).Holds W := by
  split
  · exact ha
  · exact hb

theorem ite_out {W : Bool × List Instr} {c : Prop} [Decidable c] {a b : Outcome State Fault Refusal} (ha : OutHolds W a)
    (hb : OutHolds W b) : OutHolds W (if c then a else b) := by
  split
  · exact ha
  · exact hb

theorem ite_fst {W : Bool × List Instr} {α : Type} {c : Prop} [Decidable c] {a b : State × α} (ha : a.1.Holds W)
    (hb : b.1.Holds W) : (if c then a else b).1.Holds W := by
  split
  · exact ha
  · exact hb

theorem ite_snd {W : Bool × List Instr} {α : Type} {c : Prop} [Decidable c] {a b : α × State} (ha : a.2.Holds W)
    (hb : b.2.Holds W) : (if c then a else b).2.Holds W := by
  split
  · exact ha
  · exact hb

theorem foldl_holds {W : Bool × List Instr} {α : Type} {f : State → α → State} {xs : List α} {s : State} (h : s.Holds W)
    (hf : ∀ (s : State) (x : α), s.Holds W → (f s x).Holds W) : (xs.foldl f s).Holds W := by
  induction xs generalizing s with
  | nil => exact h
  | cons x t ih => exact ih (hf s x h)

theorem foldl_snd {W : Bool × List Instr} {α β : Type} {f : β × State → α → β × State} {xs : List α} {s : β × State}
    (h : s.2.Holds W) (hf : ∀ (s : β × State) (x : α), s.2.Holds W → (f s x).2.Holds W) : (xs.foldl f s).2.Holds W := by
  induction xs generalizing s with
  | nil => exact h
  | cons x t ih => exact ih (hf s x h)

theorem foldl_fst {W : Bool × List Instr} {α β : Type} {f : State × β → α → State × β} {xs : List α} {s : State × β}
    (h : s.1.Holds W) (hf : ∀ (s : State × β) (x : α), s.1.Holds W → (f s x).1.Holds W) : (xs.foldl f s).1.Holds W := by
  induction xs generalizing s with
  | nil => exact h
  | cons x t ih => exact ih (hf s x h)

theorem of_snd {W : Bool × List Instr} {α : Type} {p : α × State} {b : α} {t : State} (e : p = (b, t)) (h : p.2.Holds W) :
    t.Holds W := by
  subst e
  exact h

theorem of_fst {W : Bool × List Instr} {α : Type} {p : State × α} {b : α} {t : State} (e : p = (t, b)) (h : p.1.Holds W) :
    t.Holds W := by
  subst e
  exact h

def OptHolds (W : Bool × List Instr) (o : Option State) : Prop := ∀ t, o = some t → t.Holds W

def PairHolds {α : Type} (W : Bool × List Instr) (o : Option (α × State)) : Prop := ∀ a t, o = some (a, t) → t.Holds W

def OptOut (W : Bool × List Instr) (o : Option (Outcome State Fault Refusal)) : Prop := ∀ x, o = some x → OutHolds W x

theorem none_holds {W : Bool × List Instr} : OptHolds W none := by
  intro t e
  cases e

theorem some_holds {W : Bool × List Instr} {t : State} (h : t.Holds W) : OptHolds W (some t) := by
  intro t' e
  cases e
  exact h

theorem none_pair {α : Type} {W : Bool × List Instr} : PairHolds (α := α) W none := by
  intro a t e
  cases e

theorem some_pair {α : Type} {W : Bool × List Instr} {a : α} {t : State} (h : t.Holds W) : PairHolds W (some (a, t)) := by
  intro a' t' e
  cases e
  exact h

theorem none_out {W : Bool × List Instr} : OptOut W none := by
  intro t e
  cases e

theorem some_out {W : Bool × List Instr} {x : Outcome State Fault Refusal} (h : OutHolds W x) : OptOut W (some x) := by
  intro t' e
  cases e
  exact h

theorem ite_opt {W : Bool × List Instr} {c : Prop} [Decidable c] {a b : Option State} (ha : OptHolds W a) (hb : OptHolds W b) :
    OptHolds W (if c then a else b) := by
  split
  · exact ha
  · exact hb

theorem ite_pair {α : Type} {W : Bool × List Instr} {c : Prop} [Decidable c] {a b : Option (α × State)} (ha : PairHolds W a)
    (hb : PairHolds W b) : PairHolds W (if c then a else b) := by
  split
  · exact ha
  · exact hb

theorem map_pair {α : Type} {W : Bool × List Instr} {o : Option State} {a : α} (h : OptHolds W o) :
    PairHolds W (o.map fun t => (a, t)) := by
  cases o with
  | none => exact none_pair
  | some t => exact some_pair (h t rfl)

theorem map_opt {α : Type} {W : Bool × List Instr} {o : Option α} {f : α → State} (h : ∀ a, (f a).Holds W) :
    OptHolds W (o.map f) := by
  cases o with
  | none => exact none_holds
  | some a => exact some_holds (h a)

theorem of_opt {W : Bool × List Instr} {o : Option State} {t : State} (e : o = some t) (h : OptHolds W o) : t.Holds W := h t e

theorem of_pair {α : Type} {W : Bool × List Instr} {o : Option (α × State)} {a : α} {t : State} (e : o = some (a, t))
    (h : PairHolds W o) : t.Holds W := h a t e

theorem of_out {W : Bool × List Instr} {o : Option (Outcome State Fault Refusal)} {x : Outcome State Fault Refusal}
    (e : o = some x) (h : OptOut W o) : OutHolds W x := h x e

theorem getD_holds {W : Bool × List Instr} {o : Option State} {s : State} (ho : OptHolds W o) (h : s.Holds W) :
    (o.getD s).Holds W := by
  cases o with
  | none => exact h
  | some t => exact ho t rfl

theorem mk_holds_iff {W : Bool × List Instr} {regs : Store Word} {sys : SysSt} {mode : ModeSt} {time : TimeSt} {mem : MemSt}
    {flt : FaultSt} {rxb : RxbSt} {link : LinkSt} {rx : RxSt} {radio : RadioSt} {tx : TxSt} {beam : BeamSt}
    {sieve : SieveSt} {pwr : PwrSt} {clk : ClkSt} {dpd : DpdSt} {cal : CalSt} {dp : DpSt} {free : Nat} {pending : List Instr} :
    (State.mk regs sys mode time mem flt rxb link rx radio tx beam sieve pwr clk dpd cal dp free pending).Holds W ↔
      (W.1 = true → Store.wf regDefault regs = true) ∧ (W.1 = true → Store.wf (byteDefault mem.undef) mem.bytes = true) ∧ pending = W.2 :=
  Iff.rfl

theorem holds_parts {W : Bool × List Instr} {s : State} (h : s.Holds W) :
    (W.1 = true → Store.wf regDefault s.regs = true) ∧ (W.1 = true → Store.wf (byteDefault s.mem.undef) s.mem.bytes = true) ∧
    s.pending = W.2 := h

theorem State.setReg_holds {W : Bool × List Instr} {s : State} {r : RegName} {i : Nat} {w : Word} (h : s.Holds W) :
    (s.setReg r i w).Holds W :=
  ⟨fun w => Store.wf_set _ _ _ _ (h.1 w), h.2.1, h.2.2⟩

theorem State.setFld_holds {W : Bool × List Instr} {s : State} {f : Fld} {i : Nat} {v : Nat} (h : s.Holds W) : (State.setFld
  s f i v).Holds W := by
  unfold State.setFld
  with_reducible repeat' (first
    | assumption | apply State.setReg_holds)

theorem State.setFlag_holds {W : Bool × List Instr} {s : State} {f : Fld} {i : Nat} {b : Bool} (h : s.Holds W) :
  (State.setFlag s f i b).Holds W := by
  unfold State.setFlag
  with_reducible repeat' (first
    | assumption | apply State.setFld_holds)

theorem State.bump_holds {W : Bool × List Instr} {s : State} {f : Fld} {i : Nat} {n : Nat } (h : s.Holds W) : (State.bump s f
  i n).Holds W := by
  unfold State.bump
  with_reducible repeat' (first
    | assumption | apply State.setFld_holds)

theorem State.takeFree_holds {W : Bool × List Instr} {s : State} (h : s.Holds W) : (State.takeFree s).2.Holds W := by
  unfold State.takeFree
  dsimp only
  with_reducible repeat' (first
    | assumption | (simp only [mk_holds_iff]; refine holds_parts ?_))

/-! ### Samples -/

theorem State.setDpPath_holds {W : Bool × List Instr} {s : State} {p : Nat} {x : Option PathDp} (h : s.Holds W) :
  (State.setDpPath s p x).Holds W := by
  unfold State.setDpPath
  dsimp only
  with_reducible repeat' (first
    | assumption | (simp only [mk_holds_iff]; refine holds_parts ?_))

theorem State.openPath_holds {W : Bool × List Instr} {s : State} {p : Nat} (h : s.Holds W) : (State.openPath s
  p).Holds W := by
  unfold State.openPath
  dsimp only
  with_reducible repeat' (first
    | assumption | apply State.setDpPath_holds)

/-! ### Views -/

theorem State.setSide_holds {W : Bool × List Instr} {s : State} {k : Nat} {x : SideSt} (h : s.Holds W) : (State.setSide s k
  x).Holds W := by
  unfold State.setSide
  dsimp only
  with_reducible repeat' (first
    | assumption | (simp only [mk_holds_iff]; refine holds_parts ?_))

theorem State.settleSpan_holds {W : Bool × List Instr} {s : State} {p : Nat} {lo hi : Int} (h : s.Holds W) :
  (State.settleSpan s p lo hi).Holds W := by
  unfold State.settleSpan
  dsimp only
  with_reducible repeat' (first
    | assumption | apply State.setFld_holds | (simp only [mk_holds_iff]; refine holds_parts ?_))

theorem State.settleFor_holds {W : Bool × List Instr} {s : State} {p n : Nat} (h : s.Holds W) : (State.settleFor s p
  n).Holds W := by
  unfold State.settleFor
  with_reducible repeat' (first
    | assumption | apply State.settleSpan_holds)

theorem State.settleOpen_holds {W : Bool × List Instr} {s : State} {p : Nat} (h : s.Holds W) : (State.settleOpen s
  p).Holds W := by
  unfold State.settleOpen
  with_reducible repeat' (first
    | assumption | apply State.settleSpan_holds)

theorem State.settleClose_holds {W : Bool × List Instr} {s : State} {p : Nat} (h : s.Holds W) : (State.settleClose s
  p).Holds W := by
  unfold State.settleClose
  dsimp only
  with_reducible repeat' (first
    | assumption | (simp only [mk_holds_iff]; refine holds_parts ?_))

theorem State.setOvrEv_holds {W : Bool × List Instr} {s : State} {k : Nat} {e : Option OvrEv} (h : s.Holds W) :
  (State.setOvrEv s k e).Holds W := by
  unfold State.setOvrEv
  dsimp only
  with_reducible repeat' (first
    | assumption | (simp only [mk_holds_iff]; refine holds_parts ?_))

theorem State.setDistWin_holds {W : Bool × List Instr} {s : State} {p : Nat} {w : Option DistWin} (h : s.Holds W) :
  (State.setDistWin s p w).Holds W := by
  unfold State.setDistWin
  dsimp only
  with_reducible repeat' (first
    | assumption | (simp only [mk_holds_iff]; refine holds_parts ?_))

theorem State.refreshPath_holds {W : Bool × List Instr} {s : State} {p : Nat} (h : s.Holds W) : (State.refreshPath s p).Holds
  W := by
  unfold State.refreshPath
  dsimp only
  with_reducible repeat' (first
    | assumption | apply State.setFlag_holds)

theorem State.setWeights_holds {W : Bool × List Instr} {s : State} {beam bank : Nat} {l : List Word} (h : s.Holds W) :
  (State.setWeights s beam bank l).Holds W := by
  unfold State.setWeights
  dsimp only
  with_reducible repeat' (first
    | assumption | (simp only [mk_holds_iff]; refine holds_parts ?_))

theorem State.aallReg_holds {W : Bool × List Instr} {s : State} {b : Nat} (h : s.Holds W) : (State.aallReg s b).Holds W := by
  unfold State.aallReg
  with_reducible repeat' (first
    | assumption | apply State.setFld_holds)

theorem State.beamEvt_holds {W : Bool × List Instr} {s : State} {b : Nat} {v : BeamView} (h : s.Holds W) :
  (State.beamEvt s b v).Holds W := by
  unfold State.beamEvt
  dsimp only
  with_reducible repeat' (first
    | assumption | apply State.setFld_holds | apply ite_holds)

theorem State.refreshBeam_holds {W : Bool × List Instr} {s : State} {b : Nat} (h : s.Holds W) : (State.refreshBeam s
  b).Holds W := by
  unfold State.refreshBeam
  dsimp only
  with_reducible repeat' (first
    | assumption | apply State.setFld_holds | apply State.setFlag_holds | apply State.beamEvt_holds | apply ite_holds)

/-! ### Equaliser -/

theorem State.setEq_holds {W : Bool × List Instr} {s : State} {n : Nat} {e : Option EqSt} (h : s.Holds W) :
  (State.setEq s n e).Holds W := by
  unfold State.setEq
  dsimp only
  with_reducible repeat' (first
    | assumption | (simp only [mk_holds_iff]; refine holds_parts ?_))

/-! ### TxSamples -/

theorem State.setTxLine_holds {W : Bool × List Instr} {s : State} {u : Nat} {x : Option TxLine} (h : s.Holds W) :
  (State.setTxLine s u x).Holds W := by
  unfold State.setTxLine
  dsimp only
  with_reducible repeat' (first
    | assumption | (simp only [mk_holds_iff]; refine holds_parts ?_))

theorem State.startLine_holds {W : Bool × List Instr} {s : State} {u : Nat} (h : s.Holds W) : (State.startLine s
  u).Holds W := by
  unfold State.startLine
  with_reducible repeat' (first
    | assumption | apply State.setTxLine_holds | split)

theorem State.feedLine_holds {W : Bool × List Instr} {s : State} {u beam : Nat} {l : List Iq} (h : s.Holds W) :
  (State.feedLine s u beam l).Holds W := by
  unfold State.feedLine
  dsimp only
  with_reducible repeat' (first
    | assumption | apply State.setTxLine_holds)

theorem State.endLine_holds {W : Bool × List Instr} {s : State} {u : Nat} (h : s.Holds W) : (State.endLine s u).Holds
  W := by
  unfold State.endLine
  with_reducible repeat' (first
    | assumption | apply State.setTxLine_holds)

theorem State.setTxPath_holds {W : Bool × List Instr} {s : State} {p : Nat} {x : Option TxPath} (h : s.Holds W) :
  (State.setTxPath s p x).Holds W := by
  unfold State.setTxPath
  dsimp only
  with_reducible repeat' (first
    | assumption | (simp only [mk_holds_iff]; refine holds_parts ?_))

theorem State.pass_holds {W : Bool × List Instr} {s : State} {n : Nat} (h : s.Holds W) : (State.pass s n).Holds W :=
  by
  unfold State.pass
  dsimp only
  with_reducible repeat' (first
    | assumption | apply ite_holds | (simp only [mk_holds_iff]; refine holds_parts ?_))

/-! ### Ops -/

theorem State.accErr_holds {W : Bool × List Instr} {s : State} {p : Port} {addr cause : Nat} (h : s.Holds W) : (State.accErr
  s p addr cause).Holds W := by
  unfold State.accErr
  with_reducible repeat' (first
    | assumption | apply State.setReg_holds | apply State.setFld_holds | apply State.bump_holds | apply ite_holds)

theorem State.setByte_holds {W : Bool × List Instr} {s : State} {a : Nat} {b : Byte} (h : s.Holds W) : (s.setByte a b).Holds W :=
  ⟨h.1, fun w => Store.wf_set _ _ _ _ (h.2.1 w), h.2.2⟩

theorem State.loseBank_holds {W : Bool × List Instr} {s : State} {b : Nat} (h : s.Holds W) : (s.loseBank b).Holds W := by
  refine ⟨h.1, fun w => ?_, h.2.2⟩
  refine Store.wf_filter (byteDefault s.mem.undef) _ (fun k => decide (bankOfAddr k ≠ b)) _ (h.2.1 w) ?_
  intro k hk
  have hk : bankOfAddr k ≠ b := of_decide_eq_true hk
  unfold byteDefault State.loseBank
  dsimp only
  rw [Store.get_set_other _ _ _ _ _ (Ne.symm hk)]

theorem State.setMemWord_holds {W : Bool × List Instr} {s : State} {a : Nat} {w : Word} (h : s.Holds W) : (State.setMemWord s
  a w).Holds W := by
  unfold State.setMemWord
  with_reducible repeat' (first
    | assumption | apply State.setByte_holds)

theorem State.setMemWords_holds {W : Bool × List Instr} {s : State} {a : Nat} {ws : List Word} (h : s.Holds W) :
    (s.setMemWords a ws).Holds W := by
  induction ws generalizing s a with
  | nil => exact h
  | cons w t ih => exact ih (State.setMemWord_holds h)

theorem State.setTile_holds {W : Bool × List Instr} {s : State} {k : Nat} {t : Tile} (h : s.Holds W) : (State.setTile s k
  t).Holds W := by
  unfold State.setTile
  dsimp only
  with_reducible repeat' (first
    | assumption | (simp only [mk_holds_iff]; refine holds_parts ?_))

theorem State.sealTile_holds {W : Bool × List Instr} {s : State} {k : Nat} (h : s.Holds W) : (State.sealTile s k).Holds W :=
  by
  unfold State.sealTile
  dsimp only
  with_reducible repeat' (first
    | assumption | apply State.setTile_holds | apply ite_holds)

theorem State.reopenTile_holds {W : Bool × List Instr} {s : State} {k : Nat} (h : s.Holds W) : (State.reopenTile s k).Holds W
  := by
  unfold State.reopenTile
  dsimp only
  with_reducible repeat' (first
    | assumption | apply State.setTile_holds | apply ite_holds)

theorem State.ringWrite_holds {W : Bool × List Instr} {s : State} {e : EvtRec} (h : s.Holds W) : (State.ringWrite s e).Holds
  W := by
  unfold State.ringWrite
  dsimp only
  with_reducible repeat' (first
    | assumption | apply State.setFld_holds | apply State.setMemWords_holds | apply ite_holds)

theorem State.holdEvt_holds {W : Bool × List Instr} {s : State} {e : EvtRec} (h : s.Holds W) : (State.holdEvt s e).Holds W :=
  by
  unfold State.holdEvt
  dsimp only
  with_reducible repeat' (first
    | assumption | apply ite_holds | (simp only [mk_holds_iff]; refine holds_parts ?_))

theorem State.formFrame_holds {W : Bool × List Instr} {s : State} {f : Frame} (h : s.Holds W) : (State.formFrame s f).Holds W
  := by
  unfold State.formFrame
  dsimp only
  with_reducible repeat' (first
    | assumption | apply ite_holds | (simp only [mk_holds_iff]; refine holds_parts ?_))

theorem State.sendFrame_holds {W : Bool × List Instr} {s : State} {stream : Nat} {ws : List Word} (h : s.Holds W) :
  (State.sendFrame s stream ws).Holds W := by
  unfold State.sendFrame
  with_reducible repeat' (first
    | assumption | apply State.formFrame_holds)

theorem State.closeEvents_holds {W : Bool × List Instr} {s : State} (h : s.Holds W) : (State.closeEvents s).Holds W := by
  unfold State.closeEvents
  dsimp only
  with_reducible repeat' (first
    | assumption | apply State.sendFrame_holds | apply ite_holds | (simp only [mk_holds_iff]; refine holds_parts ?_))

theorem State.evtToLink_holds {W : Bool × List Instr} {s : State} {e : EvtRec} (h : s.Holds W) : (State.evtToLink s e).Holds
  W := by
  unfold State.evtToLink
  dsimp only
  with_reducible repeat' (first
    | assumption | apply State.closeEvents_holds | apply ite_holds | (simp only [mk_holds_iff]; refine holds_parts ?_)
    | split)

theorem State.postAt_holds {W : Bool × List Instr} {s : State} {t : T48} {code cls : Nat} {arg : Word} {cmd : Option Cmd }
  {sw : Bool } (h : s.Holds W) : (State.postAt s t code cls arg cmd sw).Holds W := by
  unfold State.postAt
  dsimp only
  with_reducible repeat' (first
    | assumption | apply State.ringWrite_holds | apply State.holdEvt_holds | apply State.evtToLink_holds
    | apply ite_holds | (simp only [mk_holds_iff]; refine holds_parts ?_))

theorem State.post_holds {W : Bool × List Instr} {s : State} {code cls : Nat} {arg : Word} {cmd : Option Cmd } (h : s.Holds
  W) : (State.post s code cls arg cmd).Holds W := by
  unfold State.post
  with_reducible repeat' (first
    | assumption | apply State.postAt_holds)

theorem State.setWindow_holds {W : Bool × List Instr} {s : State} {code scope : Nat} {w : Option RlWin} (h : s.Holds W) :
  (State.setWindow s code scope w).Holds W := by
  unfold State.setWindow
  dsimp only
  with_reducible repeat' (first
    | assumption | (simp only [mk_holds_iff]; refine holds_parts ?_))

theorem State.closeWindow_holds {W : Bool × List Instr} {s : State} {code scope : Nat} {t : T48} (h : s.Holds W) :
  (State.closeWindow s code scope t).Holds W := by
  unfold State.closeWindow
  with_reducible repeat' (first
    | assumption | apply State.postAt_holds | apply State.setWindow_holds | apply ite_holds | split)

theorem State.postLimited_holds {W : Bool × List Instr} {s : State} {code scope : Nat} {arg : Word} {t : T48} {n :
  Nat} (h : s.Holds W) : (State.postLimited s code scope arg t n).Holds W := by
  unfold State.postLimited
  dsimp only
  with_reducible repeat' (first
    | assumption | apply State.postAt_holds | apply State.setWindow_holds | apply State.closeWindow_holds
    | apply ite_holds | split)

theorem State.postWraps_holds {W : Bool × List Instr} {s : State} {first : Int} {n : Nat} (h : s.Holds W) :
    (s.postWraps first n).Holds W := by
  induction n generalizing s first with
  | zero => exact h
  | succ n ih => exact ih (State.postAt_holds h)

theorem State.advanceTo_holds {W : Bool × List Instr} {s : State} {ticks : Int} (h : s.Holds W) : (State.advanceTo s
  ticks).Holds W := by
  unfold State.advanceTo
  dsimp only
  with_reducible repeat' (first
    | assumption | apply State.postWraps_holds | (simp only [mk_holds_iff]; refine holds_parts ?_))

theorem State.tick_holds {W : Bool × List Instr} {s : State} (h : s.Holds W) : (State.tick s).Holds W := by
  unfold State.tick
  with_reducible repeat' (first
    | assumption | apply State.pass_holds | apply State.advanceTo_holds | apply ite_holds)

theorem State.elapseTo_holds {W : Bool × List Instr} {s : State} {t : T48} (h : s.Holds W) : (State.elapseTo s
  t).Holds W := by
  unfold State.elapseTo
  dsimp only
  with_reducible repeat' (first
    | assumption | apply State.pass_holds | apply State.advanceTo_holds | apply ite_holds)

theorem State.elapse_holds {W : Bool × List Instr} {s : State} {ns : Nat} (h : s.Holds W) : (State.elapse s ns).Holds W := by
  unfold State.elapse
  with_reducible repeat' (first
    | assumption | apply State.elapseTo_holds)

theorem State.logFault_holds {W : Bool × List Instr} {s : State} {code sev unit outcome : Nat} {queued dropped merged : Bool}
  {arg : Word} (h : s.Holds W) : (State.logFault s code sev unit outcome queued dropped merged arg).Holds W := by
  unfold State.logFault
  dsimp only
  with_reducible repeat' (first
    | assumption | apply State.setReg_holds | apply State.setFld_holds)

theorem State.logOutcome_holds {W : Bool × List Instr} {s : State} {n outcome : Nat} (h : s.Holds W) : (State.logOutcome s n
  outcome).Holds W := by
  unfold State.logOutcome
  with_reducible repeat' (first
    | assumption | apply State.setReg_holds)

theorem State.postRecovery_holds {W : Bool × List Instr} {s : State} {e : FaultEnt} {outcome : Nat} (h : s.Holds W) :
  (State.postRecovery s e outcome).Holds W := by
  unfold State.postRecovery
  with_reducible repeat' (first
    | assumption | apply State.post_holds | apply State.logOutcome_holds)

theorem State.faultRegs_holds {W : Bool × List Instr} {s : State} (h : s.Holds W) : (State.faultRegs s).Holds W := by
  unfold State.faultRegs
  dsimp only
  with_reducible repeat' (first
    | assumption | apply State.setReg_holds | apply State.setFld_holds | apply State.setFlag_holds | split)

theorem State.nmi_holds {W : Bool × List Instr} {s : State} {code : Nat} (h : s.Holds W) : (State.nmi s code).Holds W := by
  unfold State.nmi
  with_reducible repeat' (first
    | assumption | apply State.setFld_holds | split)

theorem State.postFault_holds {W : Bool × List Instr} {s : State} {code sev unit : Nat} {queued preempted : Bool} (h :
  s.Holds W) : (State.postFault s code sev unit queued preempted).Holds W := by
  unfold State.postFault
  with_reducible repeat' (first
    | assumption | apply State.postAt_holds)

theorem State.displace_holds {W : Bool × List Instr} {s : State} (h : s.Holds W) : (State.displace s).Holds W := by
  unfold State.displace
  with_reducible repeat' (first
    | assumption | apply State.setFld_holds | apply State.postLimited_holds)

theorem State.recoverOrQueue_holds {W : Bool × List Instr} {s : State} {code sev unit : Nat} {arg : Word} (h : s.Holds W) :
  (State.recoverOrQueue s code sev unit arg).Holds W := by
  unfold State.recoverOrQueue
  dsimp only
  with_reducible repeat' (first
    | assumption | apply State.setReg_holds | apply State.logFault_holds | apply State.postRecovery_holds
    | apply State.postFault_holds | apply State.displace_holds | apply ite_holds
    | (simp only [mk_holds_iff]; refine holds_parts ?_) | split)

theorem State.raiseFault_holds {W : Bool × List Instr} {s : State} {code unit : Nat} {arg : Word } (h : s.Holds W) :
  (State.raiseFault s code unit arg).Holds W := by
  unfold State.raiseFault
  dsimp only
  with_reducible repeat' (first
    | assumption | apply State.setReg_holds | apply State.setFld_holds | apply State.bump_holds
    | apply State.logFault_holds | apply State.faultRegs_holds | apply State.nmi_holds | apply State.postFault_holds
    | apply State.recoverOrQueue_holds | (simp only [mk_holds_iff]; refine holds_parts ?_) | split)

theorem State.postLate_holds {W : Bool × List Instr} {s : State} {unit crossing : Nat} {c : T48} (h : s.Holds W) :
  (State.postLate s unit crossing c).Holds W := by
  unfold State.postLate
  dsimp only
  with_reducible repeat' (first
    | assumption | apply State.postAt_holds | apply State.raiseFault_holds | apply ite_holds
    | (simp only [mk_holds_iff]; refine holds_parts ?_))

theorem State.setPolicy_holds {W : Bool × List Instr} {s : State} {mode : Nat} {p : Policy} (h : s.Holds W) :
  (State.setPolicy s mode p).Holds W := by
  unfold State.setPolicy
  dsimp only
  with_reducible repeat' (first
    | assumption | (simp only [mk_holds_iff]; refine holds_parts ?_))

theorem State.logPlace_holds {W : Bool × List Instr} {s : State} {kind ctx : Nat} {t : T48} {a b : Nat} (h : s.Holds W) :
  (State.logPlace s kind ctx t a b).Holds W := by
  unfold State.logPlace
  dsimp only
  with_reducible repeat' (first
    | assumption | apply State.setMemWord_holds | apply State.setMemWords_holds
    | (simp only [mk_holds_iff]; refine holds_parts ?_) | split)

theorem State.updateLimit_holds {W : Bool × List Instr} {s : State} {tiles : Bool} (h : s.Holds W) : (State.updateLimit s
  tiles).Holds W := by
  unfold State.updateLimit
  dsimp only
  with_reducible repeat' (first
    | assumption | apply State.post_holds | apply State.logPlace_holds | apply ite_holds
    | (simp only [mk_holds_iff]; refine holds_parts ?_))

theorem State.setOwner_holds {W : Bool × List Instr} {s : State} {ty i : Nat} {c : Option Claim} (h : s.Holds W) :
  (State.setOwner s ty i c).Holds W := by
  unfold State.setOwner
  dsimp only
  with_reducible repeat' (first
    | assumption | (simp only [mk_holds_iff]; refine holds_parts ?_))

theorem State.quarRegs_holds {W : Bool × List Instr} {s : State} (h : s.Holds W) : (State.quarRegs s).Holds W := by
  unfold State.quarRegs
  with_reducible repeat' (first
    | assumption | apply State.setFld_holds)

theorem State.useTile_holds {W : Bool × List Instr} {s : State} {k : Nat} (h : s.Holds W) : (State.useTile s k).Holds W := by
  unfold State.useTile
  dsimp only
  with_reducible repeat' (first
    | assumption | apply State.setTile_holds)

theorem State.endUse_holds {W : Bool × List Instr} {s : State} {k : Nat} {t : Tile} (h : s.Holds W) :
  (State.endUse s k t).Holds W := by
  unfold State.endUse
  dsimp only
  with_reducible repeat' (first
    | assumption | apply State.setTile_holds | apply State.quarRegs_holds | apply State.updateLimit_holds
    | apply ite_holds)

theorem State.dropUse_holds {W : Bool × List Instr} {s : State} {k : Nat} (h : s.Holds W) : (State.dropUse s k).Holds W :=
  State.endUse_holds h

theorem State.releaseTile_holds {W : Bool × List Instr} {s : State} {k : Nat} (h : s.Holds W) : (State.releaseTile s k).Holds
  W := State.endUse_holds h

theorem State.releaseTiles_holds {W : Bool × List Instr} {s : State} {l : List Nat} (h : s.Holds W) : (State.releaseTiles s
  l).Holds W := by
  unfold State.releaseTiles
  with_reducible repeat' (first
    | assumption | intro _ | apply State.releaseTile_holds | apply foldl_holds)

theorem State.leaveRing_holds {W : Bool × List Instr} {s : State} (h : s.Holds W) : (State.leaveRing s).Holds W := by
  unfold State.leaveRing
  with_reducible repeat' (first
    | assumption | intro _ | apply State.dropUse_holds | apply ite_holds | apply foldl_holds)

theorem State.ownRun_holds {W : Bool × List Instr} {s : State} {first n : Nat} {c : Option Claim} (h : s.Holds W) :
  (State.ownRun s first n c).Holds W := by
  unfold State.ownRun
  with_reducible repeat' (first
    | assumption | intro _ | apply State.setOwner_holds | apply foldl_holds)

theorem State.placeRing_holds {W : Bool × List Instr} {s : State} {k : Nat} (h : s.Holds W) : OptHolds W (State.placeRing s
  k) := by
  unfold State.placeRing
  dsimp only
  with_reducible repeat' (first
    | assumption | exact none_holds | apply some_holds | apply State.setReg_holds | apply State.setFld_holds
    | apply State.ownRun_holds | apply State.leaveRing_holds | apply ite_holds
    | (simp only [mk_holds_iff]; refine holds_parts ?_) | split)

theorem State.bankMoved_holds {W : Bool × List Instr} {s : State} {b : Nat} (h : s.Holds W) : (State.bankMoved s b).Holds W
  := by
  unfold State.bankMoved
  with_reducible repeat' (first
    | assumption | apply State.placeRing_holds | apply ite_holds | apply getD_holds)

theorem State.raiseThen_holds {W : Bool × List Instr} {s : State} {code unit : Nat} {arg : Word} {start : State → State}
    (h : s.Holds W) (hs : ∀ s : State, s.Holds W → (start s).Holds W) : (s.raiseThen code unit arg start).Holds W := by
  unfold State.raiseThen
  dsimp only
  have : (s.raiseFault code unit arg).Holds W := State.raiseFault_holds h
  split
  · exact hs _ this
  · exact this

theorem State.thirdLoss_holds {W : Bool × List Instr} {s : State} {k : Nat} (h : s.Holds W) : (State.thirdLoss s
  k).2.Holds W := by
  unfold State.thirdLoss
  dsimp only
  with_reducible repeat' (first
    | assumption | apply ite_snd | (simp only [mk_holds_iff]; refine holds_parts ?_))

theorem State.quarIdle_holds {W : Bool × List Instr} {s : State} {b : Nat} (h : s.Holds W) : (State.quarIdle s b).Holds W :=
  by
  unfold State.quarIdle
  dsimp only
  with_reducible repeat' (first
    | assumption | intro _ | apply State.setTile_holds | apply ite_holds | apply foldl_holds)

theorem State.losePantry_holds {W : Bool × List Instr} {s : State} (h : s.Holds W) : (State.losePantry s).Holds W :=
  by
  unfold State.losePantry
  dsimp only
  with_reducible repeat' (first
    | assumption | apply State.loseBank_holds | apply ite_holds | (simp only [mk_holds_iff]; refine holds_parts ?_))

theorem State.pantryTo_holds {W : Bool × List Instr} {s : State} {st cause : Nat} (h : s.Holds W) : (State.pantryTo s
  st cause).Holds W := by
  unfold State.pantryTo
  dsimp only
  with_reducible repeat' (first
    | assumption | apply State.setFld_holds | apply State.setFlag_holds | apply State.post_holds
    | apply State.raiseFault_holds | apply State.quarRegs_holds | apply State.losePantry_holds | apply ite_holds)

theorem State.quarantine_holds {W : Bool × List Instr} {s : State} {k consumer : Nat} (h : s.Holds W) : (State.quarantine s k
  consumer).Holds W := by
  unfold State.quarantine
  dsimp only
  with_reducible repeat' (first
    | assumption | intro _ | apply State.setReg_holds | apply State.setTile_holds | apply State.post_holds
    | apply State.raiseFault_holds | apply State.updateLimit_holds | apply State.bankMoved_holds
    | apply State.raiseThen_holds | apply State.quarRegs_holds | apply State.quarIdle_holds
    | apply State.pantryTo_holds | apply ite_holds)

theorem State.openTile_holds {W : Bool × List Instr} {s : State} {k consumer : Nat} {sealFirst : Bool} (h : s.Holds W) :
  (State.openTile s k consumer sealFirst).2.Holds W := by
  unfold State.openTile
  with_reducible repeat' (first
    | assumption | apply State.sealTile_holds | apply State.quarantine_holds | apply ite_snd | apply ite_holds
    | split)

theorem State.openTiles_holds {W : Bool × List Instr} {s : State} {first consumer : Nat} {sealFirst : Bool} {n : Nat}
  (h : s.Holds W) : (State.openTiles s first consumer sealFirst n).2.Holds W := by
  unfold State.openTiles
  with_reducible repeat' (first
    | assumption | intro _ | apply State.openTile_holds | apply foldl_holds | split)

theorem State.cmdDone_holds {W : Bool × List Instr} {s : State} {c : Cmd} {status specific : Nat} (h : s.Holds W) :
  (State.cmdDone s c status specific).Holds W := by
  unfold State.cmdDone
  with_reducible repeat' (first
    | assumption | apply State.post_holds)

/-! ### Operands -/

theorem State.setMbx_holds {W : Bool × List Instr} {s : State} {n : Nat} {m : MbxSt} (h : s.Holds W) : (State.setMbx s n
  m).Holds W := by
  unfold State.setMbx
  dsimp only
  with_reducible repeat' (first
    | assumption | (simp only [mk_holds_iff]; refine holds_parts ?_))

theorem State.stageRsp_holds {W : Bool × List Instr} {s : State} {n : Nat} {r : Rsp} (h : s.Holds W) : (State.stageRsp s n
  r).Holds W := by
  unfold State.stageRsp
  dsimp only
  with_reducible repeat' (first
    | assumption | apply State.setMbx_holds)

theorem serve_holds {W : Bool × List Instr} {c : CmdSpec} {q : Req} {body : State → State × Rsp} {s : State} (h : s.Holds W)
    (hb : ∀ s : State, s.Holds W → (body s).1.Holds W) : (serve c q body s).Holds W := by
  unfold serve
  split
  · exact State.stageRsp_holds h
  · exact State.stageRsp_holds (hb s h)

theorem State.check_holds {W : Bool × List Instr} {s : State} {tests : List (Bool × Rsp)} {effect : State × Rsp} (h : s.Holds W)
    (he : effect.1.Holds W) : (s.check tests effect).1.Holds W := by
  unfold State.check
  split
  · exact h
  · exact he

theorem State.armCmd_holds {W : Bool × List Instr} {s : State} {u : Nat} {t : T48} {code : Nat} {a : TcAction} (h : s.Holds
  W) : (State.armCmd s u t code a).Holds W := by
  unfold State.armCmd
  dsimp only
  with_reducible repeat' (first
    | assumption | apply State.setReg_holds | apply State.setFld_holds
    | (simp only [mk_holds_iff]; refine holds_parts ?_))

theorem State.disarm_holds {W : Bool × List Instr} {s : State} {u : Nat} (h : s.Holds W) : (State.disarm s u).Holds W := by
  unfold State.disarm
  dsimp only
  with_reducible repeat' (first
    | assumption | apply State.setFld_holds | (simp only [mk_holds_iff]; refine holds_parts ?_))

theorem State.takeC_holds {W : Bool × List Instr} {s : State} {u : Nat} {t : T48} (h : s.Holds W) : (State.takeC s u t).Holds
  W := by
  unfold State.takeC
  dsimp only
  with_reducible repeat' (first
    | assumption | (simp only [mk_holds_iff]; refine holds_parts ?_))

theorem State.withInput_holds {W : Bool × List Instr} {s : State} {q : Req} {n tiles : Nat} {effect : State → State × Rsp}
    (h : s.Holds W) (he : ∀ s : State, s.Holds W → (effect s).1.Holds W) : (s.withInput q n tiles effect).1.Holds W := by
  have hs : (s.openTiles (regionFirst q n) 3 true tiles).2.Holds W := State.openTiles_holds h
  unfold State.withInput
  split
  · rename_i e
    rw [e] at hs
    exact ite_fst (he _ hs) h
  · rename_i e
    rw [e] at hs
    exact hs

theorem State.putTileWords_holds {W : Bool × List Instr} {s : State} {t : Nat} {ws : List Word} (h : s.Holds W) :
  (State.putTileWords s t ws).Holds W := by
  unfold State.putTileWords
  with_reducible repeat' (first
    | assumption | apply State.setMemWords_holds)

/-! ### Flags -/

theorem State.writeTyped_holds {W : Bool × List Instr} {s : State} {r : RegName} {i : Nat} {v : Word} (h : s.Holds W) :
  (State.writeTyped s r i v).Holds W := by
  unfold State.writeTyped
  with_reducible repeat' (first
    | assumption | apply State.setReg_holds)

end Sys2Proof.Machine
end

