-- ==== Sys2Proof/Laws/HoldsMemory.lean ====
section
/-! SUPPORT. Time, memory and reception keep the canonical form and the queue, meaning by meaning: each answers a next
state (OutHolds). -/

namespace Sys2Proof.Machine
open Host

/-! ### Time -/

theorem State.servo_holds {W : Bool × List Instr} {s : State} {ofs : Int} (h : s.Holds W) : (State.servo s ofs).Holds W := by
  unfold State.servo
  dsimp only
  with_reducible repeat' (first
    | assumption | apply State.setReg_holds | apply State.setFld_holds | apply ite_holds)

theorem State.tsOffset_holds {W : Bool × List Instr} {s : State} {p : Port} {v : Word} (h : s.Holds W) : (State.tsOffset s p
  v).Holds W := by
  unfold State.tsOffset
  with_reducible repeat' (first
    | assumption | apply State.setFld_holds | apply State.servo_holds | apply ite_holds)

theorem execTsOffsetWrite_holds {W : Bool × List Instr} {port : Port} {v : Word} {s : State} (h : s.Holds W) : OutHolds W
  (execTsOffsetWrite port v s) := by
  unfold execTsOffsetWrite
  with_reducible repeat' (first
    | assumption | apply State.tsOffset_holds | apply next_holds)

theorem State.readTimeNs_holds {W : Bool × List Instr} {s : State} {p : Port} (h : s.Holds W) : (State.readTimeNs s
  p).2.Holds W := by
  unfold State.readTimeNs
  dsimp only
  with_reducible repeat' (first
    | assumption | (simp only [mk_holds_iff]; refine holds_parts ?_))

theorem State.setRdata_holds {W : Bool × List Instr} {s : State} {p : Port} {w : Word} (h : s.Holds W) : (State.setRdata s p
  w).Holds W := by
  unfold State.setRdata
  dsimp only
  with_reducible repeat' (first
    | assumption | (simp only [mk_holds_iff]; refine holds_parts ?_))

theorem execTimeNsRead_holds {W : Bool × List Instr} {port : Port} {s : State} (h : s.Holds W) : OutHolds W (execTimeNsRead
  port s) := by
  unfold execTimeNsRead
  dsimp only
  with_reducible repeat' (first
    | assumption | apply State.readTimeNs_holds | apply State.setRdata_holds | apply next_holds)

theorem execTimeNsWrap_holds {W : Bool × List Instr} {s : State} (h : s.Holds W) : OutHolds W (execTimeNsWrap s) := by
  unfold execTimeNsWrap
  with_reducible repeat' (first
    | assumption | apply State.elapse_holds | apply next_holds)

theorem execPpsEdge_holds {W : Bool × List Instr} {t : BitVec 48} {frac : Nat} {s : State} (h : s.Holds W) : OutHolds
  W (execPpsEdge t frac s) := by
  unfold execPpsEdge
  dsimp only
  with_reducible repeat' (first
    | assumption | apply State.setReg_holds | apply State.setFld_holds | apply State.bump_holds
    | apply State.elapseTo_holds | apply State.servo_holds | apply next_holds | apply ite_out | apply ite_holds
    | (simp only [mk_holds_iff]; refine holds_parts ?_))

theorem execPpsLossTimeout_holds {W : Bool × List Instr} {s : State} (h : s.Holds W) : OutHolds W (execPpsLossTimeout s) :=
  by
  unfold execPpsLossTimeout
  dsimp only
  with_reducible repeat' (first
    | assumption | apply State.setFld_holds | apply State.post_holds | apply State.elapseTo_holds | apply next_holds
    | apply ite_out | split)

theorem execTimeMarkReceived_holds {W : Bool × List Instr} {seq compl : Nat} {t : BitVec 48} {frac : Nat} {s : State} (h :
  s.Holds W) : OutHolds W (execTimeMarkReceived seq compl t frac s) := by
  unfold execTimeMarkReceived
  dsimp only
  with_reducible repeat' (first
    | assumption | apply State.setReg_holds | apply State.setFld_holds | apply State.elapseTo_holds | apply next_holds
    | apply ite_out | (simp only [mk_holds_iff]; refine holds_parts ?_))

theorem execMarkInfoReceived_holds {W : Bool × List Instr} {info : List Word} {s : State} (h : s.Holds W) : OutHolds W
  (execMarkInfoReceived info s) := by
  unfold execMarkInfoReceived
  dsimp only
  with_reducible repeat' (first
    | assumption | apply State.tsOffset_holds | apply next_holds | apply ite_out)

theorem svcTimeCfgSet_holds {W : Bool × List Instr} {q : Req} {s : State} (h : s.Holds W) : (svcTimeCfgSet q s).1.Holds W :=
  by
  unfold svcTimeCfgSet
  dsimp only
  with_reducible repeat' (first
    | assumption | apply State.setReg_holds | apply State.setFld_holds | apply State.check_holds
    | (simp only [mk_holds_iff]; refine holds_parts ?_))

theorem execTimeCfgSet_holds {W : Bool × List Instr} {q : Req} {s : State} (h : s.Holds W) : OutHolds W (execTimeCfgSet q s)
  := by
  unfold execTimeCfgSet
  with_reducible repeat' (first
    | assumption | intro _ | apply Machine.serve_holds | apply svcTimeCfgSet_holds | apply next_holds)

theorem State.stepBy_holds {W : Bool × List Instr} {s : State} {d : Int} (h : s.Holds W) : (State.stepBy s d).Holds W :=
  ⟨h.1, h.2.1, h.2.2⟩

theorem svcTimeStep_holds {W : Bool × List Instr} {q : Req} {s : State} (h : s.Holds W) : (svcTimeStep q s).1.Holds W
  := by
  unfold svcTimeStep
  dsimp only
  with_reducible repeat' (first
    | assumption | apply State.setFld_holds | apply State.post_holds | apply State.tick_holds
    | apply State.check_holds | apply State.stepBy_holds)

theorem execTimeStep_holds {W : Bool × List Instr} {q : Req} {s : State} (h : s.Holds W) : OutHolds W (execTimeStep q s) :=
  by
  unfold execTimeStep
  with_reducible repeat' (first
    | assumption | intro _ | apply Machine.serve_holds | apply svcTimeStep_holds | apply next_holds)

theorem svcTimeGet_holds {W : Bool × List Instr} {x1 : Req} {s : State} (h : s.Holds W) : (svcTimeGet x1 s).1.Holds W := by
  unfold svcTimeGet
  try extract_lets
  with_reducible repeat' (first
    | assumption)

theorem execTimeGet_holds {W : Bool × List Instr} {q : Req} {s : State} (h : s.Holds W) : OutHolds W (execTimeGet q s) := by
  unfold execTimeGet
  with_reducible repeat' (first
    | assumption | intro _ | apply Machine.serve_holds | apply svcTimeGet_holds | apply next_holds)

theorem svcTcArm_holds {W : Bool × List Instr} {q : Req} {s : State} (h : s.Holds W) : (svcTcArm q s).1.Holds W := by
  unfold svcTcArm
  dsimp only
  with_reducible repeat' (first
    | assumption | apply State.setReg_holds | apply State.check_holds | apply State.takeC_holds
    | apply State.writeTyped_holds)

theorem execTcArm_holds {W : Bool × List Instr} {q : Req} {s : State} (h : s.Holds W) : OutHolds W (execTcArm q s) := by
  unfold execTcArm
  with_reducible repeat' (first
    | assumption | intro _ | apply Machine.serve_holds | apply svcTcArm_holds | apply next_holds)

theorem svcTcDisarm_holds {W : Bool × List Instr} {q : Req} {s : State} (h : s.Holds W) : (svcTcDisarm q s).1.Holds W := by
  unfold svcTcDisarm
  try extract_lets
  with_reducible repeat' (first
    | assumption | apply State.check_holds | apply State.disarm_holds)

theorem execTcDisarm_holds {W : Bool × List Instr} {q : Req} {s : State} (h : s.Holds W) : OutHolds W (execTcDisarm q s) :=
  by
  unfold execTcDisarm
  with_reducible repeat' (first
    | assumption | intro _ | apply Machine.serve_holds | apply svcTcDisarm_holds | apply next_holds)

theorem State.writeTcCtl_holds {W : Bool × List Instr} {s : State} {p : Port} {u : Nat} {v : Word} (h : s.Holds W) :
  (State.writeTcCtl s p u v).Holds W := by
  unfold State.writeTcCtl
  dsimp only
  with_reducible repeat' (first
    | assumption | apply State.setFld_holds | apply State.accErr_holds | apply State.postLate_holds
    | apply State.takeC_holds | apply State.writeTyped_holds | apply ite_holds)

theorem execTcCtlWrite_holds {W : Bool × List Instr} {port : Port} {unit : Nat} {v : Word} {s : State} (h : s.Holds W) :
  OutHolds W (execTcCtlWrite port unit v s) := by
  unfold execTcCtlWrite
  with_reducible repeat' (first
    | assumption | apply State.writeTcCtl_holds | apply next_holds | split)

/-! ### Memory -/

theorem svcTileSeal_holds {W : Bool × List Instr} {q : Req} {s : State} (h : s.Holds W) : (svcTileSeal q s).1.Holds W := by
  unfold svcTileSeal
  try extract_lets
  with_reducible repeat' (first
    | assumption | intro _ | apply State.sealTile_holds | apply State.check_holds | apply foldl_holds)

theorem execTileSeal_holds {W : Bool × List Instr} {q : Req} {s : State} (h : s.Holds W) : OutHolds W (execTileSeal q s) :=
  by
  unfold execTileSeal
  with_reducible repeat' (first
    | assumption | intro _ | apply Machine.serve_holds | apply svcTileSeal_holds | apply next_holds)

theorem svcTileOpen_holds {W : Bool × List Instr} {q : Req} {s : State} (h : s.Holds W) : (svcTileOpen q s).1.Holds W := by
  unfold svcTileOpen
  try extract_lets
  with_reducible repeat' (first
    | assumption | intro _ | apply State.reopenTile_holds | apply State.check_holds | apply foldl_holds)

theorem execTileOpen_holds {W : Bool × List Instr} {q : Req} {s : State} (h : s.Holds W) : OutHolds W (execTileOpen q s) :=
  by
  unfold execTileOpen
  with_reducible repeat' (first
    | assumption | intro _ | apply Machine.serve_holds | apply svcTileOpen_holds | apply next_holds)

theorem State.quarantineOpen_holds {W : Bool × List Instr} {s : State} {k consumer : Nat} (h : s.Holds W) :
  (State.quarantineOpen s k consumer).Holds W := by
  unfold State.quarantineOpen
  with_reducible repeat' (first
    | assumption | apply State.quarantine_holds | apply ite_holds)

theorem State.verifyTiles_holds {W : Bool × List Instr} {s : State} {l : List Nat} (h : s.Holds W) : (State.verifyTiles s
  l).Holds W := by
  unfold State.verifyTiles
  with_reducible repeat' (first
    | assumption | intro _ | apply State.quarantine_holds | apply ite_holds | apply foldl_holds)

theorem svcTileVerify_holds {W : Bool × List Instr} {q : Req} {s : State} (h : s.Holds W) : (svcTileVerify q s).1.Holds W :=
  by
  unfold svcTileVerify
  try extract_lets
  with_reducible repeat' (first
    | assumption | apply State.check_holds | apply State.verifyTiles_holds | split)

theorem execTileVerify_holds {W : Bool × List Instr} {q : Req} {s : State} (h : s.Holds W) : OutHolds W (execTileVerify q s)
  := by
  unfold execTileVerify
  with_reducible repeat' (first
    | assumption | intro _ | apply Machine.serve_holds | apply svcTileVerify_holds | apply next_holds)

theorem svcMemStat_holds {W : Bool × List Instr} {x1 : Req} {s : State} (h : s.Holds W) : (svcMemStat x1 s).1.Holds W := by
  unfold svcMemStat
  try extract_lets
  with_reducible repeat' (first
    | assumption)

theorem execMemStat_holds {W : Bool × List Instr} {q : Req} {s : State} (h : s.Holds W) : OutHolds W (execMemStat q s) := by
  unfold execMemStat
  with_reducible repeat' (first
    | assumption | intro _ | apply Machine.serve_holds | apply svcMemStat_holds | apply next_holds)

theorem svcQuarList_holds {W : Bool × List Instr} {q : Req} {s : State} (h : s.Holds W) : (svcQuarList q s).1.Holds W := by
  unfold svcQuarList
  try extract_lets
  with_reducible repeat' (first
    | assumption | apply State.check_holds | apply State.putTileWords_holds)

theorem execQuarList_holds {W : Bool × List Instr} {q : Req} {s : State} (h : s.Holds W) : OutHolds W (execQuarList q s) :=
  by
  unfold execQuarList
  with_reducible repeat' (first
    | assumption | intro _ | apply Machine.serve_holds | apply svcQuarList_holds | apply next_holds)

theorem State.retestTile_holds {W : Bool × List Instr} {s : State} {t : Nat} (h : s.Holds W) : (State.retestTile s t).2.Holds
  W := by
  unfold State.retestTile
  dsimp only
  with_reducible repeat' (first
    | assumption | apply State.setTile_holds | apply State.putTileWords_holds | apply ite_snd
    | (simp only [mk_holds_iff]; refine holds_parts ?_))

theorem State.retestTiles_holds {W : Bool × List Instr} {s : State} {ts : List Nat} {n : Nat} (h : s.Holds W) :
    (s.retestTiles ts n).2.Holds W := by
  induction ts generalizing s n with
  | nil => exact h
  | cons t l ih =>
    have ht : (s.retestTile t).2.Holds W := State.retestTile_holds h
    unfold State.retestTiles
    split
    all_goals
      rename_i e
      rw [e] at ht
      exact ih ht

theorem svcQuarRetest_holds {W : Bool × List Instr} {q : Req} {s : State} (h : s.Holds W) : (svcQuarRetest q s).1.Holds W :=
  by
  unfold svcQuarRetest
  try extract_lets
  with_reducible repeat' (first
    | assumption | apply State.updateLimit_holds | apply State.quarRegs_holds | apply State.check_holds
    | apply State.retestTiles_holds)

theorem execQuarRetest_holds {W : Bool × List Instr} {q : Req} {s : State} (h : s.Holds W) : OutHolds W (execQuarRetest q s)
  := by
  unfold execQuarRetest
  with_reducible repeat' (first
    | assumption | intro _ | apply Machine.serve_holds | apply svcQuarRetest_holds | apply next_holds)

theorem svcDmaCfgSet_holds {W : Bool × List Instr} {q : Req} {s : State} (h : s.Holds W) : (svcDmaCfgSet q s).1.Holds W := by
  unfold svcDmaCfgSet
  try extract_lets
  with_reducible repeat' (first
    | assumption | apply State.setFld_holds | apply State.check_holds)

theorem execDmaCfgSet_holds {W : Bool × List Instr} {q : Req} {s : State} (h : s.Holds W) : OutHolds W (execDmaCfgSet q s) :=
  by
  unfold execDmaCfgSet
  with_reducible repeat' (first
    | assumption | intro _ | apply Machine.serve_holds | apply svcDmaCfgSet_holds | apply next_holds)

theorem execPantryTrainingDone_holds {W : Bool × List Instr} {answered supported : Bool} {rate : Option Nat} {size : Nat} {s
  : State} (h : s.Holds W) : OutHolds W (execPantryTrainingDone answered supported rate size s) := by
  unfold execPantryTrainingDone
  dsimp only
  with_reducible repeat' (first
    | assumption | apply State.setFld_holds | apply State.pantryTo_holds | apply next_holds | apply ite_out | split)

theorem execDqsRetrain_holds {W : Bool × List Instr} {ok : Bool} {s : State} (h : s.Holds W) : OutHolds W (execDqsRetrain ok
  s) := by
  unfold execDqsRetrain
  dsimp only
  with_reducible repeat' (first
    | assumption | apply State.pantryTo_holds | apply next_holds | apply ite_out | apply ite_holds
    | (simp only [mk_holds_iff]; refine holds_parts ?_))

theorem State.setDma_holds {W : Bool × List Instr} {s : State} {n : Nat} {c : DmaCh} (h : s.Holds W) : (State.setDma s n
  c).Holds W := by
  unfold State.setDma
  dsimp only
  with_reducible repeat' (first
    | assumption | (simp only [mk_holds_iff]; refine holds_parts ?_))

theorem State.dmaStat_holds {W : Bool × List Instr} {s : State} (h : s.Holds W) : (State.dmaStat s).Holds W := by
  unfold State.dmaStat
  with_reducible repeat' (first
    | assumption | apply State.setFld_holds)

theorem State.dmaUnuse_holds {W : Bool × List Instr} {s : State} {n : Nat} (h : s.Holds W) : (State.dmaUnuse s
  n).Holds W := by
  unfold State.dmaUnuse
  dsimp only
  with_reducible repeat' (first
    | assumption | intro _ | apply State.dropUse_holds | apply State.setDma_holds | apply foldl_holds)

theorem State.dmaHalt_holds {W : Bool × List Instr} {s : State} {n cause : Nat} (h : s.Holds W) : (State.dmaHalt s n
  cause).Holds W := by
  unfold State.dmaHalt
  dsimp only
  with_reducible repeat' (first
    | assumption | apply State.setReg_holds | apply State.setFld_holds | apply State.setMemWord_holds
    | apply State.post_holds | apply State.setDma_holds | apply State.dmaStat_holds | apply State.dmaUnuse_holds
    | apply ite_holds)

theorem State.dmaIssued_holds {W : Bool × List Instr} {s : State} {payload : List Byte} (h : s.Holds W) : (State.dmaIssued s
  payload).Holds W := by
  unfold State.dmaIssued
  dsimp only
  with_reducible repeat' (first
    | assumption | apply State.setDma_holds | apply ite_holds | split)

theorem State.dmaStart_holds {W : Bool × List Instr} {s : State} {n : Nat} (h : s.Holds W) : (State.dmaStart s n).Holds W :=
  by
  unfold State.dmaStart
  with_reducible repeat' (first
    | assumption | apply State.setFld_holds)

theorem State.writeDmaCtl_holds {W : Bool × List Instr} {s : State} {p : Port} {n : Nat} {v : Word} (h : s.Holds W) :
  (State.writeDmaCtl s p n v).Holds W := by
  unfold State.writeDmaCtl
  dsimp only
  with_reducible repeat' (first
    | assumption | apply State.setReg_holds | apply State.setFld_holds | apply State.takeFree_holds
    | apply State.accErr_holds | apply State.writeTyped_holds | apply State.setDma_holds | apply State.dmaStat_holds
    | apply State.dmaUnuse_holds | apply State.dmaHalt_holds | apply State.dmaStart_holds | apply ite_holds)

theorem execDmaChCtlWrite_holds {W : Bool × List Instr} {port : Port} {ch : Nat} {v : Word} {s : State} (h : s.Holds W) :
  OutHolds W (execDmaChCtlWrite port ch v s) := by
  unfold execDmaChCtlWrite
  with_reducible repeat' (first
    | assumption | apply State.writeDmaCtl_holds | apply next_holds | split)

theorem State.auxStop_holds {W : Bool × List Instr} {s : State} (h : s.Holds W) : (State.auxStop s).Holds W := by
  unfold State.auxStop
  dsimp only
  with_reducible repeat' (first
    | assumption | intro _ | apply State.setFld_holds | apply State.dropUse_holds | apply ite_holds | apply foldl_holds
    | (simp only [mk_holds_iff]; refine holds_parts ?_))

theorem State.auxSweep_holds {W : Bool × List Instr} {s : State} (h : s.Holds W) : (State.auxSweep s).Holds W := by
  unfold State.auxSweep
  dsimp only
  with_reducible repeat' (first
    | assumption | apply State.setFld_holds | (simp only [mk_holds_iff]; refine holds_parts ?_))

theorem State.writeAuxCtl_holds {W : Bool × List Instr} {s : State} {p : Port} {v : Word} (h : s.Holds W) :
  (State.writeAuxCtl s p v).Holds W := by
  unfold State.writeAuxCtl
  dsimp only
  with_reducible repeat' (first
    | assumption | apply State.setFld_holds | apply State.accErr_holds | apply State.writeTyped_holds
    | apply State.auxStop_holds | apply State.auxSweep_holds | intro _ | apply State.useTile_holds | apply foldl_holds
    | apply ite_holds)

theorem execAuxSeqCtlWrite_holds {W : Bool × List Instr} {port : Port} {v : Word} {s : State} (h : s.Holds W) : OutHolds W
  (execAuxSeqCtlWrite port v s) := by
  unfold execAuxSeqCtlWrite
  with_reducible repeat' (first
    | assumption | apply State.writeAuxCtl_holds | apply next_holds)

theorem State.auxEntry_holds {W : Bool × List Instr} {s : State} {input code : Nat} (h : s.Holds W) : (State.auxEntry s input
  code).Holds W := by
  unfold State.auxEntry
  dsimp only
  with_reducible repeat' (first
    | assumption | apply State.setFld_holds | apply State.setMemWords_holds | apply State.postLimited_holds
    | apply ite_holds)

theorem execAuxConversionDone_holds {W : Bool × List Instr} {code : Nat} {s : State} (h : s.Holds W) : OutHolds W
  (execAuxConversionDone code s) := by
  unfold execAuxConversionDone
  dsimp only
  with_reducible repeat' (first
    | assumption | apply State.setFld_holds | apply State.auxSweep_holds | apply State.auxEntry_holds
    | apply next_holds | apply ite_out | (simp only [mk_holds_iff]; refine holds_parts ?_) | split)

theorem execAuxPacedSweep_holds {W : Bool × List Instr} {s : State} (h : s.Holds W) : OutHolds W (execAuxPacedSweep s) := by
  unfold execAuxPacedSweep
  with_reducible repeat' (first
    | assumption | apply State.bump_holds | apply State.auxSweep_holds | apply next_holds | apply ite_out)

/-! ### Contexts -/

theorem State.setCtx_holds {W : Bool × List Instr} {s : State} {n : Nat} {x : Ctx} (h : s.Holds W) : (State.setCtx s n
  x).Holds W := by
  unfold State.setCtx
  dsimp only
  with_reducible repeat' (first
    | assumption | (simp only [mk_holds_iff]; refine holds_parts ?_))

theorem State.searchRegs_holds {W : Bool × List Instr} {s : State} (h : s.Holds W) : (State.searchRegs s).Holds W := by
  unfold State.searchRegs
  dsimp only
  with_reducible repeat' (first
    | assumption | intro _ | apply State.setFld_holds | apply State.setFlag_holds | apply foldl_holds)

theorem State.takePool_holds {W : Bool × List Instr} {s : State} {n : Nat} (h : s.Holds W) : PairHolds W (State.takePool s n)
  := by
  unfold State.takePool
  dsimp only
  with_reducible repeat' (first
    | assumption | intro _ | exact none_pair | apply some_pair | apply ite_pair | apply State.useTile_holds
    | apply foldl_holds)

theorem State.setPanUse_holds {W : Bool × List Instr} {s : State} {p u : Nat} (h : s.Holds W) : (State.setPanUse s p u).Holds
  W := by
  unfold State.setPanUse
  dsimp only
  with_reducible repeat' (first
    | assumption | (simp only [mk_holds_iff]; refine holds_parts ?_))

theorem State.takePantry_holds {W : Bool × List Instr} {s : State} {use : Nat} (h : s.Holds W) : PairHolds W
  (State.takePantry s use) := by
  unfold State.takePantry
  with_reducible repeat' (first
    | assumption | exact none_pair | apply some_pair | apply ite_pair | apply State.useTile_holds
    | apply State.setPanUse_holds | split)

theorem State.takeRet_holds {W : Bool × List Instr} {s : State} {use : Nat} (h : s.Holds W) : PairHolds W (State.takeRet s
  use) := by
  unfold State.takeRet
  dsimp only
  with_reducible repeat' (first
    | assumption | exact none_pair | apply some_pair | apply ite_pair | apply State.takePantry_holds
    | (simp only [mk_holds_iff]; refine holds_parts ?_) | refine of_pair (by assumption) ?_ | split)

theorem State.takeRets_holds {W : Bool × List Instr} {s : State} {use n : Nat} (h : s.Holds W) :
    PairHolds W (s.takeRets use n) := by
  induction n generalizing s with
  | zero => exact some_pair h
  | succ n ih =>
    unfold State.takeRets
    split
    · exact none_pair
    · rename_i e
      have h1 := of_pair e (State.takeRet_holds h)
      split
      · exact none_pair
      · rename_i e2
        exact some_pair (of_pair e2 (ih h1))

theorem State.freeRets_holds {W : Bool × List Instr} {s : State} {l : List Nat} (h : s.Holds W) : (State.freeRets s l).Holds
  W := by
  unfold State.freeRets
  dsimp only
  with_reducible repeat' (first
    | assumption | intro _ | apply State.releaseTile_holds | apply State.setPanUse_holds | apply foldl_holds
    | (simp only [mk_holds_iff]; refine holds_parts ?_))

theorem State.dropRetention_holds {W : Bool × List Instr} {s : State} {n : Nat} (h : s.Holds W) : (State.dropRetention
  s n).Holds W := by
  unfold State.dropRetention
  dsimp only
  with_reducible repeat' (first
    | assumption | apply State.setEq_holds | apply State.setCtx_holds | apply State.freeRets_holds)

theorem State.reserve_holds {W : Bool × List Instr} {s : State} {size8 : Nat} (h : s.Holds W) : (State.reserve s
  size8).2.Holds W := by
  unfold State.reserve
  dsimp only
  with_reducible repeat' (first
    | assumption | apply ite_snd | (simp only [mk_holds_iff]; refine holds_parts ?_))

theorem State.formRecord_holds {W : Bool × List Instr} {s : State} {n kind status sub : Nat} {delivers : Bool} (h :
  s.Holds W) : (State.formRecord s n kind status sub delivers).Holds W := by
  unfold State.formRecord
  dsimp only
  with_reducible repeat' (first
    | assumption | apply State.logPlace_holds | apply State.putTileWords_holds | apply State.reserve_holds
    | (simp only [mk_holds_iff]; refine holds_parts ?_))

theorem State.freeCtx_holds {W : Bool × List Instr} {s : State} {n cause : Nat} (h : s.Holds W) : (State.freeCtx s n
  cause).Holds W := by
  unfold State.freeCtx
  dsimp only
  with_reducible repeat' (first
    | assumption | apply State.setEq_holds | apply State.logPlace_holds | apply State.releaseTiles_holds
    | apply State.setCtx_holds | apply ite_holds | (simp only [mk_holds_iff]; refine holds_parts ?_))

theorem State.sicResult_holds {W : Bool × List Instr} {s : State} {x : Ctx} {success : Bool} (h : s.Holds W) :
  (State.sicResult s x success).Holds W := by
  unfold State.sicResult
  with_reducible repeat' (first
    | assumption | apply State.post_holds)

theorem State.endCand_holds {W : Bool × List Instr} {s : State} {c : Cand} (h : s.Holds W) : (State.endCand s c).Holds
  W := by
  unfold State.endCand
  dsimp only
  with_reducible repeat' (first
    | assumption | apply State.setEq_holds | apply State.freeRets_holds
    | (simp only [mk_holds_iff]; refine holds_parts ?_))

theorem State.updateCands_holds {W : Bool × List Instr} {s : State} (h : s.Holds W) : (State.updateCands s).Holds W := by
  unfold State.updateCands
  dsimp only
  with_reducible repeat' (first
    | assumption | (simp only [mk_holds_iff]; refine holds_parts ?_))

theorem State.makeCand_holds {W : Bool × List Instr} {s : State} {n : Nat} (h : s.Holds W) : (State.makeCand s
  n).Holds W := by
  unfold State.makeCand
  dsimp only
  with_reducible repeat' (first
    | assumption | apply State.setEq_holds | apply State.updateCands_holds
    | (simp only [mk_holds_iff]; refine holds_parts ?_))

theorem State.retryFails_holds {W : Bool × List Instr} {s : State} {x : Ctx} (h : s.Holds W) : (State.retryFails s
  x).Holds W := by
  unfold State.retryFails
  with_reducible repeat' (first
    | assumption | apply State.sicResult_holds | apply ite_holds)

theorem State.abort_holds {W : Bool × List Instr} {s : State} {n cause : Nat} {sub : Nat} (h : s.Holds W) :
  (State.abort s n cause sub).Holds W := by
  unfold State.abort
  dsimp only
  with_reducible repeat' (first
    | assumption | apply State.bump_holds | apply State.setCtx_holds | apply State.dropRetention_holds
    | apply State.formRecord_holds | apply State.freeCtx_holds | apply State.makeCand_holds
    | apply State.retryFails_holds | apply ite_holds | (simp only [mk_holds_iff]; refine holds_parts ?_))

theorem State.abortWhere_holds {W : Bool × List Instr} {s : State} {cause : Nat} {p : Ctx → Bool} (h : s.Holds W) :
  (State.abortWhere s cause p).Holds W := by
  unfold State.abortWhere
  with_reducible repeat' (first
    | assumption | intro _ | apply State.abort_holds | apply foldl_holds)

theorem State.abortEvery_holds {W : Bool × List Instr} {s : State} {cause : Nat} {p : Nat → Ctx → Bool} (h : s.Holds W) :
  (State.abortEvery s cause p).Holds W := by
  unfold State.abortEvery
  dsimp only
  with_reducible repeat' (first
    | assumption | intro _ | apply State.abort_holds | apply foldl_holds
    | (simp only [mk_holds_iff]; refine holds_parts ?_))

theorem State.abortTileBad_holds {W : Bool × List Instr} {s : State} {n : Nat} {recordTile : Bool} (h : s.Holds W) :
  (State.abortTileBad s n recordTile).Holds W := by
  unfold State.abortTileBad
  dsimp only
  with_reducible repeat' (first
    | assumption | apply State.setCtx_holds | apply State.takePool_holds | apply State.dropRetention_holds
    | apply State.freeCtx_holds | apply State.retryFails_holds | apply State.abort_holds | apply ite_holds
    | (simp only [mk_holds_iff]; refine holds_parts ?_) | refine of_pair (by assumption) ?_ | split)

theorem State.ctxTileBad_holds {W : Bool × List Instr} {s : State} {n : Nat} (h : s.Holds W) : OptHolds W
  (State.ctxTileBad s n) := by
  unfold State.ctxTileBad
  dsimp only
  with_reducible repeat' (first
    | assumption | intro _ | apply map_opt | apply State.quarantineOpen_holds | apply State.abortTileBad_holds)

theorem State.openCtx_holds {W : Bool × List Instr} {s : State} {d : Det} {p : Profile} {pn n k lo hi : Nat} (h :
  s.Holds W) : OptHolds W (State.openCtx s d p pn n k lo hi) := by
  unfold State.openCtx
  dsimp only
  with_reducible repeat' (first
    | assumption | exact none_holds | apply some_holds | apply State.setEq_holds | apply State.logPlace_holds
    | apply State.setCtx_holds | apply State.takePool_holds | refine of_pair (by assumption) ?_ | split)

theorem State.sealBacklog_holds {W : Bool × List Instr} {s : State} {t : BlTile} (h : s.Holds W) : (State.sealBacklog s
  t).Holds W := by
  unfold State.sealBacklog
  dsimp only
  with_reducible repeat' (first
    | assumption | apply State.setMemWord_holds | apply State.sealTile_holds | apply ite_holds
    | (simp only [mk_holds_iff]; refine holds_parts ?_))

theorem State.sealOpenBacklog_holds {W : Bool × List Instr} {s : State} (h : s.Holds W) : (State.sealOpenBacklog s).Holds W
  := by
  unfold State.sealOpenBacklog
  with_reducible repeat' (first
    | assumption | apply State.sealBacklog_holds | split)

theorem State.recDrop_holds {W : Bool × List Instr} {s : State} {newest : Bool} (h : s.Holds W) : (State.recDrop s
  newest).Holds W := by
  unfold State.recDrop
  dsimp only
  with_reducible repeat' (first
    | assumption | apply State.postLimited_holds | (simp only [mk_holds_iff]; refine holds_parts ?_))

theorem State.discardOldest_holds {W : Bool × List Instr} {s : State} (h : s.Holds W) : OptHolds W
  (State.discardOldest s) := by
  unfold State.discardOldest
  dsimp only
  with_reducible repeat' (first
    | assumption | exact none_holds | apply some_holds | apply State.postLimited_holds | apply State.releaseTile_holds
    | apply State.setPanUse_holds | (simp only [mk_holds_iff]; refine holds_parts ?_) | split)

theorem State.newBacklog_holds {W : Bool × List Instr} {s : State} (h : s.Holds W) : OptHolds W (State.newBacklog s) := by
  unfold State.newBacklog
  dsimp only
  with_reducible repeat' (first
    | assumption | exact none_holds | apply some_holds | apply ite_opt | apply State.takePantry_holds
    | (simp only [mk_holds_iff]; refine holds_parts ?_) | refine of_pair (by assumption) ?_ | split)

theorem State.appendBacklog_holds {W : Bool × List Instr} {s : State} {r : PendRec} (h : s.Holds W) : (State.appendBacklog s
  r).Holds W := by
  unfold State.appendBacklog
  dsimp only
  with_reducible repeat' (first
    | assumption | apply State.setMemWords_holds | (simp only [mk_holds_iff]; refine holds_parts ?_) | split)

theorem State.toBacklog_holds {W : Bool × List Instr} {s : State} {r : PendRec} (h : s.Holds W) : (State.toBacklog s r).Holds
  W := by
  unfold State.toBacklog
  dsimp only
  with_reducible repeat' (first
    | assumption | apply State.sealOpenBacklog_holds | apply State.recDrop_holds | apply State.discardOldest_holds
    | apply State.newBacklog_holds | apply State.appendBacklog_holds | apply ite_holds
    | refine of_opt (by assumption) ?_ | split)

/-! ### Reception -/

theorem State.tryPlace_holds {W : Bool × List Instr} {s : State} {d : Det} {p : Profile} {pn : Nat} (h : s.Holds W) :
  PairHolds W (State.tryPlace s d p pn) := by
  unfold State.tryPlace
  dsimp only
  with_reducible repeat' (first
    | assumption | exact none_pair | apply ite_pair | apply map_pair | apply State.openCtx_holds | split)

theorem State.unplaced_holds {W : Bool × List Instr} {s : State} {d : Det} {p : Profile} (h : s.Holds W) : (State.unplaced s
  d p).Holds W := by
  unfold State.unplaced
  dsimp only
  with_reducible repeat' (first
    | assumption | apply State.bump_holds | apply State.postLimited_holds | apply State.logPlace_holds)

theorem State.startWindow_holds {W : Bool × List Instr} {s : State} {n : Nat} (h : s.Holds W) : (State.startWindow s
  n).Holds W := by
  unfold State.startWindow
  with_reducible repeat' (first
    | assumption | apply State.setEq_holds)

theorem State.startCaptures_holds {W : Bool × List Instr} {s : State} {n : Nat} {d : Det} (h : s.Holds W) :
  (State.startCaptures s n d).Holds W := by
  unfold State.startCaptures
  dsimp only
  with_reducible repeat' (first
    | assumption | intro _ | apply State.setCtx_holds | apply State.startWindow_holds | apply ite_holds
    | apply foldl_holds)

theorem State.place_holds {W : Bool × List Instr} {s : State} {d : Det} {p : Profile} {pn : Nat} (h : s.Holds W) :
  (State.place s d p pn).Holds W := by
  unfold State.place
  dsimp only
  with_reducible repeat' (first
    | assumption | apply State.logPlace_holds | apply State.abort_holds | apply State.tryPlace_holds
    | apply State.unplaced_holds | apply State.startCaptures_holds | apply ite_holds
    | refine of_pair (by assumption) ?_ | split)

theorem State.sentinelSeen_holds {W : Bool × List Instr} {s : State} {d : Det} (h : s.Holds W) : (State.sentinelSeen s
  d).Holds W := by
  unfold State.sentinelSeen
  dsimp only
  with_reducible repeat' (first
    | assumption | apply State.postAt_holds | apply ite_holds | (simp only [mk_holds_iff]; refine holds_parts ?_))

theorem State.countDet_holds {W : Bool × List Instr} {s : State} {d : Det} (h : s.Holds W) : (State.countDet s d).Holds W :=
  by
  unfold State.countDet
  dsimp only
  with_reducible repeat' (first
    | assumption | apply State.setReg_holds | apply State.bump_holds)

theorem State.trained_holds {W : Bool × List Instr} {s : State} {n : Nat} {st : CState} (h : s.Holds W) :
  (State.trained s n st).Holds W := by
  unfold State.trained
  dsimp only
  with_reducible repeat' (first
    | assumption | apply State.setCtx_holds | apply State.startWindow_holds | apply ite_holds)

theorem execPreambleTrainingDone_holds {W : Bool × List Instr} {c : Nat} {x1 : Computed} {s : State} (h : s.Holds W) :
  OutHolds W (execPreambleTrainingDone c x1 s) := by
  unfold execPreambleTrainingDone
  with_reducible repeat' (first
    | assumption | apply State.ctxTileBad_holds | apply State.trained_holds | apply next_holds | apply ite_out
    | apply getD_holds | split)

theorem execSyncMatch_holds {W : Bool × List Instr} {c : Nat} {x1 x2 x3 x4 : Computed} {s : State} (h : s.Holds W) :
  OutHolds W (execSyncMatch c x1 x2 x3 x4 s) := by
  unfold execSyncMatch
  dsimp only
  with_reducible repeat' (first
    | assumption | apply State.setCtx_holds | apply State.ctxTileBad_holds | apply State.trained_holds
    | apply next_holds | apply ite_out | apply getD_holds | split)

theorem execSyncWindowEnd_holds {W : Bool × List Instr} {c : Nat} {s : State} (h : s.Holds W) : OutHolds W
  (execSyncWindowEnd c s) := by
  unfold execSyncWindowEnd
  dsimp only
  with_reducible repeat' (first
    | assumption | apply State.elapseTo_holds | apply State.abort_holds | apply next_holds | apply ite_out
    | apply ite_holds | split)

theorem State.endCapture_holds {W : Bool × List Instr} {s : State} {n : Nat} {p : Profile} {f : State → State} (h : s.Holds W)
    (hf : ∀ s : State, s.Holds W → (f s).Holds W) : (s.endCapture n p f).Holds W := by
  unfold State.endCapture
  exact ite_holds (State.abort_holds h) (hf _ (ite_holds (State.setCtx_holds h) h))

theorem execCaptureCheckEnd_holds {W : Bool × List Instr} {c : Nat} {x1 : Computed} {s : State} (h : s.Holds W) :
  OutHolds W (execCaptureCheckEnd c x1 s) := by
  unfold execCaptureCheckEnd
  dsimp only
  with_reducible repeat' (first
    | assumption | intro _ | apply State.endCapture_holds | apply id_holds | apply next_holds | apply ite_out | split)

theorem execLockLost_holds {W : Bool × List Instr} {c : Nat} {x1 x2 : Computed} {s : State} (h : s.Holds W) : OutHolds
  W (execLockLost c x1 x2 s) := by
  unfold execLockLost
  dsimp only
  with_reducible repeat' (first
    | assumption | apply State.abort_holds | apply next_holds | apply ite_out | split)

theorem State.queueDecode_holds {W : Bool × List Instr} {s : State} {n : Nat} {llr : List Int} (h : s.Holds W) :
  (State.queueDecode s n llr).Holds W := by
  unfold State.queueDecode
  dsimp only
  with_reducible repeat' (first
    | assumption | intro _ | apply State.sealTile_holds | apply State.putTileWords_holds | apply State.setCtx_holds
    | apply foldl_holds)

theorem execLastPayloadSymbol_holds {W : Bool × List Instr} {c : Nat} {x1 x2 : Computed} {s : State} (h : s.Holds W) :
  OutHolds W (execLastPayloadSymbol c x1 x2 s) := by
  unfold execLastPayloadSymbol
  dsimp only
  with_reducible repeat' (first
    | assumption | intro _ | apply State.ctxTileBad_holds | apply State.endCapture_holds
    | apply State.queueDecode_holds | apply next_holds | apply ite_out | apply getD_holds | split)

theorem State.setAssist_holds {W : Bool × List Instr} {s : State} {k : Nat} {c : Option Nat} (h : s.Holds W) :
  (State.setAssist s k c).Holds W := by
  unfold State.setAssist
  dsimp only
  with_reducible repeat' (first
    | assumption | (simp only [mk_holds_iff]; refine holds_parts ?_))

theorem execLdpcContextStart_holds {W : Bool × List Instr} {k : Nat} {s : State} (h : s.Holds W) : OutHolds W
  (execLdpcContextStart k s) := by
  unfold execLdpcContextStart
  with_reducible repeat' (first
    | assumption | apply State.setCtx_holds | apply State.ctxTileBad_holds | apply State.setAssist_holds
    | apply next_holds | apply getD_holds | split)

theorem execLdpcBlockEnd_holds {W : Bool × List Instr} {k : Nat} {s : State} (h : s.Holds W) : OutHolds W (execLdpcBlockEnd k
  s) := by
  unfold execLdpcBlockEnd
  dsimp only
  with_reducible repeat' (first
    | assumption | apply State.setCtx_holds | apply State.setAssist_holds | apply next_holds | apply ite_out
    | apply ite_holds | split)

theorem State.skilletAbort_holds {W : Bool × List Instr} {s : State} {k : Nat} (h : s.Holds W) : (State.skilletAbort s
  k).Holds W := by
  unfold State.skilletAbort
  with_reducible repeat' (first
    | assumption | apply State.abortWhere_holds | apply State.setAssist_holds)

theorem State.addTile_holds {W : Bool × List Instr} {s : State} {x : Ctx} {p : Nat} (h : s.Holds W) : (State.addTile s
  x p).1.Holds W := by
  unfold State.addTile
  try extract_lets
  with_reducible repeat' (first
    | assumption | apply State.sealTile_holds | dsimp only | split)

theorem State.logRetain_holds {W : Bool × List Instr} {s : State} {c : Nat} {x : Ctx} {p : Nat} (h : s.Holds W) :
  (State.logRetain s c x p).Holds W := by
  unfold State.logRetain
  with_reducible repeat' (first
    | assumption | apply State.logPlace_holds)

theorem State.expireCand_holds {W : Bool × List Instr} {s : State} {c : Cand} (h : s.Holds W) : (State.expireCand s c).Holds W
  := by
  unfold State.expireCand
  with_reducible repeat' (first
    | assumption | apply State.abortWhere_holds | apply State.endCand_holds)

theorem State.candTile_holds {W : Bool × List Instr} {s : State} {c : Cand} (h : s.Holds W) : (State.candTile s
  c).Holds W := by
  unfold State.candTile
  dsimp only
  with_reducible repeat' (first
    | assumption | apply State.logPlace_holds | apply State.takeRet_holds | apply State.addTile_holds
    | apply State.logRetain_holds | apply State.expireCand_holds | (simp only [mk_holds_iff]; refine holds_parts ?_)
    | refine of_pair (by assumption) ?_ | split)

theorem execRetentionTileAllocation_holds {W : Bool × List Instr} {c : Nat} {s : State} (h : s.Holds W) : OutHolds W
  (execRetentionTileAllocation c s) := by
  unfold execRetentionTileAllocation
  dsimp only
  with_reducible repeat' (first
    | assumption | apply State.logPlace_holds | apply State.setCtx_holds | apply State.takeRet_holds
    | apply State.dropRetention_holds | apply State.addTile_holds | apply State.logRetain_holds
    | apply State.candTile_holds | apply next_holds | apply ite_out | refine of_pair (by assumption) ?_ | split)

theorem execRetentionExpiry_holds {W : Bool × List Instr} {s : State} (h : s.Holds W) : OutHolds W (execRetentionExpiry s) :=
  by
  unfold execRetentionExpiry
  dsimp only
  with_reducible repeat' (first
    | assumption | intro _ | apply State.elapseTo_holds | apply State.freeRets_holds | apply State.expireCand_holds
    | apply next_holds | apply foldl_holds | (simp only [mk_holds_iff]; refine holds_parts ?_) | split)

theorem State.addRegen_holds {W : Bool × List Instr} {s : State} {r : Regen} (h : s.Holds W) : (State.addRegen s
  r).Holds W := by
  unfold State.addRegen
  dsimp only
  with_reducible repeat' (first
    | assumption | (simp only [mk_holds_iff]; refine holds_parts ?_))

theorem State.keepRegen_holds {W : Bool × List Instr} {s : State} {n seq : Nat} (h : s.Holds W) : (s.keepRegen n seq).Holds W := by
  unfold State.keepRegen
  extract_lets x
  split
  · refine ite_holds ?_ h
    extract_lets tiles
    split
    · rename_i e
      exact State.updateCands_holds (State.addRegen_holds (of_pair e (State.takeRets_holds h)))
    · exact State.logPlace_holds h
  · exact h

theorem execRecordCommitted_holds {W : Bool × List Instr} {s : State} (h : s.Holds W) : OutHolds W (execRecordCommitted s) :=
  by
  unfold execRecordCommitted
  dsimp only
  with_reducible repeat' (first
    | assumption | apply State.sendFrame_holds | apply State.freeCtx_holds | apply State.toBacklog_holds
    | apply next_holds | apply ite_holds | (simp only [mk_holds_iff]; refine holds_parts ?_) | split)

theorem execBacklogSealTimeout_holds {W : Bool × List Instr} {s : State} (h : s.Holds W) : OutHolds W (execBacklogSealTimeout
  s) := by
  unfold execBacklogSealTimeout
  with_reducible repeat' (first
    | assumption | apply State.elapseTo_holds | apply State.sealBacklog_holds | apply next_holds | split)

/-! ### Points -/

theorem State.setOp_holds {W : Bool × List Instr} {s : State} {d : Nat} {c : Option OpChange} (h : s.Holds W) : (State.setOp
  s d c).Holds W := by
  unfold State.setOp
  dsimp only
  with_reducible repeat' (first
    | assumption | (simp only [mk_holds_iff]; refine holds_parts ?_))

theorem State.raiseOp_holds {W : Bool × List Instr} {s : State} {d : Nat} (h : s.Holds W) : (State.raiseOp s d).Holds
  W := by
  unfold State.raiseOp
  with_reducible repeat' (first
    | assumption | apply State.setOp_holds | apply ite_holds | split)

theorem State.reachOpf_holds {W : Bool × List Instr} {s : State} {d : Nat} (h : s.Holds W) : (State.reachOpf s
  d).Holds W := by
  unfold State.reachOpf
  with_reducible repeat' (first
    | assumption | apply State.setFld_holds | apply State.setOp_holds | apply ite_holds)

end Sys2Proof.Machine
end

