-- ==== Sys2Proof/Laws/HoldsRadio.lean ====
section
/-! SUPPORT. The radio sides, paths, bursts and beams keep the canonical form and the queue, meaning by meaning: each
answers a next state (OutHolds). -/

namespace Sys2Proof.Machine
open Host

/-! ### Edges -/

theorem State.beamEdges_holds {W : Bool × List Instr} {old s : State} {t : Int} {b : Nat} (h : old.Holds W) (h1 :
  s.Holds W) : (State.beamEdges old s t b).Holds W := by
  unfold State.beamEdges
  dsimp only
  with_reducible repeat' (first
    | assumption | apply State.bump_holds | apply State.beamEvt_holds | apply State.postLimited_holds
    | apply ite_holds)

theorem State.pathsChanged_holds {W : Bool × List Instr} {old s : State} {q : Nat} (h : old.Holds W) (h1 : s.Holds W)
  : (State.pathsChanged old s q).Holds W := by
  unfold State.pathsChanged
  with_reducible repeat' (first
    | assumption | intro _ | apply State.beamEdges_holds | apply foldl_holds)

/-! ### Rffe -/

theorem State.setRffeSeq_holds {W : Bool × List Instr} {s : State} {q n : Nat} {l : List Word} (h : s.Holds W) :
  (State.setRffeSeq s q n l).Holds W := by
  unfold State.setRffeSeq
  dsimp only
  with_reducible repeat' (first
    | assumption | (simp only [mk_holds_iff]; refine holds_parts ?_))

theorem State.setRunning_holds {W : Bool × List Instr} {s : State} {q : Nat} {r : Option (Nat × Nat)} (h : s.Holds W) :
  (State.setRunning s q r).Holds W := by
  unfold State.setRunning
  dsimp only
  with_reducible repeat' (first
    | assumption | (simp only [mk_holds_iff]; refine holds_parts ?_))

theorem State.setSeqCmd_holds {W : Bool × List Instr} {s : State} {q : Nat} {c : Option Cmd} (h : s.Holds W) :
  (State.setSeqCmd s q c).Holds W := by
  unfold State.setSeqCmd
  dsimp only
  with_reducible repeat' (first
    | assumption | (simp only [mk_holds_iff]; refine holds_parts ?_))

theorem State.setXfer_holds {W : Bool × List Instr} {s : State} {q : Nat} {x : Option RffeXfer} (h : s.Holds W) :
  (State.setXfer s q x).Holds W := by
  unfold State.setXfer
  dsimp only
  with_reducible repeat' (first
    | assumption | (simp only [mk_holds_iff]; refine holds_parts ?_))

theorem State.setHeld_holds {W : Bool × List Instr} {s : State} {q : Nat} {l : List RffeXfer} (h : s.Holds W) :
  (State.setHeld s q l).Holds W := by
  unfold State.setHeld
  dsimp only
  with_reducible repeat' (first
    | assumption | (simp only [mk_holds_iff]; refine holds_parts ?_))

theorem State.beginBus_holds {W : Bool × List Instr} {s : State} {q : Nat} {t : T48} (h : s.Holds W) : (State.beginBus
  s q t).Holds W := by
  unfold State.beginBus
  dsimp only
  with_reducible repeat' (first
    | assumption | (simp only [mk_holds_iff]; refine holds_parts ?_))

theorem State.endBus_holds {W : Bool × List Instr} {s : State} {q ns : Nat} (h : s.Holds W) : (State.endBus s q
  ns).Holds W := by
  unfold State.endBus
  dsimp only
  with_reducible repeat' (first
    | assumption | apply State.elapseTo_holds | (simp only [mk_holds_iff]; refine holds_parts ?_))

theorem State.startXfer_holds {W : Bool × List Instr} {s : State} {q : Nat} {x : RffeXfer} (h : s.Holds W) :
  (State.startXfer s q x).Holds W := by
  unfold State.startXfer
  with_reducible repeat' (first
    | assumption | apply State.setFld_holds | apply State.setXfer_holds | apply State.beginBus_holds)

theorem State.offerXfer_holds {W : Bool × List Instr} {s : State} {q : Nat} {x : RffeXfer} (h : s.Holds W) : (State.offerXfer
  s q x).Holds W := by
  unfold State.offerXfer
  with_reducible repeat' (first
    | assumption | apply State.setHeld_holds | apply State.startXfer_holds | apply ite_holds)

theorem State.releaseXfer_holds {W : Bool × List Instr} {s : State} {q : Nat} (h : s.Holds W) : (State.releaseXfer s q).Holds
  W := by
  unfold State.releaseXfer
  with_reducible repeat' (first
    | assumption | apply State.setHeld_holds | apply State.startXfer_holds | apply ite_holds | split)

theorem State.rffeTrigger_holds {W : Bool × List Instr} {s : State} {q n : Nat} (h : s.Holds W) : (State.rffeTrigger s
  q n).2.Holds W := by
  unfold State.rffeTrigger
  dsimp only
  with_reducible repeat' (first
    | assumption | apply State.setFld_holds | apply State.post_holds | apply State.setRunning_holds
    | apply State.beginBus_holds | apply ite_snd | apply ite_holds | split)

theorem State.rffeArmedTrigger_holds {W : Bool × List Instr} {s : State} {q n : Nat} {cmd : Cmd} (h : s.Holds W) :
  (State.rffeArmedTrigger s q n cmd).Holds W := by
  unfold State.rffeArmedTrigger
  with_reducible repeat' (first
    | assumption | apply State.cmdDone_holds | apply State.setSeqCmd_holds | apply State.rffeTrigger_holds
    | refine of_snd (by assumption) ?_ | split)

theorem State.seqDone_holds {W : Bool × List Instr} {s : State} {q : Nat} (h : s.Holds W) : (State.seqDone s q).Holds W := by
  unfold State.seqDone
  with_reducible repeat' (first
    | assumption | apply State.cmdDone_holds | apply State.setSeqCmd_holds | split)

theorem State.rffeBound_holds {W : Bool × List Instr} {s : State} {q bind k : Nat} (h : s.Holds W) : (State.rffeBound s q
  bind k).Holds W := by
  unfold State.rffeBound
  dsimp only
  with_reducible repeat' (first
    | assumption | apply State.rffeTrigger_holds | apply ite_holds)

theorem runRffeXfer_holds {W : Bool × List Instr} {q : Req} {s : State} (h : s.Holds W) : (runRffeXfer q s).Holds W := by
  unfold runRffeXfer
  with_reducible repeat' (first
    | assumption | apply State.stageRsp_holds | apply State.offerXfer_holds | apply ite_holds | split)

theorem execRffeXfer_holds {W : Bool × List Instr} {q : Req} {s : State} (h : s.Holds W) : OutHolds W (execRffeXfer q s) :=
  by
  unfold execRffeXfer
  with_reducible repeat' (first
    | assumption | apply runRffeXfer_holds | apply next_holds)

theorem svcRffeSeqLoad_holds {W : Bool × List Instr} {q : Req} {s : State} (h : s.Holds W) : (svcRffeSeqLoad q s).1.Holds W
  := by
  unfold svcRffeSeqLoad
  try extract_lets
  with_reducible repeat' (first
    | assumption | apply State.check_holds | apply State.setRffeSeq_holds)

theorem execRffeSeqLoad_holds {W : Bool × List Instr} {q : Req} {s : State} (h : s.Holds W) : OutHolds W (execRffeSeqLoad q
  s) := by
  unfold execRffeSeqLoad
  with_reducible repeat' (first
    | assumption | intro _ | apply Machine.serve_holds | apply svcRffeSeqLoad_holds | apply next_holds)

theorem svcRffeSeqArm_holds {W : Bool × List Instr} {q : Req} {s : State} (h : s.Holds W) : (svcRffeSeqArm q s).1.Holds W :=
  by
  unfold svcRffeSeqArm
  try extract_lets
  with_reducible repeat' (first
    | assumption | apply State.check_holds | apply State.armCmd_holds)

theorem execRffeSeqArm_holds {W : Bool × List Instr} {q : Req} {s : State} (h : s.Holds W) : OutHolds W (execRffeSeqArm q s)
  := by
  unfold execRffeSeqArm
  with_reducible repeat' (first
    | assumption | intro _ | apply Machine.serve_holds | apply svcRffeSeqArm_holds | apply next_holds)

theorem State.rffeFail_holds {W : Bool × List Instr} {s : State} {q : Nat} {x : RffeXfer} {verify : Bool} (h : s.Holds W) :
  (State.rffeFail s q x verify).Holds W := by
  unfold State.rffeFail
  with_reducible repeat' (first
    | assumption | apply State.setFld_holds | apply State.post_holds | apply State.stageRsp_holds)

theorem State.endXfer_holds {W : Bool × List Instr} {s : State} {q : Nat} {x : RffeXfer} {data : List Nat} {parityOk :
  Bool} (h : s.Holds W) : (State.endXfer s q x data parityOk).Holds W := by
  unfold State.endXfer
  dsimp only
  with_reducible repeat' (first
    | assumption | apply State.setFlag_holds | apply State.stageRsp_holds | apply State.setXfer_holds
    | apply State.startXfer_holds | apply State.rffeFail_holds | apply ite_holds)

theorem State.afterXfer_holds {W : Bool × List Instr} {s : State} {q : Nat} (h : s.Holds W) : (State.afterXfer s
  q).Holds W := by
  unfold State.afterXfer
  with_reducible repeat' (first
    | assumption | apply State.beginBus_holds | apply State.releaseXfer_holds | apply ite_holds)

theorem execRffeTransactionDone_holds {W : Bool × List Instr} {q : Nat} {data : List Nat} {parityOk : Bool} {s :
  State} (h : s.Holds W) : OutHolds W (execRffeTransactionDone q data parityOk s) := by
  unfold execRffeTransactionDone
  dsimp only
  with_reducible repeat' (first
    | assumption | apply State.setFld_holds | apply State.setRunning_holds | apply State.beginBus_holds
    | apply State.endBus_holds | apply State.releaseXfer_holds | apply State.seqDone_holds | apply State.endXfer_holds
    | apply State.afterXfer_holds | apply next_holds | apply ite_out | split)

/-! ### Radio -/

theorem State.parkPath_holds {W : Bool × List Instr} {s : State} {p st : Nat} (h : s.Holds W) : (State.parkPath s p
  st).Holds W := by
  unfold State.parkPath
  dsimp only
  with_reducible repeat' (first
    | assumption | apply State.setFld_holds | (simp only [mk_holds_iff]; refine holds_parts ?_))

theorem State.startPath_holds {W : Bool × List Instr} {s : State} {p st : Nat} (h : s.Holds W) : (State.startPath s p
  st).Holds W := by
  unfold State.startPath
  dsimp only
  with_reducible repeat' (first
    | assumption | apply State.setFld_holds | apply State.openPath_holds | apply State.settleFor_holds
    | (simp only [mk_holds_iff]; refine holds_parts ?_))

theorem State.setLock_holds {W : Bool × List Instr} {s : State} {k : Nat} {b : Bool} (h : s.Holds W) : (State.setLock
  s k b).Holds W := by
  unfold State.setLock
  dsimp only
  with_reducible repeat' (first
    | assumption | apply State.setFlag_holds | apply State.setSide_holds | apply ite_holds)

theorem State.loseSieve_holds {W : Bool × List Instr} {s : State} {q : Nat} (h : s.Holds W) : (State.loseSieve s q).Holds W
  := by
  unfold State.loseSieve
  dsimp only
  with_reducible repeat' (first
    | assumption | apply State.setFld_holds | (simp only [mk_holds_iff]; refine holds_parts ?_))

theorem State.setDry_holds {W : Bool × List Instr} {s : State} {p : Nat} {b : Bool} (h : s.Holds W) : (State.setDry s p
  b).Holds W := by
  unfold State.setDry
  dsimp only
  with_reducible repeat' (first
    | assumption | (simp only [mk_holds_iff]; refine holds_parts ?_))

theorem State.feedPath_holds {W : Bool × List Instr} {s : State} {p : Nat} {on : Bool} (h : s.Holds W) :
  (State.feedPath s p on).Holds W := by
  unfold State.feedPath
  with_reducible repeat' (first
    | assumption | apply State.setFld_holds | apply State.setTxPath_holds | apply State.setDry_holds)

theorem State.pathsFollow_holds {W : Bool × List Instr} {s : State} {k st : Nat} (h : s.Holds W) : (State.pathsFollow
  s k st).Holds W := by
  unfold State.pathsFollow
  with_reducible repeat' (first
    | assumption | intro _ | apply State.parkPath_holds | apply State.startPath_holds | apply State.loseSieve_holds
    | apply State.feedPath_holds | apply ite_holds | apply foldl_holds)

theorem State.serve_holds {W : Bool × List Instr} {s : State} {p : Nat} (h : s.Holds W) : (State.serve s p).Holds W :=
  by
  unfold State.serve
  dsimp only
  with_reducible repeat' (first
    | assumption | apply State.setFlag_holds | apply State.pathsChanged_holds | apply ite_holds)

theorem State.serveQuad_holds {W : Bool × List Instr} {s : State} {q : Nat} (h : s.Holds W) : (State.serveQuad s q).Holds W
  := by
  unfold State.serveQuad
  with_reducible repeat' (first
    | assumption | intro _ | apply State.serve_holds | apply foldl_holds)

theorem State.enterSide_holds {W : Bool × List Instr} {s : State} {k st : Nat} (h : s.Holds W) : (State.enterSide s k
  st).Holds W := by
  unfold State.enterSide
  dsimp only
  with_reducible repeat' (first
    | assumption | apply State.setReg_holds | apply State.setFld_holds | apply State.setSide_holds
    | apply State.reachOpf_holds | apply State.rffeBound_holds | apply State.setLock_holds
    | apply State.pathsFollow_holds | apply State.serveQuad_holds | apply ite_holds
    | (simp only [mk_holds_iff]; refine holds_parts ?_))

theorem State.storeFreq_holds {W : Bool × List Instr} {s : State} {k l : Nat} (h : s.Holds W) : (State.storeFreq s k l).Holds
  W := by
  unfold State.storeFreq
  with_reducible repeat' (first
    | assumption | apply State.setReg_holds | apply ite_holds)

theorem State.whiskLoad_holds {W : Bool × List Instr} {s : State} {k : Nat} {reseed : Bool} (h : s.Holds W) :
  (State.whiskLoad s k reseed).Holds W := by
  unfold State.whiskLoad
  dsimp only
  with_reducible repeat' (first
    | assumption | apply State.setSide_holds)

theorem State.calibrateLo_holds {W : Bool × List Instr} {s : State} {k : Nat} (h : s.Holds W) : (State.calibrateLo s k).Holds
  W := by
  unfold State.calibrateLo
  dsimp only
  with_reducible repeat' (first
    | assumption | apply State.setReg_holds | apply State.setFld_holds | apply State.setSide_holds
    | apply State.setLock_holds | apply State.whiskLoad_holds | apply ite_holds)

theorem State.wakeSide_holds {W : Bool × List Instr} {s : State} {k : Nat} (h : s.Holds W) : (State.wakeSide s k).Holds W :=
  by
  unfold State.wakeSide
  dsimp only
  with_reducible repeat' (first
    | assumption | apply State.setLock_holds | apply State.enterSide_holds | apply State.whiskLoad_holds
    | apply State.calibrateLo_holds | apply ite_holds)

theorem State.toward_holds {W : Bool × List Instr} {s : State} {k tgt : Nat} (h : s.Holds W) : (State.toward s k tgt).Holds W
  := by
  unfold State.toward
  dsimp only
  with_reducible repeat' (first
    | assumption | apply State.setSide_holds | apply State.enterSide_holds | apply State.wakeSide_holds
    | apply ite_holds)

theorem State.settleSide_holds {W : Bool × List Instr} {s : State} {k : Nat} (h : s.Holds W) : (State.settleSide s
  k).Holds W := by
  unfold State.settleSide
  with_reducible repeat' (first
    | assumption | apply State.toward_holds | apply ite_holds)

theorem State.setBurst_holds {W : Bool × List Instr} {s : State} {u : Nat} {b : Option Burst} (h : s.Holds W) :
  (State.setBurst s u b).Holds W := by
  unfold State.setBurst
  dsimp only
  with_reducible repeat' (first
    | assumption | (simp only [mk_holds_iff]; refine holds_parts ?_))

theorem State.offSide_holds {W : Bool × List Instr} {s : State} {k : Nat} (h : s.Holds W) : (State.offSide s k).Holds W := by
  unfold State.offSide
  dsimp only
  with_reducible repeat' (first
    | assumption | apply State.setSide_holds | apply ite_holds)

theorem State.enableSide_holds {W : Bool × List Instr} {s : State} {k : Nat} (h : s.Holds W) : (State.enableSide s k).Holds W
  := by
  unfold State.enableSide
  dsimp only
  with_reducible repeat' (first
    | assumption | apply State.setSide_holds | apply ite_holds)

theorem State.sideArrived_holds {W : Bool × List Instr} {s : State} {k : Nat} (h : s.Holds W) : (State.sideArrived s k).Holds
  W := by
  unfold State.sideArrived
  dsimp only
  with_reducible repeat' (first
    | assumption | intro _ | apply State.cmdDone_holds | apply foldl_holds
    | (simp only [mk_holds_iff]; refine holds_parts ?_))

theorem svcLoTune_holds {W : Bool × List Instr} {q : Req} {s : State} (h : s.Holds W) : (svcLoTune q s).1.Holds W := by
  unfold svcLoTune
  try extract_lets
  with_reducible repeat' (first
    | assumption | intro _ | apply State.check_holds | apply State.armCmd_holds | apply State.setSide_holds
    | apply foldl_holds)

theorem execLoTune_holds {W : Bool × List Instr} {q : Req} {s : State} (h : s.Holds W) : OutHolds W (execLoTune q s) := by
  unfold execLoTune
  with_reducible repeat' (first
    | assumption | intro _ | apply Machine.serve_holds | apply svcLoTune_holds | apply next_holds)

theorem State.moveLo_holds {W : Bool × List Instr} {s : State} {k l : Nat} (h : s.Holds W) : (State.moveLo s k
  l).2.Holds W := by
  unfold State.moveLo
  dsimp only
  with_reducible repeat' (first
    | assumption | intro _ | apply State.setReg_holds | apply State.settleSpan_holds | apply State.storeFreq_holds
    | apply State.calibrateLo_holds | apply ite_snd | apply ite_holds | apply foldl_holds)

theorem State.loDone_holds {W : Bool × List Instr} {s : State} {c : TuneCmd} (h : s.Holds W) : (State.loDone s c).Holds W :=
  by
  unfold State.loDone
  with_reducible repeat' (first
    | assumption | apply State.post_holds)

theorem State.moveAt_holds {W : Bool × List Instr} {s : State} {k l : Nat} (h : s.Holds W) : (State.moveAt s k
  l).2.Holds W := by
  unfold State.moveAt
  dsimp only
  with_reducible repeat' (first
    | assumption | apply State.setSide_holds | apply State.moveLo_holds | apply ite_snd)

theorem State.moveWaiting_holds {W : Bool × List Instr} {s : State} {k : Nat} (h : s.Holds W) : (State.moveWaiting s
  k).Holds W := by
  unfold State.moveWaiting
  dsimp only
  with_reducible repeat' (first
    | assumption | apply State.setSide_holds | apply State.moveLo_holds
    | (simp only [mk_holds_iff]; refine holds_parts ?_) | split)

theorem State.tuneAt_holds {W : Bool × List Instr} {s : State} {qm : Nat} {tx : Bool} {l : Nat} {cmd : Cmd} (h :
  s.Holds W) : (State.tuneAt s qm tx l cmd).Holds W := by
  unfold State.tuneAt
  dsimp only
  with_reducible repeat' (first
    | assumption | intro _ | apply State.loDone_holds | apply State.moveAt_holds | apply ite_holds | apply foldl_snd
    | (simp only [mk_holds_iff]; refine holds_parts ?_))

theorem State.tuneLocked_holds {W : Bool × List Instr} {s : State} {k : Nat} (h : s.Holds W) : (State.tuneLocked s k).Holds W
  := by
  unfold State.tuneLocked
  dsimp only
  with_reducible repeat' (first
    | assumption | intro _ | apply State.loDone_holds | apply foldl_holds
    | (simp only [mk_holds_iff]; refine holds_parts ?_))

theorem State.cfgSide_holds {W : Bool × List Instr} {s : State} {k ret hold tol bind : Nat} (h : s.Holds W) : (State.cfgSide
  s k ret hold tol bind).Holds W := by
  unfold State.cfgSide
  dsimp only
  with_reducible repeat' (first
    | assumption | apply State.setFld_holds | apply State.setSide_holds | apply State.settleSide_holds
    | apply ite_holds)

theorem svcRadioCfgSet_holds {W : Bool × List Instr} {q : Req} {s : State} (h : s.Holds W) : (svcRadioCfgSet q s).1.Holds W
  := by
  unfold svcRadioCfgSet
  try extract_lets
  with_reducible repeat' (first
    | assumption | intro _ | apply State.check_holds | apply State.cfgSide_holds | apply foldl_holds)

theorem execRadioCfgSet_holds {W : Bool × List Instr} {q : Req} {s : State} (h : s.Holds W) : OutHolds W (execRadioCfgSet q
  s) := by
  unfold execRadioCfgSet
  with_reducible repeat' (first
    | assumption | intro _ | apply Machine.serve_holds | apply svcRadioCfgSet_holds | apply next_holds)

theorem svcRadioStateGet_holds {W : Bool × List Instr} {x1 : Req} {s : State} (h : s.Holds W) : (svcRadioStateGet x1
  s).1.Holds W := by
  unfold svcRadioStateGet
  try extract_lets
  with_reducible repeat' (first
    | assumption)

theorem execRadioStateGet_holds {W : Bool × List Instr} {q : Req} {s : State} (h : s.Holds W) : OutHolds W (execRadioStateGet
  q s) := by
  unfold execRadioStateGet
  with_reducible repeat' (first
    | assumption | intro _ | apply Machine.serve_holds | apply svcRadioStateGet_holds | apply next_holds)

theorem svcCoexCfgSet_holds {W : Bool × List Instr} {q : Req} {s : State} (h : s.Holds W) : (svcCoexCfgSet q s).1.Holds W :=
  by
  unfold svcCoexCfgSet
  try extract_lets
  with_reducible repeat' (first
    | assumption | apply State.setReg_holds | apply State.check_holds)

theorem execCoexCfgSet_holds {W : Bool × List Instr} {q : Req} {s : State} (h : s.Holds W) : OutHolds W (execCoexCfgSet q s)
  := by
  unfold execCoexCfgSet
  with_reducible repeat' (first
    | assumption | intro _ | apply Machine.serve_holds | apply svcCoexCfgSet_holds | apply next_holds)

theorem svcCoexStatGet_holds {W : Bool × List Instr} {x1 : Req} {s : State} (h : s.Holds W) : (svcCoexStatGet x1 s).1.Holds W
  := by
  unfold svcCoexStatGet
  try extract_lets
  with_reducible repeat' (first
    | assumption)

theorem execCoexStatGet_holds {W : Bool × List Instr} {q : Req} {s : State} (h : s.Holds W) : OutHolds W (execCoexStatGet q
  s) := by
  unfold execCoexStatGet
  with_reducible repeat' (first
    | assumption | intro _ | apply Machine.serve_holds | apply svcCoexStatGet_holds | apply next_holds)

/-! ### Rx -/

theorem State.keepWin_holds {W : Bool × List Instr} {s : State} {p : Nat} {w : DistWin} (h : s.Holds W) :
  (State.keepWin s p w).Holds W := by
  unfold State.keepWin
  dsimp only
  with_reducible repeat' (first
    | assumption | (simp only [mk_holds_iff]; refine holds_parts ?_))

theorem State.openWin_holds {W : Bool × List Instr} {s : State} {c : Int} {x : Nat} (h : s.Holds W) : (State.openWin s
  c x).Holds W := by
  unfold State.openWin
  with_reducible repeat' (first
    | assumption | apply State.setFld_holds | apply State.bump_holds | apply State.setDistWin_holds)

theorem State.disturb_holds {W : Bool × List Instr} {s : State} {c : Int} {x : Nat} (h : s.Holds W) : (State.disturb s
  c x).Holds W := by
  unfold State.disturb
  with_reducible repeat' (first
    | assumption | apply State.setDistWin_holds | apply State.keepWin_holds | apply State.openWin_holds
    | apply ite_holds | split)

theorem State.overload_holds {W : Bool × List Instr} {s : State} {p c : Nat} {high : Bool} {first det : Int} (h :
  s.Holds W) : (State.overload s p c high first det).Holds W := by
  unfold State.overload
  dsimp only
  with_reducible repeat' (first
    | assumption | intro _ | apply State.setFld_holds | apply State.bump_holds | apply State.setOvrEv_holds
    | apply State.postLimited_holds | apply State.beamEdges_holds | apply State.disturb_holds | apply foldl_holds)

theorem execOverloadStart_holds {W : Bool × List Instr} {p c : Nat} {high : Bool} {r : CodeRun} {s : State} (h :
  s.Holds W) : OutHolds W (execOverloadStart p c high r s) := by
  unfold execOverloadStart
  dsimp only
  with_reducible repeat' (first
    | assumption | apply State.setOvrEv_holds | apply State.elapseTo_holds | apply State.overload_holds
    | apply next_holds | apply ite_out | split)

theorem execLoopFilterRelease_holds {W : Bool × List Instr} {p c : Nat} {s : State} (h : s.Holds W) : OutHolds W
  (execLoopFilterRelease p c s) := by
  unfold execLoopFilterRelease
  with_reducible repeat' (first
    | assumption | apply State.setOvrEv_holds | apply State.elapseTo_holds | apply next_holds | apply ite_out | split)

theorem State.keepClip_holds {W : Bool × List Instr} {s : State} {k : Nat} {ev : OvrEv} {e : Int} (h : s.Holds W) :
  (State.keepClip s k ev e).Holds W := by
  unfold State.keepClip
  dsimp only
  with_reducible repeat' (first
    | assumption | (simp only [mk_holds_iff]; refine holds_parts ?_))

theorem State.calm_holds {W : Bool × List Instr} {s : State} {e : Int} {x : Nat} (h : s.Holds W) : (State.calm s e
  x).Holds W := by
  unfold State.calm
  with_reducible repeat' (first
    | assumption | apply State.setDistWin_holds | split)

theorem execOverloadEnd_holds {W : Bool × List Instr} {p c : Nat} {t : BitVec 48} {s : State} (h : s.Holds W) :
  OutHolds W (execOverloadEnd p c t s) := by
  unfold execOverloadEnd
  dsimp only
  with_reducible repeat' (first
    | assumption | intro _ | apply State.setOvrEv_holds | apply State.elapseTo_holds | apply State.keepClip_holds
    | apply State.calm_holds | apply next_holds | apply foldl_holds | split)

theorem execDisturbanceWindowClose_holds {W : Bool × List Instr} {p : Nat} {s : State} (h : s.Holds W) : OutHolds W
  (execDisturbanceWindowClose p s) := by
  unfold execDisturbanceWindowClose
  dsimp only
  with_reducible repeat' (first
    | assumption | apply State.setDistWin_holds | apply State.elapseTo_holds | apply State.keepWin_holds
    | apply next_holds | apply ite_out | split)

theorem State.nfRestart_holds {W : Bool × List Instr} {s : State} {u : Nat} (h : s.Holds W) : (State.nfRestart s u).Holds W
  := by
  unfold State.nfRestart
  dsimp only
  with_reducible repeat' (first
    | assumption | (simp only [mk_holds_iff]; refine holds_parts ?_))

theorem State.nfCount_holds {W : Bool × List Instr} {s : State} {u sum : Nat} (h : s.Holds W) : (State.nfCount s u
  sum).Holds W := by
  unfold State.nfCount
  dsimp only
  with_reducible repeat' (first
    | assumption | apply State.setReg_holds | (simp only [mk_holds_iff]; refine holds_parts ?_))

theorem State.refreshNf_holds {W : Bool × List Instr} {s : State} {u : Nat} (h : s.Holds W) : (State.refreshNf s
  u).Holds W := by
  unfold State.refreshNf
  dsimp only
  with_reducible repeat' (first
    | assumption | apply State.setReg_holds | split)

theorem execNoiseFloorStale_holds {W : Bool × List Instr} {beam : Bool} {n : Nat} {s : State} (h : s.Holds W) :
  OutHolds W (execNoiseFloorStale beam n s) := by
  unfold execNoiseFloorStale
  dsimp only
  with_reducible repeat' (first
    | assumption | apply State.elapseTo_holds | apply State.refreshNf_holds | apply next_holds | apply ite_holds
    | split)

theorem execBeamMeterBlock_holds {W : Bool × List Instr} {b sum : Nat} {m : Meter} {s : State} (h : s.Holds W) : OutHolds W
  (execBeamMeterBlock b sum m s) := by
  unfold execBeamMeterBlock
  dsimp only
  with_reducible repeat' (first
    | assumption | apply State.setReg_holds | apply State.setFld_holds | apply State.setFlag_holds
    | apply State.bump_holds | apply State.searchRegs_holds | apply State.nfCount_holds | apply next_holds
    | apply ite_out | apply ite_holds)

theorem svcRxGainSet_holds {W : Bool × List Instr} {q : Req} {s : State} (h : s.Holds W) : (svcRxGainSet q s).1.Holds W := by
  unfold svcRxGainSet
  try extract_lets
  with_reducible repeat' (first
    | assumption | intro _ | apply State.setFld_holds | apply State.check_holds | apply State.armCmd_holds
    | apply foldl_holds)

theorem execRxGainSet_holds {W : Bool × List Instr} {q : Req} {s : State} (h : s.Holds W) : OutHolds W (execRxGainSet q s) :=
  by
  unfold execRxGainSet
  with_reducible repeat' (first
    | assumption | intro _ | apply Machine.serve_holds | apply svcRxGainSet_holds | apply next_holds)

theorem State.rxGainDone_holds {W : Bool × List Instr} {s : State} {t : T48} {st n : Nat} {cmd : Cmd} (h : s.Holds W) :
  (State.rxGainDone s t st n cmd).Holds W := by
  unfold State.rxGainDone
  with_reducible repeat' (first
    | assumption | apply State.postAt_holds)

theorem State.takeGain_holds {W : Bool × List Instr} {s : State} {t : T48} {g p : Nat} (h : s.Holds W) :
  (State.takeGain s t g p).Holds W := by
  unfold State.takeGain
  dsimp only
  with_reducible repeat' (first
    | assumption | apply State.setFld_holds | apply State.setDpPath_holds | apply State.settleSpan_holds
    | apply ite_holds | split)

theorem State.gainAt_holds {W : Bool × List Instr} {s : State} {t : T48} {paths g : Nat} {cmd : Cmd} {late : Bool} (h
  : s.Holds W) : (State.gainAt s t paths g cmd late).Holds W := by
  unfold State.gainAt
  dsimp only
  with_reducible repeat' (first
    | assumption | intro _ | apply State.setFld_holds | apply State.rxGainDone_holds | apply State.takeGain_holds
    | apply ite_holds | apply foldl_holds)

/-! ### Tx -/

theorem State.setPa_holds {W : Bool × List Instr} {s : State} {p : Nat} {x : PaSt} (h : s.Holds W) : (State.setPa s p
  x).Holds W := by
  unfold State.setPa
  dsimp only
  with_reducible repeat' (first
    | assumption | (simp only [mk_holds_iff]; refine holds_parts ?_))

theorem State.paTo_holds {W : Bool × List Instr} {s : State} {p st : Nat} (h : s.Holds W) : (State.paTo s p st).Holds W := by
  unfold State.paTo
  with_reducible repeat' (first
    | assumption | apply State.setFld_holds)

theorem State.paSeqDone_holds {W : Bool × List Instr} {s : State} {c : PaCmd} {total : Nat} (h : s.Holds W) :
  (State.paSeqDone s c total).Holds W := by
  unfold State.paSeqDone
  with_reducible repeat' (first
    | assumption | apply State.post_holds)

theorem State.paArrived_holds {W : Bool × List Instr} {s : State} {p : Nat} {off ok : Bool} (h : s.Holds W) :
  (State.paArrived s p off ok).Holds W := by
  unfold State.paArrived
  dsimp only
  with_reducible repeat' (first
    | assumption | intro _ | apply State.paSeqDone_holds | apply foldl_holds
    | (simp only [mk_holds_iff]; refine holds_parts ?_))

theorem State.mutePath_holds {W : Bool × List Instr} {s : State} {p : Nat} (h : s.Holds W) : (State.mutePath s p).Holds W :=
  by
  unfold State.mutePath
  dsimp only
  with_reducible repeat' (first
    | assumption | apply State.setFld_holds | apply State.setPa_holds | apply State.paTo_holds
    | apply State.paArrived_holds | apply ite_holds)

theorem State.paOffStart_holds {W : Bool × List Instr} {s : State} {p : Nat} (h : s.Holds W) : (State.paOffStart s p).Holds W
  := by
  unfold State.paOffStart
  with_reducible repeat' (first
    | assumption | apply State.mutePath_holds | apply ite_holds)

theorem State.retakeOff_holds {W : Bool × List Instr} {s : State} {q : Nat} (h : s.Holds W) : (State.retakeOff s q).Holds W
  := by
  unfold State.retakeOff
  with_reducible repeat' (first
    | assumption | apply State.offSide_holds | apply ite_holds)

theorem State.atTarget_holds {W : Bool × List Instr} {s : State} {p : Nat} (h : s.Holds W) : (State.atTarget s p).Holds W :=
  by
  unfold State.atTarget
  dsimp only
  with_reducible repeat' (first
    | assumption | apply State.setFld_holds | apply State.setPa_holds | apply State.paTo_holds | apply State.paArrived_holds
    | apply State.retakeOff_holds | apply ite_holds)

theorem State.setTarget_holds {W : Bool × List Instr} {s : State} {p code : Nat} (h : s.Holds W) : (State.setTarget s
  p code).Holds W := by
  unfold State.setTarget
  dsimp only
  with_reducible repeat' (first
    | assumption | apply State.setFld_holds | apply State.setPa_holds | apply State.atTarget_holds | apply ite_holds)

theorem State.slewTick_holds {W : Bool × List Instr} {s : State} {p : Nat} (h : s.Holds W) : (State.slewTick s p).Holds W :=
  by
  unfold State.slewTick
  dsimp only
  with_reducible repeat' (first
    | assumption | apply State.setFld_holds | apply State.elapseTo_holds | apply State.setPa_holds
    | apply State.atTarget_holds | apply ite_holds | split)

theorem execBiasSlewTick_holds {W : Bool × List Instr} {p : Nat} {s : State} (h : s.Holds W) : OutHolds W (execBiasSlewTick p
  s) := by
  unfold execBiasSlewTick
  with_reducible repeat' (first
    | assumption | apply State.slewTick_holds | apply next_holds)

theorem State.paOnStart_holds {W : Bool × List Instr} {s : State} {p : Nat} (h : s.Holds W) : (State.paOnStart s p).Holds W
  := by
  unfold State.paOnStart
  with_reducible repeat' (first
    | assumption | apply State.setFld_holds | apply State.paTo_holds | apply State.paArrived_holds
    | apply State.setTarget_holds | apply ite_holds)

theorem State.coexPins_holds {W : Bool × List Instr} {s : State} (h : s.Holds W) : (State.coexPins s).Holds W := by
  unfold State.coexPins
  dsimp only
  with_reducible repeat' (first
    | assumption | apply State.setFlag_holds)

theorem State.setOfs_holds {W : Bool × List Instr} {s : State} {q : Nat} {active : Bool} {d : Int} (h : s.Holds W) :
  (State.setOfs s q active d).Holds W := by
  unfold State.setOfs
  dsimp only
  with_reducible repeat' (first
    | assumption | apply State.setReg_holds | apply State.setFld_holds | apply State.setFlag_holds)

theorem State.ofsBack_holds {W : Bool × List Instr} {s : State} {b : Burst} (h : s.Holds W) : (State.ofsBack s b).Holds W :=
  by
  unfold State.ofsBack
  with_reducible repeat' (first
    | assumption | intro _ | apply State.setOfs_holds | apply ite_holds | apply foldl_holds)

theorem State.showHold_holds {W : Bool × List Instr} {s : State} {b : Burst} {on : Bool} (h : s.Holds W) : (State.showHold s
  b on).Holds W := by
  unfold State.showHold
  with_reducible repeat' (first
    | assumption | intro _ | apply State.setFlag_holds | apply foldl_holds)

theorem State.ackDrop_holds {W : Bool × List Instr} {s : State} {ctx cause : Nat} (h : s.Holds W) : (State.ackDrop s ctx
  cause).Holds W := by
  unfold State.ackDrop
  dsimp only
  with_reducible repeat' (first
    | assumption | apply State.postLimited_holds | (simp only [mk_holds_iff]; refine holds_parts ?_))

theorem State.removeBurst_holds {W : Bool × List Instr} {s : State} {u : Nat} {b : Burst} (h : s.Holds W) :
  (State.removeBurst s u b).Holds W := by
  unfold State.removeBurst
  dsimp only
  with_reducible repeat' (first
    | assumption | intro _ | apply State.setFld_holds | apply State.endLine_holds | apply State.disarm_holds
    | apply State.setBurst_holds | apply State.mutePath_holds | apply State.coexPins_holds | apply State.ofsBack_holds
    | apply State.showHold_holds | apply ite_holds | apply foldl_holds)

theorem State.dropBurst_holds {W : Bool × List Instr} {s : State} {u cause ackCause : Nat} (h : s.Holds W) : (State.dropBurst
  s u cause ackCause).Holds W := by
  unfold State.dropBurst
  dsimp only
  with_reducible repeat' (first
    | assumption | intro _ | apply State.setFld_holds | apply State.post_holds | apply State.ackDrop_holds
    | apply State.removeBurst_holds | apply ite_holds | apply foldl_holds | split)

theorem State.dropMode_holds {W : Bool × List Instr} {s : State} {u : Nat} (h : s.Holds W) : (State.dropMode s u).Holds W :=
  by
  unfold State.dropMode
  dsimp only
  with_reducible repeat' (first
    | assumption | apply State.post_holds | apply State.ackDrop_holds | apply State.removeBurst_holds
    | apply ite_holds | split)

theorem State.dropLost_holds {W : Bool × List Instr} {s : State} {u : Nat} (h : s.Holds W) : (State.dropLost s u).Holds W :=
  by
  unfold State.dropLost
  with_reducible repeat' (first
    | assumption | apply State.dropBurst_holds)

theorem State.radioMute_holds {W : Bool × List Instr} {s : State} (h : s.Holds W) : (State.radioMute s).Holds W := by
  unfold State.radioMute
  dsimp only
  with_reducible repeat' (first
    | assumption | intro _ | apply State.mutePath_holds | apply State.dropLost_holds | apply foldl_holds)

theorem State.raiseS3_holds {W : Bool × List Instr} {s : State} {code unit : Nat} {arg : Word} {start : State → State}
    (h : s.Holds W) (hs : ∀ s : State, s.Holds W → (start s).Holds W) : (s.raiseS3 code unit arg start).Holds W := by
  have hm : ((s.raiseFault code unit arg).radioMute).Holds W := State.radioMute_holds (State.raiseFault_holds h)
  unfold State.raiseS3
  dsimp only
  split
  · exact hs _ hm
  · exact hm

theorem State.quadMute_holds {W : Bool × List Instr} {s : State} {q : Nat} (h : s.Holds W) : (State.quadMute s q).Holds W :=
  by
  unfold State.quadMute
  dsimp only
  with_reducible repeat' (first
    | assumption | intro _ | apply State.mutePath_holds | apply State.dropLost_holds | apply foldl_holds)

theorem State.modeTx_holds {W : Bool × List Instr} {s : State} {mode : Nat} {t : T48} (h : s.Holds W) : (State.modeTx
  s mode t).Holds W := by
  unfold State.modeTx
  dsimp only
  with_reducible repeat' (first
    | assumption | intro _ | apply State.mutePath_holds | apply State.dropMode_holds | apply ite_holds
    | apply foldl_holds)

theorem State.burstCompare_holds {W : Bool × List Instr} {s : State} {u : Nat} (h : s.Holds W) : (State.burstCompare s
  u).Holds W := by
  unfold State.burstCompare
  dsimp only
  with_reducible repeat' (first
    | assumption | intro _ | apply State.enterSide_holds | apply State.setBurst_holds | apply State.coexPins_holds
    | apply ite_holds | apply foldl_holds | split)

theorem State.rfOn_holds {W : Bool × List Instr} {s : State} {p : Nat} (h : s.Holds W) : (State.rfOn s p).Holds W := by
  unfold State.rfOn
  dsimp only
  with_reducible repeat' (first
    | assumption | apply State.setFld_holds | apply State.setPa_holds | apply State.paTo_holds
    | apply State.paArrived_holds)

theorem State.paDelay_holds {W : Bool × List Instr} {s : State} {p : Nat} (h : s.Holds W) : (State.paDelay s p).Holds W := by
  unfold State.paDelay
  dsimp only
  with_reducible repeat' (first
    | assumption | apply State.setFld_holds | apply State.elapseTo_holds | apply State.setPa_holds
    | apply State.paTo_holds | apply State.setTarget_holds | apply State.rfOn_holds | apply ite_holds | split)

theorem execPaDelayExpiry_holds {W : Bool × List Instr} {p : Nat} {s : State} (h : s.Holds W) : OutHolds W (execPaDelayExpiry
  p s) := by
  unfold execPaDelayExpiry
  with_reducible repeat' (first
    | assumption | apply State.paDelay_holds | apply next_holds)

theorem execPaOnStart_holds {W : Bool × List Instr} {p : Nat} {s : State} (h : s.Holds W) : OutHolds W (execPaOnStart p s) :=
  by
  unfold execPaOnStart
  dsimp only
  with_reducible repeat' (first
    | assumption | apply State.elapseTo_holds | apply State.setBurst_holds | apply State.paOnStart_holds
    | apply next_holds | split)

theorem State.passHold_holds {W : Bool × List Instr} {s : State} {u : Nat} {b : Burst} {d : Nat} (h : s.Holds W) :
  (State.passHold s u b d).Holds W := by
  unfold State.passHold
  dsimp only
  with_reducible repeat' (first
    | assumption | intro _ | apply State.enterSide_holds | apply State.setBurst_holds | apply State.setPa_holds
    | apply State.showHold_holds | apply ite_holds | apply foldl_holds)

theorem State.postHold_holds {W : Bool × List Instr} {s : State} {b : Burst} {lock grant : Bool} {d : Nat} (h : s.Holds W) :
  (State.postHold s b lock grant d).Holds W := by
  unfold State.postHold
  with_reducible repeat' (first
    | assumption | apply State.post_holds)

theorem State.tryRelease_holds {W : Bool × List Instr} {s : State} {u : Nat} (h : s.Holds W) : (State.tryRelease s
  u).Holds W := by
  unfold State.tryRelease
  dsimp only
  with_reducible repeat' (first
    | assumption | apply State.setFld_holds | apply State.bump_holds | apply State.dropBurst_holds
    | apply State.passHold_holds | apply State.postHold_holds | apply ite_holds
    | (simp only [mk_holds_iff]; refine holds_parts ?_) | split)

theorem State.tryReleases_holds {W : Bool × List Instr} {s : State} (h : s.Holds W) : (State.tryReleases s).Holds W := by
  unfold State.tryReleases
  with_reducible repeat' (first
    | assumption | intro _ | apply State.tryRelease_holds | apply foldl_holds)

theorem execBurstHoldPoint_holds {W : Bool × List Instr} {u : Nat} {s : State} (h : s.Holds W) : OutHolds W
  (execBurstHoldPoint u s) := by
  unfold execBurstHoldPoint
  dsimp only
  with_reducible repeat' (first
    | assumption | intro _ | apply State.setFld_holds | apply State.bump_holds | apply State.elapseTo_holds
    | apply State.setBurst_holds | apply State.showHold_holds | apply State.passHold_holds
    | apply State.tryRelease_holds | apply next_holds | apply ite_out | apply ite_holds | apply foldl_holds
    | (simp only [mk_holds_iff]; refine holds_parts ?_) | split)

theorem execBurstHoldExpiry_holds {W : Bool × List Instr} {u : Nat} {s : State} (h : s.Holds W) : OutHolds W
  (execBurstHoldExpiry u s) := by
  unfold execBurstHoldExpiry
  dsimp only
  with_reducible repeat' (first
    | assumption | apply State.setFld_holds | apply State.bump_holds | apply State.takeFree_holds
    | apply State.elapseTo_holds | apply State.dropBurst_holds | apply State.postHold_holds | apply next_holds
    | apply ite_out | (simp only [mk_holds_iff]; refine holds_parts ?_) | split)

theorem State.sentUnaligned_holds {W : Bool × List Instr} {s : State} {b : Burst} (h : s.Holds W) : (State.sentUnaligned s
  b).Holds W := by
  unfold State.sentUnaligned
  dsimp only
  with_reducible repeat' (first
    | assumption | apply State.postLimited_holds | apply ite_holds
    | (simp only [mk_holds_iff]; refine holds_parts ?_))

theorem execBurstPathSumStart_holds {W : Bool × List Instr} {u : Nat} {s : State} (h : s.Holds W) : OutHolds W
  (execBurstPathSumStart u s) := by
  unfold execBurstPathSumStart
  dsimp only
  with_reducible repeat' (first
    | assumption | apply State.setFld_holds | apply State.startLine_holds | apply State.elapseTo_holds
    | apply State.setBurst_holds | apply State.sentUnaligned_holds | apply next_holds | apply ite_out | split)

theorem State.burstDone_holds {W : Bool × List Instr} {s : State} {b : Burst} (h : s.Holds W) : (State.burstDone s b).Holds W
  := by
  unfold State.burstDone
  dsimp only
  with_reducible repeat' (first
    | assumption | apply State.postAt_holds | apply ite_holds)

theorem execBurstAirEnd_holds {W : Bool × List Instr} {u : Nat} {s : State} (h : s.Holds W) : OutHolds W
  (execBurstAirEnd u s) := by
  unfold execBurstAirEnd
  dsimp only
  with_reducible repeat' (first
    | assumption | apply State.setFld_holds | apply State.endLine_holds | apply State.elapseTo_holds
    | apply State.setBurst_holds | apply State.coexPins_holds | apply State.ofsBack_holds
    | apply State.burstDone_holds | apply next_holds | apply ite_out | apply ite_holds
    | (simp only [mk_holds_iff]; refine holds_parts ?_) | split)

theorem execPaOffStart_holds {W : Bool × List Instr} {p : Nat} {s : State} (h : s.Holds W) : OutHolds W (execPaOffStart p s)
  := by
  unfold execPaOffStart
  dsimp only
  with_reducible repeat' (first
    | assumption | apply State.elapseTo_holds | apply State.paOffStart_holds | apply State.coexPins_holds
    | apply next_holds | apply ite_holds | (simp only [mk_holds_iff]; refine holds_parts ?_) | split)

theorem execTxFifoEmpty_holds {W : Bool × List Instr} {beam : Nat} {s : State} (h : s.Holds W) : OutHolds W
  (execTxFifoEmpty beam s) := by
  unfold execTxFifoEmpty
  with_reducible repeat' (first
    | assumption | apply State.setFld_holds | apply State.setBurst_holds | apply next_holds | apply ite_out | split)

theorem execLoOffsetMove_holds {W : Bool × List Instr} {u : Nat} {s : State} (h : s.Holds W) : OutHolds W (execLoOffsetMove u
  s) := by
  unfold execLoOffsetMove
  dsimp only
  with_reducible repeat' (first
    | assumption | intro _ | apply State.elapseTo_holds | apply State.setBurst_holds | apply State.setOfs_holds
    | apply next_holds | apply ite_out | apply foldl_holds | split)

theorem execBurstWake_holds {W : Bool × List Instr} {u : Nat} {s : State} (h : s.Holds W) : OutHolds W (execBurstWake u s) :=
  by
  unfold execBurstWake
  dsimp only
  with_reducible repeat' (first
    | assumption | intro _ | apply State.elapseTo_holds | apply State.wakeSide_holds | apply next_holds
    | apply ite_out | apply foldl_holds | split)

theorem execCoexGntRise_holds {W : Bool × List Instr} {s : State} (h : s.Holds W) : OutHolds W (execCoexGntRise s) :=
  by
  unfold execCoexGntRise
  dsimp only
  with_reducible repeat' (first
    | assumption | apply State.setFld_holds | apply State.tryReleases_holds | apply next_holds
    | (simp only [mk_holds_iff]; refine holds_parts ?_) | split)

theorem State.revoke_holds {W : Bool × List Instr} {s : State} {u : Nat} (h : s.Holds W) : (State.revoke s u).Holds W
  := by
  unfold State.revoke
  dsimp only
  with_reducible repeat' (first
    | assumption | apply State.setFld_holds | apply State.bump_holds | apply State.dropBurst_holds | apply ite_holds
    | (simp only [mk_holds_iff]; refine holds_parts ?_))

theorem execCoexGntFall_holds {W : Bool × List Instr} {s : State} (h : s.Holds W) : OutHolds W (execCoexGntFall s) := by
  unfold execCoexGntFall
  dsimp only
  with_reducible repeat' (first
    | assumption | intro _ | apply State.setFld_holds | apply State.revoke_holds | apply next_holds | apply ite_out
    | apply foldl_holds | (simp only [mk_holds_iff]; refine holds_parts ?_))

theorem State.offOrder_holds {W : Bool × List Instr} {s : State} {q : Nat} (h : s.Holds W) : (State.offOrder s q).Holds W :=
  by
  unfold State.offOrder
  with_reducible repeat' (first
    | assumption | intro _ | apply State.mutePath_holds | apply foldl_holds)

theorem State.requestOff_holds {W : Bool × List Instr} {s : State} {k : Nat} (h : s.Holds W) : (State.requestOff s k).Holds W
  := by
  unfold State.requestOff
  with_reducible repeat' (first
    | assumption | apply State.offSide_holds | apply State.offOrder_holds | apply ite_holds)

theorem State.sideSet_holds {W : Bool × List Instr} {s : State} {qm : Nat} {tx en : Bool} {cmd : Cmd} (h : s.Holds W) :
  (State.sideSet s qm tx en cmd).Holds W := by
  unfold State.sideSet
  dsimp only
  with_reducible repeat' (first
    | assumption | intro _ | apply State.cmdDone_holds | apply State.enableSide_holds | apply State.requestOff_holds
    | apply ite_holds | apply foldl_holds | (simp only [mk_holds_iff]; refine holds_parts ?_))

theorem svcRadioSideSet_holds {W : Bool × List Instr} {q : Req} {s : State} (h : s.Holds W) : (svcRadioSideSet q s).1.Holds W
  := by
  unfold svcRadioSideSet
  try extract_lets
  with_reducible repeat' (first
    | assumption | apply State.check_holds | apply State.armCmd_holds | apply State.sideSet_holds | dsimp only
    | split)

theorem execRadioSideSet_holds {W : Bool × List Instr} {q : Req} {s : State} (h : s.Holds W) : OutHolds W (execRadioSideSet q
  s) := by
  unfold execRadioSideSet
  with_reducible repeat' (first
    | assumption | intro _ | apply Machine.serve_holds | apply svcRadioSideSet_holds | apply next_holds)

theorem execSideTransitionDone_holds {W : Bool × List Instr} {q : Nat} {tx : Bool} {s : State} (h : s.Holds W) : OutHolds W
  (execSideTransitionDone q tx s) := by
  unfold execSideTransitionDone
  dsimp only
  with_reducible repeat' (first
    | assumption | apply State.setSide_holds | apply State.enterSide_holds | apply State.wakeSide_holds
    | apply State.settleSide_holds | apply State.sideArrived_holds | apply next_holds | apply ite_out | split)

theorem execTxReturnCheck_holds {W : Bool × List Instr} {q : Nat} {s : State} (h : s.Holds W) : OutHolds W (execTxReturnCheck
  q s) := by
  unfold execTxReturnCheck
  dsimp only
  with_reducible repeat' (first
    | assumption | apply State.elapse_holds | apply State.setSide_holds | apply State.toward_holds | apply next_holds
    | apply ite_out)

theorem State.relockLo_holds {W : Bool × List Instr} {s : State} {k : Nat} (h : s.Holds W) : (State.relockLo s k).Holds W :=
  by
  unfold State.relockLo
  dsimp only
  with_reducible repeat' (first
    | assumption | apply State.setSide_holds | apply State.settleSide_holds | apply State.quadMute_holds
    | apply ite_holds)

theorem execLoLockLoss_holds {W : Bool × List Instr} {q : Nat} {tx : Bool} {s : State} (h : s.Holds W) : OutHolds W
  (execLoLockLoss q tx s) := by
  unfold execLoLockLoss
  dsimp only
  with_reducible repeat' (first
    | assumption | intro _ | apply State.setFld_holds | apply State.settleOpen_holds | apply State.post_holds
    | apply State.raiseThen_holds | apply State.thirdLoss_holds | apply State.setLock_holds
    | apply State.quadMute_holds | apply State.relockLo_holds | apply next_holds | apply ite_out | apply ite_holds
    | apply foldl_holds | (simp only [mk_holds_iff]; refine holds_parts ?_))

theorem State.lockGained_holds {W : Bool × List Instr} {s : State} {k : Nat} (h : s.Holds W) : (State.lockGained s
  k).Holds W := by
  unfold State.lockGained
  dsimp only
  with_reducible repeat' (first
    | assumption | intro _ | apply State.settleClose_holds | apply State.setLock_holds | apply State.tuneLocked_holds
    | apply State.tryReleases_holds | apply ite_holds | apply foldl_holds)

theorem State.queueUnderflow_holds {W : Bool × List Instr} {s : State} {p : Nat} (h : s.Holds W) :
  (State.queueUnderflow s p).Holds W := by
  unfold State.queueUnderflow
  dsimp only
  with_reducible repeat' (first
    | assumption | intro _ | apply State.setFld_holds | apply State.bump_holds | apply State.setTxPath_holds
    | apply State.postLimited_holds | apply State.setDry_holds | apply State.setBurst_holds | apply ite_holds
    | apply foldl_holds | split)

theorem execDacQueueUnderflow_holds {W : Bool × List Instr} {p : Nat} {s : State} (h : s.Holds W) : OutHolds W
  (execDacQueueUnderflow p s) := by
  unfold execDacQueueUnderflow
  with_reducible repeat' (first
    | assumption | apply State.queueUnderflow_holds | apply next_holds | split)

theorem execDacQueueRefilled_holds {W : Bool × List Instr} {p : Nat} {s : State} (h : s.Holds W) : OutHolds W
  (execDacQueueRefilled p s) := by
  unfold execDacQueueRefilled
  dsimp only
  with_reducible repeat' (first
    | assumption | apply State.setFld_holds | apply State.setTxPath_holds | apply State.setDry_holds
    | apply next_holds | split)

theorem State.refreshLimit_holds {W : Bool × List Instr} {s : State} {p : Nat} (h : s.Holds W) : (State.refreshLimit s
  p).Holds W := by
  unfold State.refreshLimit
  with_reducible repeat' (first
    | assumption | apply State.setFlag_holds)

theorem execBiasCurrentLimitHold_holds {W : Bool × List Instr} {p : Nat} {s : State} (h : s.Holds W) : OutHolds W
  (execBiasCurrentLimitHold p s) := by
  unfold execBiasCurrentLimitHold
  dsimp only
  with_reducible repeat' (first
    | assumption | apply State.setFld_holds | apply State.post_holds | apply State.raiseFault_holds
    | apply State.mutePath_holds | apply next_holds | apply ite_out)

theorem State.setLead_holds {W : Bool × List Instr} {s : State} {p : Nat} (h : s.Holds W) : (State.setLead s p).Holds W := by
  unfold State.setLead
  dsimp only
  with_reducible repeat' (first
    | assumption | apply State.setFld_holds)

theorem State.paConfigure_holds {W : Bool × List Instr} {s : State} {p : Nat} {dly slew code : Word} (h : s.Holds W) :
  (State.paConfigure s p dly slew code).Holds W := by
  unfold State.paConfigure
  dsimp only
  with_reducible repeat' (first
    | assumption | apply State.setReg_holds | apply State.setFld_holds | apply State.paTo_holds
    | apply State.setTarget_holds | apply State.setLead_holds | apply ite_holds)

theorem svcPaCfgSet_holds {W : Bool × List Instr} {q : Req} {s : State} (h : s.Holds W) : (svcPaCfgSet q s).1.Holds W := by
  unfold svcPaCfgSet
  extract_lets
  with_reducible repeat' (first
    | assumption | intro _ | apply State.check_holds | apply State.paConfigure_holds | apply foldl_holds)

theorem svcPaSeq_holds {W : Bool × List Instr} {q : Req} {s : State} (h : s.Holds W) : (svcPaSeq q s).1.Holds W := by
  unfold svcPaSeq
  try extract_lets
  with_reducible repeat' (first
    | assumption | apply State.check_holds | apply State.armCmd_holds)

theorem execPaSeq_holds {W : Bool × List Instr} {q : Req} {s : State} (h : s.Holds W) : OutHolds W (execPaSeq q s) := by
  unfold execPaSeq
  with_reducible repeat' (first
    | assumption | intro _ | apply Machine.serve_holds | apply svcPaSeq_holds | apply next_holds)

theorem State.paSeqAt_holds {W : Bool × List Instr} {s : State} {paths : Nat} {off : Bool} {cmd : Cmd} (h : s.Holds W) :
  (State.paSeqAt s paths off cmd).Holds W := by
  unfold State.paSeqAt
  dsimp only
  with_reducible repeat' (first
    | assumption | intro _ | apply State.paArrived_holds | apply State.paOffStart_holds | apply State.paOnStart_holds
    | apply ite_holds | apply foldl_holds | (simp only [mk_holds_iff]; refine holds_parts ?_))

theorem State.strobe_holds {W : Bool × List Instr} {s : State} {n : Nat} {cmd : Cmd} (h : s.Holds W) : (State.strobe s n
  cmd).Holds W := by
  unfold State.strobe
  dsimp only
  with_reducible repeat' (first
    | assumption | intro _ | apply State.setFld_holds | apply State.post_holds | apply State.elapse_holds
    | apply State.setTarget_holds | apply State.setLead_holds | apply ite_holds | apply foldl_holds)

theorem svcPaBiasStrobe_holds {W : Bool × List Instr} {q : Req} {s : State} (h : s.Holds W) : (svcPaBiasStrobe q
  s).1.Holds W := by
  unfold svcPaBiasStrobe
  try extract_lets
  with_reducible repeat' (first
    | assumption | apply State.elapse_holds | apply State.check_holds | apply State.armCmd_holds
    | apply State.strobe_holds | dsimp only | split)

theorem execPaBiasStrobe_holds {W : Bool × List Instr} {q : Req} {s : State} (h : s.Holds W) : OutHolds W (execPaBiasStrobe q
  s) := by
  unfold execPaBiasStrobe
  with_reducible repeat' (first
    | assumption | intro _ | apply Machine.serve_holds | apply svcPaBiasStrobe_holds | apply next_holds)

theorem svcAckCfgSet_holds {W : Bool × List Instr} {q : Req} {s : State} (h : s.Holds W) : (svcAckCfgSet q s).1.Holds W := by
  unfold svcAckCfgSet
  try extract_lets
  with_reducible repeat' (first
    | assumption | apply State.check_holds | (simp only [mk_holds_iff]; refine holds_parts ?_))

theorem execAckCfgSet_holds {W : Bool × List Instr} {q : Req} {s : State} (h : s.Holds W) : OutHolds W (execAckCfgSet q s) :=
  by
  unfold execAckCfgSet
  with_reducible repeat' (first
    | assumption | intro _ | apply Machine.serve_holds | apply svcAckCfgSet_holds | apply next_holds)

theorem svcAckStat_holds {W : Bool × List Instr} {x1 : Req} {s : State} (h : s.Holds W) : (svcAckStat x1 s).1.Holds W := by
  unfold svcAckStat
  try extract_lets
  with_reducible repeat' (first
    | assumption)

theorem execAckStat_holds {W : Bool × List Instr} {q : Req} {s : State} (h : s.Holds W) : OutHolds W (execAckStat q s) := by
  unfold execAckStat
  with_reducible repeat' (first
    | assumption | intro _ | apply Machine.serve_holds | apply svcAckStat_holds | apply next_holds)

/-! ### Beams -/

theorem State.raiseFor_holds {W : Bool × List Instr} {s : State} {r : Nat → Rate} {beams : List Nat} {mask : Nat → Nat} {qm :
  Nat} (h : s.Holds W) : (State.raiseFor s r beams mask qm).Holds W := by
  unfold State.raiseFor
  dsimp only
  with_reducible repeat' (first
    | assumption | intro _ | apply State.raiseOp_holds | apply ite_holds | apply foldl_holds)

theorem State.beamDone_holds {W : Bool × List Instr} {s : State} {t : T48} {st : Nat} {tx swap cfg : Bool} {n : Nat} {cmd :
  Cmd} (h : s.Holds W) : (State.beamDone s t st tx swap cfg n cmd).Holds W := by
  unfold State.beamDone
  dsimp only
  with_reducible repeat' (first
    | assumption | apply State.postAt_holds)

theorem State.markSwap_holds {W : Bool × List Instr} {s : State} {b : Nat} (h : s.Holds W) : (State.markSwap s
  b).Holds W := by
  unfold State.markSwap
  dsimp only
  with_reducible repeat' (first
    | assumption | intro _ | apply State.setCtx_holds | apply foldl_holds)

theorem State.beamChanged_holds {W : Bool × List Instr} {old s : State} {t : T48} {b : Nat} (h : old.Holds W) (h1 :
  s.Holds W) : (State.beamChanged old s t b).Holds W := by
  unfold State.beamChanged
  dsimp only
  with_reducible repeat' (first
    | assumption | apply State.aallReg_holds | apply State.beamEdges_holds | apply State.nfRestart_holds
    | apply State.markSwap_holds | apply ite_holds | (simp only [mk_holds_iff]; refine holds_parts ?_))

theorem State.rxBank_holds {W : Bool × List Instr} {s : State} {b : Nat} (h : s.Holds W) : (State.rxBank s b).Holds W
  := by
  unfold State.rxBank
  with_reducible repeat' (first
    | assumption | apply State.setFld_holds)

theorem State.rxSet_holds {W : Bool × List Instr} {s : State} {qmask shift : Nat} {excl : Bool} {b : Nat} (h : s.Holds
  W) : (State.rxSet s qmask shift excl b).Holds W := by
  unfold State.rxSet
  with_reducible repeat' (first
    | assumption | apply State.setFld_holds | apply State.setFlag_holds)

theorem State.rxSwap_holds {W : Bool × List Instr} {s : State} {t : T48} {b : Nat} (h : s.Holds W) : (State.rxSwap s t
  b).Holds W := by
  unfold State.rxSwap
  with_reducible repeat' (first
    | assumption | apply State.beamChanged_holds | apply State.rxBank_holds)

theorem State.rxCfg_holds {W : Bool × List Instr} {s : State} {t : T48} {qmask shift : Nat} {excl : Bool} {b : Nat} (h
  : s.Holds W) : (State.rxCfg s t qmask shift excl b).Holds W := by
  unfold State.rxCfg
  with_reducible repeat' (first
    | assumption | apply State.beamChanged_holds | apply State.rxSet_holds)

theorem State.txSwap_holds {W : Bool × List Instr} {s : State} {n : Nat} (h : s.Holds W) : (State.txSwap s n).Holds W := by
  unfold State.txSwap
  with_reducible repeat' (first
    | assumption | apply State.setFld_holds)

theorem State.changeLate_holds {W : Bool × List Instr} {s : State} {tx : Bool} {b : Nat} (h : s.Holds W) : (State.changeLate
  s tx b).Holds W := by
  unfold State.changeLate
  with_reducible repeat' (first
    | assumption | apply State.setFld_holds | apply ite_holds)

theorem State.beamCfgAt_holds {W : Bool × List Instr} {s : State} {t : T48} {beams qmask shift : Nat} {excl : Bool}
  {cmd : Cmd} {late : Bool} (h : s.Holds W) : (State.beamCfgAt s t beams qmask shift excl cmd late).Holds W := by
  unfold State.beamCfgAt
  dsimp only
  with_reducible repeat' (first
    | assumption | intro _ | apply State.setFld_holds | apply State.reachOpf_holds | apply State.beamDone_holds
    | apply State.rxCfg_holds | apply State.changeLate_holds | apply ite_holds | apply foldl_holds)

theorem State.beamSwapAt_holds {W : Bool × List Instr} {s : State} {t : T48} {tx : Bool} {beams : Nat} {cmd : Cmd} {late :
  Bool} (h : s.Holds W) : (State.beamSwapAt s t tx beams cmd late).Holds W := by
  unfold State.beamSwapAt
  dsimp only
  with_reducible repeat' (first
    | assumption | intro _ | apply State.setFld_holds | apply State.beamDone_holds | apply State.rxSwap_holds
    | apply State.txSwap_holds | apply State.changeLate_holds | apply ite_holds | apply foldl_holds)

theorem State.txCfg_holds {W : Bool × List Instr} {s : State} {source rateK pair : Nat} {pairValid : Bool} {qmask n : Nat} (h
  : s.Holds W) : (State.txCfg s source rateK pair pairValid qmask n).Holds W := by
  unfold State.txCfg
  dsimp only
  with_reducible repeat' (first
    | assumption | apply State.setFld_holds | apply State.setFlag_holds)

theorem State.txbCfgAt_holds {W : Bool × List Instr} {s : State} {t : T48} {beams source rateK pair : Nat} {pairValid : Bool}
  {qmask shift : Nat} {cmd : Cmd} {late : Bool} (h : s.Holds W) : (State.txbCfgAt s t beams source rateK pair
  pairValid qmask shift cmd late).Holds W := by
  unfold State.txbCfgAt
  dsimp only
  with_reducible repeat' (first
    | assumption | intro _ | apply State.setFld_holds | apply State.beamDone_holds | apply State.changeLate_holds
    | apply State.txCfg_holds | apply ite_holds | apply foldl_holds)

theorem State.dropWithMode_holds {W : Bool × List Instr} {s : State} {t : T48} (h : s.Holds W) : (State.dropWithMode s
  t).Holds W := by
  unfold State.dropWithMode
  dsimp only
  with_reducible repeat' (first
    | assumption | intro _ | apply State.setFld_holds | apply State.beamDone_holds | apply foldl_holds
    | (simp only [mk_holds_iff]; refine holds_parts ?_))

theorem State.enableBeams_holds {W : Bool × List Instr} {s : State} {n : Nat} (h : s.Holds W) : (State.enableBeams s n).Holds
  W := by
  unfold State.enableBeams
  with_reducible repeat' (first
    | assumption | intro _ | apply State.setFlag_holds | apply foldl_holds)

theorem State.beamsAtMode_holds {W : Bool × List Instr} {s : State} {t : T48} {n : Nat} (h : s.Holds W) :
  (State.beamsAtMode s t n).Holds W := by
  unfold State.beamsAtMode
  dsimp only
  with_reducible repeat' (first
    | assumption | intro _ | apply State.setFld_holds | apply State.aallReg_holds | apply State.beamEdges_holds
    | apply State.beamDone_holds | apply State.beamChanged_holds | apply State.rxBank_holds | apply State.rxSet_holds
    | apply State.txSwap_holds | apply State.enableBeams_holds | apply foldl_holds
    | (simp only [mk_holds_iff]; refine holds_parts ?_))

theorem State.pendRx_holds {W : Bool × List Instr} {s : State} {l : List Nat} (h : s.Holds W) : (State.pendRx s l).Holds W :=
  by
  unfold State.pendRx
  with_reducible repeat' (first
    | assumption | intro _ | apply State.setFld_holds | apply foldl_holds)

theorem State.pendTx_holds {W : Bool × List Instr} {s : State} {l : List Nat} (h : s.Holds W) : (State.pendTx s l).Holds W :=
  by
  unfold State.pendTx
  with_reducible repeat' (first
    | assumption | intro _ | apply State.setFld_holds | apply foldl_holds)

theorem State.beamCfgPlain_holds {W : Bool × List Instr} {s : State} {q : Req} {l : List Nat} {qm shift : Nat} {excl : Bool}
  (h : s.Holds W) : (State.beamCfgPlain s q l qm shift excl).1.Holds W := by
  unfold State.beamCfgPlain
  try extract_lets
  with_reducible repeat' (first
    | assumption | apply State.check_holds | apply State.armCmd_holds | apply State.raiseFor_holds
    | apply State.pendRx_holds)

theorem State.beamCfgWithMode_holds {W : Bool × List Instr} {s : State} {q : Req} {l : List Nat} {qm shift : Nat} {excl :
  Bool} (h : s.Holds W) : (State.beamCfgWithMode s q l qm shift excl).1.Holds W := by
  unfold State.beamCfgWithMode
  try extract_lets
  with_reducible repeat' (first
    | assumption | apply State.check_holds | apply State.pendRx_holds
    | (simp only [mk_holds_iff]; refine holds_parts ?_) | dsimp only | split)

theorem svcBeamCfgSet_holds {W : Bool × List Instr} {q : Req} {s : State} (h : s.Holds W) : (svcBeamCfgSet q s).1.Holds W :=
  by
  unfold svcBeamCfgSet
  try extract_lets
  with_reducible repeat' (first
    | assumption | apply State.beamCfgPlain_holds | apply State.beamCfgWithMode_holds | apply ite_fst)

theorem execBeamCfgSet_holds {W : Bool × List Instr} {q : Req} {s : State} (h : s.Holds W) : OutHolds W (execBeamCfgSet q s)
  := by
  unfold execBeamCfgSet
  with_reducible repeat' (first
    | assumption | intro _ | apply Machine.serve_holds | apply svcBeamCfgSet_holds | apply next_holds)

theorem State.loadShadow_holds {W : Bool × List Instr} {s : State} {tx : Bool} {b : Nat} {l : List Word} (h : s.Holds W) :
  (State.loadShadow s tx b l).Holds W := by
  unfold State.loadShadow
  with_reducible repeat' (first
    | assumption | apply State.setFld_holds | apply State.setWeights_holds | apply ite_holds)

theorem svcBeamWeightLoad_holds {W : Bool × List Instr} {q : Req} {s : State} (h : s.Holds W) : (svcBeamWeightLoad q
  s).1.Holds W := by
  unfold svcBeamWeightLoad
  try extract_lets
  with_reducible repeat' (first
    | assumption | intro _ | apply State.check_holds | apply State.withInput_holds | apply State.loadShadow_holds
    | apply foldl_holds)

theorem execBeamWeightLoad_holds {W : Bool × List Instr} {q : Req} {s : State} (h : s.Holds W) : OutHolds W
  (execBeamWeightLoad q s) := by
  unfold execBeamWeightLoad
  with_reducible repeat' (first
    | assumption | intro _ | apply Machine.serve_holds | apply svcBeamWeightLoad_holds | apply next_holds)

theorem svcBeamSwap_holds {W : Bool × List Instr} {q : Req} {s : State} (h : s.Holds W) : (svcBeamSwap q s).1.Holds W := by
  unfold svcBeamSwap
  dsimp only
  with_reducible repeat' (first
    | assumption | apply State.check_holds | apply State.armCmd_holds | apply State.pendRx_holds
    | apply State.pendTx_holds | dsimp only | split)

theorem execBeamSwap_holds {W : Bool × List Instr} {q : Req} {s : State} (h : s.Holds W) : OutHolds W (execBeamSwap q s) :=
  by
  unfold execBeamSwap
  with_reducible repeat' (first
    | assumption | intro _ | apply Machine.serve_holds | apply svcBeamSwap_holds | apply next_holds)

theorem svcBeamWeightRead_holds {W : Bool × List Instr} {q : Req} {s : State} (h : s.Holds W) : (svcBeamWeightRead q
  s).1.Holds W := by
  unfold svcBeamWeightRead
  try extract_lets
  with_reducible repeat' (first
    | assumption | apply State.check_holds | apply State.putTileWords_holds)

theorem execBeamWeightRead_holds {W : Bool × List Instr} {q : Req} {s : State} (h : s.Holds W) : OutHolds W
  (execBeamWeightRead q s) := by
  unfold execBeamWeightRead
  with_reducible repeat' (first
    | assumption | intro _ | apply Machine.serve_holds | apply svcBeamWeightRead_holds | apply next_holds)

theorem svcTxbCfgSet_holds {W : Bool × List Instr} {q : Req} {s : State} (h : s.Holds W) : (svcTxbCfgSet q s).1.Holds
  W := by
  unfold svcTxbCfgSet
  dsimp only
  with_reducible repeat' (first
    | assumption | apply State.check_holds | apply State.armCmd_holds | apply State.pendTx_holds)

theorem execTxbCfgSet_holds {W : Bool × List Instr} {q : Req} {s : State} (h : s.Holds W) : OutHolds W (execTxbCfgSet q s) :=
  by
  unfold execTxbCfgSet
  with_reducible repeat' (first
    | assumption | intro _ | apply Machine.serve_holds | apply svcTxbCfgSet_holds | apply next_holds)

theorem execPathSumSaturation_holds {W : Bool × List Instr} {p : Nat} {s : State} (h : s.Holds W) : OutHolds W
  (execPathSumSaturation p s) := by
  unfold execPathSumSaturation
  with_reducible repeat' (first
    | assumption | apply State.setFld_holds | apply State.bump_holds | apply State.postLimited_holds
    | apply next_holds | split)

/-! ### Ack -/

theorem State.acknowledge_holds {W : Bool × List Instr} {s : State} {n : Nat} (h : s.Holds W) : (State.acknowledge s
  n).Holds W := by
  unfold State.acknowledge
  dsimp only
  with_reducible repeat' (first
    | assumption | apply State.setTxLine_holds | apply State.armCmd_holds | apply State.setBurst_holds
    | apply State.ackDrop_holds | apply ite_holds | split)

theorem State.deliver_holds {W : Bool × List Instr} {s : State} {n : Nat} {coded : Bool} (h : s.Holds W) :
  (State.deliver s n coded).Holds W := by
  unfold State.deliver
  dsimp only
  with_reducible repeat' (first
    | assumption | apply State.setCtx_holds | apply State.dropRetention_holds | apply State.formRecord_holds
    | apply State.sicResult_holds | apply State.endCand_holds | apply State.keepRegen_holds
    | apply State.acknowledge_holds | apply ite_holds | (simp only [mk_holds_iff]; refine holds_parts ?_) | split)

theorem State.headerOnly_holds {W : Bool × List Instr} {s : State} {n : Nat} {p : Profile} (h : s.Holds W) :
  (State.headerOnly s n p).Holds W := by
  unfold State.headerOnly
  dsimp only
  with_reducible repeat' (first
    | assumption | intro _ | apply State.setCtx_holds | apply State.endCapture_holds | apply State.deliver_holds)

theorem State.startPayload_holds {W : Bool × List Instr} {s : State} {n : Nat} {p : Profile} {slot : Nat} {f : Fit} (h
  : s.Holds W) : (State.startPayload s n p slot f).Holds W := by
  unfold State.startPayload
  dsimp only
  with_reducible repeat' (first
    | assumption | apply State.setCtx_holds | apply State.takePool_holds | apply State.abort_holds
    | refine of_pair (by assumption) ?_ | split)

theorem State.decideHeader_holds {W : Bool × List Instr} {s : State} {c : Nat} {p : Profile} {llr : List Int} (h :
  s.Holds W) : (State.decideHeader s c p llr).Holds W := by
  unfold State.decideHeader
  dsimp only
  with_reducible repeat' (first
    | assumption | apply State.setCtx_holds | apply State.abort_holds | apply State.headerOnly_holds
    | apply State.startPayload_holds | apply ite_holds | split)

theorem execHeaderComplete_holds {W : Bool × List Instr} {c : Nat} {x1 x2 : Computed} {s : State} (h : s.Holds W) :
  OutHolds W (execHeaderComplete c x1 x2 s) := by
  unfold execHeaderComplete
  dsimp only
  with_reducible repeat' (first
    | assumption | apply State.ctxTileBad_holds | apply State.decideHeader_holds | apply next_holds | apply ite_out
    | apply getD_holds | split)

theorem execDecodingEnd_holds {W : Bool × List Instr} {c : Nat} {s : State} (h : s.Holds W) : OutHolds W
  (execDecodingEnd c s) := by
  unfold execDecodingEnd
  dsimp only
  with_reducible repeat' (first
    | assumption | apply State.setCtx_holds | apply State.abort_holds | apply State.ctxTileBad_holds
    | apply State.deliver_holds | apply next_holds | apply ite_out | apply ite_holds | apply getD_holds | split)

/-! ### RxCmds -/

theorem State.setProfile_holds {W : Bool × List Instr} {s : State} {n : Nat} {p : Profile} (h : s.Holds W) :
  (State.setProfile s n p).Holds W := by
  unfold State.setProfile
  dsimp only
  with_reducible repeat' (first
    | assumption | (simp only [mk_holds_iff]; refine holds_parts ?_))

theorem State.unbind_holds {W : Bool × List Instr} {s : State} {n : Nat} (h : s.Holds W) : (State.unbind s n).Holds W := by
  unfold State.unbind
  dsimp only
  with_reducible repeat' (first
    | assumption | intro _ | apply ite_holds | apply foldl_holds | (simp only [mk_holds_iff]; refine holds_parts ?_)
    | split)

theorem svcProfileLoad_holds {W : Bool × List Instr} {q : Req} {s : State} (h : s.Holds W) : (svcProfileLoad q s).1.Holds W
  := by
  unfold svcProfileLoad
  try extract_lets
  with_reducible repeat' (first
    | assumption | intro _ | apply State.check_holds | apply State.withInput_holds | apply State.searchRegs_holds
    | apply State.setProfile_holds | apply State.unbind_holds)

theorem execProfileLoad_holds {W : Bool × List Instr} {q : Req} {s : State} (h : s.Holds W) : OutHolds W (execProfileLoad q
  s) := by
  unfold execProfileLoad
  with_reducible repeat' (first
    | assumption | intro _ | apply Machine.serve_holds | apply svcProfileLoad_holds | apply next_holds)

theorem svcCodeLoad_holds {W : Bool × List Instr} {q : Req} {s : State} (h : s.Holds W) : (svcCodeLoad q s).1.Holds W := by
  unfold svcCodeLoad
  dsimp only
  with_reducible repeat' (first
    | assumption | intro _ | apply State.check_holds | apply State.withInput_holds | apply State.searchRegs_holds
    | (simp only [mk_holds_iff]; refine holds_parts ?_))

theorem execCodeLoad_holds {W : Bool × List Instr} {q : Req} {s : State} (h : s.Holds W) : OutHolds W (execCodeLoad q s) :=
  by
  unfold execCodeLoad
  with_reducible repeat' (first
    | assumption | intro _ | apply Machine.serve_holds | apply svcCodeLoad_holds | apply next_holds)

theorem svcProfileEnable_holds {W : Bool × List Instr} {q : Req} {s : State} (h : s.Holds W) : (svcProfileEnable q s).1.Holds
  W := by
  unfold svcProfileEnable
  try extract_lets
  with_reducible repeat' (first
    | assumption | apply State.check_holds | apply State.armCmd_holds)

theorem execProfileEnable_holds {W : Bool × List Instr} {q : Req} {s : State} (h : s.Holds W) : OutHolds W (execProfileEnable
  q s) := by
  unfold execProfileEnable
  with_reducible repeat' (first
    | assumption | intro _ | apply Machine.serve_holds | apply svcProfileEnable_holds | apply next_holds)

theorem State.profileAt_holds {W : Bool × List Instr} {s : State} {t : T48} {profiles codes : Nat} {cmd : Cmd} (h : s.Holds
  W) : (State.profileAt s t profiles codes cmd).Holds W := by
  unfold State.profileAt
  dsimp only
  with_reducible repeat' (first
    | assumption | apply State.postAt_holds | apply State.searchRegs_holds
    | (simp only [mk_holds_iff]; refine holds_parts ?_))

theorem State.setThr_holds {W : Bool × List Instr} {s : State} {c v : Nat} (h : s.Holds W) : (State.setThr s c v).Holds W :=
  by
  unfold State.setThr
  dsimp only
  with_reducible repeat' (first
    | assumption | (simp only [mk_holds_iff]; refine holds_parts ?_))

theorem svcDetThrSet_holds {W : Bool × List Instr} {q : Req} {s : State} (h : s.Holds W) : (svcDetThrSet q s).1.Holds W := by
  unfold svcDetThrSet
  try extract_lets
  with_reducible repeat' (first
    | assumption | intro _ | apply State.check_holds | apply State.setThr_holds | apply foldl_holds)

theorem execDetThrSet_holds {W : Bool × List Instr} {q : Req} {s : State} (h : s.Holds W) : OutHolds W (execDetThrSet q s) :=
  by
  unfold execDetThrSet
  with_reducible repeat' (first
    | assumption | intro _ | apply Machine.serve_holds | apply svcDetThrSet_holds | apply next_holds)

theorem svcTongsPolicySet_holds {W : Bool × List Instr} {q : Req} {s : State} (h : s.Holds W) : (svcTongsPolicySet q
  s).1.Holds W := by
  unfold svcTongsPolicySet
  dsimp only
  with_reducible repeat' (first
    | assumption | apply State.setPolicy_holds | apply State.logPlace_holds | apply State.updateLimit_holds
    | apply State.check_holds | dsimp only | split)

theorem execTongsPolicySet_holds {W : Bool × List Instr} {q : Req} {s : State} (h : s.Holds W) : OutHolds W
  (execTongsPolicySet q s) := by
  unfold execTongsPolicySet
  with_reducible repeat' (first
    | assumption | intro _ | apply Machine.serve_holds | apply svcTongsPolicySet_holds | apply next_holds)

theorem svcTongsPolicyGet_holds {W : Bool × List Instr} {q : Req} {s : State} (h : s.Holds W) : (svcTongsPolicyGet q
  s).1.Holds W := by
  unfold svcTongsPolicyGet
  try extract_lets
  with_reducible repeat' (first
    | assumption | apply State.check_holds)

theorem execTongsPolicyGet_holds {W : Bool × List Instr} {q : Req} {s : State} (h : s.Holds W) : OutHolds W
  (execTongsPolicyGet q s) := by
  unfold execTongsPolicyGet
  with_reducible repeat' (first
    | assumption | intro _ | apply Machine.serve_holds | apply svcTongsPolicyGet_holds | apply next_holds)

theorem State.setLog_holds {W : Bool × List Instr} {s : State} {l : Option PlaceLog} (h : s.Holds W) : (State.setLog s
  l).Holds W := by
  unfold State.setLog
  dsimp only
  with_reducible repeat' (first
    | assumption | (simp only [mk_holds_iff]; refine holds_parts ?_))

theorem svcPlaceLogSet_holds {W : Bool × List Instr} {q : Req} {s : State} (h : s.Holds W) : (svcPlaceLogSet q s).1.Holds W
  := by
  unfold svcPlaceLogSet
  try extract_lets
  with_reducible repeat' (first
    | assumption | apply State.check_holds | apply State.setLog_holds | apply ite_fst)

theorem execPlaceLogSet_holds {W : Bool × List Instr} {q : Req} {s : State} (h : s.Holds W) : OutHolds W (execPlaceLogSet q
  s) := by
  unfold execPlaceLogSet
  with_reducible repeat' (first
    | assumption | intro _ | apply Machine.serve_holds | apply svcPlaceLogSet_holds | apply next_holds)

theorem svcCtxRead_holds {W : Bool × List Instr} {q : Req} {s : State} (h : s.Holds W) : (svcCtxRead q s).1.Holds W :=
  by
  unfold svcCtxRead
  try extract_lets
  with_reducible repeat' (first
    | assumption)

theorem execCtxRead_holds {W : Bool × List Instr} {q : Req} {s : State} (h : s.Holds W) : OutHolds W (execCtxRead q s) := by
  unfold execCtxRead
  with_reducible repeat' (first
    | assumption | intro _ | apply Machine.serve_holds | apply svcCtxRead_holds | apply next_holds)

theorem svcCtxSummary_holds {W : Bool × List Instr} {x1 : Req} {s : State} (h : s.Holds W) : (svcCtxSummary x1 s).1.Holds W
  := by
  unfold svcCtxSummary
  try extract_lets
  with_reducible repeat' (first
    | assumption)

theorem execCtxSummary_holds {W : Bool × List Instr} {q : Req} {s : State} (h : s.Holds W) : OutHolds W (execCtxSummary q s)
  := by
  unfold execCtxSummary
  with_reducible repeat' (first
    | assumption | intro _ | apply Machine.serve_holds | apply svcCtxSummary_holds | apply next_holds)

theorem svcBgLoad_holds {W : Bool × List Instr} {q : Req} {s : State} (h : s.Holds W) : (svcBgLoad q s).1.Holds W := by
  unfold svcBgLoad
  try extract_lets
  with_reducible repeat' (first
    | assumption | intro _ | apply State.check_holds | apply State.withInput_holds
    | (simp only [mk_holds_iff]; refine holds_parts ?_))

theorem execBgLoad_holds {W : Bool × List Instr} {q : Req} {s : State} (h : s.Holds W) : OutHolds W (execBgLoad q s) := by
  unfold execBgLoad
  with_reducible repeat' (first
    | assumption | intro _ | apply Machine.serve_holds | apply svcBgLoad_holds | apply next_holds)

theorem svcDecCfgSet_holds {W : Bool × List Instr} {q : Req} {s : State} (h : s.Holds W) : (svcDecCfgSet q s).1.Holds W := by
  unfold svcDecCfgSet
  try extract_lets
  with_reducible repeat' (first
    | assumption | apply State.check_holds | (simp only [mk_holds_iff]; refine holds_parts ?_))

theorem execDecCfgSet_holds {W : Bool × List Instr} {q : Req} {s : State} (h : s.Holds W) : OutHolds W (execDecCfgSet q s) :=
  by
  unfold execDecCfgSet
  with_reducible repeat' (first
    | assumption | intro _ | apply Machine.serve_holds | apply svcDecCfgSet_holds | apply next_holds)

theorem svcBacklogCfgSet_holds {W : Bool × List Instr} {q : Req} {s : State} (h : s.Holds W) : (svcBacklogCfgSet q s).1.Holds
  W := by
  unfold svcBacklogCfgSet
  dsimp only
  with_reducible repeat' (first
    | assumption | apply State.check_holds | (simp only [mk_holds_iff]; refine holds_parts ?_))

theorem execBacklogCfgSet_holds {W : Bool × List Instr} {q : Req} {s : State} (h : s.Holds W) : OutHolds W (execBacklogCfgSet
  q s) := by
  unfold execBacklogCfgSet
  with_reducible repeat' (first
    | assumption | intro _ | apply Machine.serve_holds | apply svcBacklogCfgSet_holds | apply next_holds)

theorem svcBacklogStat_holds {W : Bool × List Instr} {x1 : Req} {s : State} (h : s.Holds W) : (svcBacklogStat x1 s).1.Holds W
  := by
  unfold svcBacklogStat
  dsimp only
  with_reducible repeat' (first
    | assumption | apply State.takeFree_holds | split)

theorem execBacklogStat_holds {W : Bool × List Instr} {q : Req} {s : State} (h : s.Holds W) : OutHolds W (execBacklogStat q
  s) := by
  unfold execBacklogStat
  with_reducible repeat' (first
    | assumption | intro _ | apply Machine.serve_holds | apply svcBacklogStat_holds | apply next_holds)

end Sys2Proof.Machine
end

