-- ==== Sys2Proof/Laws/HoldsLink.lean ====
section
/-! SUPPORT. The link, the Sieve, power and clocks keep the canonical form and the queue, meaning by meaning: each
answers a next state (OutHolds). -/

namespace Sys2Proof.Machine
open Host

/-! ### Lanes -/

theorem State.onLanes_holds {W : Bool × List Instr} {s : State} {f : Nat → LaneTx → LaneTx} (h : s.Holds W) :
  (State.onLanes s f).Holds W := by
  unfold State.onLanes
  dsimp only
  with_reducible repeat' (first
    | assumption | (simp only [mk_holds_iff]; refine holds_parts ?_))

theorem State.sendRow_holds {W : Bool × List Instr} {s : State} {r : BitVec 64} (h : s.Holds W) : (State.sendRow s
  r).Holds W := by
  unfold State.sendRow
  dsimp only
  with_reducible repeat' (first
    | assumption | apply State.onLanes_holds | (simp only [mk_holds_iff]; refine holds_parts ?_))

theorem State.sendAms_holds {W : Bool × List Instr} {s : State} (h : s.Holds W) : (State.sendAms s).Holds W := by
  unfold State.sendAms
  with_reducible repeat' (first
    | assumption | apply State.onLanes_holds)

theorem State.sendBlocks_holds {W : Bool × List Instr} {s : State} {l : List (Bool × BitVec 64)} (h : s.Holds W) :
  (State.sendBlocks s l).Holds W := by
  unfold State.sendBlocks
  dsimp only
  with_reducible repeat' (first
    | assumption | apply State.onLanes_holds)

theorem State.freshRows_holds {W : Bool × List Instr} {s : State} (h : s.Holds W) : (State.freshRows s).Holds W := by
  unfold State.freshRows
  dsimp only
  with_reducible repeat' (first
    | assumption | (simp only [mk_holds_iff]; refine holds_parts ?_))

/-! ### Framing -/

theorem State.stepRegs_holds {W : Bool × List Instr} {s : State} (h : s.Holds W) : (State.stepRegs s).Holds W := by
  unfold State.stepRegs
  dsimp only
  with_reducible repeat' (first
    | assumption | apply State.setFld_holds | apply State.setFlag_holds)

theorem State.setStep_holds {W : Bool × List Instr} {s : State} {n cause : Nat} {entry : Bool} (h : s.Holds W) :
  (State.setStep s n cause entry).Holds W := by
  unfold State.setStep
  dsimp only
  with_reducible repeat' (first
    | assumption | apply State.setFld_holds | apply State.post_holds | apply State.stepRegs_holds | apply ite_holds)

theorem State.evaluate_holds {W : Bool × List Instr} {s : State} {entry : Bool} (h : s.Holds W) : (State.evaluate s
  entry).Holds W := by
  unfold State.evaluate
  dsimp only
  with_reducible repeat' (first
    | assumption | apply State.setStep_holds | (simp only [mk_holds_iff]; refine holds_parts ?_))

theorem State.nextStep_holds {W : Bool × List Instr} {s : State} (h : s.Holds W) : (State.nextStep s).Holds W := by
  unfold State.nextStep
  with_reducible repeat' (first
    | assumption | apply State.setStep_holds | apply ite_holds)

theorem State.newRuns_holds {W : Bool × List Instr} {s : State} (h : s.Holds W) : (State.newRuns s).Holds W := by
  unfold State.newRuns
  dsimp only
  with_reducible repeat' (first
    | assumption | (simp only [mk_holds_iff]; refine holds_parts ?_))

theorem execDegradeMeasureWindow_holds {W : Bool × List Instr} {x1 : Computed} {s : State} (h : s.Holds W) : OutHolds
  W (execDegradeMeasureWindow x1 s) := by
  unfold execDegradeMeasureWindow
  with_reducible repeat' (first
    | assumption | apply State.nextStep_holds | apply next_holds | split)

theorem State.dropIq_holds {W : Bool × List Instr} {s : State} {stream : Nat} (h : s.Holds W) : (State.dropIq s stream).Holds
  W := by
  unfold State.dropIq
  dsimp only
  with_reducible repeat' (first
    | assumption | apply State.setFld_holds | apply State.bump_holds | apply State.postLimited_holds
    | apply State.nextStep_holds | apply ite_holds | (simp only [mk_holds_iff]; refine holds_parts ?_))

theorem State.measureIq_holds {W : Bool × List Instr} {s : State} {f : Frame} {l : List IqBlock} (h : s.Holds W) :
  (State.measureIq s f l).Holds W := by
  unfold State.measureIq
  dsimp only
  with_reducible repeat' (first
    | assumption | (simp only [mk_holds_iff]; refine holds_parts ?_))

theorem State.bufferIq_holds {W : Bool × List Instr} {s : State} {f : Frame} (h : s.Holds W) : (State.bufferIq s
  f).Holds W := by
  unfold State.bufferIq
  dsimp only
  with_reducible repeat' (first
    | assumption | apply State.formFrame_holds | apply State.dropIq_holds | apply ite_holds
    | (simp only [mk_holds_iff]; refine holds_parts ?_))

theorem execIqFrameFormed_holds {W : Bool × List Instr} {stream : Nat} {t : BitVec 48} {n : Nat} {s : State} (h :
  s.Holds W) : OutHolds W (execIqFrameFormed stream t n s) := by
  unfold execIqFrameFormed
  dsimp only
  with_reducible repeat' (first
    | assumption | apply State.elapseTo_holds | apply State.measureIq_holds | apply State.bufferIq_holds
    | apply next_holds | apply ite_out | split)

theorem State.creditRegs_holds {W : Bool × List Instr} {s : State} (h : s.Holds W) : (State.creditRegs s).Holds W := by
  unfold State.creditRegs
  dsimp only
  with_reducible repeat' (first
    | assumption | apply State.setFlag_holds)

theorem State.received_holds {W : Bool × List Instr} {s : State} {stream len8 : Nat} (h : s.Holds W) : (State.received s
  stream len8).Holds W := by
  unfold State.received
  dsimp only
  with_reducible repeat' (first
    | assumption | (simp only [mk_holds_iff]; refine holds_parts ?_))

theorem State.discardFrame_holds {W : Bool × List Instr} {s : State} {check stream : Nat} (h : s.Holds W) :
  (State.discardFrame s check stream).Holds W := by
  unfold State.discardFrame
  dsimp only
  with_reducible repeat' (first
    | assumption | apply State.setFld_holds | apply State.bump_holds
    | (simp only [mk_holds_iff]; refine holds_parts ?_) | split)

theorem execCreditFrame_holds {W : Bool × List Instr} {ws : List Word} {s : State} (h : s.Holds W) : OutHolds W
  (execCreditFrame ws s) := by
  unfold execCreditFrame
  dsimp only
  with_reducible repeat' (first
    | assumption | apply State.creditRegs_holds | apply State.received_holds | apply State.discardFrame_holds
    | apply next_holds | apply ite_out | (simp only [mk_holds_iff]; refine holds_parts ?_))

theorem State.grantCredit_holds {W : Bool × List Instr} {s : State} (h : s.Holds W) : (State.grantCredit s).Holds W := by
  unfold State.grantCredit
  dsimp only
  with_reducible repeat' (first
    | assumption | apply State.formFrame_holds | (simp only [mk_holds_iff]; refine holds_parts ?_))

theorem execCreditGrantTimer_holds {W : Bool × List Instr} {s : State} (h : s.Holds W) : OutHolds W (execCreditGrantTimer s)
  := by
  unfold execCreditGrantTimer
  with_reducible repeat' (first
    | assumption | apply State.grantCredit_holds | apply next_holds | split)

theorem execEventFrameClose_holds {W : Bool × List Instr} {s : State} (h : s.Holds W) : OutHolds W (execEventFrameClose s) :=
  by
  unfold execEventFrameClose
  with_reducible repeat' (first
    | assumption | apply State.closeEvents_holds | apply State.elapseTo_holds | apply next_holds | apply ite_out)

theorem State.noteStall_holds {W : Bool × List Instr} {s : State} (h : s.Holds W) : (State.noteStall s).Holds W := by
  unfold State.noteStall
  with_reducible repeat' (first
    | assumption | apply State.setFld_holds | apply ite_holds)

theorem State.startFrame_holds {W : Bool × List Instr} {s : State} {f : Frame} (h : s.Holds W) : (State.startFrame s
  f).Holds W := by
  unfold State.startFrame
  dsimp only
  with_reducible repeat' (first
    | assumption | apply State.dmaIssued_holds | apply State.sendBlocks_holds | apply State.freshRows_holds
    | apply State.creditRegs_holds | apply ite_holds | (simp only [mk_holds_iff]; refine holds_parts ?_))

theorem State.startDrain_holds {W : Bool × List Instr} {s : State} {t : BlTile} (h : s.Holds W) : (State.startDrain s
  t).Holds W := by
  unfold State.startDrain
  dsimp only
  with_reducible repeat' (first
    | assumption | apply State.setFld_holds | apply State.releaseTile_holds | apply State.openTile_holds
    | apply State.setPanUse_holds | apply State.startFrame_holds | (simp only [mk_holds_iff]; refine holds_parts ?_)
    | refine of_snd (by assumption) ?_ | split)

theorem execFrameStart_holds {W : Bool × List Instr} {s : State} (h : s.Holds W) : OutHolds W (execFrameStart s) := by
  unfold execFrameStart
  dsimp only
  with_reducible repeat' (first
    | assumption | apply State.noteStall_holds | apply State.startFrame_holds | apply State.startDrain_holds
    | apply next_holds | apply ite_out | (simp only [mk_holds_iff]; refine holds_parts ?_) | split)

theorem State.drained_holds {W : Bool × List Instr} {s : State} (h : s.Holds W) : (State.drained s).Holds W := by
  unfold State.drained
  dsimp only
  with_reducible repeat' (first
    | assumption | apply State.setFld_holds | apply State.releaseTile_holds | apply State.setPanUse_holds
    | (simp only [mk_holds_iff]; refine holds_parts ?_) | split)

theorem State.resynced_holds {W : Bool × List Instr} {s : State} {f : Frame} (h : s.Holds W) : (State.resynced s
  f).Holds W := by
  unfold State.resynced
  dsimp only
  with_reducible repeat' (first
    | assumption | apply ite_holds | (simp only [mk_holds_iff]; refine holds_parts ?_))

theorem execFrameSent_holds {W : Bool × List Instr} {s : State} (h : s.Holds W) : OutHolds W (execFrameSent s) := by
  unfold execFrameSent
  dsimp only
  with_reducible repeat' (first
    | assumption | apply State.sendBlocks_holds | apply State.freshRows_holds | apply State.drained_holds
    | apply State.resynced_holds | apply next_holds | (simp only [mk_holds_iff]; refine holds_parts ?_) | split)

theorem State.burstReject_holds {W : Bool × List Instr} {s : State} {beam id st : Nat} (h : s.Holds W) : (State.burstReject s
  beam id st).Holds W := by
  unfold State.burstReject
  with_reducible repeat' (first
    | assumption | apply State.post_holds)

theorem execBurstFrame_holds {W : Bool × List Instr} {beam : Nat} {ws : List Word} {s : State} (h : s.Holds W) : OutHolds W
  (execBurstFrame beam ws s) := by
  unfold execBurstFrame
  dsimp only
  with_reducible repeat' (first
    | assumption | apply State.armCmd_holds | apply State.setBurst_holds | apply State.received_holds
    | apply State.discardFrame_holds | apply State.burstReject_holds | apply next_holds | apply ite_out | split)

theorem execBurstSampleFrame_holds {W : Bool × List Instr} {beam id m : Nat} {last : Bool} {f : FrameBody} {s : State}
  (h : s.Holds W) : OutHolds W (execBurstSampleFrame beam id m last f s) := by
  unfold execBurstSampleFrame
  dsimp only
  with_reducible repeat' (first
    | assumption | apply State.feedLine_holds | apply State.setBurst_holds | apply State.received_holds
    | apply State.discardFrame_holds | apply next_holds | apply ite_out | split)

theorem execFrameDiscard_holds {W : Bool × List Instr} {ended : Bool} {bytes : List Byte} {s : State} (h : s.Holds W)
  : OutHolds W (execFrameDiscard ended bytes s) := by
  unfold execFrameDiscard
  dsimp only
  with_reducible repeat' (first
    | assumption | apply State.discardFrame_holds | apply next_holds | split)

theorem svcTxbLinkTcSet_holds {W : Bool × List Instr} {q : Req} {s : State} (h : s.Holds W) : (svcTxbLinkTcSet q s).1.Holds W
  := by
  unfold svcTxbLinkTcSet
  try extract_lets
  with_reducible repeat' (first
    | assumption | apply State.check_holds | (simp only [mk_holds_iff]; refine holds_parts ?_))

theorem execTxbLinkTcSet_holds {W : Bool × List Instr} {q : Req} {s : State} (h : s.Holds W) : OutHolds W (execTxbLinkTcSet q
  s) := by
  unfold execTxbLinkTcSet
  with_reducible repeat' (first
    | assumption | intro _ | apply Machine.serve_holds | apply svcTxbLinkTcSet_holds | apply next_holds)

theorem svcFrameContentSet_holds {W : Bool × List Instr} {q : Req} {s : State} (h : s.Holds W) : (svcFrameContentSet q
  s).1.Holds W := by
  unfold svcFrameContentSet
  dsimp only
  with_reducible repeat' (first
    | assumption | apply State.setFld_holds | apply State.check_holds | apply State.evaluate_holds
    | apply State.newRuns_holds | (simp only [mk_holds_iff]; refine holds_parts ?_) | dsimp only | split)

theorem execFrameContentSet_holds {W : Bool × List Instr} {q : Req} {s : State} (h : s.Holds W) : OutHolds W
  (execFrameContentSet q s) := by
  unfold execFrameContentSet
  with_reducible repeat' (first
    | assumption | intro _ | apply Machine.serve_holds | apply svcFrameContentSet_holds | apply next_holds)

theorem svcFrameStatGet_holds {W : Bool × List Instr} {q : Req} {s : State} (h : s.Holds W) : (svcFrameStatGet q s).1.Holds W
  := by
  unfold svcFrameStatGet
  try extract_lets
  with_reducible repeat' (first
    | assumption)

theorem execFrameStatGet_holds {W : Bool × List Instr} {q : Req} {s : State} (h : s.Holds W) : OutHolds W (execFrameStatGet q
  s) := by
  unfold execFrameStatGet
  with_reducible repeat' (first
    | assumption | intro _ | apply Machine.serve_holds | apply svcFrameStatGet_holds | apply next_holds)

/-! ### Link -/

theorem execTimeMarkSend_holds {W : Bool × List Instr} {s : State} (h : s.Holds W) : OutHolds W (execTimeMarkSend s)
  := by
  unfold execTimeMarkSend
  dsimp only
  with_reducible repeat' (first
    | assumption | apply State.setReg_holds | apply State.setFld_holds | apply State.sendFrame_holds
    | apply State.sendRow_holds | apply State.freshRows_holds | apply next_holds | apply ite_out
    | (simp only [mk_holds_iff]; refine holds_parts ?_))

theorem State.setAligned_holds {W : Bool × List Instr} {s : State} {r : Nat} {b : Bool} (h : s.Holds W) : (State.setAligned s
  r b).Holds W := by
  unfold State.setAligned
  dsimp only
  with_reducible repeat' (first
    | assumption | (simp only [mk_holds_iff]; refine holds_parts ?_))

theorem State.setLockAt_holds {W : Bool × List Instr} {s : State} {r : Nat} {t : Option T48} (h : s.Holds W) :
  (State.setLockAt s r t).Holds W := by
  unfold State.setLockAt
  dsimp only
  with_reducible repeat' (first
    | assumption | (simp only [mk_holds_iff]; refine holds_parts ?_))

theorem State.setAmBad_holds {W : Bool × List Instr} {s : State} {r n : Nat} (h : s.Holds W) : (State.setAmBad s r
  n).Holds W := by
  unfold State.setAmBad
  dsimp only
  with_reducible repeat' (first
    | assumption | (simp only [mk_holds_iff]; refine holds_parts ?_))

theorem State.badRow_holds {W : Bool × List Instr} {s : State} {row : BitVec 64} (h : s.Holds W) : (State.badRow s
  row).Holds W := by
  unfold State.badRow
  with_reducible repeat' (first
    | assumption | intro _ | apply State.bump_holds | apply ite_holds | apply foldl_holds)

theorem State.unlockPair_holds {W : Bool × List Instr} {s : State} {r : Nat} (h : s.Holds W) : (State.unlockPair s
  r).Holds W := by
  unfold State.unlockPair
  with_reducible repeat' (first
    | assumption | apply State.setFld_holds | apply State.setAligned_holds | apply State.setLockAt_holds
    | apply State.setAmBad_holds)

theorem State.adapt_holds {W : Bool × List Instr} {s : State} {r : Nat} (h : s.Holds W) : (State.adapt s r).Holds W := by
  unfold State.adapt
  dsimp only
  with_reducible repeat' (first
    | assumption | apply State.setFld_holds | apply State.takeFree_holds)

theorem State.sendLstat_holds {W : Bool × List Instr} {s : State} (h : s.Holds W) : (State.sendLstat s).Holds W := by
  unfold State.sendLstat
  dsimp only
  with_reducible repeat' (first
    | assumption | apply State.sendRow_holds | (simp only [mk_holds_iff]; refine holds_parts ?_))

theorem State.lstatOnChange_holds {W : Bool × List Instr} {s : State} {old : Nat} (h : s.Holds W) : (State.lstatOnChange s
  old).Holds W := by
  unfold State.lstatOnChange
  with_reducible repeat' (first
    | assumption | apply State.sendLstat_holds | apply ite_holds)

theorem State.linkTo_holds {W : Bool × List Instr} {s : State} {st : Nat} (h : s.Holds W) : (State.linkTo s st).Holds W := by
  unfold State.linkTo
  dsimp only
  with_reducible repeat' (first
    | assumption | apply State.setFld_holds | (simp only [mk_holds_iff]; refine holds_parts ?_))

theorem State.setBonds_holds {W : Bool × List Instr} {s : State} {tx rx : Nat} (h : s.Holds W) : (State.setBonds s tx
  rx).Holds W := by
  unfold State.setBonds
  dsimp only
  with_reducible repeat' (first
    | assumption | intro _ | apply State.setFld_holds | apply State.setFlag_holds | apply foldl_holds)

theorem State.staleMarks_holds {W : Bool × List Instr} {s : State} (h : s.Holds W) : (State.staleMarks s).Holds W := by
  unfold State.staleMarks
  dsimp only
  with_reducible repeat' (first
    | assumption | (simp only [mk_holds_iff]; refine holds_parts ?_))

theorem State.leaveUp_holds {W : Bool × List Instr} {s : State} (h : s.Holds W) : (State.leaveUp s).Holds W := by
  unfold State.leaveUp
  dsimp only
  with_reducible repeat' (first
    | assumption | apply State.setFld_holds | apply State.setBonds_holds
    | (simp only [mk_holds_iff]; refine holds_parts ?_))

theorem State.dmaRemote_holds {W : Bool × List Instr} {s : State} (h : s.Holds W) : (State.dmaRemote s).Holds W := by
  unfold State.dmaRemote
  with_reducible repeat' (first
    | assumption | intro _ | apply State.dmaHalt_holds | apply foldl_holds)

theorem State.linkDown_holds {W : Bool × List Instr} {s : State} {cause : Nat} {backoff : Bool} (h : s.Holds W) :
  (State.linkDown s cause backoff).Holds W := by
  unfold State.linkDown
  dsimp only
  with_reducible repeat' (first
    | assumption | apply State.setFld_holds | apply State.post_holds | apply State.raiseFault_holds
    | apply State.creditRegs_holds | apply State.linkTo_holds | apply State.leaveUp_holds
    | apply State.dmaRemote_holds | apply ite_holds | (simp only [mk_holds_iff]; refine holds_parts ?_))

theorem State.resync_holds {W : Bool × List Instr} {s : State} (h : s.Holds W) : (State.resync s).Holds W := by
  unfold State.resync
  dsimp only
  with_reducible repeat' (first
    | assumption | apply State.post_holds)

theorem State.sendBond_holds {W : Bool × List Instr} {s : State} {mask reason : Nat} (h : s.Holds W) : (State.sendBond s mask
  reason).Holds W := by
  unfold State.sendBond
  dsimp only
  with_reducible repeat' (first
    | assumption | apply State.sendRow_holds | apply State.staleMarks_holds
    | (simp only [mk_holds_iff]; refine holds_parts ?_))

theorem State.linkUpNow_holds {W : Bool × List Instr} {s : State} {tx rx : Nat} (h : s.Holds W) : (State.linkUpNow s tx
  rx).Holds W := by
  unfold State.linkUpNow
  dsimp only
  with_reducible repeat' (first
    | assumption | apply State.setFld_holds | apply State.post_holds | apply State.sealOpenBacklog_holds
    | apply State.evaluate_holds | apply State.creditRegs_holds | apply State.linkTo_holds
    | apply State.setBonds_holds | apply State.resync_holds | apply State.sendBond_holds
    | (simp only [mk_holds_iff]; refine holds_parts ?_))

theorem State.setFallback_holds {W : Bool × List Instr} {s : State} {on : Bool} (h : s.Holds W) : (State.setFallback s
  on).Holds W := by
  unfold State.setFallback
  dsimp only
  with_reducible repeat' (first
    | assumption | apply State.setFld_holds | apply State.setFlag_holds | apply State.post_holds
    | (simp only [mk_holds_iff]; refine holds_parts ?_))

theorem State.setRate_holds {W : Bool × List Instr} {s : State} {r25 : Bool} (h : s.Holds W) : (State.setRate s r25).Holds W
  := by
  unfold State.setRate
  with_reducible repeat' (first
    | assumption | intro _ | apply State.setFlag_holds | apply State.unlockPair_holds | apply ite_holds
    | apply foldl_holds)

theorem State.tryAlign_holds {W : Bool × List Instr} {s : State} (h : s.Holds W) : (State.tryAlign s).Holds W := by
  unfold State.tryAlign
  dsimp only
  with_reducible repeat' (first
    | assumption | apply State.sendLstat_holds | apply State.linkTo_holds | apply ite_holds
    | (simp only [mk_holds_iff]; refine holds_parts ?_))

theorem State.tryDetect_holds {W : Bool × List Instr} {s : State} (h : s.Holds W) : (State.tryDetect s).Holds W := by
  unfold State.tryDetect
  with_reducible repeat' (first
    | assumption | apply State.linkTo_holds | apply ite_holds)

theorem State.tryAgree_holds {W : Bool × List Instr} {s : State} (h : s.Holds W) : (State.tryAgree s).Holds W := by
  unfold State.tryAgree
  dsimp only
  with_reducible repeat' (first
    | assumption | apply State.linkTo_holds | apply State.linkDown_holds | apply State.linkUpNow_holds
    | apply State.setRate_holds | apply ite_holds | (simp only [mk_holds_iff]; refine holds_parts ?_))

theorem execLaneSignalDetect_holds {W : Bool × List Instr} {lane : Nat} {s : State} (h : s.Holds W) : OutHolds W
  (execLaneSignalDetect lane s) := by
  unfold execLaneSignalDetect
  with_reducible repeat' (first
    | assumption | apply State.setFld_holds | apply State.adapt_holds | apply State.tryDetect_holds | apply next_holds
    | apply ite_out)

theorem execBlockLockGain_holds {W : Bool × List Instr} {lane : Nat} {inverted : Bool} {s : State} (h : s.Holds W) :
  OutHolds W (execBlockLockGain lane inverted s) := by
  unfold execBlockLockGain
  dsimp only
  with_reducible repeat' (first
    | assumption | apply State.setFld_holds | apply State.setFlag_holds | apply State.setLockAt_holds
    | apply next_holds | apply ite_out | apply ite_holds)

theorem execBlockLockHeld_holds {W : Bool × List Instr} {s : State} (h : s.Holds W) : OutHolds W (execBlockLockHeld s)
  := by
  unfold execBlockLockHeld
  with_reducible repeat' (first
    | assumption | apply State.elapseTo_holds | apply State.freshRows_holds | apply State.linkTo_holds
    | apply State.tryAlign_holds | apply next_holds | apply ite_out)

theorem execTrainingTimeout_holds {W : Bool × List Instr} {s : State} (h : s.Holds W) : OutHolds W (execTrainingTimeout s) :=
  by
  unfold execTrainingTimeout
  dsimp only
  with_reducible repeat' (first
    | assumption | apply State.elapseTo_holds | apply State.linkDown_holds | apply State.setFallback_holds
    | apply next_holds | apply ite_out)

theorem execHelloSilence_holds {W : Bool × List Instr} {s : State} (h : s.Holds W) : OutHolds W (execHelloSilence s) := by
  unfold execHelloSilence
  with_reducible repeat' (first
    | assumption | apply State.elapseTo_holds | apply State.linkDown_holds | apply next_holds | apply ite_out)

theorem State.newAttempt_holds {W : Bool × List Instr} {s : State} (h : s.Holds W) : (State.newAttempt s).Holds W := by
  unfold State.newAttempt
  dsimp only
  with_reducible repeat' (first
    | assumption | apply State.setFld_holds | apply ite_holds | (simp only [mk_holds_iff]; refine holds_parts ?_))

theorem execBackoffEnd_holds {W : Bool × List Instr} {s : State} (h : s.Holds W) : OutHolds W (execBackoffEnd s) := by
  unfold execBackoffEnd
  dsimp only
  with_reducible repeat' (first
    | assumption | apply State.bump_holds | apply State.elapseTo_holds | apply State.linkTo_holds
    | apply State.newAttempt_holds | apply State.setRate_holds | apply State.tryDetect_holds | apply next_holds | apply ite_out)

theorem State.endBackoff_holds {W : Bool × List Instr} {s : State} (h : s.Holds W) : (State.endBackoff s).Holds W := by
  unfold State.endBackoff
  dsimp only
  with_reducible repeat' (first
    | assumption | (simp only [mk_holds_iff]; refine holds_parts ?_))

theorem execFallbackExpiry_holds {W : Bool × List Instr} {s : State} (h : s.Holds W) : OutHolds W (execFallbackExpiry s) :=
  by
  unfold execFallbackExpiry
  dsimp only
  with_reducible repeat' (first
    | assumption | apply State.elapseTo_holds | apply State.setFallback_holds | apply next_holds
    | (simp only [mk_holds_iff]; refine holds_parts ?_) | split)

theorem execLnkRefclkLoss_holds {W : Bool × List Instr} {s : State} (h : s.Holds W) : OutHolds W (execLnkRefclkLoss s) := by
  unfold execLnkRefclkLoss
  dsimp only
  with_reducible repeat' (first
    | assumption | apply State.linkDown_holds | apply next_holds | (simp only [mk_holds_iff]; refine holds_parts ?_))

theorem execLnkRefclkRestored_holds {W : Bool × List Instr} {s : State} (h : s.Holds W) : OutHolds W (execLnkRefclkRestored
  s) := by
  unfold execLnkRefclkRestored
  dsimp only
  with_reducible repeat' (first
    | assumption | apply next_holds | (simp only [mk_holds_iff]; refine holds_parts ?_))

theorem State.bondEvents_holds {W : Bool × List Instr} {s : State} {tx : Bool} {old new : Nat} {cause : Nat → Nat} (h :
  s.Holds W) : (State.bondEvents s tx old new cause).Holds W := by
  unfold State.bondEvents
  dsimp only
  with_reducible repeat' (first
    | assumption | intro _ | apply State.setFld_holds | apply State.post_holds | apply ite_holds | apply foldl_holds)

theorem State.txBond_holds {W : Bool × List Instr} {s : State} {mask reason cause : Nat} (h : s.Holds W) : (State.txBond s
  mask reason cause).Holds W := by
  unfold State.txBond
  dsimp only
  with_reducible repeat' (first
    | assumption | apply State.evaluate_holds | apply State.setBonds_holds | apply State.linkDown_holds
    | apply State.sendBond_holds | apply State.bondEvents_holds | apply ite_holds)

theorem execBondRowReceived_holds {W : Bool × List Instr} {row : BitVec 64} {s : State} (h : s.Holds W) : OutHolds W
  (execBondRowReceived row s) := by
  unfold execBondRowReceived
  dsimp only
  with_reducible repeat' (first
    | assumption | apply State.freshRows_holds | apply State.evaluate_holds | apply State.badRow_holds
    | apply State.setBonds_holds | apply State.staleMarks_holds | apply State.linkDown_holds
    | apply State.bondEvents_holds | apply next_holds | apply ite_out
    | (simp only [mk_holds_iff]; refine holds_parts ?_))

theorem State.rxLost_holds {W : Bool × List Instr} {s : State} {r cause old : Nat} (h : s.Holds W) : (State.rxLost s r cause
  old).Holds W := by
  unfold State.rxLost
  dsimp only
  with_reducible repeat' (first
    | assumption | apply State.lstatOnChange_holds | (simp only [mk_holds_iff]; refine holds_parts ?_))

theorem execBlockLockLoss_holds {W : Bool × List Instr} {lane : Nat} {s : State} (h : s.Holds W) : OutHolds W
  (execBlockLockLoss lane s) := by
  unfold execBlockLockLoss
  dsimp only
  with_reducible repeat' (first
    | assumption | apply State.freshRows_holds | apply State.unlockPair_holds | apply State.rxLost_holds
    | apply State.bump_holds | apply next_holds | apply ite_out)

theorem execAmLockLoss_holds {W : Bool × List Instr} {lane : Nat} {s : State} (h : s.Holds W) : OutHolds W
  (execAmLockLoss lane s) := by
  unfold execAmLockLoss
  dsimp only
  with_reducible repeat' (first
    | assumption | apply State.setFld_holds | apply State.freshRows_holds | apply State.setAligned_holds
    | apply State.setAmBad_holds | apply State.rxLost_holds | apply next_holds | apply ite_out)

theorem State.takeAm_holds {W : Bool × List Instr} {s : State} {a : LaneAm} (h : s.Holds W) : (State.takeAm s a).Holds
  W := by
  unfold State.takeAm
  dsimp only
  with_reducible repeat' (first
    | assumption | apply State.setFld_holds | apply State.bump_holds | apply State.setAligned_holds
    | apply State.setAmBad_holds | apply ite_holds | (simp only [mk_holds_iff]; refine holds_parts ?_))

theorem execAmRowReceived_holds {W : Bool × List Instr} {ams : List LaneAm} {s : State} (h : s.Holds W) : OutHolds W
  (execAmRowReceived ams s) := by
  unfold execAmRowReceived
  dsimp only
  with_reducible repeat' (first
    | assumption | intro _ | apply State.freshRows_holds | apply State.lstatOnChange_holds
    | apply State.tryAlign_holds | apply State.takeAm_holds | apply next_holds | apply foldl_holds)

theorem State.applyFfe_holds {W : Bool × List Instr} {s : State} (h : s.Holds W) : (State.applyFfe s).Holds W := by
  unfold State.applyFfe
  dsimp only
  with_reducible repeat' (first
    | assumption | intro _ | apply State.setReg_holds | apply foldl_holds
    | (simp only [mk_holds_iff]; refine holds_parts ?_) | split)

theorem execAmRowSend_holds {W : Bool × List Instr} {s : State} (h : s.Holds W) : OutHolds W (execAmRowSend s) := by
  unfold execAmRowSend
  dsimp only
  with_reducible repeat' (first
    | assumption | apply State.sendAms_holds | apply State.freshRows_holds | apply State.sendLstat_holds
    | apply State.txBond_holds | apply State.applyFfe_holds | apply next_holds | apply ite_holds)

theorem execHelloSend_holds {W : Bool × List Instr} {s : State} (h : s.Holds W) : OutHolds W (execHelloSend s) := by
  unfold execHelloSend
  dsimp only
  with_reducible repeat' (first
    | assumption | apply State.sendRow_holds | apply State.freshRows_holds | apply State.linkDown_holds
    | apply State.tryAgree_holds | apply next_holds | apply ite_out | apply ite_holds
    | (simp only [mk_holds_iff]; refine holds_parts ?_))

theorem execHelloRowReceived_holds {W : Bool × List Instr} {row : BitVec 64} {s : State} (h : s.Holds W) :
    OutHolds W (execHelloRowReceived row s) := by
  unfold execHelloRowReceived
  extract_lets s1 flags node other s2 src s3
  have h3 : s3.Holds W := mk_holds_iff.2 (holds_parts (State.setReg_holds (State.freshRows_holds h)))
  clear_value s3
  refine ite_out (ite_out (ite_out (next_holds (State.linkDown_holds h3)) (next_holds ?_)) (ite_out (next_holds ?_)
    (next_holds ?_))) (next_holds (State.badRow_holds h))
  · exact mk_holds_iff.2 (holds_parts h3)
  · exact mk_holds_iff.2 (holds_parts (State.linkTo_holds h3))
  · exact State.tryAgree_holds (mk_holds_iff.2 (holds_parts h3))

theorem execLstatReceived_holds {W : Bool × List Instr} {row : BitVec 64} {s : State} (h : s.Holds W) : OutHolds W
  (execLstatReceived row s) := by
  unfold execLstatReceived
  dsimp only
  with_reducible repeat' (first
    | assumption | intro _ | apply State.setFlag_holds | apply State.freshRows_holds | apply State.badRow_holds
    | apply State.txBond_holds | apply next_holds | apply ite_out | apply ite_holds | apply foldl_holds
    | (simp only [mk_holds_iff]; refine holds_parts ?_))

theorem execFillerRowReceived_holds {W : Bool × List Instr} {fill : Nat} {s : State} (h : s.Holds W) : OutHolds W
  (execFillerRowReceived fill s) := by
  unfold execFillerRowReceived
  with_reducible repeat' (first
    | assumption | apply State.bump_holds | apply next_holds | apply ite_out)

theorem execFillerRowSend_holds {W : Bool × List Instr} {s : State} (h : s.Holds W) : OutHolds W (execFillerRowSend s)
  := by
  unfold execFillerRowSend
  with_reducible repeat' (first
    | assumption | apply State.sendRow_holds | apply State.freshRows_holds | apply next_holds)

theorem execLaneRetrainRestart_holds {W : Bool × List Instr} {lane : Nat} {s : State} (h : s.Holds W) : OutHolds W
  (execLaneRetrainRestart lane s) := by
  unfold execLaneRetrainRestart
  with_reducible repeat' (first
    | assumption | apply State.unlockPair_holds | apply State.adapt_holds | apply next_holds | apply ite_out)

theorem State.lanesOff_holds {W : Bool × List Instr} {s : State} {old : Nat} (h : s.Holds W) : (State.lanesOff s old).Holds W
  := by
  unfold State.lanesOff
  dsimp only
  with_reducible repeat' (first
    | assumption | intro _ | apply State.unlockPair_holds | apply State.lstatOnChange_holds | apply State.txBond_holds
    | apply ite_holds | apply foldl_holds | (simp only [mk_holds_iff]; refine holds_parts ?_))

theorem State.applyLink_holds {W : Bool × List Instr} {s : State} {w : Word} {lanes : Nat} {ffe : Word} (h : s.Holds W) :
  (State.applyLink s w lanes ffe).Holds W := by
  unfold State.applyLink
  dsimp only
  with_reducible repeat' (first
    | assumption | apply State.setReg_holds | apply State.freshRows_holds | apply State.linkDown_holds
    | apply State.endBackoff_holds | apply State.lanesOff_holds | apply ite_holds
    | (simp only [mk_holds_iff]; refine holds_parts ?_))

theorem svcLinkCfgSet_holds {W : Bool × List Instr} {q : Req} {s : State} (h : s.Holds W) : (svcLinkCfgSet q s).1.Holds W :=
  by
  unfold svcLinkCfgSet
  try extract_lets
  with_reducible repeat' (first
    | assumption | apply State.check_holds | apply State.applyLink_holds
    | (simp only [mk_holds_iff]; refine holds_parts ?_) | split)

theorem execLinkCfgSet_holds {W : Bool × List Instr} {q : Req} {s : State} (h : s.Holds W) : OutHolds W (execLinkCfgSet q s)
  := by
  unfold execLinkCfgSet
  with_reducible repeat' (first
    | assumption | intro _ | apply Machine.serve_holds | apply svcLinkCfgSet_holds | apply next_holds)

theorem svcLinkStateGet_holds {W : Bool × List Instr} {x1 : Req} {s : State} (h : s.Holds W) : (svcLinkStateGet x1 s).1.Holds
  W := by
  unfold svcLinkStateGet
  try extract_lets
  with_reducible repeat' (first
    | assumption)

theorem execLinkStateGet_holds {W : Bool × List Instr} {q : Req} {s : State} (h : s.Holds W) : OutHolds W (execLinkStateGet q
  s) := by
  unfold execLinkStateGet
  with_reducible repeat' (first
    | assumption | intro _ | apply Machine.serve_holds | apply svcLinkStateGet_holds | apply next_holds)

theorem svcLinkRetrain_holds {W : Bool × List Instr} {q : Req} {s : State} (h : s.Holds W) : (svcLinkRetrain q s).1.Holds W
  := by
  unfold svcLinkRetrain
  try extract_lets
  with_reducible repeat' (first
    | assumption | apply State.check_holds | apply State.endBackoff_holds
    | (simp only [mk_holds_iff]; refine holds_parts ?_) | split)

theorem execLinkRetrain_holds {W : Bool × List Instr} {q : Req} {s : State} (h : s.Holds W) : OutHolds W (execLinkRetrain q
  s) := by
  unfold execLinkRetrain
  with_reducible repeat' (first
    | assumption | intro _ | apply Machine.serve_holds | apply svcLinkRetrain_holds | apply next_holds)

theorem execDeferredLinkChange_holds {W : Bool × List Instr} {s : State} (h : s.Holds W) : OutHolds W (execDeferredLinkChange
  s) := by
  unfold execDeferredLinkChange
  dsimp only
  with_reducible repeat' (first
    | assumption | apply State.elapseTo_holds | apply State.linkDown_holds | apply State.endBackoff_holds
    | apply State.applyLink_holds | apply next_holds | (simp only [mk_holds_iff]; refine holds_parts ?_) | split)

theorem svcLinkLoopSet_holds {W : Bool × List Instr} {q : Req} {s : State} (h : s.Holds W) : (svcLinkLoopSet q s).1.Holds W
  := by
  unfold svcLinkLoopSet
  dsimp only
  with_reducible repeat' (first
    | assumption | intro _ | apply State.setFld_holds | apply State.setFlag_holds | apply State.check_holds
    | apply foldl_holds)

theorem execLinkLoopSet_holds {W : Bool × List Instr} {q : Req} {s : State} (h : s.Holds W) : OutHolds W (execLinkLoopSet q
  s) := by
  unfold execLinkLoopSet
  with_reducible repeat' (first
    | assumption | intro _ | apply Machine.serve_holds | apply svcLinkLoopSet_holds | apply next_holds)

/-! ### Sieve -/

theorem State.setStored_holds {W : Bool × List Instr} {s : State} {q preset : Nat} {l : List Word} (h : s.Holds W) :
  (State.setStored s q preset l).Holds W := by
  unfold State.setStored
  dsimp only
  with_reducible repeat' (first
    | assumption | (simp only [mk_holds_iff]; refine holds_parts ?_))

theorem State.setBank_holds {W : Bool × List Instr} {s : State} {q k : Nat} {l : List Word} (h : s.Holds W) : (State.setBank
  s q k l).Holds W := by
  unfold State.setBank
  dsimp only
  with_reducible repeat' (first
    | assumption | (simp only [mk_holds_iff]; refine holds_parts ?_))

theorem State.setFade_holds {W : Bool × List Instr} {s : State} {q : Nat} {f : Option Fade} (h : s.Holds W) : (State.setFade
  s q f).Holds W := by
  unfold State.setFade
  dsimp only
  with_reducible repeat' (first
    | assumption | (simp only [mk_holds_iff]; refine holds_parts ?_))

theorem State.sieveRegs_holds {W : Bool × List Instr} {s : State} (h : s.Holds W) : (State.sieveRegs s).Holds W := by
  unfold State.sieveRegs
  with_reducible repeat' (first
    | assumption | intro _ | apply State.setFlag_holds | apply foldl_holds)

theorem State.sieveDone_holds {W : Bool × List Instr} {s : State} {t : T48} {st q : Nat} {swap : Bool} {cmd : Cmd} (h :
  s.Holds W) : (State.sieveDone s t st q swap cmd).Holds W := by
  unfold State.sieveDone
  with_reducible repeat' (first
    | assumption | apply State.postAt_holds)

theorem State.finishFade_holds {W : Bool × List Instr} {s : State} {q : Nat} {f : Fade} (h : s.Holds W) :
  (State.finishFade s q f).Holds W := by
  unfold State.finishFade
  dsimp only
  with_reducible repeat' (first
    | assumption | apply State.setFld_holds | apply State.setFade_holds | apply State.sieveDone_holds
    | apply ite_holds)

theorem State.abandonFade_holds {W : Bool × List Instr} {s : State} {q : Nat} {last : Int} {c : Int} (h : s.Holds W) :
  (State.abandonFade s q last c).Holds W := by
  unfold State.abandonFade
  with_reducible repeat' (first
    | assumption | apply State.setFld_holds | apply State.setFade_holds | apply State.sieveDone_holds
    | apply State.finishFade_holds | apply ite_holds | split)

theorem State.abandonSwap_holds {W : Bool × List Instr} {s : State} {q u : Nat} (h : s.Holds W) : (State.abandonSwap s q
  u).Holds W := by
  unfold State.abandonSwap
  dsimp only
  with_reducible repeat' (first
    | assumption | apply State.setFld_holds | apply State.disarm_holds | apply State.sieveDone_holds | apply ite_holds
    | (simp only [mk_holds_iff]; refine holds_parts ?_) | split)

theorem State.rechain_holds {W : Bool × List Instr} {s : State} {q : Nat} {c : Int} {old : FirSet} {changed : Bool} (h
  : s.Holds W) : (State.rechain s q c old changed).Holds W := by
  unfold State.rechain
  dsimp only
  with_reducible repeat' (first
    | assumption | intro _ | apply State.setDpPath_holds | apply foldl_holds | split)

theorem State.presetChange_holds {W : Bool × List Instr} {s : State} {t : T48} {q preset : Nat} {rs : Bool} {inc :
  Word} (h : s.Holds W) : (State.presetChange s t q preset rs inc).Holds W := by
  unfold State.presetChange
  dsimp only
  with_reducible repeat' (first
    | assumption | intro _ | apply State.setReg_holds | apply State.setFld_holds | apply State.setFlag_holds
    | apply State.settleSpan_holds | apply State.setBank_holds | apply State.abandonFade_holds
    | apply State.abandonSwap_holds | apply State.rechain_holds | apply ite_holds | apply foldl_holds)

theorem State.opfNow_holds {W : Bool × List Instr} {s : State} (h : s.Holds W) : (State.opfNow s).Holds W := by
  unfold State.opfNow
  dsimp only
  with_reducible repeat' (first
    | assumption | intro _ | apply State.reachOpf_holds | apply ite_holds | apply foldl_holds)

theorem State.sieveCfgAt_holds {W : Bool × List Instr} {s : State} {t : T48} {qmask preset : Nat} {rs : Bool} {inc :
  Word} {cmd : Cmd} {late : Bool} (h : s.Holds W) : (State.sieveCfgAt s t qmask preset rs inc cmd late).Holds W := by
  unfold State.sieveCfgAt
  with_reducible repeat' (first
    | assumption | intro _ | apply State.setFld_holds | apply State.sieveRegs_holds | apply State.sieveDone_holds
    | apply State.presetChange_holds | apply State.opfNow_holds | apply ite_holds | apply foldl_holds)

theorem State.firSwapAt_holds {W : Bool × List Instr} {s : State} {t : T48} {qmask f : Nat} {cmd : Cmd} {late : Bool}
  (h : s.Holds W) : (State.firSwapAt s t qmask f cmd late).Holds W := by
  unfold State.firSwapAt
  with_reducible repeat' (first
    | assumption | intro _ | apply State.setFld_holds | apply State.setFade_holds | apply State.sieveRegs_holds
    | apply State.sieveDone_holds | apply ite_holds | apply foldl_holds)

theorem execSieveFadeEnd_holds {W : Bool × List Instr} {q : Nat} {s : State} (h : s.Holds W) : OutHolds W
  (execSieveFadeEnd q s) := by
  unfold execSieveFadeEnd
  dsimp only
  with_reducible repeat' (first
    | assumption | apply State.elapseTo_holds | apply State.finishFade_holds | apply next_holds | split)

theorem svcSieveCfgSet_holds {W : Bool × List Instr} {q : Req} {s : State} (h : s.Holds W) : (svcSieveCfgSet q
  s).1.Holds W := by
  unfold svcSieveCfgSet
  try extract_lets
  with_reducible repeat' (first
    | assumption | apply State.check_holds | apply State.armCmd_holds | apply State.raiseFor_holds
    | apply State.sieveRegs_holds)

theorem execSieveCfgSet_holds {W : Bool × List Instr} {q : Req} {s : State} (h : s.Holds W) : OutHolds W (execSieveCfgSet q
  s) := by
  unfold execSieveCfgSet
  with_reducible repeat' (first
    | assumption | intro _ | apply Machine.serve_holds | apply svcSieveCfgSet_holds | apply next_holds)

theorem svcSieveFirLoad_holds {W : Bool × List Instr} {q : Req} {s : State} (h : s.Holds W) : (svcSieveFirLoad q
  s).1.Holds W := by
  unfold svcSieveFirLoad
  try extract_lets
  with_reducible repeat' (first
    | assumption | intro _ | apply State.setFld_holds | apply State.check_holds | apply State.withInput_holds
    | apply State.setStored_holds | apply State.setBank_holds | dsimp only | split)

theorem execSieveFirLoad_holds {W : Bool × List Instr} {q : Req} {s : State} (h : s.Holds W) : OutHolds W (execSieveFirLoad q
  s) := by
  unfold execSieveFirLoad
  with_reducible repeat' (first
    | assumption | intro _ | apply Machine.serve_holds | apply svcSieveFirLoad_holds | apply next_holds)

theorem svcSieveFirSwap_holds {W : Bool × List Instr} {q : Req} {s : State} (h : s.Holds W) : (svcSieveFirSwap q s).1.Holds W
  := by
  unfold svcSieveFirSwap
  try extract_lets
  with_reducible repeat' (first
    | assumption | apply State.check_holds | apply State.armCmd_holds | apply State.sieveRegs_holds)

theorem execSieveFirSwap_holds {W : Bool × List Instr} {q : Req} {s : State} (h : s.Holds W) : OutHolds W (execSieveFirSwap q
  s) := by
  unfold execSieveFirSwap
  with_reducible repeat' (first
    | assumption | intro _ | apply Machine.serve_holds | apply svcSieveFirSwap_holds | apply next_holds)

theorem State.bankWords_holds {W : Bool × List Instr} {s : State} {q k : Nat} (h : s.Holds W) : (State.bankWords s q
  k).2.Holds W := by
  unfold State.bankWords
  dsimp only
  with_reducible repeat' (first
    | assumption | apply ite_snd | (simp only [mk_holds_iff]; refine holds_parts ?_))

theorem svcSieveFirRead_holds {W : Bool × List Instr} {q : Req} {s : State} (h : s.Holds W) : (svcSieveFirRead q s).1.Holds W
  := by
  unfold svcSieveFirRead
  try extract_lets
  with_reducible repeat' (first
    | assumption | apply State.check_holds | apply State.putTileWords_holds | apply State.bankWords_holds)

theorem execSieveFirRead_holds {W : Bool × List Instr} {q : Req} {s : State} (h : s.Holds W) : OutHolds W (execSieveFirRead q
  s) := by
  unfold execSieveFirRead
  with_reducible repeat' (first
    | assumption | intro _ | apply Machine.serve_holds | apply svcSieveFirRead_holds | apply next_holds)

/-! ### Degrade -/

theorem State.setDpd_holds {W : Bool × List Instr} {s : State} {p : Nat} {x : DpdPath} (h : s.Holds W) : (State.setDpd s p
  x).Holds W := by
  unfold State.setDpd
  dsimp only
  with_reducible repeat' (first
    | assumption | (simp only [mk_holds_iff]; refine holds_parts ?_))

theorem State.takeWork_holds {W : Bool × List Instr} {s : State} {t n sub : Nat} (h : s.Holds W) : (State.takeWork s t n
  sub).Holds W := by
  unfold State.takeWork
  with_reducible repeat' (first
    | assumption | intro _ | apply State.setOwner_holds | apply State.useTile_holds | apply foldl_holds)

theorem State.freeWork_holds {W : Bool × List Instr} {s : State} {t n : Nat} (h : s.Holds W) : (State.freeWork s t n).Holds W
  := by
  unfold State.freeWork
  with_reducible repeat' (first
    | assumption | intro _ | apply State.setOwner_holds | apply State.releaseTile_holds | apply foldl_holds)

theorem State.dropTarget_holds {W : Bool × List Instr} {s : State} {p : Nat} (h : s.Holds W) : (State.dropTarget s p).Holds W
  := by
  unfold State.dropTarget
  dsimp only
  with_reducible repeat' (first
    | assumption | apply State.setFld_holds | apply State.setDpd_holds | apply State.freeWork_holds | split)

theorem State.setItemTarget_holds {W : Bool × List Instr} {s : State} {kind unit : Nat} {v : Option Int} (h : s.Holds W) :
  (State.setItemTarget s kind unit v).Holds W := by
  unfold State.setItemTarget
  dsimp only
  with_reducible repeat' (first
    | assumption | (simp only [mk_holds_iff]; refine holds_parts ?_))

theorem State.setRej_holds {W : Bool × List Instr} {s : State} {cal unit n : Nat} (h : s.Holds W) : (State.setRej s cal unit
  n).Holds W := by
  unfold State.setRej
  dsimp only
  with_reducible repeat' (first
    | assumption | (simp only [mk_holds_iff]; refine holds_parts ?_))

theorem State.rejRegs_holds {W : Bool × List Instr} {s : State} {p : Nat} (h : s.Holds W) : (State.rejRegs s p).Holds W := by
  unfold State.rejRegs
  dsimp only
  with_reducible repeat' (first
    | assumption | apply State.setFld_holds)

theorem State.showMark_holds {W : Bool × List Instr} {s : State} {p : Nat} {tx : Bool} {cause : Nat} (h : s.Holds W) :
  (State.showMark s p tx cause).Holds W := by
  unfold State.showMark
  dsimp only
  with_reducible repeat' (first
    | assumption | intro _ | apply State.setFlag_holds | apply State.post_holds | apply State.raiseFault_holds
    | apply State.pathsChanged_holds | apply State.serve_holds | apply State.mutePath_holds
    | apply State.dropTarget_holds | apply State.setItemTarget_holds | apply ite_holds | apply foldl_holds)

theorem State.markPath_holds {W : Bool × List Instr} {s : State} {p : Nat} {tx : Bool} {cause : Nat} (h : s.Holds W) :
  (State.markPath s p tx cause).Holds W := by
  unfold State.markPath
  dsimp only
  with_reducible repeat' (first
    | assumption | apply State.showMark_holds | (simp only [mk_holds_iff]; refine holds_parts ?_))

theorem State.markQuad_holds {W : Bool × List Instr} {s : State} {k cal cause : Nat} (h : s.Holds W) : (State.markQuad s k
  cal cause).Holds W := by
  unfold State.markQuad
  dsimp only
  with_reducible repeat' (first
    | assumption | intro _ | apply State.showMark_holds | apply foldl_holds
    | (simp only [mk_holds_iff]; refine holds_parts ?_))

theorem State.rejectPath_holds {W : Bool × List Instr} {s : State} {cal p : Nat} {tx : Bool} {cause : Nat} (h : s.Holds W) :
  (State.rejectPath s cal p tx cause).Holds W := by
  unfold State.rejectPath
  dsimp only
  with_reducible repeat' (first
    | assumption | apply State.setFld_holds | apply State.post_holds | apply State.setRej_holds
    | apply State.rejRegs_holds | apply State.markPath_holds | apply ite_holds
    | (simp only [mk_holds_iff]; refine holds_parts ?_))

theorem State.untrimmed_holds {W : Bool × List Instr} {s : State} {cause : Nat} (h : s.Holds W) : (State.untrimmed s
  cause).Holds W := by
  unfold State.untrimmed
  dsimp only
  with_reducible repeat' (first
    | assumption | apply State.setFld_holds | apply State.post_holds | apply ite_holds)

theorem State.rejectQuad_holds {W : Bool × List Instr} {s : State} {cal unit : Nat} {cause : Nat} (h : s.Holds W) :
  (State.rejectQuad s cal unit cause).Holds W := by
  unfold State.rejectQuad
  dsimp only
  with_reducible repeat' (first
    | assumption | apply State.post_holds | apply State.setRej_holds | apply State.markQuad_holds
    | apply State.untrimmed_holds | apply ite_holds | (simp only [mk_holds_iff]; refine holds_parts ?_))

theorem State.acceptUnit_holds {W : Bool × List Instr} {s : State} {cal unit : Nat} (h : s.Holds W) : (State.acceptUnit s cal
  unit).Holds W := by
  unfold State.acceptUnit
  dsimp only
  with_reducible repeat' (first
    | assumption | apply State.setRej_holds | apply State.rejRegs_holds | apply ite_holds
    | (simp only [mk_holds_iff]; refine holds_parts ?_))

/-! ### Power -/

theorem State.refreshDom_holds {W : Bool × List Instr} {s : State} {d : Nat} (h : s.Holds W) : (State.refreshDom s
  d).Holds W := by
  unfold State.refreshDom
  dsimp only
  with_reducible repeat' (first
    | assumption | apply State.setFld_holds | apply ite_holds | split)

theorem State.setTrans_holds {W : Bool × List Instr} {s : State} {d : Nat} {t : Option Nat} (h : s.Holds W) : (State.setTrans
  s d t).Holds W := by
  unfold State.setTrans
  dsimp only
  with_reducible repeat' (first
    | assumption | apply State.setFlag_holds | (simp only [mk_holds_iff]; refine holds_parts ?_))

theorem State.setWake_holds {W : Bool × List Instr} {s : State} {d : Nat} {b : Bool} (h : s.Holds W) : (State.setWake s d
  b).Holds W := by
  unfold State.setWake
  dsimp only
  with_reducible repeat' (first
    | assumption | (simp only [mk_holds_iff]; refine holds_parts ?_))

theorem State.dropEntry_holds {W : Bool × List Instr} {s : State} {e : PwrEntry} (h : s.Holds W) : (State.dropEntry s
  e).Holds W := by
  unfold State.dropEntry
  dsimp only
  with_reducible repeat' (first
    | assumption | (simp only [mk_holds_iff]; refine holds_parts ?_))

theorem State.startTrans_holds {W : Bool × List Instr} {s : State} {target : Nat} {l : List Nat} (h : s.Holds W) :
  (State.startTrans s target l).Holds W := by
  unfold State.startTrans
  with_reducible repeat' (first
    | assumption | intro _ | apply State.setTrans_holds | apply foldl_holds)

theorem State.hostReq_holds {W : Bool × List Instr} {s : State} {target : Nat} {l : List Nat} (h : s.Holds W) :
  (State.hostReq s target l).Holds W := by
  unfold State.hostReq
  with_reducible repeat' (first
    | assumption | intro _ | apply State.setFld_holds | apply foldl_holds)

theorem State.isolate_holds {W : Bool × List Instr} {s : State} {e : PwrEntry} (h : s.Holds W) : (State.isolate s e).Holds W
  := by
  unfold State.isolate
  dsimp only
  with_reducible repeat' (first
    | assumption | apply State.dropEntry_holds | apply State.startTrans_holds | apply State.hostReq_holds
    | (simp only [mk_holds_iff]; refine holds_parts ?_) | split)

theorem State.askGroup_holds {W : Bool × List Instr} {s : State} {cmd : Option Cmd} {target : Nat} {group : List Nat} (h :
  s.Holds W) : (State.askGroup s cmd target group).Holds W := by
  unfold State.askGroup
  dsimp only
  with_reducible repeat' (first
    | assumption | intro _ | apply State.setFld_holds | apply State.isolate_holds | apply ite_holds
    | apply foldl_holds | (simp only [mk_holds_iff]; refine holds_parts ?_))

theorem State.powerOn_holds {W : Bool × List Instr} {s : State} {r : PwrReq} (h : s.Holds W) : (State.powerOn s r).Holds W :=
  by
  unfold State.powerOn
  dsimp only
  with_reducible repeat' (first
    | assumption | intro _ | apply State.setFld_holds | apply State.setFlag_holds | apply State.stageRsp_holds
    | apply State.startTrans_holds | apply State.hostReq_holds | apply ite_holds | apply foldl_holds
    | (simp only [mk_holds_iff]; refine holds_parts ?_))

theorem State.takePower_holds {W : Bool × List Instr} {s : State} {r : PwrReq} (h : s.Holds W) : (State.takePower s r).Holds
  W := by
  unfold State.takePower
  dsimp only
  with_reducible repeat' (first
    | assumption | apply State.stageRsp_holds | apply State.hostReq_holds | apply State.askGroup_holds
    | apply State.powerOn_holds | apply ite_holds | (simp only [mk_holds_iff]; refine holds_parts ?_) | split)

theorem State.evalWaiting_holds {W : Bool × List Instr} {s : State} (h : s.Holds W) : (State.evalWaiting s).Holds W := by
  unfold State.evalWaiting
  dsimp only
  with_reducible repeat' (first
    | assumption | intro _ | apply State.takePower_holds | apply foldl_holds
    | (simp only [mk_holds_iff]; refine holds_parts ?_))

theorem State.rollback_holds {W : Bool × List Instr} {s : State} {e : PwrEntry} {d b cause : Nat} (h : s.Holds W) :
  (State.rollback s e d b cause).Holds W := by
  unfold State.rollback
  dsimp only
  with_reducible repeat' (first
    | assumption | intro _ | apply State.setFld_holds | apply State.setFlag_holds | apply State.stageRsp_holds
    | apply State.dropEntry_holds | apply State.evalWaiting_holds | apply foldl_holds
    | (simp only [mk_holds_iff]; refine holds_parts ?_) | split)

theorem State.agreed_holds {W : Bool × List Instr} {s : State} {e : PwrEntry} {d b : Nat} (h : s.Holds W) : (State.agreed s e
  d b).Holds W := by
  unfold State.agreed
  dsimp only
  with_reducible repeat' (first
    | assumption | apply State.isolate_holds | apply ite_holds | (simp only [mk_holds_iff]; refine holds_parts ?_))

theorem execDomainBlockAnswer_holds {W : Bool × List Instr} {d b : Nat} {s : State} (h : s.Holds W) : OutHolds W
  (execDomainBlockAnswer d b s) := by
  unfold execDomainBlockAnswer
  with_reducible repeat' (first
    | assumption | apply State.rollback_holds | apply State.agreed_holds | apply next_holds | split)

theorem execDomainAnswerTimeout_holds {W : Bool × List Instr} {s : State} (h : s.Holds W) : OutHolds W
  (execDomainAnswerTimeout s) := by
  unfold execDomainAnswerTimeout
  with_reducible repeat' (first
    | assumption | apply State.elapseTo_holds | apply State.rollback_holds | apply next_holds | split)

theorem State.wakeDomain_holds {W : Bool × List Instr} {s : State} {d : Nat} (h : s.Holds W) : (State.wakeDomain s d).Holds W
  := by
  unfold State.wakeDomain
  dsimp only
  with_reducible repeat' (first
    | assumption | apply State.setFld_holds | apply State.setTrans_holds | apply State.setWake_holds
    | apply State.rollback_holds | apply ite_holds | (simp only [mk_holds_iff]; refine holds_parts ?_) | split)

theorem State.loseActuator_holds {W : Bool × List Instr} {s : State} {p : Nat} (h : s.Holds W) : (State.loseActuator s
  p).Holds W := by
  unfold State.loseActuator
  dsimp only
  with_reducible repeat' (first
    | assumption | apply State.setFld_holds | apply State.setDpd_holds | apply State.dropTarget_holds)

theorem State.loseRxBeam_holds {W : Bool × List Instr} {s : State} {b : Nat} (h : s.Holds W) : (State.loseRxBeam s b).Holds W
  := by
  unfold State.loseRxBeam
  with_reducible repeat' (first
    | assumption | apply State.setFld_holds)

theorem State.loseTxBeam_holds {W : Bool × List Instr} {s : State} {b : Nat} (h : s.Holds W) : (State.loseTxBeam s b).Holds W
  := by
  unfold State.loseTxBeam
  with_reducible repeat' (first
    | assumption | apply State.setFld_holds)

theorem State.loseWeights_holds {W : Bool × List Instr} {s : State} {d : Nat} (h : s.Holds W) : (State.loseWeights s d).Holds
  W := by
  unfold State.loseWeights
  dsimp only
  with_reducible repeat' (first
    | assumption | intro _ | apply State.loseRxBeam_holds | apply State.loseTxBeam_holds | apply State.loseActuator_holds
    | apply ite_holds | apply foldl_holds | (simp only [mk_holds_iff]; refine holds_parts ?_))

theorem State.domArrives_holds {W : Bool × List Instr} {s : State} {d from_ to_ : Nat} (h : s.Holds W) : (State.domArrives s
  d from_ to_).Holds W := by
  unfold State.domArrives
  dsimp only
  with_reducible repeat' (first
    | assumption | apply State.loseBank_holds | apply State.loseWeights_holds | apply State.pantryTo_holds | apply ite_holds
    | (simp only [mk_holds_iff]; refine holds_parts ?_))

theorem State.jobArrived_holds {W : Bool × List Instr} {s : State} {d : Nat} (h : s.Holds W) : (State.jobArrived s d).Holds W
  := by
  unfold State.jobArrived
  dsimp only
  with_reducible repeat' (first
    | assumption | intro _ | apply State.post_holds | apply State.stageRsp_holds | apply ite_holds | apply foldl_holds
    | (simp only [mk_holds_iff]; refine holds_parts ?_))

theorem State.opAtExit_holds {W : Bool × List Instr} {s : State} {d : Nat} (h : s.Holds W) : (State.opAtExit s
  d).Holds W := by
  unfold State.opAtExit
  with_reducible repeat' (first
    | assumption | apply State.reachOpf_holds | apply ite_holds)

theorem State.orxOn_holds {W : Bool × List Instr} {s : State} {q : Nat} (h : s.Holds W) : (State.orxOn s q).Holds W :=
  by
  unfold State.orxOn
  dsimp only
  with_reducible repeat' (first
    | assumption | apply State.setFld_holds | apply State.setTrans_holds | apply State.setWake_holds
    | apply State.wakeDomain_holds | apply State.jobArrived_holds | apply ite_holds)

theorem State.orxRest_holds {W : Bool × List Instr} {s : State} {q : Nat} (h : s.Holds W) : (State.orxRest s q).Holds
  W := by
  unfold State.orxRest
  dsimp only
  with_reducible repeat' (first
    | assumption | apply State.askGroup_holds | apply ite_holds)

theorem execDomainTransitionDone_holds {W : Bool × List Instr} {d : Nat} {s : State} (h : s.Holds W) : OutHolds W
  (execDomainTransitionDone d s) := by
  unfold execDomainTransitionDone
  dsimp only
  with_reducible repeat' (first
    | assumption | apply State.setFld_holds | apply State.setTrans_holds | apply State.setWake_holds
    | apply State.evalWaiting_holds | apply State.domArrives_holds | apply State.jobArrived_holds
    | apply State.opAtExit_holds | apply next_holds | apply ite_holds | split)

theorem execMgmtWait_holds {W : Bool × List Instr} {raced : Bool} {s : State} (h : s.Holds W) : OutHolds W (execMgmtWait
  raced s) := by
  unfold execMgmtWait
  dsimp only
  with_reducible repeat' (first
    | assumption | apply State.setFld_holds | apply State.askGroup_holds | apply next_holds | apply ite_out
    | (simp only [mk_holds_iff]; refine holds_parts ?_))

theorem execSkilletWait_holds {W : Bool × List Instr} {k : Nat} {raced : Bool} {s : State} (h : s.Holds W) : OutHolds W
  (execSkilletWait k raced s) := by
  unfold execSkilletWait
  dsimp only
  with_reducible repeat' (first
    | assumption | apply State.setFld_holds | apply State.askGroup_holds | apply next_holds | apply ite_out)

theorem State.dividerMoved_holds {W : Bool × List Instr} {s : State} {d : Nat} {c : OpChange} (h : s.Holds W) :
  (State.dividerMoved s d c).Holds W := by
  unfold State.dividerMoved
  dsimp only
  with_reducible repeat' (first
    | assumption | apply State.setFlag_holds | apply State.setOp_holds | apply ite_holds)

theorem State.supplyMoved_holds {W : Bool × List Instr} {s : State} {d : Nat} {c : OpChange} (h : s.Holds W) :
  (State.supplyMoved s d c).Holds W := by
  unfold State.supplyMoved
  dsimp only
  with_reducible repeat' (first
    | assumption | apply State.setFld_holds | apply State.setOp_holds | apply State.evalWaiting_holds
    | apply ite_holds)

theorem execOperatingPointStep_holds {W : Bool × List Instr} {d : Nat} {s : State} (h : s.Holds W) : OutHolds W
  (execOperatingPointStep d s) := by
  unfold execOperatingPointStep
  with_reducible repeat' (first
    | assumption | apply State.setOp_holds | apply State.evalWaiting_holds | apply State.dividerMoved_holds
    | apply State.supplyMoved_holds | apply next_holds | apply ite_out | split)

theorem execColDividerRampStep_holds {W : Bool × List Instr} {s : State} (h : s.Holds W) : OutHolds W (execColDividerRampStep
  s) := by
  unfold execColDividerRampStep
  dsimp only
  with_reducible repeat' (first
    | assumption | apply State.elapse_holds | apply State.setOp_holds | apply State.evalWaiting_holds
    | apply State.dividerMoved_holds | apply next_holds | apply ite_out | split)

theorem execTxbOpfRaise_holds {W : Bool × List Instr} {s : State} (h : s.Holds W) : OutHolds W (execTxbOpfRaise s) := by
  unfold execTxbOpfRaise
  with_reducible repeat' (first
    | assumption | apply State.elapseTo_holds | apply State.raiseOp_holds | apply next_holds | split)

theorem execPwrDomainSet_holds {W : Bool × List Instr} {q : Req} {s : State} (h : s.Holds W) : OutHolds W (execPwrDomainSet q
  s) := by
  unfold execPwrDomainSet
  with_reducible repeat' (first
    | assumption | apply State.stageRsp_holds | apply State.takePower_holds | apply next_holds | split)

theorem svcPwrOpSet_holds {W : Bool × List Instr} {q : Req} {s : State} (h : s.Holds W) : (svcPwrOpSet q s).1.Holds W := by
  unfold svcPwrOpSet
  dsimp only
  with_reducible repeat' (first
    | assumption | intro _ | apply State.setFld_holds | apply State.setFlag_holds | apply State.raiseOp_holds
    | apply foldl_holds)

theorem execPwrOpSet_holds {W : Bool × List Instr} {q : Req} {s : State} (h : s.Holds W) : OutHolds W (execPwrOpSet q s) :=
  by
  unfold execPwrOpSet
  with_reducible repeat' (first
    | assumption | intro _ | apply Machine.serve_holds | apply svcPwrOpSet_holds | apply next_holds)

theorem svcPwrStatGet_holds {W : Bool × List Instr} {q : Req} {s : State} (h : s.Holds W) : (svcPwrStatGet q s).1.Holds W :=
  by
  unfold svcPwrStatGet
  dsimp only
  with_reducible repeat' (first
    | assumption | apply State.check_holds | apply State.refreshDom_holds)

theorem execPwrStatGet_holds {W : Bool × List Instr} {q : Req} {s : State} (h : s.Holds W) : OutHolds W (execPwrStatGet q s)
  := by
  unfold execPwrStatGet
  with_reducible repeat' (first
    | assumption | intro _ | apply Machine.serve_holds | apply svcPwrStatGet_holds | apply next_holds)

theorem svcVmonCfgSet_holds {W : Bool × List Instr} {q : Req} {s : State} (h : s.Holds W) : (svcVmonCfgSet q s).1.Holds W :=
  by
  unfold svcVmonCfgSet
  try extract_lets
  with_reducible repeat' (first
    | assumption | intro _ | apply State.setReg_holds | apply State.check_holds | apply foldl_holds)

theorem execVmonCfgSet_holds {W : Bool × List Instr} {q : Req} {s : State} (h : s.Holds W) : OutHolds W (execVmonCfgSet q s)
  := by
  unfold execVmonCfgSet
  with_reducible repeat' (first
    | assumption | intro _ | apply Machine.serve_holds | apply svcVmonCfgSet_holds | apply next_holds)

theorem execVmonWarnCrossing_holds {W : Bool × List Instr} {rail code : Nat} {s : State} (h : s.Holds W) : OutHolds W
  (execVmonWarnCrossing rail code s) := by
  unfold execVmonWarnCrossing
  dsimp only
  with_reducible repeat' (first
    | assumption | apply State.setFld_holds | apply State.post_holds | apply State.raiseFault_holds | apply next_holds
    | apply ite_out | (simp only [mk_holds_iff]; refine holds_parts ?_))

theorem execVmonWarnRecovery_holds {W : Bool × List Instr} {rail code : Nat} {s : State} (h : s.Holds W) : OutHolds W
  (execVmonWarnRecovery rail code s) := by
  unfold execVmonWarnRecovery
  dsimp only
  with_reducible repeat' (first
    | assumption | apply State.setFld_holds | apply State.post_holds | apply State.logFault_holds | apply next_holds
    | apply ite_out | (simp only [mk_holds_iff]; refine holds_parts ?_))

/-! ### Place -/

theorem State.wakeWork_holds {W : Bool × List Instr} {s : State} (h : s.Holds W) : (State.wakeWork s).Holds W := by
  unfold State.wakeWork
  with_reducible repeat' (first
    | assumption | intro _ | apply State.wakeDomain_holds | apply ite_holds | apply foldl_holds)

theorem execDetection_holds {W : Bool × List Instr} {d : BinReport} {s : State} (h : s.Holds W) : OutHolds W
  (execDetection d s) := by
  unfold execDetection
  dsimp only
  with_reducible repeat' (first
    | assumption | apply State.bump_holds | apply State.elapseTo_holds | apply State.place_holds
    | apply State.sentinelSeen_holds | apply State.countDet_holds | apply State.wakeWork_holds | apply next_holds
    | apply ite_out | split)

theorem State.startRetry_holds {W : Bool × List Instr} {s : State} {c : Cand} {n k : Nat} {l : List Nat} (h : s.Holds
  W) : (State.startRetry s c n k l).Holds W := by
  unfold State.startRetry
  dsimp only
  with_reducible repeat' (first
    | assumption | apply State.setEq_holds | apply State.logPlace_holds | apply State.setCtx_holds
    | (simp only [mk_holds_iff]; refine holds_parts ?_))

theorem execSicRetryStart_holds {W : Bool × List Instr} {s : State} (h : s.Holds W) : OutHolds W (execSicRetryStart s)
  := by
  unfold execSicRetryStart
  dsimp only
  with_reducible repeat' (first
    | assumption | apply State.quarantineOpen_holds | apply State.takePool_holds | apply State.abort_holds
    | apply State.wakeWork_holds | apply State.startRetry_holds | apply next_holds | apply ite_out
    | refine of_pair (by assumption) ?_ | split)

/-! ### Clocks -/

theorem State.setSources_holds {W : Bool × List Instr} {s : State} {c : Nat} (h : s.Holds W) : (State.setSources s c).Holds W
  := by
  unfold State.setSources
  with_reducible repeat' (first
    | assumption | apply State.setFld_holds)

theorem State.setSpll_holds {W : Bool × List Instr} {s : State} {q : Nat} {b : Bool} (h : s.Holds W) : (State.setSpll s q
  b).Holds W := by
  unfold State.setSpll
  dsimp only
  with_reducible repeat' (first
    | assumption | apply State.setFld_holds | apply State.setFlag_holds)

theorem State.tickReady_holds {W : Bool × List Instr} {s : State} (h : s.Holds W) : (State.tickReady s).Holds W := by
  unfold State.tickReady
  with_reducible repeat' (first
    | assumption | apply State.setFlag_holds)

theorem State.spllsUp_holds {W : Bool × List Instr} {s : State} (h : s.Holds W) : (State.spllsUp s).Holds W := by
  unfold State.spllsUp
  dsimp only
  with_reducible repeat' (first
    | assumption | intro _ | apply State.setFld_holds | apply State.setSpll_holds | apply State.tickReady_holds
    | apply foldl_holds)

theorem State.offHosc_holds {W : Bool × List Instr} {s : State} (h : s.Holds W) : (State.offHosc s).Holds W := by
  unfold State.offHosc
  with_reducible repeat' (first
    | assumption | apply State.setFld_holds | apply State.setSources_holds | apply ite_holds)

theorem State.postResumed_holds {W : Bool × List Instr} {s : State} {cmd : Option Cmd} (h : s.Holds W) : (State.postResumed s
  cmd).Holds W := by
  unfold State.postResumed
  with_reducible repeat' (first
    | assumption | apply State.post_holds)

theorem State.toHosc_holds {W : Bool × List Instr} {s : State} (h : s.Holds W) : (State.toHosc s).Holds W := by
  unfold State.toHosc
  dsimp only
  with_reducible repeat' (first
    | assumption | intro _ | apply State.setFld_holds | apply State.abortEvery_holds | apply State.toward_holds
    | apply State.setSources_holds | apply State.setSpll_holds | apply State.tickReady_holds | apply ite_holds
    | apply foldl_holds)

theorem State.refFails_holds {W : Bool × List Instr} {s : State} {act first : Bool} (h : s.Holds W) : (State.refFails s act
  first).Holds W := by
  unfold State.refFails
  dsimp only
  with_reducible repeat' (first
    | assumption | intro _ | apply State.setFld_holds | apply State.post_holds | apply State.raiseS3_holds
    | apply State.wakeDomain_holds | apply State.toHosc_holds | apply id_holds | apply ite_holds | (simp only [mk_holds_iff]; refine holds_parts ?_))

theorem execRefclkActivityLoss_holds {W : Bool × List Instr} {s : State} (h : s.Holds W) : OutHolds W (execRefclkActivityLoss
  s) := by
  unfold execRefclkActivityLoss
  dsimp only
  with_reducible repeat' (first
    | assumption | apply State.setFld_holds | apply State.refFails_holds | apply next_holds | apply ite_out
    | (simp only [mk_holds_iff]; refine holds_parts ?_))

theorem State.suspectHosc_holds {W : Bool × List Instr} {s : State} {ref lnk : Nat} (h : s.Holds W) : (State.suspectHosc s
  ref lnk).Holds W := by
  unfold State.suspectHosc
  with_reducible repeat' (first
    | assumption | apply State.setFld_holds | apply State.post_holds | apply State.raiseFault_holds
    | apply State.wakeDomain_holds | apply ite_holds)

theorem execClockMonitorWindow_holds {W : Bool × List Instr} {ref lnk : Nat} {s : State} (h : s.Holds W) : OutHolds W
  (execClockMonitorWindow ref lnk s) := by
  unfold execClockMonitorWindow
  dsimp only
  with_reducible repeat' (first
    | assumption | apply State.setFld_holds | apply State.refFails_holds | apply State.suspectHosc_holds
    | apply next_holds | apply ite_out | (simp only [mk_holds_iff]; refine holds_parts ?_))

theorem State.startResume_holds {W : Bool × List Instr} {s : State} {cmd : Option Cmd} (h : s.Holds W) :
  (State.startResume s cmd).Holds W := by
  unfold State.startResume
  dsimp only
  with_reducible repeat' (first
    | assumption | apply State.setFld_holds | (simp only [mk_holds_iff]; refine holds_parts ?_))

theorem execRefOkRestored_holds {W : Bool × List Instr} {s : State} (h : s.Holds W) : OutHolds W (execRefOkRestored s) := by
  unfold execRefOkRestored
  dsimp only
  with_reducible repeat' (first
    | assumption | apply State.setFld_holds | apply State.startResume_holds | apply next_holds | apply ite_out
    | apply ite_holds | (simp only [mk_holds_iff]; refine holds_parts ?_))

theorem execClkNoRefTick_holds {W : Bool × List Instr} {s : State} (h : s.Holds W) : OutHolds W (execClkNoRefTick s) := by
  unfold execClkNoRefTick
  dsimp only
  with_reducible repeat' (first
    | assumption | apply State.post_holds | apply State.elapseTo_holds | apply next_holds | apply ite_out
    | (simp only [mk_holds_iff]; refine holds_parts ?_))

theorem State.parkQuad_holds {W : Bool × List Instr} {s : State} {q : Nat} (h : s.Holds W) : (State.parkQuad s
  q).Holds W := by
  unfold State.parkQuad
  dsimp only
  with_reducible repeat' (first
    | assumption | intro _ | apply State.settleOpen_holds | apply State.serveQuad_holds | apply ite_holds
    | apply foldl_holds | (simp only [mk_holds_iff]; refine holds_parts ?_))

theorem State.queuesStop_holds {W : Bool × List Instr} {s : State} (h : s.Holds W) : (State.queuesStop s).Holds W :=
  by
  unfold State.queuesStop
  with_reducible repeat' (first
    | assumption | intro _ | apply State.queueUnderflow_holds | apply foldl_holds)

theorem State.failover_holds {W : Bool × List Instr} {s : State} (h : s.Holds W) : (State.failover s).Holds W := by
  unfold State.failover
  dsimp only
  with_reducible repeat' (first
    | assumption | apply State.setFld_holds | apply State.post_holds | apply State.elapse_holds
    | apply State.abortEvery_holds | apply State.tickReady_holds | apply State.queuesStop_holds | split)

theorem State.spllRepeat_holds {W : Bool × List Instr} {s : State} {q : Nat} (h : s.Holds W) : (State.spllRepeat s q).Holds W
  := by
  unfold State.spllRepeat
  with_reducible repeat' (first
    | assumption | apply State.parkQuad_holds)

theorem execSpllLockLoss_holds {W : Bool × List Instr} {q : Nat} {s : State} (h : s.Holds W) : OutHolds W
  (execSpllLockLoss q s) := by
  unfold execSpllLockLoss
  dsimp only
  with_reducible repeat' (first
    | assumption | intro _ | apply State.setFld_holds | apply State.bump_holds | apply State.post_holds
    | apply State.raiseThen_holds | apply State.thirdLoss_holds | apply State.quadMute_holds
    | apply State.setSpll_holds | apply State.tickReady_holds | apply State.parkQuad_holds
    | apply State.failover_holds | apply State.spllRepeat_holds | apply next_holds | apply ite_out | apply ite_holds)

theorem State.gateError_holds {W : Bool × List Instr} {s : State} {who : Initiator} (h : s.Holds W) : (State.gateError s
  who).Holds W := by
  unfold State.gateError
  with_reducible repeat' (first
    | assumption | apply State.accErr_holds | apply State.stageRsp_holds | apply State.setRdata_holds
    | apply State.dmaHalt_holds | apply ite_holds | split)

theorem execGateHandshakeTimeout_holds {W : Bool × List Instr} {d b : Nat} {who : Initiator} {s : State} (h : s.Holds W) :
  OutHolds W (execGateHandshakeTimeout d b who s) := by
  unfold execGateHandshakeTimeout
  dsimp only
  with_reducible repeat' (first
    | assumption | apply State.setFld_holds | apply State.bump_holds | apply State.post_holds
    | apply State.raiseFault_holds | apply State.agreed_holds | apply State.gateError_holds | apply next_holds
    | apply ite_out | (simp only [mk_holds_iff]; refine holds_parts ?_) | split)

theorem execPaceMonitorRefresh_holds {W : Bool × List Instr} {index : Nat} {s : State} (h : s.Holds W) : OutHolds W
  (execPaceMonitorRefresh index s) := by
  unfold execPaceMonitorRefresh
  dsimp only
  with_reducible repeat' (first
    | assumption | apply State.setFld_holds | apply State.postLimited_holds | apply State.raiseFault_holds
    | apply next_holds | apply ite_out | (simp only [mk_holds_iff]; refine holds_parts ?_))

theorem svcClkCfgSet_holds {W : Bool × List Instr} {q : Req} {s : State} (h : s.Holds W) : (svcClkCfgSet q s).1.Holds W := by
  unfold svcClkCfgSet
  dsimp only
  with_reducible repeat' (first
    | assumption | intro _ | apply State.setReg_holds | apply State.setFld_holds | apply State.setFlag_holds
    | apply State.check_holds | apply State.setSide_holds | apply State.startResume_holds | apply foldl_holds
    | dsimp only | split)

theorem execClkCfgSet_holds {W : Bool × List Instr} {q : Req} {s : State} (h : s.Holds W) : OutHolds W (execClkCfgSet q s) :=
  by
  unfold execClkCfgSet
  with_reducible repeat' (first
    | assumption | intro _ | apply Machine.serve_holds | apply svcClkCfgSet_holds | apply next_holds)

theorem svcClkStatGet_holds {W : Bool × List Instr} {x1 : Req} {s : State} (h : s.Holds W) : (svcClkStatGet x1 s).1.Holds W
  := by
  unfold svcClkStatGet
  try extract_lets
  with_reducible repeat' (first
    | assumption)

theorem execClkStatGet_holds {W : Bool × List Instr} {q : Req} {s : State} (h : s.Holds W) : OutHolds W (execClkStatGet q s)
  := by
  unfold execClkStatGet
  with_reducible repeat' (first
    | assumption | intro _ | apply Machine.serve_holds | apply svcClkStatGet_holds | apply next_holds)

theorem svcClkResume_holds {W : Bool × List Instr} {q : Req} {s : State} (h : s.Holds W) : (svcClkResume q s).1.Holds W := by
  unfold svcClkResume
  try extract_lets
  with_reducible repeat' (first
    | assumption | apply State.check_holds | apply State.startResume_holds)

theorem execClkResume_holds {W : Bool × List Instr} {q : Req} {s : State} (h : s.Holds W) : OutHolds W (execClkResume q s) :=
  by
  unfold execClkResume
  with_reducible repeat' (first
    | assumption | intro _ | apply Machine.serve_holds | apply svcClkResume_holds | apply next_holds)

end Sys2Proof.Machine
end

