-- ==== Sys2Proof/Laws/HoldsModes.lean ====
section
/-! SUPPORT. Predistortion, calibration, modes and mailboxes keep the canonical form and the queue, meaning by
meaning: each answers a next state (OutHolds). -/

namespace Sys2Proof.Machine
open Host

/-! ### Dpd -/

theorem execActuatorSaturation_holds {W : Bool × List Instr} {p : Nat} {x1 : Computed} {s : State} (h : s.Holds W) :
  OutHolds W (execActuatorSaturation p x1 s) := by
  unfold execActuatorSaturation
  dsimp only
  with_reducible repeat' (first
    | assumption | apply State.setFld_holds | apply State.bump_holds | apply State.postLimited_holds
    | apply next_holds | split)

theorem State.dpdStage_holds {W : Bool × List Instr} {s : State} {p : Nat} {set : List Word} {src : Nat} (h : s.Holds W) :
  (State.dpdStage s p set src).Holds W := by
  unfold State.dpdStage
  dsimp only
  with_reducible repeat' (first
    | assumption | apply State.setFld_holds | apply State.setFlag_holds | apply State.sealTile_holds
    | apply State.putTileWords_holds | apply State.setDpd_holds | apply State.takeWork_holds
    | apply State.freeWork_holds | apply ite_holds | split)

theorem State.dpdApplied_holds {W : Bool × List Instr} {s : State} {p : Nat} (h : s.Holds W) : (State.dpdApplied s p).Holds W
  := by
  unfold State.dpdApplied
  dsimp only
  with_reducible repeat' (first
    | assumption | apply State.setFld_holds | apply State.post_holds | apply State.setDpd_holds)

theorem State.dpdOpen_holds {W : Bool × List Instr} {s : State} {p : Nat} (h : s.Holds W) : (State.dpdOpen s p).Holds W := by
  unfold State.dpdOpen
  dsimp only
  with_reducible repeat' (first
    | assumption | apply State.setFld_holds | apply State.openTile_holds | apply State.setDpd_holds
    | apply State.freeWork_holds | apply ite_holds | split)

theorem execDpdApplyStep_holds {W : Bool × List Instr} {p : Nat} {s : State} (h : s.Holds W) : OutHolds W (execDpdApplyStep p
  s) := by
  unfold execDpdApplyStep
  dsimp only
  with_reducible repeat' (first
    | assumption | apply State.setFld_holds | apply State.elapseTo_holds | apply State.setDpd_holds
    | apply State.dpdApplied_holds | apply State.dpdOpen_holds | apply next_holds | apply ite_out | apply ite_holds
    | split)

theorem State.setCap_holds {W : Bool × List Instr} {s : State} {q : Nat} {c : Option OrxCap} (h : s.Holds W) : (State.setCap
  s q c).Holds W := by
  unfold State.setCap
  dsimp only
  with_reducible repeat' (first
    | assumption | (simp only [mk_holds_iff]; refine holds_parts ?_))

theorem State.setFit_holds {W : Bool × List Instr} {s : State} {q : Nat} {f : Option OrxFit} (h : s.Holds W) : (State.setFit
  s q f).Holds W := by
  unfold State.setFit
  dsimp only
  with_reducible repeat' (first
    | assumption | (simp only [mk_holds_iff]; refine holds_parts ?_))

theorem State.setChosen_holds {W : Bool × List Instr} {s : State} {q : Nat} {p : Option Nat} (h : s.Holds W) :
  (State.setChosen s q p).Holds W := by
  unfold State.setChosen
  dsimp only
  with_reducible repeat' (first
    | assumption | (simp only [mk_holds_iff]; refine holds_parts ?_))

theorem State.refreshNmse_holds {W : Bool × List Instr} {s : State} {p : Nat} (h : s.Holds W) : (State.refreshNmse s
  p).Holds W := by
  unfold State.refreshNmse
  with_reducible repeat' (first
    | assumption | apply State.setFld_holds | split)

theorem State.refreshOrx_holds {W : Bool × List Instr} {s : State} {q : Nat} (h : s.Holds W) : (State.refreshOrx s
  q).Holds W := by
  unfold State.refreshOrx
  dsimp only
  with_reducible repeat' (first
    | assumption | apply State.setFld_holds | apply State.setFlag_holds | split)

theorem State.dpdSkip_holds {W : Bool × List Instr} {s : State} {q p cause : Nat} (h : s.Holds W) : (State.dpdSkip s q p
  cause).Holds W := by
  unfold State.dpdSkip
  dsimp only
  with_reducible repeat' (first
    | assumption | apply State.setFld_holds | apply State.bump_holds | apply State.setChosen_holds | apply ite_holds
    | (simp only [mk_holds_iff]; refine holds_parts ?_))

theorem State.startCap_holds {W : Bool × List Instr} {s : State} {q : Nat} {c : OrxCap} (h : s.Holds W) :
  (State.startCap s q c).Holds W := by
  unfold State.startCap
  with_reducible repeat' (first
    | assumption | intro _ | apply State.setFld_holds | apply State.useTile_holds | apply State.orxOn_holds
    | apply State.setCap_holds | apply foldl_holds)

theorem execAdaptCaptureStart_holds {W : Bool × List Instr} {q u : Nat} {s : State} (h : s.Holds W) : OutHolds W
  (execAdaptCaptureStart q u s) := by
  unfold execAdaptCaptureStart
  dsimp only
  with_reducible repeat' (first
    | assumption | intro _ | apply State.elapseTo_holds | apply State.setOwner_holds | apply State.setChosen_holds
    | apply State.dpdSkip_holds | apply State.startCap_holds | apply next_holds | apply ite_out | apply foldl_holds
    | split)

theorem State.sealCap_holds {W : Bool × List Instr} {s : State} {c : OrxCap} {words : List Word} (h : s.Holds W) :
  (State.sealCap s c words).Holds W := by
  unfold State.sealCap
  dsimp only
  with_reducible repeat' (first
    | assumption | intro _ | apply State.dropUse_holds | apply State.sealTile_holds | apply State.putTileWords_holds
    | apply foldl_holds)

theorem State.freeCap_holds {W : Bool × List Instr} {s : State} {t : Nat} (h : s.Holds W) : (State.freeCap s t).Holds W := by
  unfold State.freeCap
  with_reducible repeat' (first
    | assumption | intro _ | apply State.releaseTile_holds | apply State.setOwner_holds | apply foldl_holds)

theorem execOrxCaptureEnd_holds {W : Bool × List Instr} {q : Nat} {orx : List Word} {s : State} (h : s.Holds W) :
  OutHolds W (execOrxCaptureEnd q orx s) := by
  unfold execOrxCaptureEnd
  dsimp only
  with_reducible repeat' (first
    | assumption | apply State.setFld_holds | apply State.bump_holds | apply State.postAt_holds
    | apply State.elapseTo_holds | apply State.setOwner_holds | apply State.orxRest_holds | apply State.setCap_holds
    | apply State.setFit_holds | apply State.dpdSkip_holds | apply State.sealCap_holds | apply State.freeCap_holds
    | apply next_holds | apply ite_out | split)

theorem State.fitStale_holds {W : Bool × List Instr} {s : State} {q : Nat} {f : OrxFit} (h : s.Holds W) : (State.fitStale s q
  f).Holds W := by
  unfold State.fitStale
  with_reducible repeat' (first
    | assumption | apply State.setFit_holds | apply State.dpdSkip_holds | apply State.freeCap_holds)

theorem execDpdFitStart_holds {W : Bool × List Instr} {q k : Nat} {s : State} (h : s.Holds W) : OutHolds W (execDpdFitStart q
  k s) := by
  unfold execDpdFitStart
  dsimp only
  with_reducible repeat' (first
    | assumption | intro _ | apply State.useTile_holds | apply foldl_holds | apply State.openTiles_holds
    | apply State.wakeDomain_holds
    | apply State.setFit_holds | apply State.dpdSkip_holds | apply State.freeCap_holds | apply next_holds | apply ite_out | split)

theorem execDpdFitStale_holds {W : Bool × List Instr} {q : Nat} {s : State} (h : s.Holds W) : OutHolds W (execDpdFitStale q
  s) := by
  unfold execDpdFitStale
  with_reducible repeat' (first
    | assumption | apply State.elapseTo_holds | apply State.fitStale_holds | apply next_holds | apply ite_out | split)

theorem State.dpdConsec_holds {W : Bool × List Instr} {s : State} {p : Nat} (h : s.Holds W) : (State.dpdConsec s p).Holds W
  := by
  unfold State.dpdConsec
  with_reducible repeat' (first
    | assumption | apply State.setFld_holds)

theorem State.dpdClear_holds {W : Bool × List Instr} {s : State} {p : Nat} (h : s.Holds W) : (State.dpdClear s p).Holds W :=
  by
  unfold State.dpdClear
  with_reducible repeat' (first
    | assumption | apply State.setRej_holds | apply State.rejRegs_holds | apply State.dpdConsec_holds)

theorem State.dpdServed_holds {W : Bool × List Instr} {s : State} {q p : Nat} (h : s.Holds W) : (State.dpdServed s q p).Holds
  W := by
  unfold State.dpdServed
  dsimp only
  with_reducible repeat' (first
    | assumption | apply State.setChosen_holds | (simp only [mk_holds_iff]; refine holds_parts ?_))

theorem State.dpdReject_holds {W : Bool × List Instr} {s : State} {p cause : Nat} (h : s.Holds W) : (State.dpdReject s
  p cause).Holds W := by
  unfold State.dpdReject
  dsimp only
  with_reducible repeat' (first
    | assumption | apply State.setFld_holds | apply State.setDpd_holds | apply State.rejectPath_holds
    | apply State.dpdConsec_holds | (simp only [mk_holds_iff]; refine holds_parts ?_))

theorem State.dpdAccept_holds {W : Bool × List Instr} {s : State} {p : Nat} {t : List Word} {nmse : Int} (h : s.Holds
  W) : (State.dpdAccept s p t nmse).Holds W := by
  unfold State.dpdAccept
  dsimp only
  with_reducible repeat' (first
    | assumption | apply State.setFld_holds | apply State.setDpd_holds | apply State.acceptUnit_holds
    | apply State.dpdStage_holds | apply State.dpdConsec_holds)

theorem State.loopCheck_holds {W : Bool × List Instr} {s : State} {p ns : Nat} (h : s.Holds W) : (State.loopCheck s p
  ns).Holds W := by
  unfold State.loopCheck
  dsimp only
  with_reducible repeat' (first
    | assumption | apply State.setDpd_holds | apply State.rejectPath_holds | apply State.acceptUnit_holds
    | apply ite_holds)

theorem execDpdFitDone_holds {W : Bool × List Instr} {q : Nat} {f : DpdFit} {s : State} (h : s.Holds W) :
    OutHolds W (execDpdFitDone q f s) := by
  unfold execDpdFitDone
  split
  · exact next_holds h
  · refine ite_out ?_ (next_holds h)
    extract_lets p s1 due s2 c t
    have h1 : s1.Holds W := State.freeCap_holds (State.setFit_holds h)
    have h2 : s2.Holds W := ite_holds (State.loopCheck_holds h1) h1
    clear_value t c s2 due s1
    refine ite_out (next_holds (State.dpdServed_holds h1)) (ite_out (next_holds (State.dpdSkip_holds h2)) ?_)
    split
    · exact next_holds (State.dpdServed_holds (State.dpdReject_holds h2))
    · exact next_holds (State.dpdServed_holds (State.dpdAccept_holds h2))

theorem svcDpdCfgSet_holds {W : Bool × List Instr} {q : Req} {s : State} (h : s.Holds W) : (svcDpdCfgSet q s).1.Holds W := by
  unfold svcDpdCfgSet
  try extract_lets
  with_reducible repeat' (first
    | assumption | intro _ | apply State.setReg_holds | apply State.check_holds | apply foldl_holds)

theorem execDpdCfgSet_holds {W : Bool × List Instr} {q : Req} {s : State} (h : s.Holds W) : OutHolds W (execDpdCfgSet q s) :=
  by
  unfold execDpdCfgSet
  with_reducible repeat' (first
    | assumption | intro _ | apply Machine.serve_holds | apply svcDpdCfgSet_holds | apply next_holds)

theorem State.fitDiscard_holds {W : Bool × List Instr} {s : State} {p : Nat} (h : s.Holds W) : (State.fitDiscard s p).Holds W
  := by
  unfold State.fitDiscard
  with_reducible repeat' (first
    | assumption | apply State.setFit_holds | apply ite_holds | split)

theorem svcDpdCoefLoad_holds {W : Bool × List Instr} {q : Req} {s : State} (h : s.Holds W) : (svcDpdCoefLoad q s).1.Holds W
  := by
  unfold svcDpdCoefLoad
  dsimp only
  with_reducible repeat' (first
    | assumption | intro _ | apply State.check_holds | apply State.withInput_holds | apply State.dpdStage_holds
    | apply State.dpdClear_holds | apply State.fitDiscard_holds)

theorem execDpdCoefLoad_holds {W : Bool × List Instr} {q : Req} {s : State} (h : s.Holds W) : OutHolds W (execDpdCoefLoad q
  s) := by
  unfold execDpdCoefLoad
  with_reducible repeat' (first
    | assumption | intro _ | apply Machine.serve_holds | apply svcDpdCoefLoad_holds | apply next_holds)

theorem svcDpdCoefRead_holds {W : Bool × List Instr} {q : Req} {s : State} (h : s.Holds W) : (svcDpdCoefRead q s).1.Holds W
  := by
  unfold svcDpdCoefRead
  try extract_lets
  with_reducible repeat' (first
    | assumption | apply State.check_holds | apply State.putTileWords_holds)

theorem execDpdCoefRead_holds {W : Bool × List Instr} {q : Req} {s : State} (h : s.Holds W) : OutHolds W (execDpdCoefRead q
  s) := by
  unfold execDpdCoefRead
  with_reducible repeat' (first
    | assumption | intro _ | apply Machine.serve_holds | apply svcDpdCoefRead_holds | apply next_holds)

theorem svcDpdReset_holds {W : Bool × List Instr} {q : Req} {s : State} (h : s.Holds W) : (svcDpdReset q s).1.Holds W := by
  unfold svcDpdReset
  try extract_lets
  with_reducible repeat' (first
    | assumption | intro _ | apply State.check_holds | apply State.dpdStage_holds | apply State.dpdClear_holds
    | apply foldl_holds)

theorem execDpdReset_holds {W : Bool × List Instr} {q : Req} {s : State} (h : s.Holds W) : OutHolds W (execDpdReset q s) :=
  by
  unfold execDpdReset
  with_reducible repeat' (first
    | assumption | intro _ | apply Machine.serve_holds | apply svcDpdReset_holds | apply next_holds)

theorem svcOrxCapture_holds {W : Bool × List Instr} {q : Req} {s : State} (h : s.Holds W) : (svcOrxCapture q s).1.Holds W :=
  by
  unfold svcOrxCapture
  try extract_lets
  with_reducible repeat' (first
    | assumption | apply State.check_holds | apply State.armCmd_holds)

theorem execOrxCapture_holds {W : Bool × List Instr} {q : Req} {s : State} (h : s.Holds W) : OutHolds W (execOrxCapture q s)
  := by
  unfold execOrxCapture
  with_reducible repeat' (first
    | assumption | intro _ | apply Machine.serve_holds | apply svcOrxCapture_holds | apply next_holds)

theorem State.captureAt_holds {W : Bool × List Instr} {s : State} {t : T48} {p att tile : Nat} {cmd : Cmd} {late : Bool} (h :
  s.Holds W) : (State.captureAt s t p att tile cmd late).Holds W := by
  unfold State.captureAt
  with_reducible repeat' (first
    | assumption | apply State.postAt_holds | apply State.startCap_holds | apply ite_holds)

theorem svcDpdStatGet_holds {W : Bool × List Instr} {q : Req} {s : State} (h : s.Holds W) : (svcDpdStatGet q s).1.Holds W :=
  by
  unfold svcDpdStatGet
  try extract_lets
  with_reducible repeat' (first
    | assumption)

theorem execDpdStatGet_holds {W : Bool × List Instr} {q : Req} {s : State} (h : s.Holds W) : OutHolds W (execDpdStatGet q s)
  := by
  unfold execDpdStatGet
  with_reducible repeat' (first
    | assumption | intro _ | apply Machine.serve_holds | apply svcDpdStatGet_holds | apply next_holds)

/-! ### Calibrate -/

theorem State.setItem_holds {W : Bool × List Instr} {s : State} {kind u : Nat} {v : Int} (h : s.Holds W) : (State.setItem s
  kind u v).Holds W := by
  unfold State.setItem
  dsimp only
  with_reducible repeat' (first
    | assumption | apply State.setFld_holds | apply ite_holds | (simp only [mk_holds_iff]; refine holds_parts ?_))

theorem State.stepItem_holds {W : Bool × List Instr} {s : State} {kind u : Nat} (h : s.Holds W) : (State.stepItem s kind
  u).Holds W := by
  unfold State.stepItem
  dsimp only
  with_reducible repeat' (first
    | assumption | apply State.setItemTarget_holds | apply State.setItem_holds | apply ite_holds | split)

theorem State.stepSide_holds {W : Bool × List Instr} {s : State} {k : Nat} (h : s.Holds W) : (State.stepSide s k).Holds W :=
  by
  unfold State.stepSide
  dsimp only
  with_reducible repeat' (first
    | assumption | intro _ | apply State.stepItem_holds | apply foldl_holds | split)

theorem State.setPhaseValid_holds {W : Bool × List Instr} {s : State} {k : Nat} {b : Bool} (h : s.Holds W) :
  (State.setPhaseValid s k b).Holds W := by
  unfold State.setPhaseValid
  with_reducible repeat' (first
    | assumption | apply State.setFlag_holds | apply ite_holds)

theorem State.setStepAt_holds {W : Bool × List Instr} {s : State} {k : Nat} {t : Option T48} (h : s.Holds W) :
  (State.setStepAt s k t).Holds W := by
  unfold State.setStepAt
  dsimp only
  with_reducible repeat' (first
    | assumption | (simp only [mk_holds_iff]; refine holds_parts ?_))

theorem State.startSteps_holds {W : Bool × List Instr} {s : State} {k : Nat} (h : s.Holds W) : (State.startSteps s k).Holds W
  := by
  unfold State.startSteps
  with_reducible repeat' (first
    | assumption | apply State.setStepAt_holds | apply ite_holds | split)

theorem execCorrectionStep_holds {W : Bool × List Instr} {q : Nat} {tx : Bool} {s : State} (h : s.Holds W) : OutHolds W
  (execCorrectionStep q tx s) := by
  unfold execCorrectionStep
  dsimp only
  with_reducible repeat' (first
    | assumption | apply State.elapseTo_holds | apply State.stepSide_holds | apply State.setStepAt_holds
    | apply next_holds | split)

theorem State.pathAligned_holds {W : Bool × List Instr} {s : State} {p : Nat} {tx : Bool} (h : s.Holds W) :
  (State.pathAligned s p tx).Holds W := by
  unfold State.pathAligned
  dsimp only
  with_reducible repeat' (first
    | assumption | apply State.setFld_holds | apply State.serve_holds | apply ite_holds
    | (simp only [mk_holds_iff]; refine holds_parts ?_))

theorem State.calApply_holds {W : Bool × List Instr} {s : State} {r : CalResult} {atOnce : Bool} (h : s.Holds W) :
  (State.calApply s r atOnce).Holds W := by
  unfold State.calApply
  dsimp only
  with_reducible repeat' (first
    | assumption | intro _ | apply State.setFld_holds | apply State.calibrateLo_holds | apply State.setDpd_holds
    | apply State.setItemTarget_holds | apply State.setItem_holds | apply State.pathAligned_holds | apply ite_holds
    | apply foldl_holds | split)

theorem State.calResult_holds {W : Bool × List Instr} {s : State} {r : CalResult} {atOnce : Bool} (h : s.Holds W) :
  (State.calResult s r atOnce).Holds W := by
  unfold State.calResult
  dsimp only
  with_reducible repeat' (first
    | assumption | apply State.rejectPath_holds | apply State.rejectQuad_holds | apply State.acceptUnit_holds
    | apply State.calApply_holds | apply ite_holds | (simp only [mk_holds_iff]; refine holds_parts ?_))

theorem State.pilotRegs_holds {W : Bool × List Instr} {s : State} (h : s.Holds W) : (State.pilotRegs s).Holds W := by
  unfold State.pilotRegs
  with_reducible repeat' (first
    | assumption | intro _ | apply State.setFlag_holds | apply foldl_holds)

theorem State.countSource_holds {W : Bool × List Instr} {s : State} {src : Nat} {tx : Bool} {rs : List CalResult}
    (h : s.Holds W) : (State.countSource s src tx rs).Holds W := by
  unfold State.countSource
  dsimp only
  with_reducible repeat' (first
    | assumption | apply State.pilotRegs_holds | apply State.rejectQuad_holds
    | (simp only [mk_holds_iff]; refine holds_parts ?_))

theorem State.runPhase_holds {W : Bool × List Instr} {s : State} {src : Nat} {tx : Bool} {rs : List CalResult}
    (h : s.Holds W) : (State.runPhase s src tx rs).Holds W := by
  unfold State.runPhase
  dsimp only
  with_reducible repeat' (first
    | assumption | intro _ | apply State.countSource_holds | apply State.calResult_holds | apply ite_holds
    | apply foldl_holds)

theorem State.runApply_holds {W : Bool × List Instr} {s : State} {rs : List CalResult} (h : s.Holds W) :
    (State.runApply s rs).Holds W := by
  unfold State.runApply
  dsimp only
  with_reducible repeat' (first
    | assumption | intro _ | apply State.runPhase_holds | apply State.calResult_holds | apply foldl_holds)

theorem State.openPhase_holds {W : Bool × List Instr} {s : State} {k : Nat} (h : s.Holds W) : (State.openPhase s
  k).Holds W := by
  unfold State.openPhase
  with_reducible repeat' (first
    | assumption | apply State.setPhaseValid_holds | apply ite_holds)

theorem State.resumeSide_holds {W : Bool × List Instr} {s : State} {k : Nat} (h : s.Holds W) : (State.resumeSide s
  k).Holds W := by
  unfold State.resumeSide
  dsimp only
  with_reducible repeat' (first
    | assumption | apply State.setSide_holds | apply State.wakeSide_holds | apply State.lockGained_holds
    | apply State.openPhase_holds | apply ite_holds)

theorem State.resumeFound_holds {W : Bool × List Instr} {s : State} {rs : List CalResult} (h : s.Holds W) :
  (State.resumeFound s rs).Holds W := by
  unfold State.resumeFound
  dsimp only
  with_reducible repeat' (first
    | assumption | apply ite_holds | (simp only [mk_holds_iff]; refine holds_parts ?_))

theorem execClockResumeDone_holds {W : Bool × List Instr} {s : State} (h : s.Holds W) : OutHolds W
  (execClockResumeDone s) := by
  unfold execClockResumeDone
  dsimp only
  with_reducible repeat' (first
    | assumption | intro _ | apply State.setFld_holds | apply State.elapseTo_holds | apply State.settleSide_holds
    | apply State.spllsUp_holds | apply State.offHosc_holds | apply State.postResumed_holds
    | apply State.runApply_holds | apply State.resumeSide_holds | apply next_holds | apply ite_out | apply foldl_holds
    | (simp only [mk_holds_iff]; refine holds_parts ?_))

theorem State.dropRun_holds {W : Bool × List Instr} {s : State} {r : CalRun} (h : s.Holds W) : (State.dropRun s r).Holds W :=
  by
  unfold State.dropRun
  dsimp only
  with_reducible repeat' (first
    | assumption | (simp only [mk_holds_iff]; refine holds_parts ?_))

theorem State.swapRun_holds {W : Bool × List Instr} {s : State} {r n : CalRun} (h : s.Holds W) : (State.swapRun s r n).Holds
  W := by
  unfold State.swapRun
  dsimp only
  with_reducible repeat' (first
    | assumption | (simp only [mk_holds_iff]; refine holds_parts ?_))

theorem State.calCoex_holds {W : Bool × List Instr} {s : State} (h : s.Holds W) : (State.calCoex s).Holds W := by
  unfold State.calCoex
  dsimp only
  with_reducible repeat' (first
    | assumption | apply State.coexPins_holds | (simp only [mk_holds_iff]; refine holds_parts ?_))

theorem State.runRegs_holds {W : Bool × List Instr} {s : State} {q : Nat} (h : s.Holds W) : (State.runRegs s q).Holds W := by
  unfold State.runRegs
  with_reducible repeat' (first
    | assumption | apply State.setFld_holds)

theorem State.runsRegs_holds {W : Bool × List Instr} {s : State} (h : s.Holds W) : (State.runsRegs s).Holds W := by
  unfold State.runsRegs
  with_reducible repeat' (first
    | assumption | intro _ | apply State.calCoex_holds | apply State.runRegs_holds | apply foldl_holds)

theorem State.enterCal_holds {W : Bool × List Instr} {s : State} {k : Nat} (h : s.Holds W) : (State.enterCal s k).Holds W :=
  by
  unfold State.enterCal
  with_reducible repeat' (first
    | assumption | apply State.enterSide_holds | apply State.wakeSide_holds)

theorem State.takeSide_holds {W : Bool × List Instr} {s : State} {r : CalRun} {k : Nat} (h : s.Holds W) :
  (State.takeSide s r k).Holds W := by
  unfold State.takeSide
  dsimp only
  with_reducible repeat' (first
    | assumption | apply State.setOwner_holds | apply State.orxOn_holds | apply State.swapRun_holds
    | apply State.runsRegs_holds | apply State.enterCal_holds | apply ite_holds)

theorem execCalEntry_holds {W : Bool × List Instr} {q : Nat} {tx : Bool} {s : State} (h : s.Holds W) : OutHolds W
  (execCalEntry q tx s) := by
  unfold execCalEntry
  dsimp only
  with_reducible repeat' (first
    | assumption | apply State.takeSide_holds | apply next_holds | apply ite_out | split)

theorem State.leaveCal_holds {W : Bool × List Instr} {s : State} {k : Nat} (h : s.Holds W) : (State.leaveCal s
  k).Holds W := by
  unfold State.leaveCal
  dsimp only
  with_reducible repeat' (first
    | assumption | apply State.setSide_holds | apply State.enterSide_holds | apply State.settleSide_holds
    | apply State.moveWaiting_holds | apply ite_holds)

theorem State.endRun_holds {W : Bool × List Instr} {s : State} {r : CalRun} (h : s.Holds W) : (State.endRun s r).Holds
  W := by
  unfold State.endRun
  dsimp only
  with_reducible repeat' (first
    | assumption | intro _ | apply State.setOwner_holds | apply State.disarm_holds | apply State.tryReleases_holds
    | apply State.freeWork_holds | apply State.orxRest_holds | apply State.dropRun_holds | apply State.runsRegs_holds
    | apply State.leaveCal_holds | apply ite_holds | apply foldl_holds | split)

theorem State.calDone_holds {W : Bool × List Instr} {s : State} {r : CalRun} {st first : Nat} (h : s.Holds W) :
  (State.calDone s r st first).Holds W := by
  unfold State.calDone
  with_reducible repeat' (first
    | assumption | apply State.post_holds | split)

theorem State.setRun_holds {W : Bool × List Instr} {s : State} {k : Nat} {temp : Int} {t : T48} (h : s.Holds W) :
  (State.setRun s k temp t).Holds W := by
  unfold State.setRun
  dsimp only
  with_reducible repeat' (first
    | assumption | apply State.setFld_holds | apply ite_holds | (simp only [mk_holds_iff]; refine holds_parts ?_))

theorem State.unmarkQuad_holds {W : Bool × List Instr} {s : State} {k cal : Nat} (h : s.Holds W) : (State.unmarkQuad s k
  cal).Holds W := by
  unfold State.unmarkQuad
  dsimp only
  with_reducible repeat' (first
    | assumption | intro _ | apply State.showMark_holds | apply ite_holds | apply foldl_holds
    | (simp only [mk_holds_iff]; refine holds_parts ?_))

theorem State.restoreEnd_holds {W : Bool × List Instr} {s : State} {r : CalRun} {ok : Bool} (h : s.Holds W) :
  (State.restoreEnd s r ok).Holds W := by
  unfold State.restoreEnd
  dsimp only
  with_reducible repeat' (first
    | assumption | intro _ | apply State.stageRsp_holds | apply State.setRej_holds | apply State.rejRegs_holds
    | apply State.showMark_holds | apply ite_holds | apply foldl_holds
    | (simp only [mk_holds_iff]; refine holds_parts ?_) | split)

theorem State.takeRunTile_holds {W : Bool × List Instr} {s : State} (h : s.Holds W) : (State.takeRunTile s).2.Holds W
  := by
  unfold State.takeRunTile
  with_reducible repeat' (first
    | assumption | apply State.takeWork_holds | split)

theorem State.beginRun_holds {W : Bool × List Instr} {s : State} {r : CalRun} (h : s.Holds W) : (State.beginRun s
  r).Holds W := by
  unfold State.beginRun
  dsimp only
  with_reducible repeat' (first
    | assumption | apply State.swapRun_holds | apply State.runsRegs_holds | apply State.takeRunTile_holds)

theorem State.returnRun_holds {W : Bool × List Instr} {s : State} {q : Nat} (h : s.Holds W) : (State.returnRun s q).Holds W
  := by
  unfold State.returnRun
  dsimp only
  with_reducible repeat' (first
    | assumption | apply State.beginRun_holds | apply ite_holds | (simp only [mk_holds_iff]; refine holds_parts ?_))

theorem execSpllRelock_holds {W : Bool × List Instr} {q : Nat} {s : State} (h : s.Holds W) : OutHolds W
  (execSpllRelock q s) := by
  unfold execSpllRelock
  with_reducible repeat' (first
    | assumption | intro _ | apply State.settleClose_holds | apply State.setSpll_holds | apply State.tickReady_holds
    | apply State.returnRun_holds | apply next_holds | apply ite_out | apply foldl_holds)

theorem execCalRunEnd_holds {W : Bool × List Instr} {q : Nat} {rs : List CalResult} {s : State} (h : s.Holds W) :
  OutHolds W (execCalRunEnd q rs s) := by
  unfold execCalRunEnd
  dsimp only
  with_reducible repeat' (first
    | assumption | intro _ | apply State.runApply_holds | apply State.resumeFound_holds | apply State.endRun_holds
    | apply State.calDone_holds | apply State.setRun_holds | apply State.unmarkQuad_holds
    | apply State.restoreEnd_holds | apply State.returnRun_holds | apply next_holds | apply ite_out | apply ite_holds
    | apply foldl_holds | split)

theorem execCalEntryTimeout_holds {W : Bool × List Instr} {q : Nat} {s : State} (h : s.Holds W) : OutHolds W
  (execCalEntryTimeout q s) := by
  unfold execCalEntryTimeout
  with_reducible repeat' (first
    | assumption | apply State.elapseTo_holds | apply State.endRun_holds | apply State.calDone_holds
    | apply next_holds | apply ite_out | split)

theorem State.abandonRuns_holds {W : Bool × List Instr} {s : State} (h : s.Holds W) : (State.abandonRuns s).Holds W := by
  unfold State.abandonRuns
  with_reducible repeat' (first
    | assumption | intro _ | apply State.endRun_holds | apply State.calDone_holds | apply foldl_holds)

theorem State.calAt_holds {W : Bool × List Instr} {s : State} {u : Nat} (h : s.Holds W) : (State.calAt s u).Holds W := by
  unfold State.calAt
  with_reducible repeat' (first
    | assumption | apply State.beginRun_holds | split)

theorem State.kettleEvent_holds {W : Bool × List Instr} {s : State} {k : Nat} {forced : Bool} {dt : Int} (h : s.Holds W) :
  (State.kettleEvent s k forced dt).Holds W := by
  unfold State.kettleEvent
  with_reducible repeat' (first
    | assumption | apply State.post_holds)

theorem State.setKettle_holds {W : Bool × List Instr} {s : State} {k : Nat} {b : Bool} (h : s.Holds W) : (State.setKettle s k
  b).Holds W := by
  unfold State.setKettle
  dsimp only
  with_reducible repeat' (first
    | assumption | apply State.setFlag_holds | apply ite_holds | (simp only [mk_holds_iff]; refine holds_parts ?_))

theorem State.kettleStart_holds {W : Bool × List Instr} {s : State} {k : Nat} {temps : List Int} {forced : Bool} (h :
  s.Holds W) : (State.kettleStart s k temps forced).Holds W := by
  unfold State.kettleStart
  dsimp only
  with_reducible repeat' (first
    | assumption | apply State.takeSide_holds | apply State.takeRunTile_holds | apply State.kettleEvent_holds
    | (simp only [mk_holds_iff]; refine holds_parts ?_))

theorem State.kettleRx_holds {W : Bool × List Instr} {s : State} {q : Nat} {temps : List Int} (h : s.Holds W) :
  (State.kettleRx s q temps).Holds W := by
  unfold State.kettleRx
  dsimp only
  with_reducible repeat' (first
    | assumption | apply State.kettleStart_holds | apply ite_holds)

theorem State.kettleTx_holds {W : Bool × List Instr} {s : State} {q : Nat} {temps : List Int} (h : s.Holds W) :
  (State.kettleTx s q temps).Holds W := by
  unfold State.kettleTx
  dsimp only
  with_reducible repeat' (first
    | assumption | apply State.post_holds | apply State.kettleStart_holds | apply ite_holds
    | (simp only [mk_holds_iff]; refine holds_parts ?_))

theorem execKettleCheck_holds {W : Bool × List Instr} {temps : List Int} {s : State} (h : s.Holds W) : OutHolds W
  (execKettleCheck temps s) := by
  unfold execKettleCheck
  dsimp only
  with_reducible repeat' (first
    | assumption | intro _ | apply State.kettleEvent_holds | apply State.setKettle_holds | apply State.kettleRx_holds
    | apply State.kettleTx_holds | apply next_holds | apply ite_out | apply ite_holds | apply foldl_holds)

theorem execKettleSetEnd_holds {W : Bool × List Instr} {q : Nat} {tx : Bool} {rs : List CalResult} {s : State} (h : s.Holds
  W) : OutHolds W (execKettleSetEnd q tx rs s) := by
  unfold execKettleSetEnd
  dsimp only
  with_reducible repeat' (first
    | assumption | intro _ | apply State.startSteps_holds | apply State.calResult_holds | apply State.endRun_holds
    | apply State.setRun_holds | apply State.setKettle_holds | apply next_holds | apply ite_out | apply foldl_holds
    | split)

theorem State.wakeFor_holds {W : Bool × List Instr} {s : State} {k : Nat} (h : s.Holds W) : (State.wakeFor s k).Holds
  W := by
  unfold State.wakeFor
  dsimp only
  with_reducible repeat' (first
    | assumption | apply State.enterSide_holds | apply State.wakeSide_holds | apply State.lockGained_holds
    | apply ite_holds)

theorem State.restSide_holds {W : Bool × List Instr} {s : State} {k : Nat} (h : s.Holds W) : (State.restSide s
  k).Holds W := by
  unfold State.restSide
  with_reducible repeat' (first
    | assumption | apply State.enterSide_holds | apply State.settleSide_holds | split)

theorem State.roundSpan_holds {W : Bool × List Instr} {s : State} {l : List CalResult} (h : s.Holds W) :
  (State.roundSpan s l).Holds W := by
  unfold State.roundSpan
  dsimp only
  with_reducible repeat' (first
    | assumption | intro _ | apply State.elapse_holds | apply State.setOwner_holds | apply State.orxOn_holds
    | apply State.orxRest_holds | apply foldl_holds)

theorem State.roundSide_holds {W : Bool × List Instr} {s : State} {src : Nat} {tx : Bool} {rs : List CalResult} (h : s.Holds
  W) : (State.roundSide s src tx rs).Holds W := by
  unfold State.roundSide
  dsimp only
  with_reducible repeat' (first
    | assumption | intro _ | apply State.countSource_holds | apply State.setPhaseValid_holds
    | apply State.startSteps_holds | apply State.calResult_holds | apply ite_holds | apply foldl_holds
    | (simp only [mk_holds_iff]; refine holds_parts ?_))

theorem execPhaseTrackingRound_holds {W : Bool × List Instr} {rs : List CalResult} {drive : Int} {s : State} (h :
  s.Holds W) : OutHolds W (execPhaseTrackingRound rs drive s) := by
  unfold execPhaseTrackingRound
  dsimp only
  with_reducible repeat' (first
    | assumption | intro _ | apply State.elapseTo_holds | apply State.setPhaseValid_holds
    | apply State.pilotRegs_holds | apply State.wakeFor_holds | apply State.restSide_holds
    | apply State.roundSpan_holds | apply State.roundSide_holds | apply next_holds | apply ite_out | apply foldl_holds
    | (simp only [mk_holds_iff]; refine holds_parts ?_) | split)

theorem execLoLock_holds {W : Bool × List Instr} {q : Nat} {tx : Bool} {s : State} (h : s.Holds W) : OutHolds W
  (execLoLock q tx s) := by
  unfold execLoLock
  dsimp only
  with_reducible repeat' (first
    | assumption | apply State.lockGained_holds | apply State.openPhase_holds | apply next_holds | apply ite_out
    | apply ite_holds)

theorem State.dcStep_holds {W : Bool × List Instr} {s : State} {p c : Nat} {r : Int} (h : s.Holds W) : (State.dcStep s
  p c r).Holds W := by
  unfold State.dcStep
  dsimp only
  with_reducible repeat' (first
    | assumption | apply State.takeFree_holds | apply State.setItem_holds)

theorem State.blockDone_holds {W : Bool × List Instr} {s : State} {p sum : Nat} {residI residQ : Int} {refEnd : Bool}
  (h : s.Holds W) : (State.blockDone s p sum residI residQ refEnd).Holds W := by
  unfold State.blockDone
  dsimp only
  with_reducible repeat' (first
    | assumption | apply State.setReg_holds | apply State.nfCount_holds | apply State.rejectPath_holds
    | apply State.acceptUnit_holds | apply State.dcStep_holds | apply ite_holds)

theorem execNoiseFloorBlock_holds {W : Bool × List Instr} {p : Nat} {x1 : Computed} {sum : Nat} {residI residQ : Int}
  {refEnd : Bool} {s : State} (h : s.Holds W) : OutHolds W (execNoiseFloorBlock p x1 sum residI residQ refEnd s) := by
  unfold execNoiseFloorBlock
  dsimp only
  with_reducible repeat' (first
    | assumption | apply State.elapse_holds | apply State.wakeFor_holds | apply State.restSide_holds
    | apply State.blockDone_holds | apply next_holds | apply ite_out)

theorem execPaCfgSet_holds {W : Bool × List Instr} {q : Req} {s : State} (h : s.Holds W) : OutHolds W (execPaCfgSet q s) :=
  by
  unfold execPaCfgSet
  with_reducible repeat' (first
    | assumption | intro _ | apply Machine.serve_holds | apply svcPaCfgSet_holds | apply next_holds)

theorem svcCalRun_holds {W : Bool × List Instr} {q : Req} {s : State} (h : s.Holds W) : (svcCalRun q s).1.Holds W := by
  unfold svcCalRun
  dsimp only
  with_reducible repeat' (first
    | assumption | apply State.check_holds | apply State.armCmd_holds | apply State.beginRun_holds | apply ite_holds
    | (simp only [mk_holds_iff]; refine holds_parts ?_))

theorem execCalRun_holds {W : Bool × List Instr} {q : Req} {s : State} (h : s.Holds W) : OutHolds W (execCalRun q s) := by
  unfold execCalRun
  with_reducible repeat' (first
    | assumption | intro _ | apply Machine.serve_holds | apply svcCalRun_holds | apply next_holds)

theorem svcCalCfgSet_holds {W : Bool × List Instr} {q : Req} {s : State} (h : s.Holds W) : (svcCalCfgSet q s).1.Holds W := by
  unfold svcCalCfgSet
  dsimp only
  with_reducible repeat' (first
    | assumption | apply State.setReg_holds | apply State.check_holds
    | (simp only [mk_holds_iff]; refine holds_parts ?_))

theorem execCalCfgSet_holds {W : Bool × List Instr} {q : Req} {s : State} (h : s.Holds W) : OutHolds W (execCalCfgSet q s) :=
  by
  unfold execCalCfgSet
  with_reducible repeat' (first
    | assumption | intro _ | apply Machine.serve_holds | apply svcCalCfgSet_holds | apply next_holds)

theorem svcCalStatGet_holds {W : Bool × List Instr} {q : Req} {s : State} (h : s.Holds W) : (svcCalStatGet q s).1.Holds W :=
  by
  unfold svcCalStatGet
  try extract_lets
  with_reducible repeat' (first
    | assumption)

theorem execCalStatGet_holds {W : Bool × List Instr} {q : Req} {s : State} (h : s.Holds W) : OutHolds W (execCalStatGet q s)
  := by
  unfold execCalStatGet
  with_reducible repeat' (first
    | assumption | intro _ | apply Machine.serve_holds | apply svcCalStatGet_holds | apply next_holds)

theorem execCalRestore_holds {W : Bool × List Instr} {q : Req} {s : State} (h : s.Holds W) : OutHolds W (execCalRestore q s)
  := by
  unfold execCalRestore
  dsimp only
  with_reducible repeat' (first
    | assumption | apply State.stageRsp_holds | apply State.beginRun_holds | apply next_holds | apply ite_out
    | (simp only [mk_holds_iff]; refine holds_parts ?_) | split)

theorem State.setNet_holds {W : Bool × List Instr} {s : State} {l : List Word} (h : s.Holds W) : (State.setNet s l).Holds W
  := by
  unfold State.setNet
  dsimp only
  with_reducible repeat' (first
    | assumption | intro _ | apply State.setFld_holds | apply State.pilotRegs_holds | apply foldl_holds
    | (simp only [mk_holds_iff]; refine holds_parts ?_))

theorem svcCalNetLoad_holds {W : Bool × List Instr} {q : Req} {s : State} (h : s.Holds W) : (svcCalNetLoad q s).1.Holds W :=
  by
  unfold svcCalNetLoad
  try extract_lets
  with_reducible repeat' (first
    | assumption | intro _ | apply State.check_holds | apply State.withInput_holds | apply State.setNet_holds)

theorem execCalNetLoad_holds {W : Bool × List Instr} {q : Req} {s : State} (h : s.Holds W) : OutHolds W (execCalNetLoad q s)
  := by
  unfold execCalNetLoad
  with_reducible repeat' (first
    | assumption | intro _ | apply Machine.serve_holds | apply svcCalNetLoad_holds | apply next_holds)

theorem svcCalResultRead_holds {W : Bool × List Instr} {q : Req} {s : State} (h : s.Holds W) : (svcCalResultRead q s).1.Holds
  W := by
  unfold svcCalResultRead
  try extract_lets
  with_reducible repeat' (first
    | assumption | apply State.check_holds | apply State.putTileWords_holds)

theorem execCalResultRead_holds {W : Bool × List Instr} {q : Req} {s : State} (h : s.Holds W) : OutHolds W (execCalResultRead
  q s) := by
  unfold execCalResultRead
  with_reducible repeat' (first
    | assumption | intro _ | apply Machine.serve_holds | apply svcCalResultRead_holds | apply next_holds)

/-! ### Modes -/

theorem svcModeSet_holds {W : Bool × List Instr} {q : Req} {s : State} (h : s.Holds W) : (svcModeSet q s).1.Holds W :=
  by
  unfold svcModeSet
  dsimp only
  with_reducible repeat' (first
    | assumption | apply State.setFld_holds | apply State.check_holds | apply State.armCmd_holds
    | apply State.sieveRegs_holds | (simp only [mk_holds_iff]; refine holds_parts ?_))

theorem execModeSet_holds {W : Bool × List Instr} {q : Req} {s : State} (h : s.Holds W) : OutHolds W (execModeSet q s) := by
  unfold execModeSet
  with_reducible repeat' (first
    | assumption | intro _ | apply Machine.serve_holds | apply svcModeSet_holds | apply next_holds)

theorem State.dropPend_holds {W : Bool × List Instr} {s : State} {p : PendMode} (h : s.Holds W) : (State.dropPend s
  p).Holds W := by
  unfold State.dropPend
  dsimp only
  with_reducible repeat' (first
    | assumption | apply State.setFld_holds | apply State.disarm_holds | apply State.modeTx_holds
    | apply State.dropWithMode_holds | apply State.sieveRegs_holds
    | (simp only [mk_holds_iff]; refine holds_parts ?_))

theorem svcModeCancel_holds {W : Bool × List Instr} {q : Req} {s : State} (h : s.Holds W) : (svcModeCancel q s).1.Holds W :=
  by
  unfold svcModeCancel
  try extract_lets
  with_reducible repeat' (first
    | assumption | apply State.check_holds | apply State.dropPend_holds | split)

theorem execModeCancel_holds {W : Bool × List Instr} {q : Req} {s : State} (h : s.Holds W) : OutHolds W (execModeCancel q s)
  := by
  unfold execModeCancel
  with_reducible repeat' (first
    | assumption | intro _ | apply Machine.serve_holds | apply svcModeCancel_holds | apply next_holds)

theorem svcModeCfgSet_holds {W : Bool × List Instr} {q : Req} {s : State} (h : s.Holds W) : (svcModeCfgSet q s).1.Holds W :=
  by
  unfold svcModeCfgSet
  try extract_lets
  with_reducible repeat' (first
    | assumption | apply State.check_holds | (simp only [mk_holds_iff]; refine holds_parts ?_))

theorem execModeCfgSet_holds {W : Bool × List Instr} {q : Req} {s : State} (h : s.Holds W) : OutHolds W (execModeCfgSet q s)
  := by
  unfold execModeCfgSet
  with_reducible repeat' (first
    | assumption | intro _ | apply Machine.serve_holds | apply svcModeCfgSet_holds | apply next_holds)

theorem State.prepareMode_holds {W : Bool × List Instr} {s : State} {p : PendMode} (h : s.Holds W) :
  (State.prepareMode s p).Holds W := by
  unfold State.prepareMode
  dsimp only
  with_reducible repeat' (first
    | assumption | intro _ | apply State.wakeSide_holds | apply State.raiseFor_holds | apply State.wakeDomain_holds
    | apply State.abandonRuns_holds | apply ite_holds | apply foldl_holds | split)

theorem execModePrepStart_holds {W : Bool × List Instr} {s : State} (h : s.Holds W) : OutHolds W (execModePrepStart s) := by
  unfold execModePrepStart
  dsimp only
  with_reducible repeat' (first
    | assumption | apply State.elapseTo_holds | apply State.prepareMode_holds | apply next_holds | apply ite_out
    | (simp only [mk_holds_iff]; refine holds_parts ?_) | split)

theorem State.applyMode_holds {W : Bool × List Instr} {s : State} {t : T48} {p : PendMode} {fresh : Bool} (h : s.Holds
  W) : (State.applyMode s t p fresh).Holds W := by
  unfold State.applyMode
  dsimp only
  with_reducible repeat' (first
    | assumption | intro _ | apply State.setFld_holds | apply State.setFlag_holds | apply State.aallReg_holds
    | apply State.post_holds | apply State.updateLimit_holds | apply State.searchRegs_holds
    | apply State.abortEvery_holds | apply State.settleSide_holds | apply State.modeTx_holds
    | apply State.enableBeams_holds | apply State.beamsAtMode_holds | apply State.evaluate_holds
    | apply State.newRuns_holds | apply State.sieveRegs_holds | apply State.presetChange_holds
    | apply State.opfNow_holds | apply ite_holds | apply foldl_holds
    | (simp only [mk_holds_iff]; refine holds_parts ?_))

theorem State.modeLate_holds {W : Bool × List Instr} {s : State} {p : PendMode} {cause : Nat} (h : s.Holds W) :
  (State.modeLate s p cause).Holds W := by
  unfold State.modeLate
  with_reducible repeat' (first
    | assumption | apply State.postAt_holds)

theorem State.drainFrom_holds {W : Bool × List Instr} {s : State} {t : T48} {target : Nat} {cmd : Cmd} {forced : Bool}
  (h : s.Holds W) : (State.drainFrom s t target cmd forced).Holds W := by
  unfold State.drainFrom
  dsimp only
  with_reducible repeat' (first
    | assumption | (simp only [mk_holds_iff]; refine holds_parts ?_))

theorem State.modeFire_holds {W : Bool × List Instr} {s : State} (h : s.Holds W) : (State.modeFire s).Holds W := by
  unfold State.modeFire
  dsimp only
  with_reducible repeat' (first
    | assumption | apply State.setFld_holds | apply State.disarm_holds | apply State.dropPend_holds
    | apply State.applyMode_holds | apply State.modeLate_holds | apply State.drainFrom_holds | apply ite_holds
    | (simp only [mk_holds_iff]; refine holds_parts ?_) | split)

theorem execUnneededDomainEntry_holds {W : Bool × List Instr} {s : State} (h : s.Holds W) : OutHolds W
  (execUnneededDomainEntry s) := by
  unfold execUnneededDomainEntry
  dsimp only
  with_reducible repeat' (first
    | assumption | intro _ | apply State.elapseTo_holds | apply State.askGroup_holds | apply next_holds
    | apply foldl_holds | (simp only [mk_holds_iff]; refine holds_parts ?_) | split)

theorem execModeDrainEnd_holds {W : Bool × List Instr} {s : State} (h : s.Holds W) : OutHolds W (execModeDrainEnd s)
  := by
  unfold execModeDrainEnd
  dsimp only
  with_reducible repeat' (first
    | assumption | apply State.postAt_holds | apply next_holds | apply ite_out
    | (simp only [mk_holds_iff]; refine holds_parts ?_) | split)

theorem State.forceHold_holds {W : Bool × List Instr} {s : State} {cause : Nat} {t : T48} (h : s.Holds W) : (State.forceHold
  s cause t).Holds W := by
  unfold State.forceHold
  dsimp only
  with_reducible repeat' (first
    | assumption | apply ite_holds | (simp only [mk_holds_iff]; refine holds_parts ?_) | split)

theorem execForcedModeChange_holds {W : Bool × List Instr} {s : State} (h : s.Holds W) : OutHolds W
  (execForcedModeChange s) := by
  unfold execForcedModeChange
  dsimp only
  with_reducible repeat' (first
    | assumption | apply State.postAt_holds | apply State.post_holds | apply State.elapseTo_holds
    | apply State.dropPend_holds | apply State.applyMode_holds | apply State.modeLate_holds
    | apply State.drainFrom_holds | apply next_holds | apply ite_out | apply ite_holds
    | (simp only [mk_holds_iff]; refine holds_parts ?_) | split)

theorem State.rotate_holds {W : Bool × List Instr} {s : State} (h : s.Holds W) : (State.rotate s).Holds W := by
  unfold State.rotate
  dsimp only
  with_reducible repeat' (first
    | assumption | intro _ | apply State.setFld_holds | apply State.aallReg_holds | apply State.beamEdges_holds
    | apply State.settleSide_holds | apply State.askGroup_holds | apply State.wakeDomain_holds | apply ite_holds
    | apply foldl_holds | (simp only [mk_holds_iff]; refine holds_parts ?_))

theorem execSentinelDwellBoundary_holds {W : Bool × List Instr} {s : State} (h : s.Holds W) : OutHolds W
  (execSentinelDwellBoundary s) := by
  unfold execSentinelDwellBoundary
  dsimp only
  with_reducible repeat' (first
    | assumption | apply State.elapseTo_holds | apply State.rotate_holds | apply next_holds | apply ite_out
    | (simp only [mk_holds_iff]; refine holds_parts ?_))

theorem execSentinelRunRestart_holds {W : Bool × List Instr} {s : State} (h : s.Holds W) : OutHolds W (execSentinelRunRestart
  s) := by
  unfold execSentinelRunRestart
  dsimp only
  with_reducible repeat' (first
    | assumption | apply State.elapseTo_holds | apply State.rotate_holds | apply next_holds | apply ite_out
    | (simp only [mk_holds_iff]; refine holds_parts ?_))

theorem execSentinelPrewake_holds {W : Bool × List Instr} {s : State} (h : s.Holds W) : OutHolds W
  (execSentinelPrewake s) := by
  unfold execSentinelPrewake
  dsimp only
  with_reducible repeat' (first
    | assumption | apply State.elapseTo_holds | apply State.wakeSide_holds | apply State.wakeDomain_holds
    | apply next_holds | apply ite_out)

theorem execRxFifoOverflow_holds {W : Bool × List Instr} {fifo n : Nat} {s : State} (h : s.Holds W) : OutHolds W
  (execRxFifoOverflow fifo n s) := by
  unfold execRxFifoOverflow
  dsimp only
  with_reducible repeat' (first
    | assumption | apply State.setFld_holds | apply State.post_holds | apply State.raiseFault_holds
    | apply State.abortWhere_holds | apply next_holds | apply ite_out)

/-! ### Mailbox -/

theorem State.setReqWord_holds {W : Bool × List Instr} {s : State} {n w : Nat} {v : Word} (h : s.Holds W) : (State.setReqWord
  s n w v).Holds W := by
  unfold State.setReqWord
  dsimp only
  with_reducible repeat' (first
    | assumption | (simp only [mk_holds_iff]; refine holds_parts ?_))

theorem State.setRspWord_holds {W : Bool × List Instr} {s : State} {n w : Nat} {v : Word} (h : s.Holds W) : (State.setRspWord
  s n w v).Holds W := by
  unfold State.setRspWord
  dsimp only
  with_reducible repeat' (first
    | assumption | (simp only [mk_holds_iff]; refine holds_parts ?_))

theorem State.sendRsp_holds {W : Bool × List Instr} {s : State} {n : Nat} {hdr : Word} {ws : List Word} (h : s.Holds W) :
  (State.sendRsp s n hdr ws).Holds W := by
  unfold State.sendRsp
  with_reducible repeat' (first
    | assumption | apply State.sendFrame_holds)

theorem State.startDeferred_holds {W : Bool × List Instr} {s : State} {n : Nat} (h : s.Holds W) : (State.startDeferred s
  n).Holds W := by
  unfold State.startDeferred
  dsimp only
  with_reducible repeat' (first
    | assumption | apply ite_holds | (simp only [mk_holds_iff]; refine holds_parts ?_) | split)

theorem State.respond_holds {W : Bool × List Instr} {s : State} {n : Nat} {r : Rsp} (h : s.Holds W) : (State.respond s
  n r).Holds W := by
  unfold State.respond
  dsimp only
  with_reducible repeat' (first
    | assumption | intro _ | apply State.setFld_holds | apply State.setMbx_holds | apply State.setRspWord_holds
    | apply State.sendRsp_holds | apply State.startDeferred_holds | apply ite_holds | apply foldl_holds)

theorem execRateLimitWindowEnd_holds {W : Bool × List Instr} {code scope : Nat} {s : State} (h : s.Holds W) : OutHolds W
  (execRateLimitWindowEnd code scope s) := by
  unfold execRateLimitWindowEnd
  dsimp only
  with_reducible repeat' (first
    | assumption | apply State.closeWindow_holds | apply State.elapseTo_holds | apply next_holds | split)

end Sys2Proof.Machine
end

