-- ==== Sys2Proof/Laws/HoldsBoot.lean ====
section
/-! SUPPORT. Faults, startup, ports, the Ladle and TC units keep the canonical form and the queue, meaning by meaning:
each answers a next state (OutHolds). -/

namespace Sys2Proof.Machine
open Host

/-! ### Faults -/

theorem State.internalReset_holds {W : Bool × List Instr} {s : State} (h : s.Holds W) : s.internalReset.Holds W := by
  unfold State.internalReset
  refine mk_holds_iff.2 ⟨?_, ?_, h.2.2⟩
  · intro w
    exact Store.wf_filter regDefault regDefault (fun k => keptRegs.contains (k % 256)) _ (h.1 w) fun _ _ => rfl
  · exact fun _ => rfl

theorem State.noteReset_holds {W : Bool × List Instr} {s : State} {code unit : Nat} {pin : Bool} (h : s.Holds W) :
  (State.noteReset s code unit pin).Holds W := by
  unfold State.noteReset
  dsimp only
  with_reducible repeat' (first
    | assumption | apply State.setFld_holds | apply State.setFlag_holds
    | (simp only [mk_holds_iff]; refine holds_parts ?_))

theorem State.deviceReset_holds {W : Bool × List Instr} {s : State} {code unit : Nat} {arg : Word} (h : s.Holds W) :
  (State.deviceReset s code unit arg).Holds W := by
  unfold State.deviceReset
  dsimp only
  with_reducible repeat' (first
    | assumption | apply State.bump_holds | apply State.logFault_holds | apply State.internalReset_holds
    | apply State.noteReset_holds | apply ite_holds | (simp only [mk_holds_iff]; refine holds_parts ?_))

theorem execVmonRstCrossing_holds {W : Bool × List Instr} {rail code : Nat} {s : State} (h : s.Holds W) : OutHolds W
  (execVmonRstCrossing rail code s) := by
  unfold execVmonRstCrossing
  with_reducible repeat' (first
    | assumption | apply State.deviceReset_holds | apply next_holds | apply ite_out)

theorem execHoscStop_holds {W : Bool × List Instr} {s : State} (h : s.Holds W) : OutHolds W (execHoscStop s) := by
  unfold execHoscStop
  with_reducible repeat' (first
    | assumption | apply State.deviceReset_holds | apply next_holds)

theorem execResetNAssert_holds {W : Bool × List Instr} {s : State} (h : s.Holds W) : OutHolds W (execResetNAssert s) := by
  unfold execResetNAssert
  with_reducible repeat' (first
    | assumption | apply State.internalReset_holds | apply State.noteReset_holds | apply next_holds | apply ite_out)

theorem State.resLost_holds {W : Bool × List Instr} {s : State} {k : Nat} {c : Claim} (h : s.Holds W) : (State.resLost s k
  c).Holds W := by
  unfold State.resLost
  dsimp only
  with_reducible repeat' (first
    | assumption | apply State.postAt_holds)

theorem State.endClaims_holds {W : Bool × List Instr} {s : State} (h : s.Holds W) : (State.endClaims s).Holds W := by
  unfold State.endClaims
  dsimp only
  with_reducible repeat' (first
    | assumption | intro _ | apply State.setFld_holds | apply State.setOwner_holds | apply State.auxStop_holds
    | apply State.resLost_holds | apply ite_holds | apply foldl_holds)

theorem State.stopCap_holds {W : Bool × List Instr} {s : State} {q : Nat} (h : s.Holds W) : (State.stopCap s q).Holds W := by
  unfold State.stopCap
  dsimp only
  with_reducible repeat' (first
    | assumption | intro _ | apply State.setFld_holds | apply State.setOwner_holds | apply State.releaseTile_holds
    | apply State.setCap_holds | apply State.freeCap_holds | apply foldl_holds | split)

theorem State.dropAccepted_holds {W : Bool × List Instr} {s : State} (h : s.Holds W) : (State.dropAccepted s).Holds W := by
  unfold State.dropAccepted
  dsimp only
  with_reducible repeat' (first
    | assumption | intro _ | apply State.setFld_holds | apply State.disarm_holds | apply State.setSide_holds
    | apply State.sieveRegs_holds | apply State.endRun_holds | apply State.stopCap_holds | apply foldl_holds
    | (simp only [mk_holds_iff]; refine holds_parts ?_))

theorem State.mbxDown_holds {W : Bool × List Instr} {s : State} (h : s.Holds W) : (State.mbxDown s).Holds W := by
  unfold State.mbxDown
  with_reducible repeat' (first
    | assumption | intro _ | apply State.respond_holds | apply ite_holds | apply foldl_holds)

theorem State.mgmtDown_holds {W : Bool × List Instr} {s : State} {code : Nat} (h : s.Holds W) : (State.mgmtDown s
  code).Holds W := by
  unfold State.mgmtDown
  dsimp only
  with_reducible repeat' (first
    | assumption | apply State.setFld_holds | apply State.setFlag_holds | apply State.bump_holds
    | apply State.abortEvery_holds | apply State.endClaims_holds | apply State.dropAccepted_holds
    | apply State.mbxDown_holds | (simp only [mk_holds_iff]; refine holds_parts ?_))

theorem State.startSkillet_holds {W : Bool × List Instr} {s : State} {k : Nat} (h : s.Holds W) : (State.startSkillet s
  k).Holds W := by
  unfold State.startSkillet
  dsimp only
  with_reducible repeat' (first
    | assumption | intro _ | apply State.setFld_holds | apply State.skilletAbort_holds | apply State.setTrans_holds
    | apply State.fitStale_holds | apply ite_holds | apply foldl_holds | split)

theorem State.endSkillet_holds {W : Bool × List Instr} {s : State} {k : Nat} {ok : Bool} (h : s.Holds W) : (State.endSkillet
  s k ok).2.Holds W := by
  unfold State.endSkillet
  dsimp only
  with_reducible repeat' (first
    | assumption | apply State.setFld_holds | apply State.setTrans_holds | apply ite_snd
    | (simp only [mk_holds_iff]; refine holds_parts ?_))

theorem State.startThermal_holds {W : Bool × List Instr} {s : State} (h : s.Holds W) : (State.startThermal s).Holds W := by
  unfold State.startThermal
  dsimp only
  with_reducible repeat' (first
    | assumption | intro _ | apply State.setFld_holds | apply State.offSide_holds | apply foldl_holds)

theorem State.setSag_holds {W : Bool × List Instr} {s : State} {d : Nat} {b : Bool} (h : s.Holds W) : (State.setSag s d
  b).Holds W := by
  unfold State.setSag
  dsimp only
  with_reducible repeat' (first
    | assumption | (simp only [mk_holds_iff]; refine holds_parts ?_))

theorem State.firstStep_holds {W : Bool × List Instr} {s : State} {code unit : Nat} (h : s.Holds W) : (State.firstStep s code
  unit).Holds W := by
  unfold State.firstStep
  with_reducible repeat' (first
    | assumption | apply State.bankMoved_holds | apply State.relockLo_holds | apply State.toHosc_holds
    | apply State.spllRepeat_holds | apply State.mgmtDown_holds | apply State.startSkillet_holds
    | apply State.startThermal_holds | apply ite_holds | split)

theorem State.closeRecovery_holds {W : Bool × List Instr} {s : State} {e : FaultEnt} {outcome : Nat} (h : s.Holds W) :
  (State.closeRecovery s e outcome).Holds W := by
  unfold State.closeRecovery
  dsimp only
  with_reducible repeat' (first
    | assumption | apply State.postRecovery_holds | apply State.faultRegs_holds | apply ite_holds
    | (simp only [mk_holds_iff]; refine holds_parts ?_))

theorem State.enterRecovery_holds {W : Bool × List Instr} {s : State} {e : FaultEnt} (h : s.Holds W) : (State.enterRecovery s
  e).2.Holds W := by
  unfold State.enterRecovery
  dsimp only
  with_reducible repeat' (first
    | assumption | apply State.firstStep_holds | apply State.closeRecovery_holds | apply ite_snd)

theorem State.nextRecovery_holds {W : Bool × List Instr} {s : State} (h : s.Holds W) : PairHolds W (State.nextRecovery s) :=
  by
  unfold State.nextRecovery
  dsimp only
  with_reducible repeat' (first
    | assumption | exact none_pair | apply some_pair | (simp only [mk_holds_iff]; refine holds_parts ?_) | split)

theorem State.runNext_holds {W : Bool × List Instr} {n : Nat} {s : State} (h : s.Holds W) : (State.runNext n s).Holds W := by
  induction n generalizing s with
  | zero => exact h
  | succ n ih =>
    unfold State.runNext
    split
    · exact State.faultRegs_holds h
    · rename_i e s' e1
      have h1 : (s'.faultRegs.enterRecovery e).2.Holds W :=
        State.enterRecovery_holds (State.faultRegs_holds (of_pair e1 (State.nextRecovery_holds h)))
      split
      · rename_i e2
        exact of_snd e2 h1
      · rename_i e2
        exact ih (of_snd e2 h1)

theorem State.endRecovery_holds {W : Bool × List Instr} {s : State} {outcome : Nat} (h : s.Holds W) : (State.endRecovery s
  outcome).Holds W := by
  unfold State.endRecovery
  with_reducible repeat' (first
    | assumption | apply State.closeRecovery_holds | apply State.runNext_holds | split)

theorem State.startNow_holds {W : Bool × List Instr} {s : State} (h : s.Holds W) : (State.startNow s).Holds W := by
  unfold State.startNow
  with_reducible repeat' (first
    | assumption | apply State.enterRecovery_holds | apply State.runNext_holds | refine of_snd (by assumption) ?_
    | split)

theorem State.raiseAny_holds {W : Bool × List Instr} {s : State} {code unit : Nat} {arg : Word} (h : s.Holds W) :
  (State.raiseAny s code unit arg).Holds W := by
  unfold State.raiseAny
  dsimp only
  with_reducible repeat' (first
    | assumption | intro _ | apply State.raiseFault_holds | apply State.raiseThen_holds | apply State.radioMute_holds
    | apply State.wakeDomain_holds | apply State.forceHold_holds | apply State.deviceReset_holds | apply State.startNow_holds | apply ite_holds
    | split)

theorem State.skilletFault_holds {W : Bool × List Instr} {s : State} {k : Nat} (h : s.Holds W) : (State.skilletFault s
  k).Holds W := by
  unfold State.skilletFault
  with_reducible repeat' (first
    | assumption | apply State.skilletAbort_holds | apply State.raiseAny_holds)

theorem execLdpcBlockOverrun_holds {W : Bool × List Instr} {k : Nat} {s : State} (h : s.Holds W) : OutHolds W
  (execLdpcBlockOverrun k s) := by
  unfold execLdpcBlockOverrun
  with_reducible repeat' (first
    | assumption | apply State.skilletFault_holds | apply next_holds | split)

theorem execSkilletParityError_holds {W : Bool × List Instr} {k : Nat} {s : State} (h : s.Holds W) : OutHolds W
  (execSkilletParityError k s) := by
  unfold execSkilletParityError
  with_reducible repeat' (first
    | assumption | apply State.skilletFault_holds | apply next_holds | split)

theorem execHeaderSag_holds {W : Bool × List Instr} {d : Nat} {s : State} (h : s.Holds W) : OutHolds W (execHeaderSag
  d s) := by
  unfold execHeaderSag
  dsimp only
  with_reducible repeat' (first
    | assumption | apply State.queuesStop_holds | apply State.setSag_holds | apply State.raiseAny_holds
    | apply next_holds | apply ite_out | apply ite_holds | split)

theorem State.abandonBank_holds {W : Bool × List Instr} {s : State} {b : Nat} (h : s.Holds W) : (State.abandonBank s b).Holds
  W := by
  unfold State.abandonBank
  dsimp only
  with_reducible repeat' (first
    | assumption | intro _ | apply State.postAt_holds | apply State.dmaHalt_holds | apply State.abortTileBad_holds
    | apply State.dpdSkip_holds | apply State.stopCap_holds | apply ite_holds | apply foldl_holds | split)

theorem State.sagActions_holds {W : Bool × List Instr} {s : State} {d : Nat} (h : s.Holds W) : (State.sagActions s
  d).Holds W := by
  unfold State.sagActions
  dsimp only
  with_reducible repeat' (first
    | assumption | intro _ | apply State.settleFor_holds | apply State.abortWhere_holds | apply State.linkDown_holds
    | apply State.startSkillet_holds | apply State.abandonBank_holds | apply ite_holds | apply foldl_holds)

theorem execHeaderGoodFlagReturn_holds {W : Bool × List Instr} {d : Nat} {s : State} (h : s.Holds W) : OutHolds W
  (execHeaderGoodFlagReturn d s) := by
  unfold execHeaderGoodFlagReturn
  dsimp only
  with_reducible repeat' (first
    | assumption | apply State.setSag_holds | apply State.sagActions_holds | apply next_holds | apply ite_out | split)

theorem State.recoveryCal_holds {W : Bool × List Instr} {s : State} {e : FaultEnt} {rs : List CalResult} (h : s.Holds W) :
  (State.recoveryCal s e rs).2.Holds W := by
  unfold State.recoveryCal
  dsimp only
  with_reducible repeat' (first
    | assumption | intro _ | apply State.setFld_holds | apply State.setSpll_holds | apply State.tickReady_holds
    | apply State.rejectQuad_holds | apply State.acceptUnit_holds | apply State.calResult_holds
    | apply State.returnRun_holds | apply foldl_holds | split)

theorem execRecoveryEnd_holds {W : Bool × List Instr} {ok : Bool} {rs : List CalResult} {s : State} (h : s.Holds W) :
  OutHolds W (execRecoveryEnd ok rs s) := by
  unfold execRecoveryEnd
  dsimp only
  with_reducible repeat' (first
    | assumption | apply State.internalReset_holds | apply State.noteReset_holds | apply State.endSkillet_holds
    | apply State.closeRecovery_holds | apply State.endRecovery_holds | apply State.recoveryCal_holds
    | apply next_holds | apply ite_out | (simp only [mk_holds_iff]; refine holds_parts ?_) | split)

theorem execMgmtException_holds {W : Bool × List Instr} {s : State} (h : s.Holds W) : OutHolds W (execMgmtException s) := by
  unfold execMgmtException
  with_reducible repeat' (first
    | assumption | apply State.raiseAny_holds | apply next_holds | apply ite_out)

theorem execWatchdogKick_holds {W : Bool × List Instr} {s : State} (h : s.Holds W) : OutHolds W (execWatchdogKick s) := by
  unfold execWatchdogKick
  dsimp only
  with_reducible repeat' (first
    | assumption | apply next_holds | apply ite_out | (simp only [mk_holds_iff]; refine holds_parts ?_))

theorem execWatchdogExpiry_holds {W : Bool × List Instr} {s : State} (h : s.Holds W) : OutHolds W (execWatchdogExpiry s) :=
  by
  unfold execWatchdogExpiry
  with_reducible repeat' (first
    | assumption | apply State.elapseTo_holds | apply State.raiseAny_holds | apply next_holds | apply ite_out)

theorem State.atReady_holds {W : Bool × List Instr} {s : State} (h : s.Holds W) : (State.atReady s).Holds W := by
  unfold State.atReady
  dsimp only
  with_reducible repeat' (first
    | assumption | apply State.setFld_holds | apply State.startResume_holds | apply State.endRecovery_holds
    | apply ite_holds | split)

theorem execMgmtResumeDone_holds {W : Bool × List Instr} {s : State} (h : s.Holds W) : OutHolds W (execMgmtResumeDone
  s) := by
  unfold execMgmtResumeDone
  dsimp only
  with_reducible repeat' (first
    | assumption | apply State.post_holds | apply State.atReady_holds | apply next_holds | apply ite_out
    | (simp only [mk_holds_iff]; refine holds_parts ?_) | split)

theorem State.biasTemp_holds {W : Bool × List Instr} {s : State} {core : Nat} (h : s.Holds W) : (State.biasTemp s core).Holds
  W := by
  unfold State.biasTemp
  dsimp only
  with_reducible repeat' (first
    | assumption | intro _ | apply State.setFlag_holds | apply State.post_holds | apply ite_holds | apply foldl_holds
    | (simp only [mk_holds_iff]; refine holds_parts ?_))

theorem State.takeTemps_holds {W : Bool × List Instr} {s : State} {codes : List Nat} (h : s.Holds W) : (State.takeTemps s
  codes).Holds W := by
  unfold State.takeTemps
  dsimp only
  with_reducible repeat' (first
    | assumption | (simp only [mk_holds_iff]; refine holds_parts ?_))

theorem State.rearmWarn_holds {W : Bool × List Instr} {s : State} {codes : List Nat} (h : s.Holds W) : (State.rearmWarn s
  codes).Holds W := by
  unfold State.rearmWarn
  dsimp only
  with_reducible repeat' (first
    | assumption | apply ite_holds | (simp only [mk_holds_iff]; refine holds_parts ?_))

theorem State.noteCool_holds {W : Bool × List Instr} {s : State} {codes : List Nat} (h : s.Holds W) : (State.noteCool s
  codes).Holds W := by
  unfold State.noteCool
  dsimp only
  with_reducible repeat' (first
    | assumption | (simp only [mk_holds_iff]; refine holds_parts ?_))

theorem State.thermCrit_holds {W : Bool × List Instr} {s : State} {codes : List Nat} (h : s.Holds W) : (State.thermCrit s
  codes).Holds W := by
  unfold State.thermCrit
  dsimp only
  with_reducible repeat' (first
    | assumption | apply State.raiseAny_holds | apply ite_holds | (simp only [mk_holds_iff]; refine holds_parts ?_)
    | split)

theorem State.thermWarn_holds {W : Bool × List Instr} {s : State} {codes : List Nat} (h : s.Holds W) : (State.thermWarn s
  codes).Holds W := by
  unfold State.thermWarn
  dsimp only
  with_reducible repeat' (first
    | assumption | apply State.raiseAny_holds | apply ite_holds | (simp only [mk_holds_iff]; refine holds_parts ?_)
    | split)

theorem execTemperatureRead_holds {W : Bool × List Instr} {codes : List Nat} {s : State} (h : s.Holds W) : OutHolds W
  (execTemperatureRead codes s) := by
  unfold execTemperatureRead
  dsimp only
  with_reducible repeat' (first
    | assumption | apply State.biasTemp_holds | apply State.takeTemps_holds | apply State.rearmWarn_holds
    | apply State.noteCool_holds | apply State.thermCrit_holds | apply State.thermWarn_holds | apply next_holds
    | apply ite_out)

theorem execThermHoldClear_holds {W : Bool × List Instr} {s : State} (h : s.Holds W) : OutHolds W (execThermHoldClear s) :=
  by
  unfold execThermHoldClear
  dsimp only
  with_reducible repeat' (first
    | assumption | apply State.setFld_holds | apply State.elapseTo_holds | apply next_holds | apply ite_out
    | (simp only [mk_holds_iff]; refine holds_parts ?_) | split)

theorem svcFaultStatGet_holds {W : Bool × List Instr} {x1 : Req} {s : State} (h : s.Holds W) : (svcFaultStatGet x1 s).1.Holds
  W := by
  unfold svcFaultStatGet
  try extract_lets
  with_reducible repeat' (first
    | assumption)

theorem execFaultStatGet_holds {W : Bool × List Instr} {q : Req} {s : State} (h : s.Holds W) : OutHolds W (execFaultStatGet q
  s) := by
  unfold execFaultStatGet
  with_reducible repeat' (first
    | assumption | intro _ | apply Machine.serve_holds | apply svcFaultStatGet_holds | apply next_holds)

theorem svcFaultInject_holds {W : Bool × List Instr} {q : Req} {s : State} (h : s.Holds W) : (svcFaultInject q s).1.Holds W
  := by
  unfold svcFaultInject
  try extract_lets
  with_reducible repeat' (first
    | assumption | apply State.check_holds | apply State.raiseAny_holds)

theorem execFaultInject_holds {W : Bool × List Instr} {q : Req} {s : State} (h : s.Holds W) : OutHolds W (execFaultInject q
  s) := by
  unfold execFaultInject
  with_reducible repeat' (first
    | assumption | intro _ | apply Machine.serve_holds | apply svcFaultInject_holds | apply next_holds)

theorem svcTrvFaultLog_holds {W : Bool × List Instr} {q : Req} {s : State} (h : s.Holds W) : (svcTrvFaultLog q s).1.Holds W
  := by
  unfold svcTrvFaultLog
  try extract_lets
  with_reducible repeat' (first
    | assumption | apply State.check_holds)

theorem execTrvFaultLog_holds {W : Bool × List Instr} {q : Req} {s : State} (h : s.Holds W) : OutHolds W (execTrvFaultLog q
  s) := by
  unfold execTrvFaultLog
  with_reducible repeat' (first
    | assumption | intro _ | apply Machine.serve_holds | apply svcTrvFaultLog_holds | apply next_holds)

theorem svcTrvReset_holds {W : Bool × List Instr} {dev : Bool} {s : State} (h : s.Holds W) : (svcTrvReset dev s).1.Holds W :=
  by
  unfold svcTrvReset
  try extract_lets
  with_reducible repeat' (first
    | assumption | (simp only [mk_holds_iff]; refine holds_parts ?_))

theorem execTrvMgmtReset_holds {W : Bool × List Instr} {q : Req} {s : State} (h : s.Holds W) : OutHolds W (execTrvMgmtReset q
  s) := by
  unfold execTrvMgmtReset
  with_reducible repeat' (first
    | assumption | intro _ | apply Machine.serve_holds | apply svcTrvReset_holds | apply next_holds)

theorem execTrvDeviceReset_holds {W : Bool × List Instr} {q : Req} {s : State} (h : s.Holds W) : OutHolds W
  (execTrvDeviceReset q s) := by
  unfold execTrvDeviceReset
  with_reducible repeat' (first
    | assumption | intro _ | apply Machine.serve_holds | apply svcTrvReset_holds | apply next_holds)

theorem execDeferredTrivetReset_holds {W : Bool × List Instr} {s : State} (h : s.Holds W) : OutHolds W
  (execDeferredTrivetReset s) := by
  unfold execDeferredTrivetReset
  dsimp only
  with_reducible repeat' (first
    | assumption | apply State.elapseTo_holds | apply State.raiseAny_holds | apply next_holds
    | (simp only [mk_holds_iff]; refine holds_parts ?_) | split)

/-! ### Boot -/

theorem execPowerOnReset_holds {W : Bool × List Instr} {s : State} (h : s.Holds W) : OutHolds W (execPowerOnReset s) :=
  mk_holds_iff.2 ⟨fun _ => rfl, fun _ => rfl, h.2.2⟩

theorem State.sampleStraps_holds {W : Bool × List Instr} {s : State} {bootSrc : Nat} {refsel : Bool} (h : s.Holds W) :
  (State.sampleStraps s bootSrc refsel).Holds W := by
  unfold State.sampleStraps
  dsimp only
  with_reducible repeat' (first
    | assumption | apply State.setFld_holds | (simp only [mk_holds_iff]; refine holds_parts ?_))

theorem execResetNRise_holds {W : Bool × List Instr} {bootSrc : Nat} {refsel : Bool} {s : State} (h : s.Holds W) : OutHolds W
  (execResetNRise bootSrc refsel s) := by
  unfold execResetNRise
  with_reducible repeat' (first
    | assumption | apply State.sampleStraps_holds | apply next_holds | apply ite_out)

theorem execDeviceResetRelease_holds {W : Bool × List Instr} {bootSrc : Nat} {refsel : Bool} {s : State} (h : s.Holds W) :
  OutHolds W (execDeviceResetRelease bootSrc refsel s) := by
  unfold execDeviceResetRelease
  with_reducible repeat' (first
    | assumption | apply State.sampleStraps_holds | apply next_holds | apply ite_out)

theorem execSupplyCheckEnd_holds {W : Bool × List Instr} {s : State} (h : s.Holds W) : OutHolds W (execSupplyCheckEnd s) :=
  by
  unfold execSupplyCheckEnd
  with_reducible repeat' (first
    | assumption | apply State.setFld_holds | apply next_holds | apply ite_out)

theorem execHoscReady_holds {W : Bool × List Instr} {heldNs : Nat} {s : State} (h : s.Holds W) : OutHolds W (execHoscReady
  heldNs s) := by
  unfold execHoscReady
  dsimp only
  with_reducible repeat' (first
    | assumption | apply State.setFld_holds | apply State.post_holds | apply State.applyLink_holds
    | apply State.refFails_holds | apply next_holds | apply ite_out | apply ite_holds
    | (simp only [mk_holds_iff]; refine holds_parts ?_))

theorem State.bootFailed_holds {W : Bool × List Instr} {s : State} (h : s.Holds W) : (State.bootFailed s).Holds W := by
  unfold State.bootFailed
  dsimp only
  with_reducible repeat' (first
    | assumption | apply State.setFld_holds | apply State.endRecovery_holds | apply ite_holds
    | (simp only [mk_holds_iff]; refine holds_parts ?_) | split)

theorem State.nextImage_holds {W : Bool × List Instr} {s : State} {n : Nat} (h : s.Holds W) : (State.nextImage s n).Holds W
  := by
  unfold State.nextImage
  dsimp only
  with_reducible repeat' (first
    | assumption | apply State.setFld_holds | apply ite_holds | (simp only [mk_holds_iff]; refine holds_parts ?_))

theorem State.imageFails_holds {W : Bool × List Instr} {s : State} {cause : Nat} (h : s.Holds W) : (State.imageFails s
  cause).Holds W := by
  unfold State.imageFails
  dsimp only
  with_reducible repeat' (first
    | assumption | apply State.setFld_holds | apply State.bootFailed_holds | apply State.nextImage_holds
    | apply ite_holds | split)

theorem execImageLoadDone_holds {W : Bool × List Instr} {answered : Bool} {s : State} (h : s.Holds W) : OutHolds W
  (execImageLoadDone answered s) := by
  unfold execImageLoadDone
  dsimp only
  with_reducible repeat' (first
    | assumption | apply State.setFld_holds | apply State.imageFails_holds | apply next_holds | apply ite_out
    | (simp only [mk_holds_iff]; refine holds_parts ?_))

theorem State.makeRing_holds {W : Bool × List Instr} {s : State} (h : s.Holds W) : (State.makeRing s).Holds W := by
  unfold State.makeRing
  dsimp only
  with_reducible repeat' (first
    | assumption | intro _ | apply State.setFld_holds | apply State.ringWrite_holds | apply State.placeRing_holds
    | apply ite_holds | apply getD_holds | apply foldl_holds | (simp only [mk_holds_iff]; refine holds_parts ?_))

theorem State.mgmtStart_holds {W : Bool × List Instr} {s : State} {version : Word} (h : s.Holds W) : (State.mgmtStart s
  version).Holds W := by
  unfold State.mgmtStart
  dsimp only
  with_reducible repeat' (first
    | assumption | apply State.setFld_holds | apply State.makeRing_holds
    | (simp only [mk_holds_iff]; refine holds_parts ?_))

theorem execImageVerifyDone_holds {W : Bool × List Instr} {img : ImageChecks} {s : State} (h : s.Holds W) : OutHolds W
  (execImageVerifyDone img s) := by
  unfold execImageVerifyDone
  with_reducible repeat' (first
    | assumption | apply State.imageFails_holds | apply State.mgmtStart_holds | apply next_holds | apply ite_out
    | split)

theorem svcTrvBootExec_holds {W : Bool × List Instr} {q : Req} {s : State} (h : s.Holds W) : (svcTrvBootExec q s).1.Holds W
  := by
  unfold svcTrvBootExec
  dsimp only
  with_reducible repeat' (first
    | assumption | apply State.setFld_holds | apply State.check_holds | apply ite_holds
    | (simp only [mk_holds_iff]; refine holds_parts ?_))

theorem execTrvBootExec_holds {W : Bool × List Instr} {q : Req} {s : State} (h : s.Holds W) : OutHolds W (execTrvBootExec q
  s) := by
  unfold execTrvBootExec
  with_reducible repeat' (first
    | assumption | intro _ | apply Machine.serve_holds | apply svcTrvBootExec_holds | apply next_holds)

theorem execCalibratingEntry_holds {W : Bool × List Instr} {profile : List Byte} {s : State} (h : s.Holds W) : OutHolds W
  (execCalibratingEntry profile s) := by
  unfold execCalibratingEntry
  dsimp only
  with_reducible repeat' (first
    | assumption | apply State.setFld_holds | apply State.setNet_holds | apply next_holds | apply ite_out
    | apply ite_holds | (simp only [mk_holds_iff]; refine holds_parts ?_))

theorem State.startShares_holds {W : Bool × List Instr} {s : State} (h : s.Holds W) : (State.startShares s).Holds W := by
  unfold State.startShares
  dsimp only
  with_reducible repeat' (first
    | assumption | intro _ | apply State.setPolicy_holds | apply foldl_holds
    | (simp only [mk_holds_iff]; refine holds_parts ?_))

theorem State.startBanks_holds {W : Bool × List Instr} {s : State} (h : s.Holds W) : (State.startBanks s).Holds W :=
  by
  unfold State.startBanks
  dsimp only
  with_reducible repeat' (first
    | assumption | intro _ | apply State.setFld_holds | apply State.setBank_holds | apply foldl_holds)

theorem State.startSides_holds {W : Bool × List Instr} {s : State} (h : s.Holds W) : (State.startSides s).Holds W :=
  by
  unfold State.startSides
  dsimp only
  with_reducible repeat' (first
    | assumption | intro _ | apply State.setFld_holds | apply State.serveQuad_holds | apply State.enterSide_holds
    | apply State.settleSide_holds | apply State.setPhaseValid_holds | apply State.pilotRegs_holds
    | apply State.setRun_holds | apply ite_holds | apply foldl_holds
    | (simp only [mk_holds_iff]; refine holds_parts ?_) | split)

theorem State.startLink_holds {W : Bool × List Instr} {s : State} (h : s.Holds W) : (State.startLink s).Holds W := by
  unfold State.startLink
  dsimp only
  with_reducible repeat' (first
    | assumption | apply State.applyLink_holds | (simp only [mk_holds_iff]; refine holds_parts ?_) | split)

theorem State.startReady_holds {W : Bool × List Instr} {s : State} (h : s.Holds W) : (State.startReady s).Holds W := by
  unfold State.startReady
  dsimp only
  with_reducible repeat' (first
    | assumption | apply State.post_holds | apply State.postFault_holds | apply State.updateLimit_holds
    | apply State.atReady_holds | apply State.startShares_holds | apply State.startBanks_holds
    | apply State.startSides_holds | apply State.startLink_holds | apply ite_holds
    | (simp only [mk_holds_iff]; refine holds_parts ?_) | split)

theorem State.sidesIntoCal_holds {W : Bool × List Instr} {s : State} (h : s.Holds W) : (State.sidesIntoCal s).Holds W := by
  unfold State.sidesIntoCal
  with_reducible repeat' (first
    | assumption | intro _ | apply State.enterSide_holds | apply foldl_holds)

theorem State.firstClocks_holds {W : Bool × List Instr} {s : State} (h : s.Holds W) : (State.firstClocks s).Holds W := by
  unfold State.firstClocks
  dsimp only
  with_reducible repeat' (first
    | assumption | apply State.spllsUp_holds | apply State.offHosc_holds | apply State.postResumed_holds
    | apply ite_holds)

theorem execStartupCalStepDone_holds {W : Bool × List Instr} {rs : List CalResult} {s : State} (h : s.Holds W) : OutHolds W
  (execStartupCalStepDone rs s) := by
  unfold execStartupCalStepDone
  dsimp only
  with_reducible repeat' (first
    | assumption | intro _ | apply State.calResult_holds | apply State.startReady_holds
    | apply State.sidesIntoCal_holds | apply State.firstClocks_holds | apply next_holds | apply ite_out
    | apply ite_holds | apply foldl_holds | (simp only [mk_holds_iff]; refine holds_parts ?_))

theorem svcVersionGet_holds {W : Bool × List Instr} {x1 : Req} {s : State} (h : s.Holds W) : (svcVersionGet x1 s).1.Holds W
  := by
  unfold svcVersionGet
  try extract_lets
  with_reducible repeat' (first
    | assumption)

theorem execVersionGet_holds {W : Bool × List Instr} {q : Req} {s : State} (h : s.Holds W) : OutHolds W (execVersionGet q s)
  := by
  unfold execVersionGet
  with_reducible repeat' (first
    | assumption | intro _ | apply Machine.serve_holds | apply svcVersionGet_holds | apply next_holds)

theorem svcSysStateGet_holds {W : Bool × List Instr} {x1 : Req} {s : State} (h : s.Holds W) : (svcSysStateGet x1 s).1.Holds W
  := by
  unfold svcSysStateGet
  try extract_lets
  with_reducible repeat' (first
    | assumption)

theorem execSysStateGet_holds {W : Bool × List Instr} {q : Req} {s : State} (h : s.Holds W) : OutHolds W (execSysStateGet q
  s) := by
  unfold execSysStateGet
  with_reducible repeat' (first
    | assumption | intro _ | apply Machine.serve_holds | apply svcSysStateGet_holds | apply next_holds)

theorem svcTrvState_holds {W : Bool × List Instr} {x1 : Req} {s : State} (h : s.Holds W) : (svcTrvState x1 s).1.Holds W := by
  unfold svcTrvState
  try extract_lets
  with_reducible repeat' (first
    | assumption)

theorem execTrvState_holds {W : Bool × List Instr} {q : Req} {s : State} (h : s.Holds W) : OutHolds W (execTrvState q s) :=
  by
  unfold execTrvState
  with_reducible repeat' (first
    | assumption | intro _ | apply Machine.serve_holds | apply svcTrvState_holds | apply next_holds)

theorem svcEvtRingSet_holds {W : Bool × List Instr} {q : Req} {s : State} (h : s.Holds W) : (svcEvtRingSet q s).1.Holds W :=
  by
  unfold svcEvtRingSet
  try extract_lets
  with_reducible repeat' (first
    | assumption | apply State.placeRing_holds | apply ite_fst | refine of_opt (by assumption) ?_ | split)

theorem execEvtRingSet_holds {W : Bool × List Instr} {q : Req} {s : State} (h : s.Holds W) : OutHolds W (execEvtRingSet q s)
  := by
  unfold execEvtRingSet
  with_reducible repeat' (first
    | assumption | intro _ | apply Machine.serve_holds | apply svcEvtRingSet_holds | apply next_holds)

theorem svcResClaim_holds {W : Bool × List Instr} {q : Req} {s : State} (h : s.Holds W) : (svcResClaim q s).1.Holds W := by
  unfold svcResClaim
  dsimp only
  with_reducible repeat' (first
    | assumption | intro _ | apply State.setOwner_holds | apply ite_fst | apply foldl_holds
    | (simp only [mk_holds_iff]; refine holds_parts ?_) | split)

theorem execResClaim_holds {W : Bool × List Instr} {q : Req} {s : State} (h : s.Holds W) : OutHolds W (execResClaim q s) :=
  by
  unfold execResClaim
  with_reducible repeat' (first
    | assumption | intro _ | apply Machine.serve_holds | apply svcResClaim_holds | apply next_holds)

theorem State.unclaim_holds {W : Bool × List Instr} {s : State} {ty i : Nat} (h : s.Holds W) : (State.unclaim s ty i).Holds W
  := by
  unfold State.unclaim
  dsimp only
  with_reducible repeat' (first
    | assumption | apply State.setFld_holds | apply State.setOwner_holds | apply State.auxStop_holds
    | apply ite_holds)

theorem svcResRelease_holds {W : Bool × List Instr} {q : Req} {s : State} (h : s.Holds W) : (svcResRelease q s).1.Holds W :=
  by
  unfold svcResRelease
  try extract_lets
  with_reducible repeat' (first
    | assumption | intro _ | apply State.check_holds | apply State.unclaim_holds | apply ite_fst | apply foldl_holds
    | split)

theorem execResRelease_holds {W : Bool × List Instr} {q : Req} {s : State} (h : s.Holds W) : OutHolds W (execResRelease q s)
  := by
  unfold execResRelease
  with_reducible repeat' (first
    | assumption | intro _ | apply Machine.serve_holds | apply svcResRelease_holds | apply next_holds)

theorem svcResQuery_holds {W : Bool × List Instr} {q : Req} {s : State} (h : s.Holds W) : (svcResQuery q s).1.Holds W
  := by
  unfold svcResQuery
  try extract_lets
  with_reducible repeat' (first
    | assumption | apply State.check_holds)

theorem execResQuery_holds {W : Bool × List Instr} {q : Req} {s : State} (h : s.Holds W) : OutHolds W (execResQuery q s) :=
  by
  unfold execResQuery
  with_reducible repeat' (first
    | assumption | intro _ | apply Machine.serve_holds | apply svcResQuery_holds | apply next_holds)

/-! ### Ports -/

theorem State.trivetServe_holds {W : Bool × List Instr} {s : State} {q : Req} {op : Nat} (h : s.Holds W) : (State.trivetServe
  s q op).Holds W := by
  unfold State.trivetServe
  with_reducible repeat' (first
    | assumption | intro _ | apply State.stageRsp_holds | apply Machine.serve_holds | apply svcTrvFaultLog_holds
    | apply svcTrvReset_holds | apply svcTrvBootExec_holds | apply svcTrvState_holds | apply ite_holds)

theorem State.takeRing_holds {W : Bool × List Instr} {s : State} {p : Port} {n : Nat} {viaReq : Option (List Word)} (h
  : s.Holds W) : (State.takeRing s p n viaReq).Holds W := by
  unfold State.takeRing
  dsimp only
  with_reducible repeat' (first
    | assumption | apply State.setFld_holds | apply State.setMbx_holds | apply State.stageRsp_holds
    | apply State.wakeDomain_holds | apply State.respond_holds | apply State.trivetServe_holds | apply ite_holds)

theorem State.ring_holds {W : Bool × List Instr} {s : State} {p : Port} {n : Nat} (h : s.Holds W) : (State.ring s p
  n).Holds W := by
  unfold State.ring
  with_reducible repeat' (first
    | assumption | apply State.setFld_holds | apply State.takeRing_holds | apply ite_holds)

theorem execMailboxRing_holds {W : Bool × List Instr} {port : Port} {n : Nat} {s : State} (h : s.Holds W) : OutHolds W
  (execMailboxRing port n s) := by
  unfold execMailboxRing
  with_reducible repeat' (first
    | assumption | apply State.ring_holds | apply next_holds | split)

theorem State.ackMbx_holds {W : Bool × List Instr} {s : State} {n : Nat} (h : s.Holds W) : (State.ackMbx s n).Holds W := by
  unfold State.ackMbx
  with_reducible repeat' (first
    | assumption | apply State.setFld_holds | apply ite_holds)

theorem execMailboxAck_holds {W : Bool × List Instr} {x1 : Port} {n : Nat} {s : State} (h : s.Holds W) : OutHolds W
  (execMailboxAck x1 n s) := by
  unfold execMailboxAck
  with_reducible repeat' (first
    | assumption | apply State.ackMbx_holds | apply next_holds | split)

theorem State.writeBeamSel_holds {W : Bool × List Instr} {s : State} {p : Port} {v : Word} (h : s.Holds W) :
  (State.writeBeamSel s p v).Holds W := by
  unfold State.writeBeamSel
  with_reducible repeat' (first
    | assumption | apply State.accErr_holds | apply State.writeTyped_holds | apply ite_holds)

theorem execBeamSelWrite_holds {W : Bool × List Instr} {port : Port} {v : Word} {s : State} (h : s.Holds W) : OutHolds W
  (execBeamSelWrite port v s) := by
  unfold execBeamSelWrite
  with_reducible repeat' (first
    | assumption | apply State.writeBeamSel_holds | apply next_holds)

theorem State.writeCopy_holds {W : Bool × List Instr} {s : State} {p : Port} {r : RegName} {i : Nat} {v : Word} (h : s.Holds
  W) : (State.writeCopy s p r i v).Holds W := by
  unfold State.writeCopy
  dsimp only
  with_reducible repeat' (first
    | assumption | apply State.setFld_holds | apply State.writeTyped_holds | apply State.tsOffset_holds
    | apply State.writeTcCtl_holds | apply State.writeDmaCtl_holds | apply State.writeAuxCtl_holds
    | apply State.nfRestart_holds | apply State.ring_holds | apply State.ackMbx_holds | apply State.writeBeamSel_holds
    | apply ite_holds | (simp only [mk_holds_iff]; refine holds_parts ?_) | split)

theorem State.writeReg_holds {W : Bool × List Instr} {s : State} {p : Port} {a : Nat} {v : Word} (h : s.Holds W) :
  (State.writeReg s p a v).2.Holds W := by
  unfold State.writeReg
  dsimp only
  with_reducible repeat' (first
    | assumption | intro _ | apply State.accErr_holds | apply State.setReqWord_holds | apply State.writeCopy_holds
    | apply ite_snd | apply ite_holds | apply foldl_holds | split)

theorem State.refresh_holds {W : Bool × List Instr} {s : State} {r : RegName} {i : Nat} (h : s.Holds W) :
  (State.refresh s r i).Holds W := by
  unfold State.refresh
  with_reducible repeat' (first
    | assumption | apply State.refreshPath_holds | apply State.refreshBeam_holds | apply State.refreshNf_holds
    | apply State.refreshLimit_holds | apply State.refreshDom_holds | apply State.refreshNmse_holds
    | apply State.refreshOrx_holds | split)

theorem State.readCopy_holds {W : Bool × List Instr} {s : State} {p : Port} {r : RegName} {i : Nat} (h : s.Holds W) :
  (State.readCopy s p r i).2.Holds W := by
  unfold State.readCopy
  dsimp only
  with_reducible repeat' (first
    | assumption | apply State.setReg_holds | apply State.setFld_holds | apply State.takeFree_holds
    | apply State.readTimeNs_holds | apply State.refresh_holds | apply ite_holds | split)

theorem State.readReg_holds {W : Bool × List Instr} {s : State} {p : Port} {a : Nat} (h : s.Holds W) : (State.readReg s p
  a).2.2.Holds W := by
  unfold State.readReg
  dsimp only
  with_reducible repeat' (first
    | assumption | apply State.accErr_holds | apply State.readCopy_holds | split)

theorem execRegisterWrite_holds {W : Bool × List Instr} {port : Port} {addr : Nat} {v : Word} {s : State} (h : s.Holds W) :
  OutHolds W (execRegisterWrite port addr v s) := by
  unfold execRegisterWrite
  with_reducible repeat' (first
    | assumption | apply State.writeReg_holds | apply next_holds | split)

theorem execRcRegisterRead_holds {W : Bool × List Instr} {port : Port} {addr : Nat} {s : State} (h : s.Holds W) : OutHolds W
  (execRcRegisterRead port addr s) := by
  unfold execRcRegisterRead
  dsimp only
  with_reducible repeat' (first
    | assumption | apply State.setRdata_holds | apply State.readReg_holds | apply next_holds | apply ite_out)

theorem State.readMem_holds {W : Bool × List Instr} {s : State} {p : Port} {a : Nat} (h : s.Holds W) : (State.readMem s p
  a).2.2.Holds W := by
  unfold State.readMem
  with_reducible repeat' (first
    | assumption | apply State.accErr_holds | split)

theorem State.writeMem_holds {W : Bool × List Instr} {s : State} {p : Port} {a : Nat} {v : Word} (h : s.Holds W) :
  (State.writeMem s p a v).2.Holds W := by
  unfold State.writeMem
  with_reducible repeat' (first
    | assumption | apply State.accErr_holds | apply State.setMemWord_holds | apply ite_snd | split)

theorem State.readAt_holds {W : Bool × List Instr} {s : State} {p : Port} {a : Nat} (h : s.Holds W) : (State.readAt s p
  a).2.2.Holds W := by
  unfold State.readAt
  with_reducible repeat' (first
    | assumption | apply State.readReg_holds | apply State.readMem_holds | split)

theorem State.writeAt_holds {W : Bool × List Instr} {s : State} {p : Port} {a : Nat} {v : Word} (h : s.Holds W) :
  (State.writeAt s p a v).2.Holds W := by
  unfold State.writeAt
  with_reducible repeat' (first
    | assumption | apply State.writeReg_holds | apply State.writeMem_holds | apply ite_snd)

theorem State.setMiso_holds {W : Bool × List Instr} {s : State} {l : List Word} (h : s.Holds W) : (State.setMiso s l).Holds W
  := by
  unfold State.setMiso
  dsimp only
  with_reducible repeat' (first
    | assumption | (simp only [mk_holds_iff]; refine holds_parts ?_))

theorem State.cspiPut_holds {W : Bool × List Instr} {s : State} {w : Nat} {v : Word} (h : s.Holds W) : (State.cspiPut s w
  v).Holds W := by
  unfold State.cspiPut
  dsimp only
  with_reducible repeat' (first
    | assumption | apply State.accErr_holds | apply State.writeReg_holds | apply State.writeMem_holds
    | apply ite_holds)

theorem wordState_holds {W : Bool × List Instr} {x : Word × Nat × State} (h : x.2.2.Holds W) : (wordState x).2.Holds W := h

theorem State.cspiGet_holds {W : Bool × List Instr} {s : State} {w : Nat} (h : s.Holds W) : (s.cspiGet w).2.Holds W := by
  rw [State.cspiGet]
  exact ite_snd (wordState_holds (State.readReg_holds h)) (ite_snd h (ite_snd (State.accErr_holds h)
    (wordState_holds (State.readMem_holds h))))

theorem State.cspiWords_holds {W : Bool × List Instr} {s : State} {w : Nat} {ws : List Word} (h : s.Holds W) :
    (s.cspiWords w ws).Holds W := by
  induction ws generalizing s w with
  | nil => exact h
  | cons v t ih => exact ih (State.cspiPut_holds h)

theorem execCspiWrite_holds {W : Bool × List Instr} {addr nbits : Nat} {data : List Word} {s : State} (h : s.Holds W) :
  OutHolds W (execCspiWrite addr nbits data s) := by
  unfold execCspiWrite
  with_reducible repeat' (first
    | assumption | apply State.setMiso_holds | apply State.cspiWords_holds | apply next_holds | apply ite_out)

theorem State.cspiReads_holds {W : Bool × List Instr} {s : State} {w n : Nat} {late : Option Nat} (h : s.Holds W) :
    (s.cspiReads w late n).2.Holds W := by
  induction n generalizing s w late with
  | zero => exact h
  | succ n ih =>
    unfold State.cspiReads
    dsimp only
    split
    · exact State.accErr_holds (State.setFld_holds (State.cspiGet_holds h))
    · exact ih (State.cspiGet_holds h)

theorem execCspiRead_holds {W : Bool × List Instr} {addr n : Nat} {late : Option Nat} {s : State} (h : s.Holds W) : OutHolds
  W (execCspiRead addr n late s) := by
  unfold execCspiRead
  dsimp only
  with_reducible repeat' (first
    | assumption | apply State.setMiso_holds | apply State.cspiReads_holds | apply next_holds | apply ite_out)

theorem execCspiStatus_holds {W : Bool × List Instr} {s : State} (h : s.Holds W) : OutHolds W (execCspiStatus s) := by
  unfold execCspiStatus
  with_reducible repeat' (first
    | assumption | apply State.setMiso_holds | apply next_holds | apply ite_out)

theorem execCspiUnknownOpcode_holds {W : Bool × List Instr} {op : Nat} {s : State} (h : s.Holds W) : OutHolds W
  (execCspiUnknownOpcode op s) := by
  unfold execCspiUnknownOpcode
  with_reducible repeat' (first
    | assumption | apply State.setFld_holds | apply State.setMiso_holds | apply next_holds | apply ite_out)

theorem State.linkWords_holds {W : Bool × List Instr} {s : State} {a : Nat} {ws : List Word} (h : s.Holds W) :
    (s.linkWords a ws).Holds W := by
  induction ws generalizing s a with
  | nil => exact h
  | cons v t ih => exact ih (State.writeAt_holds h)

theorem execRegWr_holds {W : Bool × List Instr} {addr count : Nat} {data : List Word} {s : State} (h : s.Holds W) : OutHolds
  W (execRegWr addr count data s) := by
  unfold execRegWr
  with_reducible repeat' (first
    | assumption | apply State.received_holds | apply State.discardFrame_holds | apply State.linkWords_holds
    | apply next_holds | apply ite_out)

theorem State.linkReads_holds {W : Bool × List Instr} {s : State} {a n : Nat} (h : s.Holds W) :
    (s.linkReads a n).2.2.Holds W := by
  induction n generalizing s a with
  | zero => exact h
  | succ n ih => exact ih (State.readAt_holds h)

theorem execRegRd_holds {W : Bool × List Instr} {addr count : Nat} {s : State} (h : s.Holds W) : OutHolds W (execRegRd addr
  count s) := by
  unfold execRegRd
  dsimp only
  with_reducible repeat' (first
    | assumption | apply State.sendFrame_holds | apply State.received_holds | apply State.discardFrame_holds
    | apply State.linkReads_holds | apply next_holds | apply ite_out)

theorem State.resend_holds {W : Bool × List Instr} {s : State} {n : Nat} (h : s.Holds W) : (State.resend s n).Holds W := by
  unfold State.resend
  dsimp only
  with_reducible repeat' (first
    | assumption | apply State.sendRsp_holds)

theorem State.putRequest_holds {W : Bool × List Instr} {s : State} {n : Nat} {ws : List Word} (h : s.Holds W) :
  (State.putRequest s n ws).Holds W := by
  unfold State.putRequest
  with_reducible repeat' (first
    | assumption | intro _ | apply State.setReqWord_holds | apply foldl_holds)

theorem execMbxReq_holds {W : Bool × List Instr} {mbx : Nat} {header : Word} {args : List Word} {s : State} (h :
  s.Holds W) : OutHolds W (execMbxReq mbx header args s) := by
  unfold execMbxReq
  dsimp only
  with_reducible repeat' (first
    | assumption | apply State.setFld_holds | apply State.received_holds | apply State.discardFrame_holds
    | apply State.sendRsp_holds | apply State.takeRing_holds | apply State.resend_holds | apply State.putRequest_holds
    | apply next_holds | apply ite_out)

/-! ### Ladle -/

theorem State.askRemote_holds {W : Bool × List Instr} {s : State} {ch off count phase : Nat} (h : s.Holds W) :
  (State.askRemote s ch off count phase).Holds W := by
  unfold State.askRemote
  dsimp only
  with_reducible repeat' (first
    | assumption | apply State.sendFrame_holds | apply State.setDma_holds | apply State.dmaStat_holds)

theorem State.nextRun_holds {W : Bool × List Instr} {s : State} {ch : Nat} {d : Desc} (h : s.Holds W) : (State.nextRun s ch
  d).Holds W := by
  unfold State.nextRun
  dsimp only
  with_reducible repeat' (first
    | assumption | apply State.askRemote_holds)

theorem State.putRemote_holds {W : Bool × List Instr} {s : State} {ch off n : Nat} {fixed : Bool} {ws : List Word} (h : s.Holds W) :
    (s.putRemote ch off fixed n ws).Holds W := by
  induction n generalizing s off ws with
  | zero => exact h
  | succ n ih =>
    unfold State.putRemote
    split
    · exact h
    · exact ih (State.setDma_holds (State.sendFrame_holds h))

theorem State.dmaUse_holds {W : Bool × List Instr} {s : State} {ch : Nat} {d : Desc} (h : s.Holds W) : (State.dmaUse s
  ch d).Holds W := by
  unfold State.dmaUse
  dsimp only
  with_reducible repeat' (first
    | assumption | intro _ | apply State.useTile_holds | apply State.setDma_holds | apply foldl_holds)

theorem State.dmaActive_holds {W : Bool × List Instr} {s : State} {ch : Nat} (h : s.Holds W) : (State.dmaActive s
  ch).Holds W := by
  unfold State.dmaActive
  dsimp only
  with_reducible repeat' (first
    | assumption | apply State.setFld_holds | apply State.setDma_holds | apply State.dmaHalt_holds
    | apply State.nextRun_holds | apply State.dmaUse_holds | apply ite_holds)

theorem State.dmaFetched_holds {W : Bool × List Instr} {s : State} {ch : Nat} (h : s.Holds W) : (State.dmaFetched s ch).Holds
  W := by
  unfold State.dmaFetched
  dsimp only
  with_reducible repeat' (first
    | assumption | apply State.setFld_holds | apply State.setDma_holds | apply State.dmaHalt_holds
    | apply State.dmaActive_holds | apply ite_holds | split)

theorem execDescriptorFetched_holds {W : Bool × List Instr} {ch : Nat} {s : State} (h : s.Holds W) : OutHolds W
  (execDescriptorFetched ch s) := by
  unfold execDescriptorFetched
  with_reducible repeat' (first
    | assumption | apply State.dmaFetched_holds | apply next_holds | apply ite_out)

theorem State.paceOne_holds {W : Bool × List Instr} {s : State} {ch : Nat} (h : s.Holds W) : (State.paceOne s ch).Holds W :=
  by
  unfold State.paceOne
  with_reducible repeat' (first
    | assumption | apply State.setFld_holds | apply State.dmaActive_holds | apply ite_holds)

theorem State.paceEvent_holds {W : Bool × List Instr} {s : State} {sel : Nat} {skip : List Nat} (h : s.Holds W) :
  (State.paceEvent s sel skip).Holds W := by
  unfold State.paceEvent
  with_reducible repeat' (first
    | assumption | intro _ | apply State.paceOne_holds | apply foldl_holds)

theorem State.dmaFire_holds {W : Bool × List Instr} {s : State} {u : Nat} (h : s.Holds W) : (State.dmaFire s u).Holds W := by
  unfold State.dmaFire
  dsimp only
  with_reducible repeat' (first
    | assumption | intro _ | apply State.dmaStart_holds | apply State.paceEvent_holds | apply foldl_holds)

theorem State.dmaRegReads_holds {W : Bool × List Instr} {s : State} {p : Port} {a n : Nat} (h : s.Holds W) :
    (s.dmaRegReads p a n).2.Holds W := by
  induction n generalizing s with
  | zero => exact h
  | succ n ih =>
    refine ih (ite_snd ?_ ?_)
    · exact h
    · exact State.readReg_holds h

theorem State.dmaRegWrites_holds {W : Bool × List Instr} {s : State} {p : Port} {a : Nat} {ws : List Word} (h : s.Holds W) :
    (s.dmaRegWrites p a ws).2.Holds W := by
  induction ws generalizing s with
  | nil => exact h
  | cons v t ih =>
    unfold State.dmaRegWrites
    split
    · exact h
    · exact ih (ite_holds h (State.writeReg_holds h))

theorem State.dmaPut_holds {W : Bool × List Instr} {s : State} {a : Nat} {fixed : Bool} {l : List Byte} (h : s.Holds W) :
  (State.dmaPut s a fixed l).Holds W := by
  unfold State.dmaPut
  with_reducible repeat' (first
    | assumption | intro _ | apply State.setByte_holds | apply foldl_holds)

theorem State.dmaOpen_holds {W : Bool × List Instr} {s : State} {d : Desc} (h : s.Holds W) : (State.dmaOpen s
  d).2.Holds W := by
  unfold State.dmaOpen
  with_reducible repeat' (first
    | assumption | intro _ | apply State.openTile_holds | apply ite_snd | apply foldl_snd)

theorem State.dmaBytes_holds {W : Bool × List Instr} {s : State} {ch : Nat} {d : Desc} (h : s.Holds W) : (State.dmaBytes s ch
  d).2.Holds W := by
  unfold State.dmaBytes
  with_reducible repeat' (first
    | assumption | apply State.dmaRegReads_holds | split)

theorem State.dmaMove_holds {W : Bool × List Instr} {s : State} {ch : Nat} {d : Desc} (h : s.Holds W) : (State.dmaMove s ch
  d).2.Holds W := by
  unfold State.dmaMove
  dsimp only
  with_reducible repeat' (first
    | assumption | intro _ | apply State.setFld_holds | apply State.reopenTile_holds | apply State.dmaHalt_holds
    | apply State.putRemote_holds | apply State.dmaRegWrites_holds | apply State.dmaPut_holds
    | apply State.dmaOpen_holds | apply State.dmaBytes_holds | apply ite_holds | apply foldl_holds
    | refine of_snd (by assumption) ?_ | split)

theorem State.dmaFinish_holds {W : Bool × List Instr} {s : State} {ch : Nat} {d : Desc} (h : s.Holds W) :
  (State.dmaFinish s ch d).Holds W := by
  unfold State.dmaFinish
  dsimp only
  with_reducible repeat' (first
    | assumption | intro _ | apply State.setReg_holds | apply State.setFld_holds | apply State.bump_holds
    | apply State.setMemWord_holds | apply State.sealTile_holds | apply State.postAt_holds
    | apply State.dmaUnuse_holds | apply State.paceEvent_holds | apply ite_holds | apply foldl_holds)

theorem State.dmaGoOn_holds {W : Bool × List Instr} {s : State} {ch : Nat} (h : s.Holds W) : (State.dmaGoOn s ch).Holds W :=
  by
  unfold State.dmaGoOn
  dsimp only
  with_reducible repeat' (first
    | assumption | apply State.dmaHalt_holds | apply State.askRemote_holds | apply State.dmaMove_holds
    | apply State.dmaFinish_holds | apply ite_holds | split)

theorem execDescriptorComplete_holds {W : Bool × List Instr} {ch : Nat} {s : State} (h : s.Holds W) : OutHolds W
  (execDescriptorComplete ch s) := by
  unfold execDescriptorComplete
  with_reducible repeat' (first
    | assumption | apply State.dmaGoOn_holds | apply next_holds | apply ite_out)

theorem execDmaResponseTimeout_holds {W : Bool × List Instr} {ch : Nat} {s : State} (h : s.Holds W) : OutHolds W
  (execDmaResponseTimeout ch s) := by
  unfold execDmaResponseTimeout
  with_reducible repeat' (first
    | assumption | apply State.elapseTo_holds | apply State.dmaHalt_holds | apply next_holds | apply ite_out | split)

theorem State.remoteAnswer_holds {W : Bool × List Instr} {s : State} {ch cause : Nat} {data : List Word} (h : s.Holds W) :
  (State.remoteAnswer s ch cause data).Holds W := by
  unfold State.remoteAnswer
  dsimp only
  with_reducible repeat' (first
    | assumption | apply State.setDma_holds | apply State.dmaStat_holds | apply State.dmaHalt_holds
    | apply State.nextRun_holds | apply ite_holds)

theorem execRegRdRsp_holds {W : Bool × List Instr} {addr count cause : Nat} {data : List Word} {s : State} (h : s.Holds W) :
  OutHolds W (execRegRdRsp addr count cause data s) := by
  unfold execRegRdRsp
  dsimp only
  with_reducible repeat' (first
    | assumption | apply State.received_holds | apply State.discardFrame_holds | apply State.remoteAnswer_holds
    | apply next_holds | apply ite_out | split)

/-! ### Fire -/

theorem State.fireOut_holds {W : Bool × List Instr} {s : State} {u : Nat} {c : T48} (h : s.Holds W) : (State.fireOut s
  u c).Holds W := by
  unfold State.fireOut
  dsimp only
  with_reducible repeat' (first
    | assumption | apply ite_holds | (simp only [mk_holds_iff]; refine holds_parts ?_))

theorem State.dropAction_holds {W : Bool × List Instr} {s : State} {u : Nat} {t : T48} {a : TcAction} (h : s.Holds W) :
    (s.dropAction u t a).Holds W := by
  cases a with
  | burst =>
    unfold State.dropAction
    dsimp only
    split
    · exact State.removeBurst_holds h
    · exact h
  | ack =>
    unfold State.dropAction
    dsimp only
    split
    · exact State.ackDrop_holds (State.removeBurst_holds h)
    · exact h
  | capture => exact State.captureAt_holds h
  | beamCfg => exact State.beamCfgAt_holds h
  | beamSwap => exact State.beamSwapAt_holds h
  | txbCfg => exact State.txbCfgAt_holds h
  | rxGain => exact State.gainAt_holds h
  | sieveCfg => exact State.sieveCfgAt_holds h
  | firSwap => exact State.firSwapAt_holds h
  | rffe => exact State.cmdDone_holds h
  | pa => exact State.postAt_holds h
  | strobe => exact State.postAt_holds h
  | mode => exact h
  | lo => exact h
  | side => exact h
  | cal => exact h
  | profile => exact h

theorem State.dropPrepared_holds {W : Bool × List Instr} {s : State} {u : Nat} {a : TcAction} (h : s.Holds W) :
  (State.dropPrepared s u a).Holds W := by
  unfold State.dropPrepared
  dsimp only
  with_reducible repeat' (first
    | assumption | apply State.postLate_holds | apply State.disarm_holds | apply State.dropAction_holds)

theorem State.takeAction_holds {W : Bool × List Instr} {s : State} {u : Nat} {t : T48} {a : TcAction} (h : s.Holds W) :
    (s.takeAction u t a).Holds W := by
  cases a with
  | mode => exact State.modeFire_holds h
  | burst => exact State.burstCompare_holds h
  | ack => exact State.burstCompare_holds h
  | capture => exact State.captureAt_holds h
  | beamCfg => exact State.beamCfgAt_holds h
  | beamSwap => exact State.beamSwapAt_holds h
  | txbCfg => exact State.txbCfgAt_holds h
  | rxGain => exact State.gainAt_holds h
  | sieveCfg => exact State.sieveCfgAt_holds h
  | firSwap => exact State.firSwapAt_holds h
  | rffe => exact State.rffeArmedTrigger_holds h
  | lo => exact State.tuneAt_holds h
  | pa => exact State.paSeqAt_holds h
  | strobe => exact State.strobe_holds h
  | side => exact State.sideSet_holds h
  | cal => exact State.calAt_holds h
  | profile => exact State.profileAt_holds h

theorem State.fireCmd_holds {W : Bool × List Instr} {s : State} {u : Nat} (h : s.Holds W) : (State.fireCmd s u).Holds W := by
  unfold State.fireCmd
  with_reducible repeat' (first
    | assumption | apply State.disarm_holds | apply State.dropPrepared_holds | apply State.takeAction_holds
    | apply ite_holds | split)

theorem State.fireHost_holds {W : Bool × List Instr} {s : State} {u : Nat} (h : s.Holds W) : (State.fireHost s u).Holds W :=
  by
  unfold State.fireHost
  dsimp only
  with_reducible repeat' (first
    | assumption | apply State.setReg_holds | apply State.disarm_holds | apply State.takeC_holds
    | apply State.dmaFire_holds | apply State.fireOut_holds | apply ite_holds | split)

theorem execTcFire_holds {W : Bool × List Instr} {unit : Nat} {s : State} (h : s.Holds W) : OutHolds W (execTcFire unit s) :=
  by
  unfold execTcFire
  dsimp only
  with_reducible repeat' (first
    | assumption | apply State.setFld_holds | apply State.elapseTo_holds | apply State.fireCmd_holds
    | apply State.fireHost_holds | apply next_holds | apply ite_out | apply ite_holds)

theorem execPreparationDeadline_holds {W : Bool × List Instr} {unit : Nat} {s : State} (h : s.Holds W) : OutHolds W
  (execPreparationDeadline unit s) := by
  unfold execPreparationDeadline
  dsimp only
  with_reducible repeat' (first
    | assumption | apply State.elapseTo_holds | apply State.dropPend_holds | apply State.modeLate_holds
    | apply State.dropPrepared_holds | apply next_holds | apply ite_out | split)

/-! ### Take -/

theorem commandOf_holds {W : Bool × List Instr} {op : Nat} {q : Req} {s : State} (h : s.Holds W) : OptOut W (commandOf op q
  s) := by
  unfold commandOf
  with_reducible repeat' (first
    | assumption | exact none_out | apply some_out | apply execTimeCfgSet_holds | apply execTimeStep_holds
    | apply execTimeGet_holds | apply execTcArm_holds | apply execTcDisarm_holds | apply execTileSeal_holds
    | apply execTileOpen_holds | apply execTileVerify_holds | apply execMemStat_holds | apply execQuarList_holds
    | apply execQuarRetest_holds | apply execDmaCfgSet_holds | apply execRffeXfer_holds | apply execRffeSeqLoad_holds
    | apply execRffeSeqArm_holds | apply execLoTune_holds | apply execRadioCfgSet_holds
    | apply execRadioStateGet_holds | apply execCoexCfgSet_holds | apply execCoexStatGet_holds
    | apply execRxGainSet_holds | apply execRadioSideSet_holds | apply execPaSeq_holds | apply execPaBiasStrobe_holds
    | apply execAckCfgSet_holds | apply execAckStat_holds | apply execBeamCfgSet_holds
    | apply execBeamWeightLoad_holds | apply execBeamSwap_holds | apply execBeamWeightRead_holds
    | apply execTxbCfgSet_holds | apply execProfileLoad_holds | apply execCodeLoad_holds
    | apply execProfileEnable_holds | apply execDetThrSet_holds | apply execTongsPolicySet_holds
    | apply execTongsPolicyGet_holds | apply execPlaceLogSet_holds | apply execCtxRead_holds
    | apply execCtxSummary_holds | apply execBgLoad_holds | apply execDecCfgSet_holds | apply execBacklogCfgSet_holds
    | apply execBacklogStat_holds | apply execTxbLinkTcSet_holds | apply execFrameContentSet_holds
    | apply execFrameStatGet_holds | apply execLinkCfgSet_holds | apply execLinkStateGet_holds
    | apply execLinkRetrain_holds | apply execLinkLoopSet_holds | apply execSieveCfgSet_holds
    | apply execSieveFirLoad_holds | apply execSieveFirSwap_holds | apply execSieveFirRead_holds
    | apply execPwrDomainSet_holds | apply execPwrOpSet_holds | apply execPwrStatGet_holds
    | apply execVmonCfgSet_holds | apply execClkCfgSet_holds | apply execClkStatGet_holds | apply execClkResume_holds
    | apply execDpdCfgSet_holds | apply execDpdCoefLoad_holds | apply execDpdCoefRead_holds | apply execDpdReset_holds
    | apply execOrxCapture_holds | apply execDpdStatGet_holds | apply execPaCfgSet_holds | apply execCalRun_holds
    | apply execCalCfgSet_holds | apply execCalStatGet_holds | apply execCalRestore_holds | apply execCalNetLoad_holds
    | apply execCalResultRead_holds | apply execModeSet_holds | apply execModeCancel_holds
    | apply execModeCfgSet_holds | apply execFaultStatGet_holds | apply execFaultInject_holds
    | apply execVersionGet_holds | apply execSysStateGet_holds | apply execEvtRingSet_holds | apply execResClaim_holds
    | apply execResRelease_holds | apply execResQuery_holds | split)

theorem State.markTaken_holds {W : Bool × List Instr} {s : State} {n : Nat} (h : s.Holds W) : (State.markTaken s n).Holds W
  := by
  unfold State.markTaken
  dsimp only
  with_reducible repeat' (first
    | assumption | apply State.setMbx_holds | (simp only [mk_holds_iff]; refine holds_parts ?_))

theorem State.takeMbx_holds {W : Bool × List Instr} {s : State} {n : Nat} (h : s.Holds W) : OutHolds W (s.takeMbx n) := by
  unfold State.takeMbx
  extract_lets q s1
  have h1 : s1.Holds W := State.markTaken_holds h
  clear_value q s1
  split
  · rename_i e
    exact of_out e (commandOf_holds h1)
  · exact next_holds (State.stageRsp_holds h1)

theorem execCommandTake_holds {W : Bool × List Instr} {s : State} (h : s.Holds W) : OutHolds W (execCommandTake s) := by
  unfold execCommandTake
  split
  · exact State.takeMbx_holds h
  · exact next_holds h

theorem execCommandFinish_holds {W : Bool × List Instr} {f : Finish} {s : State} (h : s.Holds W) :
    OutHolds W (execCommandFinish f s) := by
  unfold execCommandFinish
  extract_lets n
  split
  · split
    · exact next_holds (State.respond_holds (State.markTaken_holds h))
    · exact next_holds h
  · split
    · split
      · exact next_holds (State.respond_holds h)
      · exact next_holds h
    · exact next_holds h

end Sys2Proof.Machine
end

