-- ==== Sys2Proof/Laws/State.lean ====
section
/-! SUPPORT. One law per field of State per update, and the read of a register, a field or a byte after each write. -/

namespace Sys2Proof.Machine

@[simp] theorem State.setReg_sys (s : State) (r : RegName) (i : Nat) (w : Word) : (s.setReg r i w).sys = s.sys := rfl
@[simp] theorem State.setReg_mode (s : State) (r : RegName) (i : Nat) (w : Word) : (s.setReg r i w).mode = s.mode := rfl
@[simp] theorem State.setReg_time (s : State) (r : RegName) (i : Nat) (w : Word) : (s.setReg r i w).time = s.time := rfl
@[simp] theorem State.setReg_mem (s : State) (r : RegName) (i : Nat) (w : Word) : (s.setReg r i w).mem = s.mem := rfl
@[simp] theorem State.setReg_flt (s : State) (r : RegName) (i : Nat) (w : Word) : (s.setReg r i w).flt = s.flt := rfl
@[simp] theorem State.setReg_rxb (s : State) (r : RegName) (i : Nat) (w : Word) : (s.setReg r i w).rxb = s.rxb := rfl
@[simp] theorem State.setReg_link (s : State) (r : RegName) (i : Nat) (w : Word) : (s.setReg r i w).link = s.link := rfl
@[simp] theorem State.setReg_rx (s : State) (r : RegName) (i : Nat) (w : Word) : (s.setReg r i w).rx = s.rx := rfl
@[simp] theorem State.setReg_radio (s : State) (r : RegName) (i : Nat) (w : Word) : (s.setReg r i w).radio = s.radio := rfl
@[simp] theorem State.setReg_tx (s : State) (r : RegName) (i : Nat) (w : Word) : (s.setReg r i w).tx = s.tx := rfl
@[simp] theorem State.setReg_beam (s : State) (r : RegName) (i : Nat) (w : Word) : (s.setReg r i w).beam = s.beam := rfl
@[simp] theorem State.setReg_sieve (s : State) (r : RegName) (i : Nat) (w : Word) : (s.setReg r i w).sieve = s.sieve := rfl
@[simp] theorem State.setReg_pwr (s : State) (r : RegName) (i : Nat) (w : Word) : (s.setReg r i w).pwr = s.pwr := rfl
@[simp] theorem State.setReg_clk (s : State) (r : RegName) (i : Nat) (w : Word) : (s.setReg r i w).clk = s.clk := rfl
@[simp] theorem State.setReg_dpd (s : State) (r : RegName) (i : Nat) (w : Word) : (s.setReg r i w).dpd = s.dpd := rfl
@[simp] theorem State.setReg_cal (s : State) (r : RegName) (i : Nat) (w : Word) : (s.setReg r i w).cal = s.cal := rfl
@[simp] theorem State.setReg_dp (s : State) (r : RegName) (i : Nat) (w : Word) : (s.setReg r i w).dp = s.dp := rfl
@[simp] theorem State.setReg_free (s : State) (r : RegName) (i : Nat) (w : Word) : (s.setReg r i w).free = s.free := rfl
@[simp] theorem State.setReg_pending (s : State) (r : RegName) (i : Nat) (w : Word) : (s.setReg r i w).pending = s.pending := rfl

@[simp] theorem State.setFld_sys (s : State) (f : Fld) (i v : Nat) : (s.setFld f i v).sys = s.sys := rfl
@[simp] theorem State.setFld_mode (s : State) (f : Fld) (i v : Nat) : (s.setFld f i v).mode = s.mode := rfl
@[simp] theorem State.setFld_time (s : State) (f : Fld) (i v : Nat) : (s.setFld f i v).time = s.time := rfl
@[simp] theorem State.setFld_mem (s : State) (f : Fld) (i v : Nat) : (s.setFld f i v).mem = s.mem := rfl
@[simp] theorem State.setFld_flt (s : State) (f : Fld) (i v : Nat) : (s.setFld f i v).flt = s.flt := rfl
@[simp] theorem State.setFld_rxb (s : State) (f : Fld) (i v : Nat) : (s.setFld f i v).rxb = s.rxb := rfl
@[simp] theorem State.setFld_link (s : State) (f : Fld) (i v : Nat) : (s.setFld f i v).link = s.link := rfl
@[simp] theorem State.setFld_rx (s : State) (f : Fld) (i v : Nat) : (s.setFld f i v).rx = s.rx := rfl
@[simp] theorem State.setFld_radio (s : State) (f : Fld) (i v : Nat) : (s.setFld f i v).radio = s.radio := rfl
@[simp] theorem State.setFld_tx (s : State) (f : Fld) (i v : Nat) : (s.setFld f i v).tx = s.tx := rfl
@[simp] theorem State.setFld_beam (s : State) (f : Fld) (i v : Nat) : (s.setFld f i v).beam = s.beam := rfl
@[simp] theorem State.setFld_sieve (s : State) (f : Fld) (i v : Nat) : (s.setFld f i v).sieve = s.sieve := rfl
@[simp] theorem State.setFld_pwr (s : State) (f : Fld) (i v : Nat) : (s.setFld f i v).pwr = s.pwr := rfl
@[simp] theorem State.setFld_clk (s : State) (f : Fld) (i v : Nat) : (s.setFld f i v).clk = s.clk := rfl
@[simp] theorem State.setFld_dpd (s : State) (f : Fld) (i v : Nat) : (s.setFld f i v).dpd = s.dpd := rfl
@[simp] theorem State.setFld_cal (s : State) (f : Fld) (i v : Nat) : (s.setFld f i v).cal = s.cal := rfl
@[simp] theorem State.setFld_dp (s : State) (f : Fld) (i v : Nat) : (s.setFld f i v).dp = s.dp := rfl
@[simp] theorem State.setFld_free (s : State) (f : Fld) (i v : Nat) : (s.setFld f i v).free = s.free := rfl
@[simp] theorem State.setFld_pending (s : State) (f : Fld) (i v : Nat) : (s.setFld f i v).pending = s.pending := rfl

@[simp] theorem State.setFlag_sys (s : State) (f : Fld) (i : Nat) (b : Bool) : (s.setFlag f i b).sys = s.sys := rfl
@[simp] theorem State.setFlag_mode (s : State) (f : Fld) (i : Nat) (b : Bool) : (s.setFlag f i b).mode = s.mode := rfl
@[simp] theorem State.setFlag_time (s : State) (f : Fld) (i : Nat) (b : Bool) : (s.setFlag f i b).time = s.time := rfl
@[simp] theorem State.setFlag_mem (s : State) (f : Fld) (i : Nat) (b : Bool) : (s.setFlag f i b).mem = s.mem := rfl
@[simp] theorem State.setFlag_flt (s : State) (f : Fld) (i : Nat) (b : Bool) : (s.setFlag f i b).flt = s.flt := rfl
@[simp] theorem State.setFlag_rxb (s : State) (f : Fld) (i : Nat) (b : Bool) : (s.setFlag f i b).rxb = s.rxb := rfl
@[simp] theorem State.setFlag_link (s : State) (f : Fld) (i : Nat) (b : Bool) : (s.setFlag f i b).link = s.link := rfl
@[simp] theorem State.setFlag_rx (s : State) (f : Fld) (i : Nat) (b : Bool) : (s.setFlag f i b).rx = s.rx := rfl
@[simp] theorem State.setFlag_radio (s : State) (f : Fld) (i : Nat) (b : Bool) : (s.setFlag f i b).radio = s.radio := rfl
@[simp] theorem State.setFlag_tx (s : State) (f : Fld) (i : Nat) (b : Bool) : (s.setFlag f i b).tx = s.tx := rfl
@[simp] theorem State.setFlag_beam (s : State) (f : Fld) (i : Nat) (b : Bool) : (s.setFlag f i b).beam = s.beam := rfl
@[simp] theorem State.setFlag_sieve (s : State) (f : Fld) (i : Nat) (b : Bool) : (s.setFlag f i b).sieve = s.sieve := rfl
@[simp] theorem State.setFlag_pwr (s : State) (f : Fld) (i : Nat) (b : Bool) : (s.setFlag f i b).pwr = s.pwr := rfl
@[simp] theorem State.setFlag_clk (s : State) (f : Fld) (i : Nat) (b : Bool) : (s.setFlag f i b).clk = s.clk := rfl
@[simp] theorem State.setFlag_dpd (s : State) (f : Fld) (i : Nat) (b : Bool) : (s.setFlag f i b).dpd = s.dpd := rfl
@[simp] theorem State.setFlag_cal (s : State) (f : Fld) (i : Nat) (b : Bool) : (s.setFlag f i b).cal = s.cal := rfl
@[simp] theorem State.setFlag_dp (s : State) (f : Fld) (i : Nat) (b : Bool) : (s.setFlag f i b).dp = s.dp := rfl
@[simp] theorem State.setFlag_free (s : State) (f : Fld) (i : Nat) (b : Bool) : (s.setFlag f i b).free = s.free := rfl
@[simp] theorem State.setFlag_pending (s : State) (f : Fld) (i : Nat) (b : Bool) : (s.setFlag f i b).pending = s.pending := rfl

@[simp] theorem State.bump_sys (s : State) (f : Fld) (i n : Nat) : (s.bump f i n).sys = s.sys := rfl
@[simp] theorem State.bump_mode (s : State) (f : Fld) (i n : Nat) : (s.bump f i n).mode = s.mode := rfl
@[simp] theorem State.bump_time (s : State) (f : Fld) (i n : Nat) : (s.bump f i n).time = s.time := rfl
@[simp] theorem State.bump_mem (s : State) (f : Fld) (i n : Nat) : (s.bump f i n).mem = s.mem := rfl
@[simp] theorem State.bump_flt (s : State) (f : Fld) (i n : Nat) : (s.bump f i n).flt = s.flt := rfl
@[simp] theorem State.bump_rxb (s : State) (f : Fld) (i n : Nat) : (s.bump f i n).rxb = s.rxb := rfl
@[simp] theorem State.bump_link (s : State) (f : Fld) (i n : Nat) : (s.bump f i n).link = s.link := rfl
@[simp] theorem State.bump_rx (s : State) (f : Fld) (i n : Nat) : (s.bump f i n).rx = s.rx := rfl
@[simp] theorem State.bump_radio (s : State) (f : Fld) (i n : Nat) : (s.bump f i n).radio = s.radio := rfl
@[simp] theorem State.bump_tx (s : State) (f : Fld) (i n : Nat) : (s.bump f i n).tx = s.tx := rfl
@[simp] theorem State.bump_beam (s : State) (f : Fld) (i n : Nat) : (s.bump f i n).beam = s.beam := rfl
@[simp] theorem State.bump_sieve (s : State) (f : Fld) (i n : Nat) : (s.bump f i n).sieve = s.sieve := rfl
@[simp] theorem State.bump_pwr (s : State) (f : Fld) (i n : Nat) : (s.bump f i n).pwr = s.pwr := rfl
@[simp] theorem State.bump_clk (s : State) (f : Fld) (i n : Nat) : (s.bump f i n).clk = s.clk := rfl
@[simp] theorem State.bump_dpd (s : State) (f : Fld) (i n : Nat) : (s.bump f i n).dpd = s.dpd := rfl
@[simp] theorem State.bump_cal (s : State) (f : Fld) (i n : Nat) : (s.bump f i n).cal = s.cal := rfl
@[simp] theorem State.bump_dp (s : State) (f : Fld) (i n : Nat) : (s.bump f i n).dp = s.dp := rfl
@[simp] theorem State.bump_free (s : State) (f : Fld) (i n : Nat) : (s.bump f i n).free = s.free := rfl
@[simp] theorem State.bump_pending (s : State) (f : Fld) (i n : Nat) : (s.bump f i n).pending = s.pending := rfl

@[simp] theorem State.setByte_regs (s : State) (a : Nat) (b : Byte) : (s.setByte a b).regs = s.regs := rfl
@[simp] theorem State.setByte_sys (s : State) (a : Nat) (b : Byte) : (s.setByte a b).sys = s.sys := rfl
@[simp] theorem State.setByte_mode (s : State) (a : Nat) (b : Byte) : (s.setByte a b).mode = s.mode := rfl
@[simp] theorem State.setByte_time (s : State) (a : Nat) (b : Byte) : (s.setByte a b).time = s.time := rfl
@[simp] theorem State.setByte_flt (s : State) (a : Nat) (b : Byte) : (s.setByte a b).flt = s.flt := rfl
@[simp] theorem State.setByte_rxb (s : State) (a : Nat) (b : Byte) : (s.setByte a b).rxb = s.rxb := rfl
@[simp] theorem State.setByte_link (s : State) (a : Nat) (b : Byte) : (s.setByte a b).link = s.link := rfl
@[simp] theorem State.setByte_rx (s : State) (a : Nat) (b : Byte) : (s.setByte a b).rx = s.rx := rfl
@[simp] theorem State.setByte_radio (s : State) (a : Nat) (b : Byte) : (s.setByte a b).radio = s.radio := rfl
@[simp] theorem State.setByte_tx (s : State) (a : Nat) (b : Byte) : (s.setByte a b).tx = s.tx := rfl
@[simp] theorem State.setByte_beam (s : State) (a : Nat) (b : Byte) : (s.setByte a b).beam = s.beam := rfl
@[simp] theorem State.setByte_sieve (s : State) (a : Nat) (b : Byte) : (s.setByte a b).sieve = s.sieve := rfl
@[simp] theorem State.setByte_pwr (s : State) (a : Nat) (b : Byte) : (s.setByte a b).pwr = s.pwr := rfl
@[simp] theorem State.setByte_clk (s : State) (a : Nat) (b : Byte) : (s.setByte a b).clk = s.clk := rfl
@[simp] theorem State.setByte_dpd (s : State) (a : Nat) (b : Byte) : (s.setByte a b).dpd = s.dpd := rfl
@[simp] theorem State.setByte_cal (s : State) (a : Nat) (b : Byte) : (s.setByte a b).cal = s.cal := rfl
@[simp] theorem State.setByte_dp (s : State) (a : Nat) (b : Byte) : (s.setByte a b).dp = s.dp := rfl
@[simp] theorem State.setByte_free (s : State) (a : Nat) (b : Byte) : (s.setByte a b).free = s.free := rfl
@[simp] theorem State.setByte_pending (s : State) (a : Nat) (b : Byte) : (s.setByte a b).pending = s.pending := rfl

@[simp] theorem State.setTile_regs (s : State) (k : Nat) (t : Tile) : (s.setTile k t).regs = s.regs := rfl
@[simp] theorem State.setTile_sys (s : State) (k : Nat) (t : Tile) : (s.setTile k t).sys = s.sys := rfl
@[simp] theorem State.setTile_mode (s : State) (k : Nat) (t : Tile) : (s.setTile k t).mode = s.mode := rfl
@[simp] theorem State.setTile_time (s : State) (k : Nat) (t : Tile) : (s.setTile k t).time = s.time := rfl
@[simp] theorem State.setTile_flt (s : State) (k : Nat) (t : Tile) : (s.setTile k t).flt = s.flt := rfl
@[simp] theorem State.setTile_rxb (s : State) (k : Nat) (t : Tile) : (s.setTile k t).rxb = s.rxb := rfl
@[simp] theorem State.setTile_link (s : State) (k : Nat) (t : Tile) : (s.setTile k t).link = s.link := rfl
@[simp] theorem State.setTile_rx (s : State) (k : Nat) (t : Tile) : (s.setTile k t).rx = s.rx := rfl
@[simp] theorem State.setTile_radio (s : State) (k : Nat) (t : Tile) : (s.setTile k t).radio = s.radio := rfl
@[simp] theorem State.setTile_tx (s : State) (k : Nat) (t : Tile) : (s.setTile k t).tx = s.tx := rfl
@[simp] theorem State.setTile_beam (s : State) (k : Nat) (t : Tile) : (s.setTile k t).beam = s.beam := rfl
@[simp] theorem State.setTile_sieve (s : State) (k : Nat) (t : Tile) : (s.setTile k t).sieve = s.sieve := rfl
@[simp] theorem State.setTile_pwr (s : State) (k : Nat) (t : Tile) : (s.setTile k t).pwr = s.pwr := rfl
@[simp] theorem State.setTile_clk (s : State) (k : Nat) (t : Tile) : (s.setTile k t).clk = s.clk := rfl
@[simp] theorem State.setTile_dpd (s : State) (k : Nat) (t : Tile) : (s.setTile k t).dpd = s.dpd := rfl
@[simp] theorem State.setTile_cal (s : State) (k : Nat) (t : Tile) : (s.setTile k t).cal = s.cal := rfl
@[simp] theorem State.setTile_dp (s : State) (k : Nat) (t : Tile) : (s.setTile k t).dp = s.dp := rfl
@[simp] theorem State.setTile_free (s : State) (k : Nat) (t : Tile) : (s.setTile k t).free = s.free := rfl
@[simp] theorem State.setTile_pending (s : State) (k : Nat) (t : Tile) : (s.setTile k t).pending = s.pending := rfl

@[simp] theorem State.setMbx_regs (s : State) (n : Nat) (m : MbxSt) : (s.setMbx n m).regs = s.regs := rfl
@[simp] theorem State.setMbx_mode (s : State) (n : Nat) (m : MbxSt) : (s.setMbx n m).mode = s.mode := rfl
@[simp] theorem State.setMbx_time (s : State) (n : Nat) (m : MbxSt) : (s.setMbx n m).time = s.time := rfl
@[simp] theorem State.setMbx_mem (s : State) (n : Nat) (m : MbxSt) : (s.setMbx n m).mem = s.mem := rfl
@[simp] theorem State.setMbx_flt (s : State) (n : Nat) (m : MbxSt) : (s.setMbx n m).flt = s.flt := rfl
@[simp] theorem State.setMbx_rxb (s : State) (n : Nat) (m : MbxSt) : (s.setMbx n m).rxb = s.rxb := rfl
@[simp] theorem State.setMbx_link (s : State) (n : Nat) (m : MbxSt) : (s.setMbx n m).link = s.link := rfl
@[simp] theorem State.setMbx_rx (s : State) (n : Nat) (m : MbxSt) : (s.setMbx n m).rx = s.rx := rfl
@[simp] theorem State.setMbx_radio (s : State) (n : Nat) (m : MbxSt) : (s.setMbx n m).radio = s.radio := rfl
@[simp] theorem State.setMbx_tx (s : State) (n : Nat) (m : MbxSt) : (s.setMbx n m).tx = s.tx := rfl
@[simp] theorem State.setMbx_beam (s : State) (n : Nat) (m : MbxSt) : (s.setMbx n m).beam = s.beam := rfl
@[simp] theorem State.setMbx_sieve (s : State) (n : Nat) (m : MbxSt) : (s.setMbx n m).sieve = s.sieve := rfl
@[simp] theorem State.setMbx_pwr (s : State) (n : Nat) (m : MbxSt) : (s.setMbx n m).pwr = s.pwr := rfl
@[simp] theorem State.setMbx_clk (s : State) (n : Nat) (m : MbxSt) : (s.setMbx n m).clk = s.clk := rfl
@[simp] theorem State.setMbx_dpd (s : State) (n : Nat) (m : MbxSt) : (s.setMbx n m).dpd = s.dpd := rfl
@[simp] theorem State.setMbx_cal (s : State) (n : Nat) (m : MbxSt) : (s.setMbx n m).cal = s.cal := rfl
@[simp] theorem State.setMbx_dp (s : State) (n : Nat) (m : MbxSt) : (s.setMbx n m).dp = s.dp := rfl
@[simp] theorem State.setMbx_free (s : State) (n : Nat) (m : MbxSt) : (s.setMbx n m).free = s.free := rfl
@[simp] theorem State.setMbx_pending (s : State) (n : Nat) (m : MbxSt) : (s.setMbx n m).pending = s.pending := rfl

@[simp] theorem State.stageRsp_regs (s : State) (n : Nat) (r : Rsp) : (s.stageRsp n r).regs = s.regs := rfl
@[simp] theorem State.stageRsp_mode (s : State) (n : Nat) (r : Rsp) : (s.stageRsp n r).mode = s.mode := rfl
@[simp] theorem State.stageRsp_time (s : State) (n : Nat) (r : Rsp) : (s.stageRsp n r).time = s.time := rfl
@[simp] theorem State.stageRsp_mem (s : State) (n : Nat) (r : Rsp) : (s.stageRsp n r).mem = s.mem := rfl
@[simp] theorem State.stageRsp_flt (s : State) (n : Nat) (r : Rsp) : (s.stageRsp n r).flt = s.flt := rfl
@[simp] theorem State.stageRsp_rxb (s : State) (n : Nat) (r : Rsp) : (s.stageRsp n r).rxb = s.rxb := rfl
@[simp] theorem State.stageRsp_link (s : State) (n : Nat) (r : Rsp) : (s.stageRsp n r).link = s.link := rfl
@[simp] theorem State.stageRsp_rx (s : State) (n : Nat) (r : Rsp) : (s.stageRsp n r).rx = s.rx := rfl
@[simp] theorem State.stageRsp_radio (s : State) (n : Nat) (r : Rsp) : (s.stageRsp n r).radio = s.radio := rfl
@[simp] theorem State.stageRsp_tx (s : State) (n : Nat) (r : Rsp) : (s.stageRsp n r).tx = s.tx := rfl
@[simp] theorem State.stageRsp_beam (s : State) (n : Nat) (r : Rsp) : (s.stageRsp n r).beam = s.beam := rfl
@[simp] theorem State.stageRsp_sieve (s : State) (n : Nat) (r : Rsp) : (s.stageRsp n r).sieve = s.sieve := rfl
@[simp] theorem State.stageRsp_pwr (s : State) (n : Nat) (r : Rsp) : (s.stageRsp n r).pwr = s.pwr := rfl
@[simp] theorem State.stageRsp_clk (s : State) (n : Nat) (r : Rsp) : (s.stageRsp n r).clk = s.clk := rfl
@[simp] theorem State.stageRsp_dpd (s : State) (n : Nat) (r : Rsp) : (s.stageRsp n r).dpd = s.dpd := rfl
@[simp] theorem State.stageRsp_cal (s : State) (n : Nat) (r : Rsp) : (s.stageRsp n r).cal = s.cal := rfl
@[simp] theorem State.stageRsp_dp (s : State) (n : Nat) (r : Rsp) : (s.stageRsp n r).dp = s.dp := rfl
@[simp] theorem State.stageRsp_free (s : State) (n : Nat) (r : Rsp) : (s.stageRsp n r).free = s.free := rfl
@[simp] theorem State.stageRsp_pending (s : State) (n : Nat) (r : Rsp) : (s.stageRsp n r).pending = s.pending := rfl

@[simp] theorem State.setOwner_regs (s : State) (ty i : Nat) (c : Option Claim) : (s.setOwner ty i c).regs = s.regs := rfl
@[simp] theorem State.setOwner_mode (s : State) (ty i : Nat) (c : Option Claim) : (s.setOwner ty i c).mode = s.mode := rfl
@[simp] theorem State.setOwner_time (s : State) (ty i : Nat) (c : Option Claim) : (s.setOwner ty i c).time = s.time := rfl
@[simp] theorem State.setOwner_mem (s : State) (ty i : Nat) (c : Option Claim) : (s.setOwner ty i c).mem = s.mem := rfl
@[simp] theorem State.setOwner_flt (s : State) (ty i : Nat) (c : Option Claim) : (s.setOwner ty i c).flt = s.flt := rfl
@[simp] theorem State.setOwner_rxb (s : State) (ty i : Nat) (c : Option Claim) : (s.setOwner ty i c).rxb = s.rxb := rfl
@[simp] theorem State.setOwner_link (s : State) (ty i : Nat) (c : Option Claim) : (s.setOwner ty i c).link = s.link := rfl
@[simp] theorem State.setOwner_rx (s : State) (ty i : Nat) (c : Option Claim) : (s.setOwner ty i c).rx = s.rx := rfl
@[simp] theorem State.setOwner_radio (s : State) (ty i : Nat) (c : Option Claim) : (s.setOwner ty i c).radio = s.radio := rfl
@[simp] theorem State.setOwner_tx (s : State) (ty i : Nat) (c : Option Claim) : (s.setOwner ty i c).tx = s.tx := rfl
@[simp] theorem State.setOwner_beam (s : State) (ty i : Nat) (c : Option Claim) : (s.setOwner ty i c).beam = s.beam := rfl
@[simp] theorem State.setOwner_sieve (s : State) (ty i : Nat) (c : Option Claim) : (s.setOwner ty i c).sieve = s.sieve := rfl
@[simp] theorem State.setOwner_pwr (s : State) (ty i : Nat) (c : Option Claim) : (s.setOwner ty i c).pwr = s.pwr := rfl
@[simp] theorem State.setOwner_clk (s : State) (ty i : Nat) (c : Option Claim) : (s.setOwner ty i c).clk = s.clk := rfl
@[simp] theorem State.setOwner_dpd (s : State) (ty i : Nat) (c : Option Claim) : (s.setOwner ty i c).dpd = s.dpd := rfl
@[simp] theorem State.setOwner_cal (s : State) (ty i : Nat) (c : Option Claim) : (s.setOwner ty i c).cal = s.cal := rfl
@[simp] theorem State.setOwner_dp (s : State) (ty i : Nat) (c : Option Claim) : (s.setOwner ty i c).dp = s.dp := rfl
@[simp] theorem State.setOwner_free (s : State) (ty i : Nat) (c : Option Claim) : (s.setOwner ty i c).free = s.free := rfl
@[simp] theorem State.setOwner_pending (s : State) (ty i : Nat) (c : Option Claim) : (s.setOwner ty i c).pending = s.pending := rfl

@[simp] theorem State.setWindow_regs (s : State) (code scope : Nat) (w : Option RlWin) : (s.setWindow code scope w).regs = s.regs := rfl
@[simp] theorem State.setWindow_mode (s : State) (code scope : Nat) (w : Option RlWin) : (s.setWindow code scope w).mode = s.mode := rfl
@[simp] theorem State.setWindow_time (s : State) (code scope : Nat) (w : Option RlWin) : (s.setWindow code scope w).time = s.time := rfl
@[simp] theorem State.setWindow_mem (s : State) (code scope : Nat) (w : Option RlWin) : (s.setWindow code scope w).mem = s.mem := rfl
@[simp] theorem State.setWindow_flt (s : State) (code scope : Nat) (w : Option RlWin) : (s.setWindow code scope w).flt = s.flt := rfl
@[simp] theorem State.setWindow_rxb (s : State) (code scope : Nat) (w : Option RlWin) : (s.setWindow code scope w).rxb = s.rxb := rfl
@[simp] theorem State.setWindow_link (s : State) (code scope : Nat) (w : Option RlWin) : (s.setWindow code scope w).link = s.link := rfl
@[simp] theorem State.setWindow_rx (s : State) (code scope : Nat) (w : Option RlWin) : (s.setWindow code scope w).rx = s.rx := rfl
@[simp] theorem State.setWindow_radio (s : State) (code scope : Nat) (w : Option RlWin) : (s.setWindow code scope w).radio = s.radio := rfl
@[simp] theorem State.setWindow_tx (s : State) (code scope : Nat) (w : Option RlWin) : (s.setWindow code scope w).tx = s.tx := rfl
@[simp] theorem State.setWindow_beam (s : State) (code scope : Nat) (w : Option RlWin) : (s.setWindow code scope w).beam = s.beam := rfl
@[simp] theorem State.setWindow_sieve (s : State) (code scope : Nat) (w : Option RlWin) : (s.setWindow code scope w).sieve = s.sieve := rfl
@[simp] theorem State.setWindow_pwr (s : State) (code scope : Nat) (w : Option RlWin) : (s.setWindow code scope w).pwr = s.pwr := rfl
@[simp] theorem State.setWindow_clk (s : State) (code scope : Nat) (w : Option RlWin) : (s.setWindow code scope w).clk = s.clk := rfl
@[simp] theorem State.setWindow_dpd (s : State) (code scope : Nat) (w : Option RlWin) : (s.setWindow code scope w).dpd = s.dpd := rfl
@[simp] theorem State.setWindow_cal (s : State) (code scope : Nat) (w : Option RlWin) : (s.setWindow code scope w).cal = s.cal := rfl
@[simp] theorem State.setWindow_dp (s : State) (code scope : Nat) (w : Option RlWin) : (s.setWindow code scope w).dp = s.dp := rfl
@[simp] theorem State.setWindow_free (s : State) (code scope : Nat) (w : Option RlWin) : (s.setWindow code scope w).free = s.free := rfl
@[simp] theorem State.setWindow_pending (s : State) (code scope : Nat) (w : Option RlWin) : (s.setWindow code scope w).pending = s.pending := rfl

@[simp] theorem State.setSide_regs (s : State) (k : Nat) (x : SideSt) : (s.setSide k x).regs = s.regs := rfl
@[simp] theorem State.setSide_sys (s : State) (k : Nat) (x : SideSt) : (s.setSide k x).sys = s.sys := rfl
@[simp] theorem State.setSide_mode (s : State) (k : Nat) (x : SideSt) : (s.setSide k x).mode = s.mode := rfl
@[simp] theorem State.setSide_time (s : State) (k : Nat) (x : SideSt) : (s.setSide k x).time = s.time := rfl
@[simp] theorem State.setSide_mem (s : State) (k : Nat) (x : SideSt) : (s.setSide k x).mem = s.mem := rfl
@[simp] theorem State.setSide_flt (s : State) (k : Nat) (x : SideSt) : (s.setSide k x).flt = s.flt := rfl
@[simp] theorem State.setSide_rxb (s : State) (k : Nat) (x : SideSt) : (s.setSide k x).rxb = s.rxb := rfl
@[simp] theorem State.setSide_link (s : State) (k : Nat) (x : SideSt) : (s.setSide k x).link = s.link := rfl
@[simp] theorem State.setSide_rx (s : State) (k : Nat) (x : SideSt) : (s.setSide k x).rx = s.rx := rfl
@[simp] theorem State.setSide_tx (s : State) (k : Nat) (x : SideSt) : (s.setSide k x).tx = s.tx := rfl
@[simp] theorem State.setSide_beam (s : State) (k : Nat) (x : SideSt) : (s.setSide k x).beam = s.beam := rfl
@[simp] theorem State.setSide_sieve (s : State) (k : Nat) (x : SideSt) : (s.setSide k x).sieve = s.sieve := rfl
@[simp] theorem State.setSide_pwr (s : State) (k : Nat) (x : SideSt) : (s.setSide k x).pwr = s.pwr := rfl
@[simp] theorem State.setSide_clk (s : State) (k : Nat) (x : SideSt) : (s.setSide k x).clk = s.clk := rfl
@[simp] theorem State.setSide_dpd (s : State) (k : Nat) (x : SideSt) : (s.setSide k x).dpd = s.dpd := rfl
@[simp] theorem State.setSide_cal (s : State) (k : Nat) (x : SideSt) : (s.setSide k x).cal = s.cal := rfl
@[simp] theorem State.setSide_dp (s : State) (k : Nat) (x : SideSt) : (s.setSide k x).dp = s.dp := rfl
@[simp] theorem State.setSide_free (s : State) (k : Nat) (x : SideSt) : (s.setSide k x).free = s.free := rfl
@[simp] theorem State.setSide_pending (s : State) (k : Nat) (x : SideSt) : (s.setSide k x).pending = s.pending := rfl

@[simp] theorem State.setCtx_regs (s : State) (n : Nat) (x : Ctx) : (s.setCtx n x).regs = s.regs := rfl
@[simp] theorem State.setCtx_sys (s : State) (n : Nat) (x : Ctx) : (s.setCtx n x).sys = s.sys := rfl
@[simp] theorem State.setCtx_mode (s : State) (n : Nat) (x : Ctx) : (s.setCtx n x).mode = s.mode := rfl
@[simp] theorem State.setCtx_time (s : State) (n : Nat) (x : Ctx) : (s.setCtx n x).time = s.time := rfl
@[simp] theorem State.setCtx_mem (s : State) (n : Nat) (x : Ctx) : (s.setCtx n x).mem = s.mem := rfl
@[simp] theorem State.setCtx_flt (s : State) (n : Nat) (x : Ctx) : (s.setCtx n x).flt = s.flt := rfl
@[simp] theorem State.setCtx_link (s : State) (n : Nat) (x : Ctx) : (s.setCtx n x).link = s.link := rfl
@[simp] theorem State.setCtx_rx (s : State) (n : Nat) (x : Ctx) : (s.setCtx n x).rx = s.rx := rfl
@[simp] theorem State.setCtx_radio (s : State) (n : Nat) (x : Ctx) : (s.setCtx n x).radio = s.radio := rfl
@[simp] theorem State.setCtx_tx (s : State) (n : Nat) (x : Ctx) : (s.setCtx n x).tx = s.tx := rfl
@[simp] theorem State.setCtx_beam (s : State) (n : Nat) (x : Ctx) : (s.setCtx n x).beam = s.beam := rfl
@[simp] theorem State.setCtx_sieve (s : State) (n : Nat) (x : Ctx) : (s.setCtx n x).sieve = s.sieve := rfl
@[simp] theorem State.setCtx_pwr (s : State) (n : Nat) (x : Ctx) : (s.setCtx n x).pwr = s.pwr := rfl
@[simp] theorem State.setCtx_clk (s : State) (n : Nat) (x : Ctx) : (s.setCtx n x).clk = s.clk := rfl
@[simp] theorem State.setCtx_dpd (s : State) (n : Nat) (x : Ctx) : (s.setCtx n x).dpd = s.dpd := rfl
@[simp] theorem State.setCtx_cal (s : State) (n : Nat) (x : Ctx) : (s.setCtx n x).cal = s.cal := rfl
@[simp] theorem State.setCtx_dp (s : State) (n : Nat) (x : Ctx) : (s.setCtx n x).dp = s.dp := rfl
@[simp] theorem State.setCtx_free (s : State) (n : Nat) (x : Ctx) : (s.setCtx n x).free = s.free := rfl
@[simp] theorem State.setCtx_pending (s : State) (n : Nat) (x : Ctx) : (s.setCtx n x).pending = s.pending := rfl

@[simp] theorem State.setDpd_regs (s : State) (p : Nat) (x : DpdPath) : (s.setDpd p x).regs = s.regs := rfl
@[simp] theorem State.setDpd_sys (s : State) (p : Nat) (x : DpdPath) : (s.setDpd p x).sys = s.sys := rfl
@[simp] theorem State.setDpd_mode (s : State) (p : Nat) (x : DpdPath) : (s.setDpd p x).mode = s.mode := rfl
@[simp] theorem State.setDpd_time (s : State) (p : Nat) (x : DpdPath) : (s.setDpd p x).time = s.time := rfl
@[simp] theorem State.setDpd_mem (s : State) (p : Nat) (x : DpdPath) : (s.setDpd p x).mem = s.mem := rfl
@[simp] theorem State.setDpd_flt (s : State) (p : Nat) (x : DpdPath) : (s.setDpd p x).flt = s.flt := rfl
@[simp] theorem State.setDpd_rxb (s : State) (p : Nat) (x : DpdPath) : (s.setDpd p x).rxb = s.rxb := rfl
@[simp] theorem State.setDpd_link (s : State) (p : Nat) (x : DpdPath) : (s.setDpd p x).link = s.link := rfl
@[simp] theorem State.setDpd_rx (s : State) (p : Nat) (x : DpdPath) : (s.setDpd p x).rx = s.rx := rfl
@[simp] theorem State.setDpd_radio (s : State) (p : Nat) (x : DpdPath) : (s.setDpd p x).radio = s.radio := rfl
@[simp] theorem State.setDpd_tx (s : State) (p : Nat) (x : DpdPath) : (s.setDpd p x).tx = s.tx := rfl
@[simp] theorem State.setDpd_beam (s : State) (p : Nat) (x : DpdPath) : (s.setDpd p x).beam = s.beam := rfl
@[simp] theorem State.setDpd_sieve (s : State) (p : Nat) (x : DpdPath) : (s.setDpd p x).sieve = s.sieve := rfl
@[simp] theorem State.setDpd_pwr (s : State) (p : Nat) (x : DpdPath) : (s.setDpd p x).pwr = s.pwr := rfl
@[simp] theorem State.setDpd_clk (s : State) (p : Nat) (x : DpdPath) : (s.setDpd p x).clk = s.clk := rfl
@[simp] theorem State.setDpd_cal (s : State) (p : Nat) (x : DpdPath) : (s.setDpd p x).cal = s.cal := rfl
@[simp] theorem State.setDpd_dp (s : State) (p : Nat) (x : DpdPath) : (s.setDpd p x).dp = s.dp := rfl
@[simp] theorem State.setDpd_free (s : State) (p : Nat) (x : DpdPath) : (s.setDpd p x).free = s.free := rfl
@[simp] theorem State.setDpd_pending (s : State) (p : Nat) (x : DpdPath) : (s.setDpd p x).pending = s.pending := rfl

@[simp] theorem State.setDpPath_regs (s : State) (p : Nat) (x : Option PathDp) : (s.setDpPath p x).regs = s.regs := rfl
@[simp] theorem State.setDpPath_sys (s : State) (p : Nat) (x : Option PathDp) : (s.setDpPath p x).sys = s.sys := rfl
@[simp] theorem State.setDpPath_mode (s : State) (p : Nat) (x : Option PathDp) : (s.setDpPath p x).mode = s.mode := rfl
@[simp] theorem State.setDpPath_time (s : State) (p : Nat) (x : Option PathDp) : (s.setDpPath p x).time = s.time := rfl
@[simp] theorem State.setDpPath_mem (s : State) (p : Nat) (x : Option PathDp) : (s.setDpPath p x).mem = s.mem := rfl
@[simp] theorem State.setDpPath_flt (s : State) (p : Nat) (x : Option PathDp) : (s.setDpPath p x).flt = s.flt := rfl
@[simp] theorem State.setDpPath_rxb (s : State) (p : Nat) (x : Option PathDp) : (s.setDpPath p x).rxb = s.rxb := rfl
@[simp] theorem State.setDpPath_link (s : State) (p : Nat) (x : Option PathDp) : (s.setDpPath p x).link = s.link := rfl
@[simp] theorem State.setDpPath_rx (s : State) (p : Nat) (x : Option PathDp) : (s.setDpPath p x).rx = s.rx := rfl
@[simp] theorem State.setDpPath_radio (s : State) (p : Nat) (x : Option PathDp) : (s.setDpPath p x).radio = s.radio := rfl
@[simp] theorem State.setDpPath_tx (s : State) (p : Nat) (x : Option PathDp) : (s.setDpPath p x).tx = s.tx := rfl
@[simp] theorem State.setDpPath_beam (s : State) (p : Nat) (x : Option PathDp) : (s.setDpPath p x).beam = s.beam := rfl
@[simp] theorem State.setDpPath_sieve (s : State) (p : Nat) (x : Option PathDp) : (s.setDpPath p x).sieve = s.sieve := rfl
@[simp] theorem State.setDpPath_pwr (s : State) (p : Nat) (x : Option PathDp) : (s.setDpPath p x).pwr = s.pwr := rfl
@[simp] theorem State.setDpPath_clk (s : State) (p : Nat) (x : Option PathDp) : (s.setDpPath p x).clk = s.clk := rfl
@[simp] theorem State.setDpPath_dpd (s : State) (p : Nat) (x : Option PathDp) : (s.setDpPath p x).dpd = s.dpd := rfl
@[simp] theorem State.setDpPath_cal (s : State) (p : Nat) (x : Option PathDp) : (s.setDpPath p x).cal = s.cal := rfl
@[simp] theorem State.setDpPath_free (s : State) (p : Nat) (x : Option PathDp) : (s.setDpPath p x).free = s.free := rfl
@[simp] theorem State.setDpPath_pending (s : State) (p : Nat) (x : Option PathDp) : (s.setDpPath p x).pending = s.pending := rfl

@[simp] theorem State.setEq_regs (s : State) (n : Nat) (x : Option EqSt) : (s.setEq n x).regs = s.regs := rfl
@[simp] theorem State.setEq_sys (s : State) (n : Nat) (x : Option EqSt) : (s.setEq n x).sys = s.sys := rfl
@[simp] theorem State.setEq_mode (s : State) (n : Nat) (x : Option EqSt) : (s.setEq n x).mode = s.mode := rfl
@[simp] theorem State.setEq_time (s : State) (n : Nat) (x : Option EqSt) : (s.setEq n x).time = s.time := rfl
@[simp] theorem State.setEq_mem (s : State) (n : Nat) (x : Option EqSt) : (s.setEq n x).mem = s.mem := rfl
@[simp] theorem State.setEq_flt (s : State) (n : Nat) (x : Option EqSt) : (s.setEq n x).flt = s.flt := rfl
@[simp] theorem State.setEq_rxb (s : State) (n : Nat) (x : Option EqSt) : (s.setEq n x).rxb = s.rxb := rfl
@[simp] theorem State.setEq_link (s : State) (n : Nat) (x : Option EqSt) : (s.setEq n x).link = s.link := rfl
@[simp] theorem State.setEq_rx (s : State) (n : Nat) (x : Option EqSt) : (s.setEq n x).rx = s.rx := rfl
@[simp] theorem State.setEq_radio (s : State) (n : Nat) (x : Option EqSt) : (s.setEq n x).radio = s.radio := rfl
@[simp] theorem State.setEq_tx (s : State) (n : Nat) (x : Option EqSt) : (s.setEq n x).tx = s.tx := rfl
@[simp] theorem State.setEq_beam (s : State) (n : Nat) (x : Option EqSt) : (s.setEq n x).beam = s.beam := rfl
@[simp] theorem State.setEq_sieve (s : State) (n : Nat) (x : Option EqSt) : (s.setEq n x).sieve = s.sieve := rfl
@[simp] theorem State.setEq_pwr (s : State) (n : Nat) (x : Option EqSt) : (s.setEq n x).pwr = s.pwr := rfl
@[simp] theorem State.setEq_clk (s : State) (n : Nat) (x : Option EqSt) : (s.setEq n x).clk = s.clk := rfl
@[simp] theorem State.setEq_dpd (s : State) (n : Nat) (x : Option EqSt) : (s.setEq n x).dpd = s.dpd := rfl
@[simp] theorem State.setEq_cal (s : State) (n : Nat) (x : Option EqSt) : (s.setEq n x).cal = s.cal := rfl
@[simp] theorem State.setEq_free (s : State) (n : Nat) (x : Option EqSt) : (s.setEq n x).free = s.free := rfl
@[simp] theorem State.setEq_pending (s : State) (n : Nat) (x : Option EqSt) : (s.setEq n x).pending = s.pending := rfl

@[simp] theorem State.setTxLine_regs (s : State) (u : Nat) (x : Option TxLine) : (s.setTxLine u x).regs = s.regs := rfl
@[simp] theorem State.setTxLine_sys (s : State) (u : Nat) (x : Option TxLine) : (s.setTxLine u x).sys = s.sys := rfl
@[simp] theorem State.setTxLine_mode (s : State) (u : Nat) (x : Option TxLine) : (s.setTxLine u x).mode = s.mode := rfl
@[simp] theorem State.setTxLine_time (s : State) (u : Nat) (x : Option TxLine) : (s.setTxLine u x).time = s.time := rfl
@[simp] theorem State.setTxLine_mem (s : State) (u : Nat) (x : Option TxLine) : (s.setTxLine u x).mem = s.mem := rfl
@[simp] theorem State.setTxLine_flt (s : State) (u : Nat) (x : Option TxLine) : (s.setTxLine u x).flt = s.flt := rfl
@[simp] theorem State.setTxLine_rxb (s : State) (u : Nat) (x : Option TxLine) : (s.setTxLine u x).rxb = s.rxb := rfl
@[simp] theorem State.setTxLine_link (s : State) (u : Nat) (x : Option TxLine) : (s.setTxLine u x).link = s.link := rfl
@[simp] theorem State.setTxLine_rx (s : State) (u : Nat) (x : Option TxLine) : (s.setTxLine u x).rx = s.rx := rfl
@[simp] theorem State.setTxLine_radio (s : State) (u : Nat) (x : Option TxLine) : (s.setTxLine u x).radio = s.radio := rfl
@[simp] theorem State.setTxLine_tx (s : State) (u : Nat) (x : Option TxLine) : (s.setTxLine u x).tx = s.tx := rfl
@[simp] theorem State.setTxLine_beam (s : State) (u : Nat) (x : Option TxLine) : (s.setTxLine u x).beam = s.beam := rfl
@[simp] theorem State.setTxLine_sieve (s : State) (u : Nat) (x : Option TxLine) : (s.setTxLine u x).sieve = s.sieve := rfl
@[simp] theorem State.setTxLine_pwr (s : State) (u : Nat) (x : Option TxLine) : (s.setTxLine u x).pwr = s.pwr := rfl
@[simp] theorem State.setTxLine_clk (s : State) (u : Nat) (x : Option TxLine) : (s.setTxLine u x).clk = s.clk := rfl
@[simp] theorem State.setTxLine_dpd (s : State) (u : Nat) (x : Option TxLine) : (s.setTxLine u x).dpd = s.dpd := rfl
@[simp] theorem State.setTxLine_cal (s : State) (u : Nat) (x : Option TxLine) : (s.setTxLine u x).cal = s.cal := rfl
@[simp] theorem State.setTxLine_free (s : State) (u : Nat) (x : Option TxLine) : (s.setTxLine u x).free = s.free := rfl
@[simp] theorem State.setTxLine_pending (s : State) (u : Nat) (x : Option TxLine) : (s.setTxLine u x).pending = s.pending := rfl

@[simp] theorem State.setTxPath_regs (s : State) (p : Nat) (x : Option TxPath) : (s.setTxPath p x).regs = s.regs := rfl
@[simp] theorem State.setTxPath_sys (s : State) (p : Nat) (x : Option TxPath) : (s.setTxPath p x).sys = s.sys := rfl
@[simp] theorem State.setTxPath_mode (s : State) (p : Nat) (x : Option TxPath) : (s.setTxPath p x).mode = s.mode := rfl
@[simp] theorem State.setTxPath_time (s : State) (p : Nat) (x : Option TxPath) : (s.setTxPath p x).time = s.time := rfl
@[simp] theorem State.setTxPath_mem (s : State) (p : Nat) (x : Option TxPath) : (s.setTxPath p x).mem = s.mem := rfl
@[simp] theorem State.setTxPath_flt (s : State) (p : Nat) (x : Option TxPath) : (s.setTxPath p x).flt = s.flt := rfl
@[simp] theorem State.setTxPath_rxb (s : State) (p : Nat) (x : Option TxPath) : (s.setTxPath p x).rxb = s.rxb := rfl
@[simp] theorem State.setTxPath_link (s : State) (p : Nat) (x : Option TxPath) : (s.setTxPath p x).link = s.link := rfl
@[simp] theorem State.setTxPath_rx (s : State) (p : Nat) (x : Option TxPath) : (s.setTxPath p x).rx = s.rx := rfl
@[simp] theorem State.setTxPath_radio (s : State) (p : Nat) (x : Option TxPath) : (s.setTxPath p x).radio = s.radio := rfl
@[simp] theorem State.setTxPath_tx (s : State) (p : Nat) (x : Option TxPath) : (s.setTxPath p x).tx = s.tx := rfl
@[simp] theorem State.setTxPath_beam (s : State) (p : Nat) (x : Option TxPath) : (s.setTxPath p x).beam = s.beam := rfl
@[simp] theorem State.setTxPath_sieve (s : State) (p : Nat) (x : Option TxPath) : (s.setTxPath p x).sieve = s.sieve := rfl
@[simp] theorem State.setTxPath_pwr (s : State) (p : Nat) (x : Option TxPath) : (s.setTxPath p x).pwr = s.pwr := rfl
@[simp] theorem State.setTxPath_clk (s : State) (p : Nat) (x : Option TxPath) : (s.setTxPath p x).clk = s.clk := rfl
@[simp] theorem State.setTxPath_dpd (s : State) (p : Nat) (x : Option TxPath) : (s.setTxPath p x).dpd = s.dpd := rfl
@[simp] theorem State.setTxPath_cal (s : State) (p : Nat) (x : Option TxPath) : (s.setTxPath p x).cal = s.cal := rfl
@[simp] theorem State.setTxPath_free (s : State) (p : Nat) (x : Option TxPath) : (s.setTxPath p x).free = s.free := rfl
@[simp] theorem State.setTxPath_pending (s : State) (p : Nat) (x : Option TxPath) : (s.setTxPath p x).pending = s.pending := rfl

@[simp] theorem State.takeC_regs (s : State) (u : Nat) (t : T48) : (s.takeC u t).regs = s.regs := rfl
@[simp] theorem State.takeC_sys (s : State) (u : Nat) (t : T48) : (s.takeC u t).sys = s.sys := rfl
@[simp] theorem State.takeC_mode (s : State) (u : Nat) (t : T48) : (s.takeC u t).mode = s.mode := rfl
@[simp] theorem State.takeC_mem (s : State) (u : Nat) (t : T48) : (s.takeC u t).mem = s.mem := rfl
@[simp] theorem State.takeC_flt (s : State) (u : Nat) (t : T48) : (s.takeC u t).flt = s.flt := rfl
@[simp] theorem State.takeC_rxb (s : State) (u : Nat) (t : T48) : (s.takeC u t).rxb = s.rxb := rfl
@[simp] theorem State.takeC_link (s : State) (u : Nat) (t : T48) : (s.takeC u t).link = s.link := rfl
@[simp] theorem State.takeC_rx (s : State) (u : Nat) (t : T48) : (s.takeC u t).rx = s.rx := rfl
@[simp] theorem State.takeC_radio (s : State) (u : Nat) (t : T48) : (s.takeC u t).radio = s.radio := rfl
@[simp] theorem State.takeC_tx (s : State) (u : Nat) (t : T48) : (s.takeC u t).tx = s.tx := rfl
@[simp] theorem State.takeC_beam (s : State) (u : Nat) (t : T48) : (s.takeC u t).beam = s.beam := rfl
@[simp] theorem State.takeC_sieve (s : State) (u : Nat) (t : T48) : (s.takeC u t).sieve = s.sieve := rfl
@[simp] theorem State.takeC_pwr (s : State) (u : Nat) (t : T48) : (s.takeC u t).pwr = s.pwr := rfl
@[simp] theorem State.takeC_clk (s : State) (u : Nat) (t : T48) : (s.takeC u t).clk = s.clk := rfl
@[simp] theorem State.takeC_dpd (s : State) (u : Nat) (t : T48) : (s.takeC u t).dpd = s.dpd := rfl
@[simp] theorem State.takeC_cal (s : State) (u : Nat) (t : T48) : (s.takeC u t).cal = s.cal := rfl
@[simp] theorem State.takeC_dp (s : State) (u : Nat) (t : T48) : (s.takeC u t).dp = s.dp := rfl
@[simp] theorem State.takeC_free (s : State) (u : Nat) (t : T48) : (s.takeC u t).free = s.free := rfl
@[simp] theorem State.takeC_pending (s : State) (u : Nat) (t : T48) : (s.takeC u t).pending = s.pending := rfl

@[simp] theorem State.armCmd_sys (s : State) (u : Nat) (t : T48) (code : Nat) (a : TcAction) : (s.armCmd u t code a).sys = s.sys := by simp [State.armCmd]
@[simp] theorem State.armCmd_mode (s : State) (u : Nat) (t : T48) (code : Nat) (a : TcAction) : (s.armCmd u t code a).mode = s.mode := by simp [State.armCmd]
@[simp] theorem State.armCmd_mem (s : State) (u : Nat) (t : T48) (code : Nat) (a : TcAction) : (s.armCmd u t code a).mem = s.mem := by simp [State.armCmd]
@[simp] theorem State.armCmd_flt (s : State) (u : Nat) (t : T48) (code : Nat) (a : TcAction) : (s.armCmd u t code a).flt = s.flt := by simp [State.armCmd]
@[simp] theorem State.armCmd_rxb (s : State) (u : Nat) (t : T48) (code : Nat) (a : TcAction) : (s.armCmd u t code a).rxb = s.rxb := by simp [State.armCmd]
@[simp] theorem State.armCmd_link (s : State) (u : Nat) (t : T48) (code : Nat) (a : TcAction) : (s.armCmd u t code a).link = s.link := by simp [State.armCmd]
@[simp] theorem State.armCmd_rx (s : State) (u : Nat) (t : T48) (code : Nat) (a : TcAction) : (s.armCmd u t code a).rx = s.rx := by simp [State.armCmd]
@[simp] theorem State.armCmd_radio (s : State) (u : Nat) (t : T48) (code : Nat) (a : TcAction) : (s.armCmd u t code a).radio = s.radio := by simp [State.armCmd]
@[simp] theorem State.armCmd_tx (s : State) (u : Nat) (t : T48) (code : Nat) (a : TcAction) : (s.armCmd u t code a).tx = s.tx := by simp [State.armCmd]
@[simp] theorem State.armCmd_beam (s : State) (u : Nat) (t : T48) (code : Nat) (a : TcAction) : (s.armCmd u t code a).beam = s.beam := by simp [State.armCmd]
@[simp] theorem State.armCmd_sieve (s : State) (u : Nat) (t : T48) (code : Nat) (a : TcAction) : (s.armCmd u t code a).sieve = s.sieve := by simp [State.armCmd]
@[simp] theorem State.armCmd_pwr (s : State) (u : Nat) (t : T48) (code : Nat) (a : TcAction) : (s.armCmd u t code a).pwr = s.pwr := by simp [State.armCmd]
@[simp] theorem State.armCmd_clk (s : State) (u : Nat) (t : T48) (code : Nat) (a : TcAction) : (s.armCmd u t code a).clk = s.clk := by simp [State.armCmd]
@[simp] theorem State.armCmd_dpd (s : State) (u : Nat) (t : T48) (code : Nat) (a : TcAction) : (s.armCmd u t code a).dpd = s.dpd := by simp [State.armCmd]
@[simp] theorem State.armCmd_cal (s : State) (u : Nat) (t : T48) (code : Nat) (a : TcAction) : (s.armCmd u t code a).cal = s.cal := by simp [State.armCmd]
@[simp] theorem State.armCmd_dp (s : State) (u : Nat) (t : T48) (code : Nat) (a : TcAction) : (s.armCmd u t code a).dp = s.dp := by simp [State.armCmd]
@[simp] theorem State.armCmd_free (s : State) (u : Nat) (t : T48) (code : Nat) (a : TcAction) : (s.armCmd u t code a).free = s.free := by simp [State.armCmd]
@[simp] theorem State.armCmd_pending (s : State) (u : Nat) (t : T48) (code : Nat) (a : TcAction) : (s.armCmd u t code a).pending = s.pending := by simp [State.armCmd]

@[simp] theorem State.disarm_sys (s : State) (u : Nat) : (s.disarm u).sys = s.sys := by simp [State.disarm]
@[simp] theorem State.disarm_mode (s : State) (u : Nat) : (s.disarm u).mode = s.mode := by simp [State.disarm]
@[simp] theorem State.disarm_mem (s : State) (u : Nat) : (s.disarm u).mem = s.mem := by simp [State.disarm]
@[simp] theorem State.disarm_flt (s : State) (u : Nat) : (s.disarm u).flt = s.flt := by simp [State.disarm]
@[simp] theorem State.disarm_rxb (s : State) (u : Nat) : (s.disarm u).rxb = s.rxb := by simp [State.disarm]
@[simp] theorem State.disarm_link (s : State) (u : Nat) : (s.disarm u).link = s.link := by simp [State.disarm]
@[simp] theorem State.disarm_rx (s : State) (u : Nat) : (s.disarm u).rx = s.rx := by simp [State.disarm]
@[simp] theorem State.disarm_radio (s : State) (u : Nat) : (s.disarm u).radio = s.radio := by simp [State.disarm]
@[simp] theorem State.disarm_tx (s : State) (u : Nat) : (s.disarm u).tx = s.tx := by simp [State.disarm]
@[simp] theorem State.disarm_beam (s : State) (u : Nat) : (s.disarm u).beam = s.beam := by simp [State.disarm]
@[simp] theorem State.disarm_sieve (s : State) (u : Nat) : (s.disarm u).sieve = s.sieve := by simp [State.disarm]
@[simp] theorem State.disarm_pwr (s : State) (u : Nat) : (s.disarm u).pwr = s.pwr := by simp [State.disarm]
@[simp] theorem State.disarm_clk (s : State) (u : Nat) : (s.disarm u).clk = s.clk := by simp [State.disarm]
@[simp] theorem State.disarm_dpd (s : State) (u : Nat) : (s.disarm u).dpd = s.dpd := by simp [State.disarm]
@[simp] theorem State.disarm_cal (s : State) (u : Nat) : (s.disarm u).cal = s.cal := by simp [State.disarm]
@[simp] theorem State.disarm_dp (s : State) (u : Nat) : (s.disarm u).dp = s.dp := by simp [State.disarm]
@[simp] theorem State.disarm_free (s : State) (u : Nat) : (s.disarm u).free = s.free := by simp [State.disarm]
@[simp] theorem State.disarm_pending (s : State) (u : Nat) : (s.disarm u).pending = s.pending := by simp [State.disarm]

@[simp] theorem State.setMbx_sys_reqArea (s : State) (n : Nat) (m : MbxSt) : (s.setMbx n m).sys.reqArea = s.sys.reqArea := rfl
@[simp] theorem State.setMbx_sys_rspArea (s : State) (n : Nat) (m : MbxSt) : (s.setMbx n m).sys.rspArea = s.sys.rspArea := rfl
@[simp] theorem State.setMbx_sys_served (s : State) (n : Nat) (m : MbxSt) : (s.setMbx n m).sys.served = s.sys.served := rfl
@[simp] theorem State.setMbx_sys_claims (s : State) (n : Nat) (m : MbxSt) : (s.setMbx n m).sys.claims = s.sys.claims := rfl
@[simp] theorem State.setMbx_sys_claimSeq (s : State) (n : Nat) (m : MbxSt) : (s.setMbx n m).sys.claimSeq = s.sys.claimSeq := rfl
@[simp] theorem State.setMbx_sys_evtSeq (s : State) (n : Nat) (m : MbxSt) : (s.setMbx n m).sys.evtSeq = s.sys.evtSeq := rfl
@[simp] theorem State.setMbx_sys_ringMade (s : State) (n : Nat) (m : MbxSt) : (s.setMbx n m).sys.ringMade = s.sys.ringMade := rfl
@[simp] theorem State.setMbx_sys_ringTile (s : State) (n : Nat) (m : MbxSt) : (s.setMbx n m).sys.ringTile = s.sys.ringTile := rfl
@[simp] theorem State.setMbx_sys_ringTiles (s : State) (n : Nat) (m : MbxSt) : (s.setMbx n m).sys.ringTiles = s.sys.ringTiles := rfl
@[simp] theorem State.setMbx_sys_heldEvts (s : State) (n : Nat) (m : MbxSt) : (s.setMbx n m).sys.heldEvts = s.sys.heldEvts := rfl
@[simp] theorem State.setMbx_sys_heldLost (s : State) (n : Nat) (m : MbxSt) : (s.setMbx n m).sys.heldLost = s.sys.heldLost := rfl
@[simp] theorem State.setMbx_sys_limits (s : State) (n : Nat) (m : MbxSt) : (s.setMbx n m).sys.limits = s.sys.limits := rfl
@[simp] theorem State.setMbx_sys_firstUnsent (s : State) (n : Nat) (m : MbxSt) : (s.setMbx n m).sys.firstUnsent = s.sys.firstUnsent := rfl
@[simp] theorem State.setMbx_sys_miso (s : State) (n : Nat) (m : MbxSt) : (s.setMbx n m).sys.miso = s.sys.miso := rfl
@[simp] theorem State.setMbx_sys_rdata (s : State) (n : Nat) (m : MbxSt) : (s.setMbx n m).sys.rdata = s.sys.rdata := rfl
@[simp] theorem State.setMbx_sys_version (s : State) (n : Nat) (m : MbxSt) : (s.setMbx n m).sys.version = s.sys.version := rfl
@[simp] theorem State.setMbx_sys_imageFrom (s : State) (n : Nat) (m : MbxSt) : (s.setMbx n m).sys.imageFrom = s.sys.imageFrom := rfl
@[simp] theorem State.setMbx_sys_imageAddr (s : State) (n : Nat) (m : MbxSt) : (s.setMbx n m).sys.imageAddr = s.sys.imageAddr := rfl
@[simp] theorem State.setMbx_sys_refsel (s : State) (n : Nat) (m : MbxSt) : (s.setMbx n m).sys.refsel = s.sys.refsel := rfl
@[simp] theorem State.setMbx_sys_resetN (s : State) (n : Nat) (m : MbxSt) : (s.setMbx n m).sys.resetN = s.sys.resetN := rfl
@[simp] theorem State.setMbx_sys_held (s : State) (n : Nat) (m : MbxSt) : (s.setMbx n m).sys.held = s.sys.held := rfl
@[simp] theorem State.setMbx_sys_reload (s : State) (n : Nat) (m : MbxSt) : (s.setMbx n m).sys.reload = s.sys.reload := rfl
@[simp] theorem State.setMbx_sys_restartCause (s : State) (n : Nat) (m : MbxSt) : (s.setMbx n m).sys.restartCause = s.sys.restartCause := rfl
@[simp] theorem State.setMbx_sys_profile (s : State) (n : Nat) (m : MbxSt) : (s.setMbx n m).sys.profile = s.sys.profile := rfl
@[simp] theorem State.setMbx_sys_linkWords (s : State) (n : Nat) (m : MbxSt) : (s.setMbx n m).sys.linkWords = s.sys.linkWords := rfl
@[simp] theorem State.stageRsp_sys_reqArea (s : State) (n : Nat) (r : Rsp) : (s.stageRsp n r).sys.reqArea = s.sys.reqArea := rfl
@[simp] theorem State.stageRsp_sys_rspArea (s : State) (n : Nat) (r : Rsp) : (s.stageRsp n r).sys.rspArea = s.sys.rspArea := rfl
@[simp] theorem State.stageRsp_sys_served (s : State) (n : Nat) (r : Rsp) : (s.stageRsp n r).sys.served = s.sys.served := rfl
@[simp] theorem State.stageRsp_sys_claims (s : State) (n : Nat) (r : Rsp) : (s.stageRsp n r).sys.claims = s.sys.claims := rfl
@[simp] theorem State.stageRsp_sys_claimSeq (s : State) (n : Nat) (r : Rsp) : (s.stageRsp n r).sys.claimSeq = s.sys.claimSeq := rfl
@[simp] theorem State.stageRsp_sys_evtSeq (s : State) (n : Nat) (r : Rsp) : (s.stageRsp n r).sys.evtSeq = s.sys.evtSeq := rfl
@[simp] theorem State.stageRsp_sys_ringMade (s : State) (n : Nat) (r : Rsp) : (s.stageRsp n r).sys.ringMade = s.sys.ringMade := rfl
@[simp] theorem State.stageRsp_sys_ringTile (s : State) (n : Nat) (r : Rsp) : (s.stageRsp n r).sys.ringTile = s.sys.ringTile := rfl
@[simp] theorem State.stageRsp_sys_ringTiles (s : State) (n : Nat) (r : Rsp) : (s.stageRsp n r).sys.ringTiles = s.sys.ringTiles := rfl
@[simp] theorem State.stageRsp_sys_heldEvts (s : State) (n : Nat) (r : Rsp) : (s.stageRsp n r).sys.heldEvts = s.sys.heldEvts := rfl
@[simp] theorem State.stageRsp_sys_heldLost (s : State) (n : Nat) (r : Rsp) : (s.stageRsp n r).sys.heldLost = s.sys.heldLost := rfl
@[simp] theorem State.stageRsp_sys_limits (s : State) (n : Nat) (r : Rsp) : (s.stageRsp n r).sys.limits = s.sys.limits := rfl
@[simp] theorem State.stageRsp_sys_firstUnsent (s : State) (n : Nat) (r : Rsp) : (s.stageRsp n r).sys.firstUnsent = s.sys.firstUnsent := rfl
@[simp] theorem State.stageRsp_sys_miso (s : State) (n : Nat) (r : Rsp) : (s.stageRsp n r).sys.miso = s.sys.miso := rfl
@[simp] theorem State.stageRsp_sys_rdata (s : State) (n : Nat) (r : Rsp) : (s.stageRsp n r).sys.rdata = s.sys.rdata := rfl
@[simp] theorem State.stageRsp_sys_version (s : State) (n : Nat) (r : Rsp) : (s.stageRsp n r).sys.version = s.sys.version := rfl
@[simp] theorem State.stageRsp_sys_imageFrom (s : State) (n : Nat) (r : Rsp) : (s.stageRsp n r).sys.imageFrom = s.sys.imageFrom := rfl
@[simp] theorem State.stageRsp_sys_imageAddr (s : State) (n : Nat) (r : Rsp) : (s.stageRsp n r).sys.imageAddr = s.sys.imageAddr := rfl
@[simp] theorem State.stageRsp_sys_refsel (s : State) (n : Nat) (r : Rsp) : (s.stageRsp n r).sys.refsel = s.sys.refsel := rfl
@[simp] theorem State.stageRsp_sys_resetN (s : State) (n : Nat) (r : Rsp) : (s.stageRsp n r).sys.resetN = s.sys.resetN := rfl
@[simp] theorem State.stageRsp_sys_held (s : State) (n : Nat) (r : Rsp) : (s.stageRsp n r).sys.held = s.sys.held := rfl
@[simp] theorem State.stageRsp_sys_reload (s : State) (n : Nat) (r : Rsp) : (s.stageRsp n r).sys.reload = s.sys.reload := rfl
@[simp] theorem State.stageRsp_sys_restartCause (s : State) (n : Nat) (r : Rsp) : (s.stageRsp n r).sys.restartCause = s.sys.restartCause := rfl
@[simp] theorem State.stageRsp_sys_profile (s : State) (n : Nat) (r : Rsp) : (s.stageRsp n r).sys.profile = s.sys.profile := rfl
@[simp] theorem State.stageRsp_sys_linkWords (s : State) (n : Nat) (r : Rsp) : (s.stageRsp n r).sys.linkWords = s.sys.linkWords := rfl

/-! ### Registers -/

theorem RegName.idx_lt (r : RegName) : r.idx < 256 := by cases r <;> decide

theorem RegName.all_idx (r : RegName) : RegName.all[r.idx]? = some r := by cases r <;> rfl

theorem RegName.idx_inj {r r' : RegName} (h : r.idx = r'.idx) : r = r' := by
  have h1 := r.all_idx
  have h2 := r'.all_idx
  rw [h, h2] at h1
  exact (Option.some.inj h1).symm

/-- Copies of registers lie at distinct keys. -/
theorem regKey_inj {r r' : RegName} {i i' : Nat} (h : regKey r i = regKey r' i') : r = r' ∧ i = i' := by
  have h1 := r.idx_lt
  have h2 := r'.idx_lt
  unfold regKey at h
  exact ⟨RegName.idx_inj (by omega), by omega⟩

/-- A register copy after a write of any copy. -/
theorem State.reg_setReg (s : State) (r r' : RegName) (i i' : Nat) (w : Word) :
    (s.setReg r i w).reg r' i' = if r = r' ∧ i = i' then w else s.reg r' i' := by
  unfold State.reg State.setReg
  rw [Store.get_set]
  by_cases h : regKey r i = regKey r' i'
  · rw [if_pos h, if_pos (regKey_inj h)]
  · rw [if_neg h, if_neg]
    rintro ⟨rfl, rfl⟩
    exact h rfl

@[simp] theorem State.reg_setReg_same (s : State) (r : RegName) (i : Nat) (w : Word) : (s.setReg r i w).reg r i = w := by
  rw [State.reg_setReg, if_pos ⟨rfl, rfl⟩]

theorem State.reg_setReg_ne (s : State) {r r' : RegName} (i i' : Nat) (w : Word) (h : r ≠ r') :
    (s.setReg r i w).reg r' i' = s.reg r' i' := by
  rw [State.reg_setReg, if_neg (fun e => h e.1)]

theorem State.reg_setReg_idx (s : State) (r r' : RegName) {i i' : Nat} (w : Word) (h : i ≠ i') :
    (s.setReg r i w).reg r' i' = s.reg r' i' := by
  rw [State.reg_setReg, if_neg (fun e => h e.2)]

/-- Registers are read from `regs` alone. -/
theorem State.reg_congr {s t : State} (h : t.regs = s.regs) (r : RegName) (i : Nat) : t.reg r i = s.reg r i := by
  unfold State.reg
  rw [h]

theorem State.fld_congr {s t : State} (h : t.regs = s.regs) (f : Fld) (i : Nat) : t.fld f i = s.fld f i := by
  unfold State.fld
  rw [State.reg_congr h]

/-! ### Fields -/

theorem getLsbD_fieldMask (lo width i : Nat) (hi : i < 32) :
    (fieldMask lo width).getLsbD i = decide (lo ≤ i ∧ i < lo + width) := by
  unfold fieldMask
  rw [BitVec.getLsbD_ofNat, Nat.testBit_shiftLeft, Nat.testBit_two_pow_sub_one]
  by_cases h : lo ≤ i <;> simp [hi, h] <;> omega

/-- The bits of a field after the field was written. -/
theorem bits_putField_same (w : Word) (lo width v : Nat) (h : lo + width ≤ 32) (hw : 0 < width) :
    bits (putField w lo width v) (lo + width - 1) lo = v % 2 ^ width := by
  have e : lo + width - 1 + 1 - lo = width := by omega
  unfold bits
  rw [e]
  apply Nat.eq_of_testBit_eq
  intro i
  rw [Nat.testBit_mod_two_pow, Nat.testBit_shiftRight, Nat.testBit_mod_two_pow]
  by_cases hi : i < width
  · have hl : lo + i < 32 := by omega
    have : (putField w lo width v).toNat.testBit (lo + i) = (putField w lo width v).getLsbD (lo + i) := rfl
    rw [this]
    unfold putField
    simp only [BitVec.getLsbD_or, BitVec.getLsbD_and, BitVec.getLsbD_not, getLsbD_fieldMask _ _ _ hl, BitVec.getLsbD_ofNat,
      Nat.testBit_shiftLeft, Nat.testBit_mod_two_pow]
    simp [hi, hl]
  · simp [hi]

/-- The bits of a field after a disjoint field was written. -/
theorem bits_putField_disj (w : Word) (lo width v lo' width' : Nat) (h : lo' + width' ≤ 32) (hw : 0 < width')
    (hd : lo + width ≤ lo' ∨ lo' + width' ≤ lo) :
    bits (putField w lo width v) (lo' + width' - 1) lo' = bits w (lo' + width' - 1) lo' := by
  have e : lo' + width' - 1 + 1 - lo' = width' := by omega
  unfold bits
  rw [e]
  apply Nat.eq_of_testBit_eq
  intro i
  rw [Nat.testBit_mod_two_pow, Nat.testBit_shiftRight, Nat.testBit_mod_two_pow, Nat.testBit_shiftRight]
  by_cases hi : i < width'
  · have hl : lo' + i < 32 := by omega
    have : (putField w lo width v).toNat.testBit (lo' + i) = (putField w lo width v).getLsbD (lo' + i) := rfl
    rw [this]
    unfold putField
    simp only [BitVec.getLsbD_or, BitVec.getLsbD_and, BitVec.getLsbD_not, getLsbD_fieldMask _ _ _ hl, BitVec.getLsbD_ofNat,
      Nat.testBit_shiftLeft, Nat.testBit_mod_two_pow]
    have : w.toNat.testBit (lo' + i) = w.getLsbD (lo' + i) := rfl
    rw [this]
    rcases hd with hd | hd
    · have h1 : ¬ (lo' + i < lo + width) := by omega
      have h2 : ¬ (lo' + i - lo < width) := by omega
      simp [hi, hl, h1, h2]
    · have h1 : ¬ (lo ≤ lo' + i) := by omega
      simp [hi, hl, h1]
  · simp [hi]

/-- A field lies in its word. -/
def Fld.ok (f : Fld) : Bool := decide (0 < f.width ∧ f.lo + f.width ≤ 32)

/-- A field after it was written. -/
theorem State.fld_setFld_same (s : State) (f : Fld) (i v : Nat) (h : f.ok = true) :
    (s.setFld f i v).fld f i = v % 2 ^ f.width := by
  simp only [Fld.ok, decide_eq_true_eq] at h
  unfold State.fld State.setFld
  rw [State.reg_setReg_same]
  exact bits_putField_same _ _ _ _ h.2 h.1

/-- Two fields share no bit. -/
def Fld.apart (f g : Fld) : Bool :=
  g.ok && (decide (f.reg ≠ g.reg) || decide (f.lo + f.width ≤ g.lo ∨ g.lo + g.width ≤ f.lo))

/-- A field after a field that shares no bit with it was written. -/
theorem State.fld_setFld_apart (s : State) (f g : Fld) (i j v : Nat) (h : f.apart g = true) :
    (s.setFld f i v).fld g j = s.fld g j := by
  simp only [Fld.apart, Fld.ok, Bool.and_eq_true, Bool.or_eq_true, decide_eq_true_eq] at h
  unfold State.fld State.setFld
  rw [State.reg_setReg]
  split
  · rename_i e
    obtain ⟨⟨h1, h2⟩, h3 | h3⟩ := h
    · exact absurd e.1 h3
    · rw [bits_putField_disj _ _ _ _ _ _ h2 h1 h3, e.1, e.2]
  · rfl

theorem State.fld_setFld_idx (s : State) (f g : Fld) {i j : Nat} (v : Nat) (h : i ≠ j) :
    (s.setFld f i v).fld g j = s.fld g j := by
  unfold State.fld State.setFld
  rw [State.reg_setReg_idx _ _ _ _ h]

theorem State.fld_setReg_ne (s : State) {r : RegName} {g : Fld} (i j : Nat) (w : Word) (h : r ≠ g.reg) :
    (s.setReg r i w).fld g j = s.fld g j := by
  unfold State.fld
  rw [State.reg_setReg_ne _ _ _ _ h]

theorem State.fld_setReg_idx (s : State) (r : RegName) (g : Fld) {i j : Nat} (w : Word) (h : i ≠ j) :
    (s.setReg r i w).fld g j = s.fld g j := by
  unfold State.fld
  rw [State.reg_setReg_idx _ _ _ _ h]

theorem State.reg_setFld_ne (s : State) {f : Fld} {r : RegName} (i j v : Nat) (h : f.reg ≠ r) :
    (s.setFld f i v).reg r j = s.reg r j := by
  unfold State.setFld
  rw [State.reg_setReg_ne _ _ _ _ h]

theorem State.reg_setFld_idx (s : State) (f : Fld) (r : RegName) {i j : Nat} (v : Nat) (h : i ≠ j) :
    (s.setFld f i v).reg r j = s.reg r j := by
  unfold State.setFld
  rw [State.reg_setReg_idx _ _ _ _ h]

/-! ### Memory -/

/-- A byte after a byte was written. -/
theorem State.byte_setByte (s : State) (a a' : Nat) (b : Byte) :
    (s.setByte a b).byte a' = if a = a' then b else s.byte a' := by
  unfold State.byte State.setByte
  rw [Store.get_set]

@[simp] theorem State.byte_setByte_same (s : State) (a : Nat) (b : Byte) : (s.setByte a b).byte a = b := by
  rw [State.byte_setByte, if_pos rfl]

/-- Bytes are read from `mem.bytes` and `mem.undef` alone. -/
theorem State.byte_congr {s t : State} (h : t.mem = s.mem) (a : Nat) : t.byte a = s.byte a := by
  unfold State.byte
  rw [h]

@[simp] theorem State.byte_setReg (s : State) (r : RegName) (i : Nat) (w : Word) (a : Nat) :
    (s.setReg r i w).byte a = s.byte a := rfl
@[simp] theorem State.byte_setFld (s : State) (f : Fld) (i v a : Nat) : (s.setFld f i v).byte a = s.byte a := rfl
@[simp] theorem State.byte_setFlag (s : State) (f : Fld) (i : Nat) (b : Bool) (a : Nat) :
    (s.setFlag f i b).byte a = s.byte a := rfl
@[simp] theorem State.byte_stageRsp (s : State) (n : Nat) (r : Rsp) (a : Nat) : (s.stageRsp n r).byte a = s.byte a := rfl
@[simp] theorem State.byte_setTile (s : State) (k : Nat) (t : Tile) (a : Nat) : (s.setTile k t).byte a = s.byte a := rfl
@[simp] theorem State.byte_setOwner (s : State) (ty i : Nat) (c : Option Claim) (a : Nat) :
    (s.setOwner ty i c).byte a = s.byte a := rfl

/-- A byte after a word was written: one of its four, or as before. -/
theorem State.byte_setMemWord (s : State) (a a' : Nat) (w : Word) :
    (s.setMemWord a w).byte a' =
      if a' = a + 3 then w.extractLsb' 24 8 else if a' = a + 2 then w.extractLsb' 16 8
      else if a' = a + 1 then w.extractLsb' 8 8 else if a' = a then w.extractLsb' 0 8 else s.byte a' := by
  unfold State.setMemWord
  simp only [State.byte_setByte, eq_comm (a := a')]

@[simp] theorem State.setMemWord_regs (s : State) (a : Nat) (w : Word) : (s.setMemWord a w).regs = s.regs := rfl
@[simp] theorem State.setMemWord_sys (s : State) (a : Nat) (w : Word) : (s.setMemWord a w).sys = s.sys := rfl

/-! ### Mailboxes, claims, tiles, units -/

@[simp] theorem State.side_setSide (s : State) (n : Nat) (x : SideSt) : (s.setSide n x).side n = x := by
  simp [State.side, State.setSide]

@[simp] theorem State.ctx_setCtx (s : State) (n : Nat) (x : Ctx) : (s.setCtx n x).ctx n = x := by
  simp [State.ctx, State.setCtx]

@[simp] theorem State.dpdOf_setDpd (s : State) (n : Nat) (x : DpdPath) : (s.setDpd n x).dpdOf n = x := by
  simp [State.dpdOf, State.setDpd]

@[simp] theorem State.dpPath_setDpPath (s : State) (n : Nat) (x : Option PathDp) : (s.setDpPath n x).dpPath n = x := by
  simp [State.dpPath, State.setDpPath]

@[simp] theorem State.eq_setEq (s : State) (n : Nat) (x : Option EqSt) : (s.setEq n x).eq n = x := by
  simp [State.eq, State.setEq]

@[simp] theorem State.txLine_setTxLine (s : State) (n : Nat) (x : Option TxLine) : (s.setTxLine n x).txLine n = x := by
  simp [State.txLine, State.setTxLine]

@[simp] theorem State.txPath_setTxPath (s : State) (n : Nat) (x : Option TxPath) : (s.setTxPath n x).txPath n = x := by
  simp [State.txPath, State.setTxPath]

@[simp] theorem State.mbx_setMbx (s : State) (n : Nat) (m : MbxSt) : (s.setMbx n m).mbx n = m := by
  unfold State.mbx State.setMbx
  rw [Store.get_set_same]

/-- The response a command stages. -/
@[simp] theorem State.staged_stageRsp (s : State) (n : Nat) (r : Rsp) : ((s.stageRsp n r).mbx n).staged = some r := by
  unfold State.stageRsp
  rw [State.mbx_setMbx]

@[simp] theorem State.reg_stageRsp (s : State) (n : Nat) (x : Rsp) (r : RegName) (i : Nat) :
    (s.stageRsp n x).reg r i = s.reg r i := rfl
@[simp] theorem State.fld_stageRsp (s : State) (n : Nat) (x : Rsp) (f : Fld) (i : Nat) :
    (s.stageRsp n x).fld f i = s.fld f i := rfl
@[simp] theorem State.flag_stageRsp (s : State) (n : Nat) (x : Rsp) (f : Fld) (i : Nat) :
    (s.stageRsp n x).flag f i = s.flag f i := rfl
@[simp] theorem State.owner_stageRsp (s : State) (n : Nat) (x : Rsp) (ty i : Nat) :
    (s.stageRsp n x).owner ty i = s.owner ty i := rfl

theorem State.owner_setOwner (s : State) (ty i ty' i' : Nat) (c : Option Claim) :
    (s.setOwner ty i c).owner ty' i' = if claimKey ty i = claimKey ty' i' then c else s.owner ty' i' := by
  unfold State.owner State.setOwner
  rw [Store.get_set]

theorem State.tile_setTile (s : State) (k k' : Nat) (t : Tile) :
    (s.setTile k t).tile k' = if k = k' then t else s.tile k' := by
  unfold State.tile State.setTile
  rw [Store.get_set]

@[simp] theorem State.actOf_armCmd (s : State) (u : Nat) (t : T48) (code : Nat) (a : TcAction) :
    (s.armCmd u t code a).actOf u = some a := by
  simp only [State.actOf, State.armCmd, Store.get_set_same]

@[simp] theorem State.unitC_armCmd (s : State) (u : Nat) (t : T48) (code : Nat) (a : TcAction) :
    (s.armCmd u t code a).unitC u = t := by
  simp only [State.unitC, State.armCmd, Store.get_set_same]

/-! ### Commands -/

/-- A command that passes the common tests: its own body, its response staged. -/
theorem serve_ok {c : CmdSpec} {q : Req} {s : State} (body : State → State × Rsp) (h : s.precheck c q = none) :
    serve c q body s = (body s).1.stageRsp q.mbx { (body s).2 with trivet := c.trivet } := by
  unfold serve
  rw [h]

/-- A command that fails a common test changes nothing but its response. -/
theorem serve_refused {c : CmdSpec} {q : Req} {s : State} {st : Nat} (body : State → State × Rsp)
    (h : s.precheck c q = some st) : serve c q body s = s.stageRsp q.mbx { status := st, trivet := c.trivet } := by
  unfold serve
  rw [h]

/-- With no test that fails, the effect. -/
theorem State.check_pass (s : State) (tests : List (Bool × Rsp)) (e : State × Rsp) (h : ∀ t ∈ tests, t.1 = false) :
    s.check tests e = e := by
  unfold State.check
  rw [List.find?_eq_none.mpr (by simpa using h)]

/-- What a check answers: a failed test with the state as it was, or the effect. -/
theorem State.check_cases (s : State) (tests : List (Bool × Rsp)) (e : State × Rsp) :
    (∃ t ∈ tests, t.1 = true ∧ s.check tests e = (s, t.2)) ∨ s.check tests e = e := by
  unfold State.check
  cases h : tests.find? (·.1) with
  | none => exact .inr rfl
  | some t => exact .inl ⟨t, List.mem_of_find?_eq_some h, List.find?_some h, rfl⟩

end Sys2Proof.Machine
end

