-- ==== Sys2Proof/Laws/Ops.lean ====
section
/-! SUPPORT. What the shared operations do, each said once: field types bit by bit, access errors, plain register and
memory accesses, regions, events. -/

namespace Sys2Proof.Machine

/-! ### Field types (R12) -/

/-- Bit n of a register's mask of a type, from its fields. -/
def RegName.maskBit (r : RegName) (k : Kind) (n : Nat) : Bool :=
  r.fields.any fun f => decide (f.kind = k ∧ f.lo ≤ n ∧ n < f.lo + f.width)

/-- The masks of a register agree with its fields. -/
def RegName.masksOk (r : RegName) : Bool :=
  (List.range 32).all fun n => [Kind.ro, .rw, .w1c, .w1s, .wo, .rc].all fun k => (r.maskOf k).getLsbD n == r.maskBit k n

/-- The fields of a register lie in its 32 bits, and where two meet they have one type. -/
def RegName.fieldsOk (r : RegName) : Bool :=
  r.fields.all fun f => decide (f.lo + f.width ≤ 32) &&
    r.fields.all fun g => decide (f.lo + f.width ≤ g.lo ∨ g.lo + g.width ≤ f.lo ∨ f.kind = g.kind)

theorem RegName.masks_ok (r : RegName) : r.masksOk = true := by cases r <;> decide

theorem RegName.fields_ok (r : RegName) : r.fieldsOk = true := by cases r <;> decide

theorem RegName.maskOf_bit (r : RegName) (k : Kind) (n : Nat) (hn : n < 32) : (r.maskOf k).getLsbD n = r.maskBit k n := by
  have h := r.masks_ok
  simp only [RegName.masksOk, List.all_eq_true, List.mem_range, beq_iff_eq] at h
  exact h n hn k (by cases k <;> simp)

/-- A field's bits belong to the mask of its own type and no other. -/
theorem RegName.maskOf_field (r : RegName) (k : Kind) (n : Nat) {f : FieldSpec} (hf : f ∈ r.fields) (h1 : f.lo ≤ n)
    (h2 : n < f.lo + f.width) : (r.maskOf k).getLsbD n = decide (k = f.kind) := by
  have ho := r.fields_ok
  simp only [RegName.fieldsOk, List.all_eq_true, Bool.and_eq_true, decide_eq_true_eq] at ho
  have hw := (ho f hf).1
  rw [r.maskOf_bit k n (by omega)]
  by_cases hk : k = f.kind
  · subst hk
    simp only [RegName.maskBit, decide_true, List.any_eq_true, decide_eq_true_eq]
    exact ⟨f, hf, rfl, h1, h2⟩
  · simp only [hk, decide_false, RegName.maskBit, List.any_eq_false, decide_eq_true_eq]
    intro g hg hc
    rcases (ho f hf).2 g hg with h | h | h
    · omega
    · omega
    · exact hk (by rw [← hc.1, h])

/-- A bit outside every field belongs to no mask. -/
theorem RegName.maskOf_gap (r : RegName) (k : Kind) (n : Nat) (h : ∀ f ∈ r.fields, n < f.lo ∨ f.lo + f.width ≤ n) :
    (r.maskOf k).getLsbD n = false := by
  by_cases hn : n < 32
  · rw [r.maskOf_bit k n hn]
    simp only [RegName.maskBit, List.any_eq_false, decide_eq_true_eq]
    intro f hf hc
    rcases h f hf with h4 | h4 <;> omega
  · exact BitVec.getLsbD_of_ge _ _ (by omega)

/-- Registers at reset hold their reset values. -/
theorem State.reg_reset (r : RegName) (i : Nat) : State.reset.reg r i = r.resetValue i := by
  have hl := r.idx_lt
  have h1 : (256 * i + r.idx) % 256 = r.idx := by omega
  have h2 : (256 * i + r.idx) / 256 = i := by omega
  show regDefault (256 * i + r.idx) = _
  unfold regDefault
  rw [h1, h2, r.all_idx]

/-! ### Access errors (R104) -/

theorem State.accErr_tilin (s : State) (a c : Nat) : s.accErr .tilin a c = s := rfl

theorem State.accErr_reg (s : State) (p : Port) (a c : Nat) (r : RegName) (i : Nat) (h1 : r ≠ .SYS_ACC_ERR)
    (h2 : r ≠ .SYS_ACC_ADDR) (h3 : r ≠ .SYS_IRQ_STAT) : (s.accErr p a c).reg r i = s.reg r i := by
  have e1 : F.SYS_ACC_ERR_count.reg ≠ r := Ne.symm h1
  have e2 : F.SYS_IRQ_STAT_acc_err.reg ≠ r := Ne.symm h3
  unfold State.accErr
  split
  · rfl
  · split
    · rw [State.reg_setFld_ne _ _ _ _ e2]
      unfold State.bump
      rw [State.reg_setFld_ne _ _ _ _ e1]
    · rw [State.reg_setFld_ne _ _ _ _ e2, State.reg_setReg_ne _ _ _ _ (Ne.symm h2), State.reg_setReg_ne _ _ _ _ (Ne.symm h1)]

theorem State.accErr_idx (s : State) (p : Port) (a c : Nat) (r : RegName) (i : Nat) (h : i ≠ 0) :
    (s.accErr p a c).reg r i = s.reg r i := by
  have e : (0 : Nat) ≠ i := Ne.symm h
  unfold State.accErr
  split
  · rfl
  · split
    · rw [State.reg_setFld_idx _ _ _ _ e]
      unfold State.bump
      rw [State.reg_setFld_idx _ _ _ _ e]
    · rw [State.reg_setFld_idx _ _ _ _ e, State.reg_setReg_idx _ _ _ _ e, State.reg_setReg_idx _ _ _ _ e]

theorem State.accErr_regsBut (s : State) (p : Port) (a c : Nat) :
    RegsBut [(.SYS_ACC_ERR, 0), (.SYS_ACC_ADDR, 0), (.SYS_IRQ_STAT, 0)] s (s.accErr p a c) := by
  intro r i h
  by_cases hi : i = 0
  · subst hi
    simp only [List.mem_cons, Prod.mk.injEq, and_true, List.not_mem_nil, or_false, not_or] at h
    exact State.accErr_reg s p a c r 0 h.1 h.2.1 h.2.2
  · exact State.accErr_idx s p a c r i hi

@[simp] theorem State.accErr_mem (s : State) (p : Port) (a c : Nat) : (s.accErr p a c).mem = s.mem := by
  unfold State.accErr State.bump
  split
  · rfl
  · split <;> rfl

@[simp] theorem State.accErr_pending (s : State) (p : Port) (a c : Nat) : (s.accErr p a c).pending = s.pending := by
  unfold State.accErr State.bump
  split
  · rfl
  · split <;> rfl

/-! ### Plain register accesses (R12, R71) -/

theorem State.writeCopy_plain (s : State) (p : Port) (r : RegName) (i : Nat) (v : Word) (h : r.plainWrite = true) :
    s.writeCopy p r i v = s.writeTyped r i v := by
  revert h
  cases r <;> first | (intro _; rfl) | (intro h; exact absurd h (by decide))

theorem State.refresh_plain (s : State) (r : RegName) (i : Nat) (h : r.plainRead = true) : s.refresh r i = s := by
  revert h
  cases r <;> first | (intro _; rfl) | (intro h; exact absurd h (by decide))

theorem State.readCopy_plain (s : State) (p : Port) (r : RegName) (i : Nat) (h : r.plainRead = true) :
    s.readCopy p r i =
      (r.readable (s.reg r i), if r.hasRc then s.setReg r i (r.cleared (s.reg r i)) else s) := by
  have h2 := State.refresh_plain s r i h
  revert h
  cases r <;> first | (intro h; exact absurd h (by decide)) | (intro _; simp only [State.readCopy, h2])

theorem State.writeReg_free (s : State) (p : Port) (a : Nat) (v : Word) (r : RegName) (i : Nat) (h1 : plainAddr a)
    (h2 : s.regAt p a = some (r, i)) (h4 : r.resource i = none) :
    (s.writeReg p a v).2 = (s.targets p r i).foldl (fun s j => s.writeCopy p r j v) s := by
  have hn : ¬ 0xC000 ≤ a := Nat.not_le.2 h1.1
  simp [State.writeReg, hn, h1.2, h2, h4]

theorem State.writeReg_plain (s : State) (p : Port) (a : Nat) (v : Word) (r : RegName) (i : Nat) (h1 : plainAddr a)
    (h2 : s.regAt p a = some (r, i)) (h3 : r.plainWrite = true) (h4 : r.resource i = none)
    (h5 : s.targets p r i = [i]) : (s.writeReg p a v).2 = s.setReg r i (r.written (s.reg r i) v) := by
  rw [State.writeReg_free s p a v r i h1 h2 h4, h5]
  simp [State.writeCopy_plain _ _ _ _ _ h3, State.writeTyped]

theorem State.writeReg_unheld (s : State) (p : Port) (a : Nat) (v : Word) (r : RegName) (i ty j : Nat) (h1 : plainAddr a)
    (h2 : s.regAt p a = some (r, i)) (h3 : r.resource i = some (ty, j)) (h4 : s.portHolds p ty j = false) :
    (s.writeReg p a v).2 = s.accErr p a errClaim := by
  have hn : ¬ 0xC000 ≤ a := Nat.not_le.2 h1.1
  simp [State.writeReg, hn, h1.2, h2, h3, h4]

theorem State.writeReg_held (s : State) (p : Port) (a : Nat) (v : Word) (r : RegName) (i ty j : Nat) (h1 : plainAddr a)
    (h2 : s.regAt p a = some (r, i)) (h3 : r.resource i = some (ty, j)) (h4 : s.portHolds p ty j = true) :
    (s.writeReg p a v).2 = s.writeCopy p r i v := by
  have hn : ¬ 0xC000 ≤ a := Nat.not_le.2 h1.1
  simp [State.writeReg, hn, h1.2, h2, h3, h4]

/-! ### Memory accesses of a host (R456) -/

theorem State.target_larder_high (s : State) (a t : Nat) (h : s.target a = .larder t) : ¬ a < 0x10000 := by
  intro h2
  simp [State.target, h2] at h

theorem State.writeMem_ok (s : State) (p : Port) (a : Nat) (v : Word) (h : s.writable p a) :
    (s.writeMem p a v).2 = s.setMemWord a v := by
  obtain ⟨t, a1, a2, a3, a4, a5⟩ := h
  simp [State.writeMem, a1, a2, a3, a4, a5]

theorem State.readMem_ok (s : State) (p : Port) (a : Nat) (h : s.readableMem a) : s.readMem p a = (s.memWord a, 0, s) := by
  obtain ⟨t, a1, a2, a3⟩ := h
  simp [State.readMem, a1, a2, a3]

/-! ### Regions of a command (R604) -/

theorem State.firstUnheld_none (s : State) (m ty f n : Nat) (h : ∀ i < n, s.holds m ty (f + i) = true) :
    s.firstUnheld m ty f n = none := by
  unfold State.firstUnheld
  simp only [List.find?_eq_none, List.mem_map, List.mem_range, forall_exists_index, and_imp,
    forall_apply_eq_imp_iff₂, Bool.not_eq_true', Bool.not_eq_false]
  intro i hi
  exact h i hi

theorem State.regionHeld_ok (s : State) (q : Req) (n need : Nat) (h : s.regionOk q n need) : (s.regionHeld q n).1 = false := by
  unfold State.regionHeld
  rw [State.firstUnheld_none _ _ _ _ _ h.2.2]

theorem State.regionBad_ok (s : State) (q : Req) (n need : Nat) (h : s.regionOk q n need) : (regionBad q n need).1 = false := by
  obtain ⟨a, b, _⟩ := h
  simp only [regionBad, decide_eq_false_iff_not]
  omega

end Sys2Proof.Machine
end

