-- ==== Sys2Proof/WellFormed.lean ====
section
/-! DEFINITION. Commands as the block can be given them: every operand within what the spec numbers. A command outside
these ranges names a register copy, a path, a beam, a unit that no CZ6464 has. -/

namespace Sys2Proof

/-- A request that Tilin serves comes from MBX0 to MBX6 (R85, R600), with an 8-bit tag and at most 63 argument words (R78,
R79). -/
def Req.wf (q : Req) : Bool := decide (q.mbx < 7) && decide (q.tag < 256) && decide (q.args.length ≤ 63)

/-- A request that Trivet serves comes from MBX7 (R89). -/
def Req.wfTrivet (q : Req) : Bool := decide (q.mbx = 7) && decide (q.tag < 256) && decide (q.args.length ≤ 63)

/-- A command is well formed. -/
def Instr.wf : Instr → Bool
  | .versionGet q => q.wf
  | .sysStateGet q => q.wf
  | .modeSet q => q.wf
  | .modeCancel q => q.wf
  | .modeCfgSet q => q.wf
  | .evtRingSet q => q.wf
  | .resClaim q => q.wf
  | .resRelease q => q.wf
  | .resQuery q => q.wf
  | .trvState q => q.wfTrivet
  | .trvFaultLog q => q.wfTrivet
  | .trvBootExec q => q.wfTrivet
  | .trvMgmtReset q => q.wfTrivet
  | .trvDeviceReset q => q.wfTrivet
  | .loTune q => q.wf
  | .radioCfgSet q => q.wf
  | .radioStateGet q => q.wf
  | .radioSideSet q => q.wf
  | .rxGainSet q => q.wf
  | .rffeXfer q => q.wf
  | .rffeSeqLoad q => q.wf
  | .rffeSeqArm q => q.wf
  | .sieveCfgSet q => q.wf
  | .sieveFirLoad q => q.wf
  | .sieveFirSwap q => q.wf
  | .sieveFirRead q => q.wf
  | .coexCfgSet q => q.wf
  | .coexStatGet q => q.wf
  | .clkCfgSet q => q.wf
  | .clkStatGet q => q.wf
  | .clkResume q => q.wf
  | .beamCfgSet q => q.wf
  | .beamWeightLoad q => q.wf
  | .beamSwap q => q.wf
  | .beamWeightRead q => q.wf
  | .txbCfgSet q => q.wf
  | .txbLinkTcSet q => q.wf
  | .profileLoad q => q.wf
  | .codeLoad q => q.wf
  | .profileEnable q => q.wf
  | .detThrSet q => q.wf
  | .tongsPolicySet q => q.wf
  | .tongsPolicyGet q => q.wf
  | .placeLogSet q => q.wf
  | .ctxRead q => q.wf
  | .ctxSummary q => q.wf
  | .bgLoad q => q.wf
  | .decCfgSet q => q.wf
  | .backlogCfgSet q => q.wf
  | .backlogStat q => q.wf
  | .paCfgSet q => q.wf
  | .paSeq q => q.wf
  | .paBiasStrobe q => q.wf
  | .ackCfgSet q => q.wf
  | .ackStat q => q.wf
  | .dpdCfgSet q => q.wf
  | .dpdCoefLoad q => q.wf
  | .dpdCoefRead q => q.wf
  | .dpdReset q => q.wf
  | .orxCapture q => q.wf
  | .dpdStatGet q => q.wf
  | .calRun q => q.wf
  | .calCfgSet q => q.wf
  | .calStatGet q => q.wf
  | .calRestore q => q.wf
  | .calNetLoad q => q.wf
  | .calResultRead q => q.wf
  | .linkCfgSet q => q.wf
  | .linkStateGet q => q.wf
  | .linkRetrain q => q.wf
  | .linkLoopSet q => q.wf
  | .frameContentSet q => q.wf
  | .frameStatGet q => q.wf
  | .timeCfgSet q => q.wf
  | .timeStep q => q.wf
  | .timeGet q => q.wf
  | .tcArm q => q.wf
  | .tcDisarm q => q.wf
  | .tileSeal q => q.wf
  | .tileOpen q => q.wf
  | .tileVerify q => q.wf
  | .memStat q => q.wf
  | .quarList q => q.wf
  | .quarRetest q => q.wf
  | .dmaCfgSet q => q.wf
  | .pwrDomainSet q => q.wf
  | .pwrOpSet q => q.wf
  | .pwrStatGet q => q.wf
  | .vmonCfgSet q => q.wf
  | .faultStatGet q => q.wf
  | .faultInject q => q.wf
  | .cspiWrite addr _ _ => decide (addr < 2 ^ 24)
  | .cspiRead addr _ _ => decide (addr < 2 ^ 24)
  | .cspiStatus => true
  | .cspiUnknownOpcode op => decide (op < 256)
  | .regWr addr count _ => decide (addr < 2 ^ 40) && decide (count < 65536)
  | .regRd addr count => decide (addr < 2 ^ 40) && decide (count < 65536)
  | .mbxReq mbx _ args => decide (mbx < 8) && decide (args.length ≤ 255)
  | .regRdRsp addr count cause _ => decide (addr < 2 ^ 40) && decide (count < 65536) && decide (cause < 256)
  | .registerWrite _ addr _ => decide (addr < 2 ^ 16)
  | .rcRegisterRead _ addr => decide (addr < 2 ^ 16)
  | .timeNsRead _ => true
  | .mailboxRing _ n => decide (n < 8)
  | .mailboxAck _ n => decide (n < 8)
  | .beamSelWrite _ _ => true
  | .tcCtlWrite _ unit _ => decide (unit < 16)
  | .tsOffsetWrite _ _ => true
  | .dmaChCtlWrite _ ch _ => decide (ch < 32)
  | .auxSeqCtlWrite _ _ => true
  | .watchdogKick => true
  | .commandTake => true
  | .commandFinish f => decide (f.mailbox < 8)
  | .rateLimitWindowEnd _ _ => true
  | .powerOnReset => true
  | .resetNRise bootSrc _ => decide (bootSrc < 4)
  | .supplyCheckEnd => true
  | .hoscReady _ => true
  | .imageLoadDone _ => true
  | .imageVerifyDone _ => true
  | .calibratingEntry _ => true
  | .startupCalStepDone _ => true
  | .clkNoRefTick => true
  | .resetNAssert => true
  | .deviceResetRelease bootSrc _ => decide (bootSrc < 4)
  | .refclkActivityLoss => true
  | .clockMonitorWindow _ _ => true
  | .refOkRestored => true
  | .clockResumeDone => true
  | .hoscStop => true
  | .spllLockLoss q => decide (q < 4)
  | .spllRelock q => decide (q < 4)
  | .paceMonitorRefresh index => decide (index < 65536)
  | .gateHandshakeTimeout d b _ => decide (d < 48) && decide (b < 32)
  | .loLockLoss q _ => decide (q < 4)
  | .loLock q _ => decide (q < 4)
  | .operatingPointStep d => decide (d < 48)
  | .colDividerRampStep => true
  | .timeNsWrap => true
  | .ppsEdge _ frac => decide (frac < 65536)
  | .ppsLossTimeout => true
  | .timeMarkSend => true
  | .timeMarkReceived seq compl _ frac => decide (seq < 65536) && decide (compl < 65536) && decide (frac < 65536)
  | .markInfoReceived _ => true
  | .tcFire unit => decide (unit < 16)
  | .preparationDeadline unit => decide (unit < 16)
  | .modePrepStart => true
  | .modeDrainEnd => true
  | .forcedModeChange => true
  | .sentinelDwellBoundary => true
  | .sentinelRunRestart => true
  | .sentinelPrewake => true
  | .overloadStart p c _ _ => decide (p < 64) && decide (c < 2)
  | .loopFilterRelease p c => decide (p < 64) && decide (c < 2)
  | .overloadEnd p c _ => decide (p < 64) && decide (c < 2)
  | .disturbanceWindowClose p => decide (p < 64)
  | .noiseFloorBlock p _ _ _ _ _ => decide (p < 64)
  | .noiseFloorStale _ n => decide (n < 64)
  | .beamMeterBlock b _ _ => decide (b < 64)
  | .rffeTransactionDone q data _ => decide (q < 4) && decide (data.all (· < 256))
  | .sieveFadeEnd q => decide (q < 4)
  | .rxFifoOverflow fifo _ => decide (fifo < 128)
  | .txFifoEmpty beam => decide (beam < 32)
  | .burstAirEnd u => decide (u < 16)
  | .paOnStart p => decide (p < 64)
  | .paOffStart p => decide (p < 64)
  | .paDelayExpiry p => decide (p < 64)
  | .biasSlewTick p => decide (p < 64)
  | .biasCurrentLimitHold p => decide (p < 64)
  | .dacQueueUnderflow p => decide (p < 64)
  | .dacQueueRefilled p => decide (p < 64)
  | .loOffsetMove u => decide (u < 16)
  | .burstHoldPoint u => decide (u < 16)
  | .coexGntRise => true
  | .burstHoldExpiry u => decide (u < 16)
  | .coexGntFall => true
  | .burstWake u => decide (u < 16)
  | .txReturnCheck q => decide (q < 4)
  | .sideTransitionDone q _ => decide (q < 4)
  | .dpdApplyStep p => decide (p < 64)
  | .adaptCaptureStart q u => decide (q < 4) && decide (u < 16)
  | .orxCaptureEnd q _ => decide (q < 4)
  | .dpdFitStart q k => decide (q < 4) && decide (k < 12)
  | .dpdFitStale q => decide (q < 4)
  | .dpdFitDone q _ => decide (q < 4)
  | .detection d => decide (d.beam < 64 ∧ d.code < 16)
  | .preambleTrainingDone c _ => decide (c < 256)
  | .syncMatch c _ _ _ _ => decide (c < 256)
  | .syncWindowEnd c => decide (c < 256)
  | .captureCheckEnd c _ => decide (c < 256)
  | .headerComplete c _ _ => decide (c < 256)
  | .lockLost c _ _ => decide (c < 256)
  | .lastPayloadSymbol c _ _ => decide (c < 256)
  | .ldpcContextStart k => decide (k < 12)
  | .ldpcBlockEnd k => decide (k < 12)
  | .ldpcBlockOverrun k => decide (k < 12)
  | .decodingEnd c => decide (c < 256)
  | .sicRetryStart => true
  | .retentionExpiry => true
  | .recordCommitted => true
  | .backlogSealTimeout => true
  | .frameStart => true
  | .frameSent => true
  | .creditFrame _ => true
  | .burstFrame beam _ => decide (beam < 32)
  | .burstSampleFrame beam id m _ b => decide (beam < 32) && decide (id < 256) &&
    decide (6 ≤ m ∧ m ≤ 12 ∨ m = 16) && decide (b.blocks < 512) && decide (b.bytes.length ≤ 9196)
  | .creditGrantTimer => true
  | .eventFrameClose => true
  | .iqFrameFormed stream _ blocks => decide (stream < 256) && decide (blocks < 512)
  | .degradeMeasureWindow _ => true
  | .laneSignalDetect lane => decide (lane < 8)
  | .blockLockGain lane _ => decide (lane < 8)
  | .blockLockLoss lane => decide (lane < 8)
  | .amRowReceived _ => true
  | .amLockLoss lane => decide (lane < 8)
  | .amRowSend => true
  | .helloSend => true
  | .helloRowReceived _ => true
  | .lstatReceived _ => true
  | .bondRowReceived _ => true
  | .fillerRowReceived fill => decide (fill < 256)
  | .fillerRowSend => true
  | .trainingTimeout => true
  | .helloSilence => true
  | .backoffEnd => true
  | .fallbackExpiry => true
  | .laneRetrainRestart lane => decide (lane < 8)
  | .lnkRefclkLoss => true
  | .deferredLinkChange => true
  | .pantryTrainingDone _ _ _ _ => true
  | .dqsRetrain _ => true
  | .descriptorFetched ch => decide (ch < 32)
  | .descriptorComplete ch => decide (ch < 32)
  | .dmaResponseTimeout ch => decide (ch < 32)
  | .auxConversionDone code => decide (code < 65536)
  | .auxPacedSweep => true
  | .calEntry q _ => decide (q < 4)
  | .calEntryTimeout q => decide (q < 4)
  | .calRunEnd q _ => decide (q < 4)
  | .kettleCheck _ => true
  | .kettleSetEnd q _ _ => decide (q < 4)
  | .phaseTrackingRound _ _ => true
  | .correctionStep q _ => decide (q < 4)
  | .domainBlockAnswer d b => decide (d < 48) && decide (b < 32)
  | .domainAnswerTimeout => true
  | .domainTransitionDone d => decide (d < 48)
  | .mgmtWait _ => true
  | .skilletWait k _ => decide (k < 12)
  | .headerSag d => decide (d < 48)
  | .vmonWarnCrossing rail code => decide (rail < 8) && decide (code < 65536)
  | .vmonWarnRecovery rail code => decide (rail < 8) && decide (code < 65536)
  | .vmonRstCrossing rail code => decide (rail < 8) && decide (code < 65536)
  | .temperatureRead codes => decide (codes.all (· < 65536))
  | .thermHoldClear => true
  | .skilletParityError k => decide (k < 12)
  | .mgmtException => true
  | .watchdogExpiry => true
  | .mgmtResumeDone => true
  | .recoveryEnd _ _ => true
  | .headerGoodFlagReturn d => decide (d < 48)
  | .lnkRefclkRestored => true
  | .frameDiscard _ bytes => decide (bytes.length ≤ 9216)
  | .retentionTileAllocation c => decide (c < 256)
  | .burstPathSumStart u => decide (u < 16)
  | .unneededDomainEntry => true
  | .txbOpfRaise => true
  | .blockLockHeld => true
  | .deferredTrivetReset => true
  | .pathSumSaturation p => decide (p < 64)
  | .actuatorSaturation p _ => decide (p < 64)

/-- Well-formed commands. -/
abbrev WellFormed (i : Instr) : Prop := i.wf = true

end Sys2Proof
end

