-- ==== Sys2Proof/Tests/Slice0.lean ====
section
/-! SUPPORT. Tests of the model: ill-formed commands, the spec's worked examples, and for every statement with hypotheses a state and
operands that meet them, clause by clause. -/

namespace Sys2Proof.Tests
open Sys2Proof Sys2Proof.Machine

set_option Elab.async false

/-- A request of mailbox 1 with these argument words. -/
def req (l : List Word) : Req := ⟨1, 5, l⟩

/-- Mailbox 1 holds index i of a type. -/
def own (ty i : Nat) : Nat × Option Claim := (8192 * ty + i, some ⟨1, 0, false, 0, 0⟩)

/-- READY at time 0, the counter running off HOSC, mailbox 1 holding GPIO 0, TC units 0 to 2, DMA channel 0, ORX 0, strobe 0, the
auxiliary sequencer and 18 tiles from 200. -/
def rdy : State :=
  ({ State.reset with
    sys := { State.reset.sys with
      resetN := true
      claims := [own 1 0, own 2 0, own 2 1, own 2 2, own 3 0, own 4 0, own 5 0, own 6 0] ++
        (List.range 18).map fun i => own 7 (200 + i) }
    time := { State.reset.time with running := true } } : State).setFld F.SYS_STATE_stage 0 7 |>.setFld F.CLK_STAT_on_hosc 0 0
      |>.setFld F.TIME_STAT_on_hosc 0 0

/-- The same with OPL UP, and tile 200 claimed through the link. -/
def lnk : State :=
  { rdy.setFld F.LNK_STAT_state 0 5 with
    sys := { rdy.sys with claims := [(57344 + 200, some ⟨1, 1, false, 0, 0⟩)] } }

/-- READY with CSPI's window on the Larder. -/
def win : State := rdy.setFld F.SYS_CSPI_CFG_win_base 0 8

/-- Ladle channel 0 with a remote read of one word at 64 on its way, in a phase. -/
def remoteRead (phase : Nat) : State :=
  { lnk with mem := { lnk.mem with ch := [(0, { phase := phase, want := some (64, 1), issued := some 0 })] } }

/-- Mailbox 1 BUSY with a request, as `m` has it. -/
def busy (m : MbxSt) : State :=
  { rdy.setFld F.SYS_MBX_STAT_state 1 1 with sys := { rdy.sys with mbx := [(1, m)] } }

/-- A fault entry that runs. -/
def running (code unit : Nat) : State := { rdy with flt := { rdy.flt with running := some ⟨code, unit, 2, 0, 0⟩ } }

/-- A burst of beam 0 in the air from 1 ms to 2 ms. -/
def bst (ph : BPhase) : Burst := { beam := 0, ack := false, air := 1000000, fin := 2000000, lead := 5000, phase := ph }

/-- READY with that burst on unit 3, beam 0 on quadrant 0, path 0 with its PA in OFF. -/
def air (ph : BPhase) : State :=
  ((rdy.setFld F.TXB_CFG_qmask 0 1).setFld F.TX_PATH_STAT_pa_state 0 1).setBurst 3 (some (bst ph))

/-- READY with path 0 ACTIVE. -/
def act : State := rdy.setFld F.RX_PATH_STAT_state 0 2

/-- READY with the TX side of quadrant 0 in TX. -/
def txOn : State := rdy.setFld F.RADIO_STAT_tx_state 0 3

/-- READY with the RX side of quadrant 0 in a state. -/
def rxAt (st : Nat) : State := rdy.setFld F.RADIO_STAT_rx_state 0 st

theorem energy_replicate (n : Nat) (w : Word) : energyOf (List.replicate n w) = n * energyOf [w] := by
  have h : ∀ n a, (List.replicate n w).foldl
      (fun n w => n + ((iqOf w).1 * (iqOf w).1 + (iqOf w).2 * (iqOf w).2).toNat) a = a + n * energyOf [w] := by
    intro n
    induction n with
    | zero => simp
    | succ n ih =>
      intro a
      simp only [List.replicate_succ, List.foldl_cons, ih]
      simp only [energyOf, List.foldl_cons, List.foldl_nil]
      rw [Nat.add_mul]
      omega
  have := h n 0
  simpa [energyOf] using this

theorem energy_append (l m : List Word) : energyOf (l ++ m) = energyOf l + energyOf m := by
  have h : ∀ (m : List Word) a, m.foldl
      (fun n w => n + ((iqOf w).1 * (iqOf w).1 + (iqOf w).2 * (iqOf w).2).toNat) a = a + energyOf m := by
    intro m
    induction m with
    | nil => simp [energyOf]
    | cons x m ih =>
      intro a
      simp only [energyOf, List.foldl_cons]
      rw [ih, ih]
      omega
  rw [energyOf, List.foldl_append, h]
  rfl

/-- The actuator outputs of a path that has just begun. -/
def loud : List (Int × Int) := List.replicate 8 (32767, 32767)

theorem cap_words (s : State) (w : Word) (h : (s.txPath 0).map (·.ys) = some loud) (d : (s.dpdOf 0).loopNs = 0) :
    s.capWords 0 (List.replicate 8192 w) = List.replicate 8192 w ++ (List.replicate 8184 0 ++ List.replicate 8 0x7FFF7FFF) := by
  obtain ⟨x, hx, hy⟩ := Option.map_eq_some_iff.mp h
  have e : (List.replicate 8 ((32767 : Int), (32767 : Int)) ++ List.replicate 9216 (0, 0)).take 8192 =
      List.replicate 8 (32767, 32767) ++ List.replicate 8184 (0, 0) := by
    rw [List.take_append]
    simp only [List.take_replicate, List.length_replicate]
    rfl
  simp only [State.capWords, d, hx, hy, loud]
  rw [show (0 * 24576 + 50000) / 100000 = 0 from rfl, List.drop_zero, e, List.reverse_append, List.map_append,
    List.reverse_replicate, List.reverse_replicate, List.map_replicate, List.map_replicate]
  rfl

theorem cap_none (s : State) (a : Bool) (h : (s.txPath 0).map (·.ys) = some loud) (d : (s.dpdOf 0).loopNs = 0)
    (e : a = false) : capSkip (s.capWords 0 (List.replicate 8192 0x40004000)) a = none := by
  subst e
  have e : (decide (32767 ≤ (iqOf 0x40004000).1.natAbs ∨ 32767 ≤ (iqOf 0x40004000).2.natAbs)) = false := by decide
  have f : energyOf [0x40004000] = 2 ^ 29 := by decide
  have g : energyOf [0] = 0 := by decide
  have k : energyOf [0x7FFF7FFF] = 2 * 32767 ^ 2 := by decide
  rw [cap_words s _ h d]
  have t : ∀ m : List Word, (List.replicate 8192 (0x40004000 : Word) ++ m).take 8192 = List.replicate 8192 0x40004000 :=
    fun m => List.take_left' (List.length_replicate ..)
  have r : ∀ m : List Word, (List.replicate 8192 (0x40004000 : Word) ++ m).drop 8192 = m :=
    fun m => List.drop_left' (List.length_replicate ..)
  simp only [capSkip, t, r, energy_append, energy_replicate, e, f, g, k, List.any_replicate]
  decide

theorem cap_aborted (l : List Word) (a : Bool) (h : a = true) : capSkip l a = some skAborted := by
  subst h
  rfl

/-- A waveform profile: 1 Mchip/s, 8 chips a symbol, payloads to 100 bytes, base graph 0. -/
def prof : Profile := Profile.ofWords [0x030F4240, 0x01004014, 0, 0, 0x11010064, 0x10000004, 0, 0, 0x5A]

/-- A base graph of rate 1/4, lifting size 63. -/
def graph : BaseGraph :=
  BaseGraph.ofWords [0x00040421, 0x00040041, 0, 0x40000000, 0, 0, 0, 0, 0, 0, 0x00002100, 0x00002201, 0x00002302, 0x00002403]

/-- RECEPTION with profile, code slot and graph 0 loaded, and context 0 as `x` has it. -/
def rcv (x : Ctx) : State :=
  { rdy.setFld F.SYS_MODE_mode 0 2 with
    mode := { rdy.mode with preset := 2 }
    rxb := { rdy.rxb with
      profiles := [(0, some prof)], codes := [(0, some ⟨0, [0x5A]⟩)], bg := [(0, some graph)], profMask := 1
      codeMask := 1, ctx := [(0, x)] } }

/-- The same with beam 0 enabled and its floor known: the correlator works. -/
def search (x : Ctx) : State := (rcv x).setFld F.BEAM_RX_STAT_enabled 0 1 |>.setFld F.BEAM_RX_NF_valid 0 1

/-- What the correlator has of a signal in code slot 0 whose only symbol begins 16 half chips before time 0. -/
def heard : DetLine :=
  { next := 8
    l := (List.range 32).map fun i =>
      ((if i % 2 = 1 ∧ 7 < i ∧ i < 24 then 1000 * codeChip [0x5A] ((23 - i) / 2) else 0, 0), true) }

/-- The correlator has heard it on beam 0; context 0 as `x` has it. -/
def heardIn (x : Ctx) : State :=
  let s := (search x).setFld F.BEAM_RX_NF_nf 0 0xFE70
  { s with
    rxb := { s.rxb with profiles := [(0, some { prof with detSymbols := 1 })] }
    dp := { s.dp with det := [(0, some heard)] } }

/-- What the correlator reports of that symbol. -/
def hearing (x : Ctx) : Det × Profile × Nat :=
  match (heardIn x).report_ 0 0 0 (-16) 0 with
  | some r => r
  | none => (⟨0, 0, 0, 0, 0, 0, 0, 0, []⟩, prof, 0)

theorem hearing_eq (x : Ctx) (h : ((heardIn x).report_ 0 0 0 (-16) 0).isSome = true) :
    (heardIn x).report_ 0 0 0 (-16) 0 = some ((hearing x).1, (hearing x).2.1, (hearing x).2.2) := by
  unfold hearing
  split
  · rename_i r e
    rw [e]
  · rename_i e
    rw [e] at h
    exact absurd h (by decide)

/-- An equaliser that has just begun. -/
def eqz : EqSt :=
  { beams := [0], prof := 0, preCode := [0x5A], first := 0, centre := [], inc := 0, u := 0, sym := 0, lines := [[]], w := [[]]
    ff := [], fb := [], swapLeft := [0] }

/-- RECEPTION with context 0 as `x` has it and its equaliser. -/
def rcvEq (x : Ctx) (e : EqSt) : State :=
  let s := rcv x
  { s with dp := { s.dp with eq := [(0, some e)] } }

/-- The header of one payload byte at rate 1/4. -/
def hdr1 : Header := ⟨0, 0, 0, 1, 0, 0, headerCrc 0x100⟩

/-- Soft values that spell a header. -/
def soft (h : Nat) : List Int := (List.range 120).map fun i => if h.testBit (i % 40) then -1 else 1

/-- A context whose header is `hdr1` in DECODE. -/
def dec : Ctx := { state := .decode, hdr := some hdr1 }

/-- A candidate for interference cancellation. -/
def cand1 : Cand := { ctxNo := 3, ctx := {}, expiry := 1000, queued := true }

/-- A frame of 8,192 payload bytes on stream 0x10. -/
def full : Frame := { stream := 0x10, payload := List.replicate 8192 0 }

/-- A frame of 24 bytes on stream 0x00 with its CRC. -/
def frame24 : List Byte :=
  let l : List Byte := [1, 0, 0, 0, 0, 0, 3, 0] ++ List.replicate 12 0
  l ++ (List.range 4).map fun i => BitVec.ofNat 8 (crc32 l / 2 ^ (8 * i))

theorem buffered (s : State) (n : Nat) (h : s.link.ready = [(0x10, List.replicate 129 full)]) : 2 ^ 20 < s.iqBuffered + n := by
  have e : 1024 ≤ full.len8 := by
    have h : full.payload.length = 8192 := List.length_replicate
    simp only [Frame.len8, h]
    decide
  have f : ∀ k a, (List.replicate k full).foldl (fun n f => n + 8 * f.len8) a = a + k * (8 * full.len8) := by
    intro k
    induction k with
    | zero => simp
    | succ k ih =>
      intro a
      simp only [List.replicate_succ, List.foldl_cons, ih, Nat.add_mul]
      omega
  have g : isIq 0x10 = true := by decide
  simp only [State.iqBuffered, h, List.foldl_cons, List.foldl_nil, g, if_true, f]
  omega

theorem one_add_ne (x : BitVec 32) : 1 + x ≠ x := by
  intro h
  have := congrArg BitVec.toNat h
  simp [BitVec.toNat_add] at this
  omega

theorem cool_warned (s : State) (l : List Nat) (h : s.flt.warned = false) :
    ((s.rearmWarn l).noteCool l).flt.warned = false := by
  simp only [State.noteCool, State.rearmWarn]
  split
  · rfl
  · exact h

theorem cool_crit (s : State) (l : List Nat) (h : s.flt.crit = false) : ((s.rearmWarn l).noteCool l).flt.crit = false := by
  simp only [State.noteCool, State.rearmWarn]
  split <;> exact h

theorem crc_zero (n : Nat) : (List.replicate n (0 : Byte)).foldl (crcByte 0xEDB88320) 0 = 0 := by
  induction n with
  | zero => rfl
  | succ n ih =>
    rw [List.replicate_succ, List.foldl_cons, show crcByte 0xEDB88320 0 0 = 0 from by decide, ih]

/-- The bytes of a configuration profile with a network table whose first word brings the CRC register to 0. -/
def prl : List Byte :=
  [0x43, 0x50, 0x52, 0x31, 0xFF, 0xFF, 0xFF, 0xFF] ++ ([1, 0, 0, 0, 134, 71, 7, 102] ++ List.replicate 284 0)

theorem prl_ok : profileOk prl = true := by
  have h : crc32 (prl.drop 8) = 0xFFFFFFFF := by
    have d : prl.drop 8 = [1, 0, 0, 0, 134, 71, 7, 102] ++ List.replicate 284 (0 : Byte) :=
      List.drop_left' (l₁ := ([0x43, 0x50, 0x52, 0x31, 0xFF, 0xFF, 0xFF, 0xFF] : List Byte)) rfl
    rw [d, crc32, crc32r]
    rw [List.foldl_append, show [1, 0, 0, 0, 134, 71, 7, 102].foldl (crcByte 0xEDB88320) 0xFFFFFFFF = 0 from by decide +kernel,
      crc_zero]
    rfl
  simp only [profileOk, h]
  decide +kernel

/-! ### Well-formedness -/

/-- Requests out of range, and one ill-formed command for each check of the other rows, are refused. -/
theorem test_ill_formed_requests :
    ([.versionGet ⟨7, 0, []⟩, .versionGet ⟨1, 256, []⟩, .versionGet ⟨1, 0, List.replicate 64 0⟩, .trvState ⟨6, 0, []⟩,
     .trvState ⟨7, 256, []⟩, .trvState ⟨7, 0, List.replicate 64 0⟩] : List Instr).all (fun i => !i.wf) = true := by
  decide +kernel

theorem test_ill_formed_1 :
    ([.cspiWrite (2 ^ 24) 0 [], .cspiRead (2 ^ 24) 0 none, .cspiUnknownOpcode 256, .regWr (2 ^ 40) 0 [],
     .regWr 0 65536 [], .regRd (2 ^ 40) 0, .regRd 0 65536, .mbxReq 8 0 [], .mbxReq 0 0 (List.replicate 256 0),
     .regRdRsp (2 ^ 40) 0 0 [], .regRdRsp 0 65536 0 [], .regRdRsp 0 0 256 [], .registerWrite .cspi (2 ^ 16) 0,
     .rcRegisterRead .cspi (2 ^ 16), .mailboxRing .cspi 8, .mailboxAck .cspi 8, .tcCtlWrite .cspi 16 0,
     .dmaChCtlWrite .cspi 32 0, .commandFinish ⟨8, false⟩, .resetNRise 4 false, .deviceResetRelease 4 false,
     .spllLockLoss 4, .spllRelock 4, .paceMonitorRefresh 65536, .gateHandshakeTimeout 48 0 .nobody,
     .gateHandshakeTimeout 0 32 .nobody, .loLockLoss 4 false, .loLock 4 false, .operatingPointStep 48,
     .ppsEdge 0 65536, .timeMarkReceived 65536 0 0 0, .timeMarkReceived 0 65536 0 0, .timeMarkReceived 0 0 0 65536,
     .tcFire 16, .preparationDeadline 16, .overloadStart 64 0 false ⟨0, 0⟩, .overloadStart 0 2 false ⟨0, 0⟩,
     .loopFilterRelease 64 0, .loopFilterRelease 0 2, .overloadEnd 64 0 0] : List Instr).all (fun i => !i.wf) = true := by
  decide +kernel

theorem test_ill_formed_2 :
    ([.overloadEnd 0 2 0, .disturbanceWindowClose 64, .noiseFloorBlock 64 () 0 0 0 false, .noiseFloorStale false 64,
     .beamMeterBlock 64 0 ⟨0, false, false, false, false, false⟩, .rffeTransactionDone 4 [] false,
     .rffeTransactionDone 0 [256] false, .sieveFadeEnd 4, .rxFifoOverflow 128 0, .txFifoEmpty 32, .burstAirEnd 16,
     .paOnStart 64, .paOffStart 64, .paDelayExpiry 64, .biasSlewTick 64, .biasCurrentLimitHold 64,
     .dacQueueUnderflow 64, .dacQueueRefilled 64, .loOffsetMove 16, .burstHoldPoint 16, .burstHoldExpiry 16,
     .burstWake 16, .txReturnCheck 4, .sideTransitionDone 4 false, .dpdApplyStep 64, .adaptCaptureStart 4 0,
     .adaptCaptureStart 0 16, .orxCaptureEnd 4 [], .dpdFitStart 4 0, .dpdFitStart 0 12, .dpdFitStale 4,
     .dpdFitDone 4 ⟨[], false, 0, 0, 0, 0⟩, .detection ⟨64, 0, 0, 0, 0⟩, .detection ⟨0, 16, 0, 0, 0⟩,
     .preambleTrainingDone 256 (), .syncMatch 256 () () () (), .syncWindowEnd 256, .captureCheckEnd 256 (),
     .headerComplete 256 () (), .lockLost 256 () ()] : List Instr).all (fun i => !i.wf) = true := by
  decide +kernel

theorem test_ill_formed_3 :
    ([.lastPayloadSymbol 256 () (), .ldpcContextStart 12, .ldpcBlockEnd 12, .ldpcBlockOverrun 12, .decodingEnd 256,
     .burstFrame 32 [], .burstSampleFrame 32 0 6 false ⟨0, []⟩, .burstSampleFrame 0 256 6 false ⟨0, []⟩,
     .burstSampleFrame 0 0 5 false ⟨0, []⟩, .burstSampleFrame 0 0 13 false ⟨0, []⟩,
     .burstSampleFrame 0 0 17 false ⟨0, []⟩, .burstSampleFrame 0 0 6 false ⟨512, []⟩,
     .burstSampleFrame 0 0 6 false ⟨0, List.replicate 9197 0⟩, .iqFrameFormed 256 0 0, .iqFrameFormed 0 0 512,
     .laneSignalDetect 8, .blockLockGain 8 false, .blockLockLoss 8, .amLockLoss 8, .fillerRowReceived 256,
     .laneRetrainRestart 8, .descriptorFetched 32, .descriptorComplete 32, .dmaResponseTimeout 32,
     .auxConversionDone 65536, .calEntry 4 false, .calEntryTimeout 4, .calRunEnd 4 [], .kettleSetEnd 4 false [],
     .correctionStep 4 false, .domainBlockAnswer 48 0, .domainBlockAnswer 0 32, .domainTransitionDone 48,
     .skilletWait 12 false, .headerSag 48, .vmonWarnCrossing 8 0, .vmonWarnCrossing 0 65536, .vmonWarnRecovery 8 0,
     .vmonWarnRecovery 0 65536, .vmonRstCrossing 8 0] : List Instr).all (fun i => !i.wf) = true := by
  decide +kernel

theorem test_ill_formed_4 :
    ([.vmonRstCrossing 0 65536, .temperatureRead [65536], .skilletParityError 12, .headerGoodFlagReturn 48,
     .frameDiscard false (List.replicate 9217 0), .retentionTileAllocation 256, .burstPathSumStart 16,
     .pathSumSaturation 64, .actuatorSaturation 64 ()] : List Instr).all (fun i => !i.wf) = true := by
  decide +kernel

/-! ### The worked examples of the spec -/

/-- 04_sieve.md, Worked example: two outputs of a cross-fade with f = 4. -/
theorem test_fade_outputs : fadeOut 4 5 1000003 999001 = 999627 ∧ fadeOut 4 7 (-5) (-2) = -3 := by decide +kernel

/-- 05_beamforming.md, Worked example: the renormalisation with one of 16 equal paths excluded, and the sample either way. -/
theorem test_beam_renormalised : renormOf 524272 491505 = 4369 ∧ beamOut 524272000 4096 4 = (1000, false) ∧
    beamOut 491505000 4369 4 = (1000, false) := by decide +kernel

/-- The base graph of 07_coding_records.md, Worked example, without its entries. -/
def slot1 : BaseGraph := ⟨12, 36, 4, 2, 127, 2 ^ 15 + 2 ^ 255, []⟩

/-- There: A = 192, one block, Z = 16, m = 14, E = 384. -/
theorem test_fit_of_meter : slot1.fit 21 3 = some ⟨1, 192, 16, 14, 384⟩ := by decide +kernel

/-- There: the header of the meter. -/
def meterHeader : Header := ⟨0, 2, 3, 21, 1, 0x5C, 0⟩

theorem test_header_of_meter : meterHeader.low = 0x5C081568 := by decide +kernel

/-- There: words 0, 3, 4, 5, 6 and 7 of the record of context 37. -/
theorem test_record_of_meter :
    let x : Ctx :=
      { state := .deliver, code := 5, profile := 2, beams := [12, 13], freq := 6375, detSnr := 38, snr := 45, measured := true
        hdr := some meterHeader, bgSlot := 1, blocks := 1, iters := 7, payload := List.replicate 21 0 }
    let w := recordWords 37 x 1 0 0 0
    w.length = 18 ∧ w.take 1 = [0x00254091] ∧ (w.drop 3).take 5 = [0x0100034C, 0x0026002D, 0x000018E7, 0x00075815, 0x00155C01] := by
  decide +kernel

/-- 08_transmit_pa.md, Worked example: K[31:0] of the acknowledgement. -/
theorem test_ack_word : ackWord ⟨true, false, 0, 32, 2000, 0⟩ 2 0x5C % 2 ^ 32 = 0x5C0000E8 := by decide +kernel

/-- 16_clocks.md, Worked example: dividers and words of 640 MHz and 664 MHz, and the fine word of 6,614 half hertz. -/
theorem test_lo_words : loDiv 1280000000 = 6 ∧ loWord 1280000000 = 31 * 2 ^ 32 + 0x40000000 ∧
    loWord 1328000000 = 32 * 2 ^ 32 + 0x6C000000 ∧ fineWord 6 6614 = 693528 := by decide +kernel

/-- 12_link_framing.md, Worked example: the first 13 bytes of the block at m = 12, and its 49 bytes. -/
theorem test_iq_block :
    let b : IqBlock :=
      ⟨[(4801, -1203), (3950, 2206), (-5002, 17), (-1498, -4431)] ++ List.replicate 12 (0, 0), 0, 0⟩
    let l := iqEncode b 12 none
    l.length = 49 ∧ l.take 13 = [0x82, 0xB0, 0x34, 0xED, 0xDC, 0x83, 0x22, 0x1D, 0x4B, 0x00, 0x89, 0xCE, 0xBA] := by
  decide +kernel

/-- 12_link_framing.md: k and L of a Coarse stream at m = 16 and m = 12. -/
theorem test_frame_lengths : framesK 16 ⟨0, false, 0⟩ = 135 ∧ frameL 16 135 = 8800 ∧ framesK 12 ⟨0, false, 0⟩ = 176 ∧
    frameL 12 176 = 8648 := by decide +kernel

/-- 13_time.md, Worked example: an offset of 740 ns with kp = 4 and ki = 0.25 gives I = 185 and r = 3,145. -/
theorem test_servo_update :
    let s := ((rdy.setFld F.TIME_CFG_src 0 0).setFld F.TIME_GAIN_kp 0 0x0400).setFld F.TIME_GAIN_ki 0 0x0040
    (match exec (.tsOffsetWrite .cspi 740) s with
      | .next t => (t.reg .TS_INTEG 0, t.reg .TS_RATE 0)
      | _ => (0, 0)) = (185, 3145) := by decide +kernel

/-- 20_command_reference.md, Worked example: RX_GAIN_SET of 16 paths to index 96 is accepted with an event to follow, and the
unit is armed for 1 s in wrap 2. -/
theorem test_gain_change_accepted :
    (match exec (.rxGainSet ⟨1, 0x21, [0xFFFF0000, 0, 0x60, 1, 0x3B9ACA00, 0]⟩) rdy with
      | .next t => (((t.mbx 1).staged.map fun r => (r.status, r.evtFollows, r.words)), t.armed 1, t.cmpTime 1)
      | _ => (none, false, 0)) = (some (stAccepted, true, []), true, 1000000000) := by decide +kernel

/-- There: word 0 and the argument of its RX_GAIN_DONE. -/
theorem test_gain_done_record : (evtRec 0x0202 clsDone 0x1000 (some ⟨1, 0x21⟩) false 0 0).w0 = 0x29210202 := by decide +kernel

/-- 02_control_mailboxes.md, Worked example: a claim of TC3, held by mailbox 5, is refused with ST_HELD and one word. -/
theorem test_claim_refused :
    let s := { rdy with sys := { rdy.sys with claims := [(8192 * 2 + 3, some ⟨5, 1, false, 0, 0⟩)] } }
    (match exec (.resClaim ⟨2, 0x5A, [0x00010302]⟩) s with
      | .next t => (t.mbx 2).staged.map fun r => (r.status, r.words.length)
      | _ => none) = some (stHeld, 1) := by decide +kernel

/-! ### A few steps -/

/-- The block idles until its counter runs (log entry 9). -/
theorem test_idle : (match step State.reset with
    | .next t => decide (t = State.reset)
    | _ => false) = true := by decide +kernel

/-- A reset value of SYS_ID and a register that takes a write. -/
theorem test_write_reads_back :
    (match exec (.registerWrite .cspi 0x24 5) rdy with
      | .next t => t.reg .SYS_IRQ_EN 0
      | _ => 0) = 5 := by decide +kernel

/-- Check values of the two CRCs over the nine digits 1 to 9: IEEE 802.3 and Castagnoli. -/
theorem test_crc_check_values :
    crc32 ((List.range 9).map fun i => BitVec.ofNat 8 (0x31 + i)) = 0xCBF43926 ∧
      crc32c ((List.range 9).map fun i => BitVec.ofNat 8 (0x31 + i)) = 0xE3069283 := by decide +kernel

/-! ### Hypotheses that are met -/

/-- Meets the hypotheses of SystemQueriesAnswer, clause by clause. -/
theorem witness_SystemQueriesAnswer :
    (∃ (q : Req) (s : State), s.precheck specVersionGet q = none) ∧
    (∃ (q : Req) (s : State), s.precheck specSysStateGet q = none) ∧
    (∃ (q : Req) (s : State), s.precheck specResQuery q = none ∧ resBad q = false ∧ resLen q = 1) ∧
    (∃ (q : Req) (s : State), s.precheck specTrvState q = none) ∧
    (∃ (q : Req) (s : State), s.precheck specTrvFaultLog q = none ∧ bits (q.arg 1) 11 8 ≠ 0) :=
  ⟨⟨req [], rdy, by decide +kernel⟩,
    ⟨req [], rdy, by decide +kernel⟩,
    ⟨req [0x00010002], rdy, by decide +kernel, by decide +kernel, by decide +kernel⟩,
    ⟨req [], rdy, by decide +kernel⟩,
    ⟨req [0x100], rdy, by decide +kernel, by decide +kernel⟩⟩

/-- Meets the hypotheses of TrivetResetsAreDeferred, clause by clause. -/
theorem witness_TrivetResetsAreDeferred :
    (∃ (q : Req) (s : State), s.precheck specTrvMgmtReset q = none) ∧
    (∃ (q : Req) (s : State), s.precheck specTrvDeviceReset q = none) ∧
    (∃ (q : Req) (s : State), s.precheck specTrvBootExec q = none ∧ s.bootExecOk = true ∧ bits (q.arg 2) 7 0 = 0 ∧
      (q.arg 1).toNat % 64 = 0 ∧ s.staging.1 ≤ (q.arg 1).toNat ∧ (q.arg 1).toNat < s.staging.2 ∧ s.stage ≠ 9) ∧
    (∃ (q : Req) (s : State), s.precheck specTrvBootExec q = none ∧ s.bootExecOk = true ∧ bits (q.arg 2) 7 0 = 0 ∧
      (q.arg 1).toNat % 64 = 0 ∧ s.staging.1 ≤ (q.arg 1).toNat ∧ (q.arg 1).toNat < s.staging.2 ∧ s.stage = 9) :=
  ⟨⟨req [], rdy, by decide +kernel⟩,
    ⟨req [], rdy, by decide +kernel⟩,
    ⟨req [0x10080000, 0], { rdy.setFld F.SYS_STATE_stage 0 3 with sys := { rdy.sys with imageFrom := 2 } },
      by decide +kernel, by decide +kernel, by decide +kernel, by decide +kernel, by decide +kernel,
      by decide +kernel, by decide +kernel⟩,
    ⟨req [0x10080000, 0], { rdy.setFld F.SYS_STATE_stage 0 9 with sys := { rdy.sys with reload := 3 } },
      by decide +kernel, by decide +kernel, by decide +kernel, by decide +kernel, by decide +kernel,
      by decide +kernel, by decide +kernel⟩⟩

/-- Meets the hypotheses of ClaimTakesEveryIndex, clause by clause. -/
theorem witness_ClaimTakesEveryIndex :
    (∃ (q : Req) (s : State), s.precheck specResClaim q = none ∧ resBad q = false ∧ (∀ i ∈ claimMeets (resType q)
      (resIdx q), s.otherHolds q.mbx (resType q) i = false) ∧ (∀ i ∈ resIdx q, s.otherHolds q.mbx (resType q) i =
      false) ∧ (resType q = resTile → ∀ t ∈ resIdx q, s.fld F.PWR_DOM_state (dLar + bankOf t) = 0 ∧ (s.tile
      t).state ≠ .quarantined)) :=
  ⟨req [0x00020503], rdy, by decide +kernel, by decide +kernel, by decide +kernel, by decide +kernel,
      by decide +kernel⟩

/-- Meets the hypotheses of ReleaseFreesEveryIndex, clause by clause. -/
theorem witness_ReleaseFreesEveryIndex :
    (∃ (q : Req) (s : State), s.precheck specResRelease q = none ∧ resBad q = false ∧ (∀ i ∈ resIdx q, s.holds q.mbx
      (resType q) i = true) ∧ (∀ i ∈ resIdx q, s.inUse q.mbx (resType q) i = false)) :=
  ⟨req [0x00010001], rdy, by decide +kernel, by decide +kernel, by decide +kernel, by decide +kernel⟩

/-- Meets the hypotheses of EventRingIsReplaced, clause by clause. -/
theorem witness_EventRingIsReplaced :
    (∃ (q : Req) (s : State) (t : Nat), s.precheck specEvtRingSet q = none ∧ 8 ≤ bits (q.arg 1) 4 0 ∧ bits (q.arg 1) 4
      0 ≤ 16 ∧ s.ringSpot (max 1 (2 ^ bits (q.arg 1) 4 0 / 256)) = some t) :=
  ⟨req [8], rdy, _, by decide +kernel, by decide +kernel, by decide +kernel, rfl⟩

/-- Meets the hypotheses of ModeCommandsSchedule, clause by clause. -/
theorem witness_ModeCommandsSchedule :
    (∃ (q : Req) (s : State), s.precheck specModeSet q = none ∧ (q.args.length = if pathMode (bits (q.arg 1) 2 0) then
      7 else 5) ∧ (bits (q.arg 1) 2 0 ≠ mHold → s.onHosc = false ∧ s.flag F.FLT_STAT_therm_hold = false) ∧
      s.canSchedule q 3 (msec (s.mode.lead + 1)) ∧ (∀ p, fixedPreset (bits (q.arg 1) 2 0) = some p → p = bits
      (q.arg 1) 5 4) ∧ beamRange (bits (q.arg 1) 2 0) (bits (q.arg 1) 14 8) = true ∧ (bitAt (q.arg 1) 6 = true → 2
      ^ 31 ≤ (q.arg 2).toNat) ∧ s.modeLoadOk (bits (q.arg 1) 2 0) (bits (q.arg 1) 14 8) (modeRate (bits (q.arg 1) 5
      4) (bitAt (q.arg 1) 6) (q.arg 2).toNat) = true ∧ (pathMode (bits (q.arg 1) 2 0) = true → pathsOf q 6 ≠ 0) ∧
      s.mode.pend = none ∧ (bits (q.arg 1) 2 0 = mSurvey → s.panFitted = true)) ∧
    (∃ (q : Req) (s : State) (p : PendMode), s.precheck specModeCancel q = none ∧ s.mode.pend = some p ∧ p.cmd.mbx =
      q.mbx ∧ atOrAfter p.at_ (tAdd s.now (msec p.lead)) = true) ∧
    (∃ (q : Req) (s : State), s.precheck specModeCfgSet q = none ∧ 2 ≤ bits (q.arg 1) 7 0 ∧ bits (q.arg 1) 7 0 ≤ 100 ∧
      10 ≤ bits (q.arg 1) 29 16 ∧ bits (q.arg 1) 29 16 ≤ 10000 ∧ s.mode.pend = none) :=
  ⟨⟨req [0x00000000, 0, 0, 1000000000, 0], rdy, by decide +kernel, by decide +kernel, by decide +kernel,
      by decide +kernel, (by intro p h; cases h), by decide +kernel, by decide +kernel, by decide +kernel,
      by decide +kernel, by decide +kernel, by decide +kernel⟩,
    ⟨req [],
      { rdy with mode := { rdy.mode with pend := some ⟨0, 0, false, 0, 0, 0, 0, 1000000000, ⟨1, 5⟩, 8, false⟩ } },
      _, by decide +kernel, rfl, by decide +kernel, by decide +kernel⟩,
    ⟨req [0x000A0002], rdy, by decide +kernel, by decide +kernel, by decide +kernel, by decide +kernel,
      by decide +kernel, by decide +kernel⟩⟩

/-- Meets the hypotheses of RadioCommandsComplete, clause by clause. -/
theorem witness_RadioCommandsComplete :
    (∃ (q : Req) (s : State), s.precheck specLoTune q = none ∧ s.onHosc = false ∧ s.canSchedule q 3 200000 ∧ bits
      (q.arg 1) 3 0 ≠ 0 ∧ loOk (q.arg 2).toNat = true ∧ (bitAt (q.arg 1) 8 = false → s.opensNow = false ∧ s.rxSplit
      (bits (q.arg 1) 3 0) (q.arg 2).toNat = false) ∧ (∀ k ∈ sidesOf (bits (q.arg 1) 3 0) (bitAt (q.arg 1) 8),
      (s.side k).tuning = false) ∧ (bitAt (q.arg 1) 8 = true → ∀ a ∈ maskList 4 (bits (q.arg 1) 3 0), s.tuneMeets a
      (schedOf q 3).t = false)) ∧
    (∃ (q : Req) (s : State), s.precheck specRadioCfgSet q = none ∧ bits (q.arg 1) 3 0 ≠ 0 ∧ bits (q.arg 2) 9 0 ≤ 1000
      ∧ (bitAt (q.arg 1) 8 = false → bits (q.arg 1) 31 16 = 0 ∧ bits (q.arg 2) 9 0 = 0 ∧ (bits (q.arg 1) 9 9 = 1 →
      s.sentinelNow = false))) ∧
    (∃ (q : Req) (s : State), s.precheck specRadioStateGet q = none) ∧
    (∃ (q : Req) (s : State), s.precheck specRadioSideSet q = none ∧ bits (q.arg 1) 3 0 ≠ 0 ∧ (bitAt (q.arg 1) 9 =
      false → ∀ k ∈ sidesOf (bits (q.arg 1) 3 0) (bitAt (q.arg 1) 8), s.modeNeeds k = false) ∧ (schedOf q 2).now =
      true) ∧
    (∃ (q : Req) (s : State), s.precheck specRadioSideSet q = none ∧ bits (q.arg 1) 3 0 ≠ 0 ∧ (bitAt (q.arg 1) 9 =
      false → ∀ k ∈ sidesOf (bits (q.arg 1) 3 0) (bitAt (q.arg 1) 8), s.modeNeeds k = false) ∧ s.canSchedule q 2
      200000) ∧
    (∃ (q : Req) (s : State), s.precheck specCoexCfgSet q = none ∧ 1 ≤ bits (q.arg 1) 15 6 ∧ bits (q.arg 1) 15 6 ≤ 1000
      ∧ bits (q.arg 1) 29 16 ≤ 10000 ∧ s.flag F.COEX_STAT_req = false) ∧
    (∃ (q : Req) (s : State), s.precheck specCoexStatGet q = none) :=
  ⟨⟨req [0x001, 900000000, 0, 1000000000, 0], rdy, by decide +kernel, by decide +kernel, by decide +kernel,
      by decide +kernel, by decide +kernel, by decide +kernel, by decide +kernel, by decide +kernel⟩,
    ⟨req [0x001, 0, 0], rdy, by decide +kernel, by decide +kernel, by decide +kernel, by decide +kernel⟩,
    ⟨req [], rdy, by decide +kernel⟩,
    ⟨req [0x201, 0x80000000, 0, 0], rdy, by decide +kernel, by decide +kernel, by decide +kernel, by decide +kernel⟩,
    ⟨req [0x201, 0, 1000000000, 0], rdy, by decide +kernel, by decide +kernel, by decide +kernel, by decide +kernel⟩,
    ⟨req [0x000A0040], rdy, by decide +kernel, by decide +kernel, by decide +kernel, by decide +kernel,
      by decide +kernel⟩,
    ⟨req [], rdy, by decide +kernel⟩⟩

/-- Meets the hypotheses of ReceiveCommandsComplete, clause by clause. -/
theorem witness_ReceiveCommandsComplete :
    (∃ (q : Req) (s : State), s.precheck specRxGainSet q = none ∧ s.onHosc = false ∧ s.canSchedule q 4 200000 ∧ pathsOf
      q 1 ≠ 0 ∧ bits (q.arg 3) 6 0 ≤ 120 ∧ (∀ p ∈ maskList 64 (pathsOf q 1), s.flag F.RX_PATH_STAT_degraded p =
      false ∧ s.flag F.RX_GAIN_pending p = false)) ∧
    (∃ (q : Req) (s : State) (x : RffeXfer), s.precheck specRffeXfer q = none ∧ rffeXferBad q = false ∧ x = RffeXfer.mk
      q.mbx (q.arg 1) (q.args.drop 1) false ∧ s.rffeHeld (bits (q.arg 1) 1 0) = [] ∧ s.xferMayStart (bits (q.arg 1)
      1 0) x = true) ∧
    (∃ (q : Req) (s : State) (x : RffeXfer), s.precheck specRffeXfer q = none ∧ rffeXferBad q = false ∧ x = RffeXfer.mk
      q.mbx (q.arg 1) (q.args.drop 1) false ∧ ¬ (s.rffeHeld (bits (q.arg 1) 1 0) = [] ∧ s.xferMayStart (bits (q.arg
      1) 1 0) x = true)) ∧
    (∃ (q : Req) (s : State), s.precheck specRffeSeqLoad q = none ∧ 1 ≤ bits (q.arg 1) 13 8 ∧ bits (q.arg 1) 13 8 ≤ 62
      ∧ q.args.length = 1 + bits (q.arg 1) 13 8 ∧ (∀ w ∈ q.args.drop 1, rffeEntryBad w = false) ∧ (∀ i,
      s.rffeRunning (bits (q.arg 1) 1 0) ≠ some (bits (q.arg 1) 6 4, i)) ∧ s.rffeArmed (bits (q.arg 1) 1 0) (bits
      (q.arg 1) 6 4) = false ∧ s.rffeHeldWords (bits (q.arg 1) 1 0) (bits (q.arg 1) 6 4) + bits (q.arg 1) 13 8 ≤
      64) ∧
    (∃ (q : Req) (s : State), s.precheck specRffeSeqArm q = none ∧ s.canSchedule q 2 200000 ∧ s.rffeSeq (bits (q.arg 1)
      1 0) (bits (q.arg 1) 6 4) ≠ [] ∧ (∀ i, s.rffeRunning (bits (q.arg 1) 1 0) ≠ some (bits (q.arg 1) 6 4, i)) ∧
      s.rffeArmed (bits (q.arg 1) 1 0) (bits (q.arg 1) 6 4) = false) :=
  ⟨⟨req [1, 0, 0x60, 0, 1000000000, 0], rdy, by decide +kernel, by decide +kernel, by decide +kernel,
      by decide +kernel, by decide +kernel, by decide +kernel⟩,
    ⟨req [0x00010110, 0], rdy, _, by decide +kernel, by decide +kernel, rfl, by decide +kernel⟩,
    ⟨req [0x00010110, 0], { rdy with rx := { rdy.rx with xferHeld := [(0, [⟨1, 0, [], false⟩])] } }, _,
      by decide +kernel, by decide +kernel, rfl, by decide +kernel⟩,
    ⟨req [0x100, 0], rdy, by decide +kernel, by decide +kernel, by decide +kernel, by decide +kernel,
      (by intro w h; simp [req] at h; subst h; decide), (by intro _ h; exact nomatch h), by decide +kernel,
      by decide +kernel⟩,
    ⟨req [0, 0, 1000000000, 0], { rdy with rx := { rdy.rx with seq := [(0, [0])] } }, by decide +kernel,
      by decide +kernel, by decide +kernel, (by intro _ h; exact nomatch h), by decide +kernel⟩⟩

/-- Meets the hypotheses of SieveCommandsComplete, clause by clause. -/
theorem witness_SieveCommandsComplete :
    (∃ (q : Req) (s : State) (n : Rate) (r : Nat → Rate), s.precheck specSieveCfgSet q = none ∧ n = Rate.mk (bits
      (q.arg 1) 5 4) (bitAt (q.arg 1) 8) (q.arg 2).toNat ∧ r = (fun x => if (bits (q.arg 1) 3 0).testBit x then n
      else s.quadRate x) ∧ perQuadMode s.modeNo = true ∧ (∀ p, s.mode.pend = some p → perQuadMode p.target = true)
      ∧ s.canSchedule q 3 200000 ∧ bits (q.arg 1) 3 0 ≠ 0 ∧ 2 ^ 31 ≤ (q.arg 2).toNat ∧ (∀ b ∈ s.enabledBeams,
      uniformMask r (s.fld F.BEAM_RX_CFG_qmask b) = true) ∧ ratesOk r s.enabledBeams (fun b => s.fld
      F.BEAM_RX_CFG_qmask b) = true ∧ (∀ x ∈ maskList 4 (bits (q.arg 1) 3 0), s.swapPending x = false ∧
      s.presetPending x = false)) ∧
    (∃ (q : Req) (s : State) (u : State) (l : List Word), s.precheck specSieveFirLoad q = none ∧ s.regionOk q 2 1 ∧
      s.openTile (regionFirst q 2) 3 true = (true, u) ∧ l = u.tileWords (regionFirst q 2) (firTaps (bits (q.arg 1)
      5 4)) ∧ l.all coefOk = true ∧ s.fld F.SIEVE_CFG_preset (bits (q.arg 1) 1 0) = bits (q.arg 1) 5 4 ∧
      u.swapPending (bits (q.arg 1) 1 0) = false ∧ u.fade (bits (q.arg 1) 1 0) = none) ∧
    (∃ (q : Req) (s : State) (u : State) (l : List Word), s.precheck specSieveFirLoad q = none ∧ s.regionOk q 2 1 ∧
      s.openTile (regionFirst q 2) 3 true = (true, u) ∧ l = u.tileWords (regionFirst q 2) (firTaps (bits (q.arg 1)
      5 4)) ∧ l.all coefOk = true ∧ s.fld F.SIEVE_CFG_preset (bits (q.arg 1) 1 0) ≠ bits (q.arg 1) 5 4) ∧
    (∃ (q : Req) (s : State), s.precheck specSieveFirSwap q = none ∧ s.canSchedule q 2 200000 ∧ bits (q.arg 1) 3 0 ≠ 0
      ∧ 4 ≤ bits (q.arg 1) 7 4 ∧ bits (q.arg 1) 7 4 ≤ 10 ∧ (∀ x ∈ maskList 4 (bits (q.arg 1) 3 0), s.flag
      F.SIEVE_CFG_shadow_valid x = true ∧ s.swapPending x = false ∧ s.fade x = none)) ∧
    (∃ (q : Req) (s : State) (r : _), s.precheck specSieveFirRead q = none ∧ s.regionOk q 2 1 ∧ r = s.bankWords (bits
      (q.arg 1) 1 0) (if bitAt (q.arg 1) 4 then 1 - s.fld F.SIEVE_CFG_active_bank (bits (q.arg 1) 1 0) else s.fld
      F.SIEVE_CFG_active_bank (bits (q.arg 1) 1 0))) :=
  ⟨⟨req [1, 0x80000000, 0, 1000000000, 0], rdy.setFld F.SYS_MODE_mode 0 4, _, _, by decide +kernel, rfl, rfl,
      by decide +kernel, (by intro _ h; exact nomatch h), by decide +kernel, by decide +kernel, by decide +kernel,
      by decide +kernel, by decide +kernel, by decide +kernel⟩,
    ⟨req [0x00, 0x000100C8], rdy, _, _, by decide +kernel, by decide +kernel, rfl, rfl, by decide +kernel,
      by decide +kernel, by decide +kernel, by decide +kernel⟩,
    ⟨req [0x10, 0x000100C8], rdy, _, _, by decide +kernel, by decide +kernel, rfl, rfl, by decide +kernel,
      by decide +kernel⟩,
    ⟨req [0x41, 0, 1000000000, 0], rdy.setFld F.SIEVE_CFG_shadow_valid 0 1, by decide +kernel, by decide +kernel,
      by decide +kernel, by decide +kernel, by decide +kernel, by decide +kernel⟩,
    ⟨req [0x0, 0x000100C8], rdy, _, by decide +kernel, by decide +kernel, rfl⟩⟩

/-- Meets the hypotheses of ClockCommandsComplete, clause by clause. -/
theorem witness_ClockCommandsComplete :
    (∃ (q : Req) (s : State) (u : State), s.precheck specClkCfgSet q = none ∧ bits (q.arg 1) 17 16 ≠ 3 ∧ (maskList 8
      (bits (q.arg 1) 15 8) = [] ∨ q.arg 2 ≠ 0) ∧ u = (maskList 8 (bits (q.arg 1) 15 8)).foldl (fun s k =>
      (((s.setFld F.SYN_CTL_whisk_mode k (bits (q.arg 1) 17 16)).setReg .WHISK_SEED k (q.arg 2)).setSide k
      { s.side k with whiskNew := true })) ((s.setFld F.CLK_CFG_master 0 (bits (q.arg 1) 1 0)).setFlag
      F.CLK_CFG_auto_resume 0 (bitAt (q.arg 1) 2)) ∧ bitAt (q.arg 1) 2 = true ∧ u.flag F.CLK_STAT_ref_ok = true ∧
      u.onHosc = true ∧ u.flag F.CLK_STAT_resuming = false ∧ u.stage = 7) ∧
    (∃ (q : Req) (s : State) (u : State), s.precheck specClkCfgSet q = none ∧ bits (q.arg 1) 17 16 ≠ 3 ∧ (maskList 8
      (bits (q.arg 1) 15 8) = [] ∨ q.arg 2 ≠ 0) ∧ u = (maskList 8 (bits (q.arg 1) 15 8)).foldl (fun s k =>
      (((s.setFld F.SYN_CTL_whisk_mode k (bits (q.arg 1) 17 16)).setReg .WHISK_SEED k (q.arg 2)).setSide k
      { s.side k with whiskNew := true })) ((s.setFld F.CLK_CFG_master 0 (bits (q.arg 1) 1 0)).setFlag
      F.CLK_CFG_auto_resume 0 (bitAt (q.arg 1) 2)) ∧ ¬ (bitAt (q.arg 1) 2 = true ∧ u.flag F.CLK_STAT_ref_ok = true
      ∧ u.onHosc = true ∧ u.flag F.CLK_STAT_resuming = false ∧ u.stage = 7)) ∧
    (∃ (q : Req) (s : State), s.precheck specClkStatGet q = none) ∧
    (∃ (q : Req) (s : State), s.precheck specClkResume q = none ∧ s.onHosc = true ∧ s.flag F.CLK_STAT_resuming = false
      ∧ s.flag F.CLK_STAT_ref_ok = true) :=
  ⟨⟨req [0x4, 0], (rdy.setFld F.CLK_STAT_ref_ok 0 1).setFld F.CLK_STAT_on_hosc 0 1, _, by decide +kernel,
      by decide +kernel, by decide +kernel, rfl, by decide +kernel⟩,
    ⟨req [0x0, 0], rdy, _, by decide +kernel, by decide +kernel, by decide +kernel, rfl, by decide +kernel⟩,
    ⟨req [], rdy, by decide +kernel⟩,
    ⟨req [], (rdy.setFld F.CLK_STAT_ref_ok 0 1).setFld F.CLK_STAT_on_hosc 0 1, by decide +kernel, by decide +kernel,
      by decide +kernel, by decide +kernel⟩⟩

/-- Meets the hypotheses of BeamCommandsComplete, clause by clause. -/
theorem witness_BeamCommandsComplete :
    (∃ (q : Req) (s : State) (r : _) (l : List Nat) (f : Nat → Nat), s.precheck specBeamCfgSet q = none ∧ r =
      s.quadRate ∧ l = maskList 64 (pathsOf q 1) ∧ f = (fun b => if l.contains b then bits (q.arg 3) 3 0 else s.fld
      F.BEAM_RX_CFG_qmask b) ∧ bitAt (q.arg 3) 16 = false ∧ s.canSchedule q 4 200000 ∧ pathsOf q 1 ≠ 0 ∧ bits
      (q.arg 3) 3 0 ≠ 0 ∧ bits (q.arg 3) 10 8 ≤ 6 ∧ uniformMask r (bits (q.arg 3) 3 0) = true ∧ ratesOk r
      s.enabledBeams f = true ∧ (∀ b ∈ l, s.flag F.BEAM_RX_STAT_pending b = false)) ∧
    (∃ (q : Req) (s : State) (p : PendMode) (l : List Nat) (c : ModeCfg), s.precheck specBeamCfgSet q = none ∧ l =
      maskList 64 (pathsOf q 1) ∧ bitAt (q.arg 3) 16 = true ∧ s.pendOf q = some p ∧ pathsOf q 1 ≠ 0 ∧ bits (q.arg
      3) 3 0 ≠ 0 ∧ bits (q.arg 3) 10 8 ≤ 6 ∧ ratesOk (fun _ => Rate.mk p.preset p.rsEn p.inc.toNat) (List.range
      p.beams) (fun b => if l.contains b then bits (q.arg 3) 3 0 else s.fld F.BEAM_RX_CFG_qmask b) = true ∧ (∀ b ∈
      l, s.flag F.BEAM_RX_STAT_pending b = false) ∧ atOrAfter p.at_ (tAdd s.now (msec p.lead)) = true ∧ c =
      ModeCfg.mk (pathsOf q 1) (bits (q.arg 3) 3 0) (bits (q.arg 3) 10 8) (bitAt (q.arg 3) 12) q.cmd) ∧
    (∃ (q : Req) (s : State) (u : State) (first : Nat) (n : Nat) (tx : Bool), s.precheck specBeamWeightLoad q = none ∧
      first = bits (q.arg 1) 5 0 ∧ n = bits (q.arg 1) 13 8 + 1 ∧ tx = bitAt (q.arg 1) 15 ∧ first + n ≤ (if tx then
      32 else 64) ∧ s.regionOk q 2 (ceilDiv n 16) ∧ s.openTiles (regionFirst q 2) 3 true (ceilDiv n 16) = (true, u)
      ∧ (∀ i < n, u.beamPending tx (first + i) = false)) ∧
    (∃ (q : Req) (s : State) (l : List Nat) (tx : Bool), s.precheck specBeamSwap q = none ∧ l = maskList 64 (pathsOf q
      1) ∧ tx = bitAt (q.arg 3) 0 ∧ s.canSchedule q 4 200000 ∧ pathsOf q 1 ≠ 0 ∧ (tx = true → q.arg 2 = 0) ∧ (∀ b ∈
      l, s.shadowValid tx b = true ∧ s.beamPending tx b = false) ∧ tx = true) ∧
    (∃ (q : Req) (s : State) (l : List Nat) (tx : Bool), s.precheck specBeamSwap q = none ∧ l = maskList 64 (pathsOf q
      1) ∧ tx = bitAt (q.arg 3) 0 ∧ s.canSchedule q 4 200000 ∧ pathsOf q 1 ≠ 0 ∧ (tx = true → q.arg 2 = 0) ∧ (∀ b ∈
      l, s.shadowValid tx b = true ∧ s.beamPending tx b = false) ∧ tx = false) ∧
    (∃ (q : Req) (s : State) (beam : Nat) (bank : Nat), s.precheck specBeamWeightRead q = none ∧ s.regionOk q 2 1 ∧
      (bitAt (q.arg 1) 7 = true → bits (q.arg 1) 5 0 < 32) ∧ beam = bits (q.arg 1) 5 0 + (if bitAt (q.arg 1) 7 then
      64 else 0) ∧ bank = (if bitAt (q.arg 1) 8 then 1 - s.activeBank beam else s.activeBank beam)) ∧
    (∃ (q : Req) (s : State) (l : List Nat) (w : Word) (k : Nat), s.precheck specTxbCfgSet q = none ∧ l = maskList 32
      (q.arg 1).toNat ∧ w = q.arg 2 ∧ s.canSchedule q 3 200000 ∧ (q.arg 1).toNat ≠ 0 ∧ bits w 1 0 ≠ 3 ∧ k = (if
      bits w 6 4 = 0 then 8 else bits w 6 4) ∧ 3 ≤ k ∧ bits w 19 16 ≠ 0 ∧ bits w 26 24 ≤ 5 ∧ (∀ b ∈ l, s.flag
      F.TXB_STAT_pending b = false ∧ (s.flag F.TXB_STAT_busy b = true → s.fld F.TXB_STAT_source b = bits w 1 0 ∧
      s.rateCode b = k))) ∧
    (∃ (q : Req) (s : State), s.precheck specTxbLinkTcSet q = none ∧ 1 ≤ bits (q.arg 1) 7 4 ∧ bits (q.arg 1) 7 4 ≤ 8 ∧
      bits (q.arg 1) 3 0 + bits (q.arg 1) 7 4 ≤ 16 ∧ (∀ i < bits (q.arg 1) 7 4, s.holds q.mbx resTc (bits (q.arg 1)
      3 0 + i) = true) ∧ (∀ x ∈ s.bursts, x.2.ack = true)) :=
  ⟨⟨req [1, 0, 1, 0, 1000000000, 0], rdy, _, _, _, by decide +kernel, rfl, rfl, rfl, by decide +kernel,
      by decide +kernel, by decide +kernel, by decide +kernel, by decide +kernel, by decide +kernel,
      by decide +kernel, by decide +kernel⟩,
    ⟨req [1, 0, 0x10001, 0, 0, 0],
      { rdy with mode := { rdy.mode with pend := some ⟨0, 0, false, 1, 0, 0, 0, 1000000000, ⟨1, 5⟩, 8, false⟩ } },
      _, _, _, by decide +kernel, rfl, by decide +kernel, rfl, by decide +kernel, by decide +kernel,
      by decide +kernel, by decide +kernel, by decide +kernel, by decide +kernel, rfl⟩,
    ⟨req [0, 0x000100C8], rdy, _, _, _, _, by decide +kernel, rfl, rfl, rfl, by decide +kernel, by decide +kernel, rfl,
      by decide +kernel⟩,
    ⟨req [1, 0, 1, 0, 1000000000, 0], rdy.setFld F.TXB_STAT_shadow_valid 0 1, _, _, by decide +kernel, rfl, rfl,
      by decide +kernel, by decide +kernel, by decide +kernel, by decide +kernel, rfl⟩,
    ⟨req [1, 0, 0, 0, 1000000000, 0], rdy.setFld F.BEAM_RX_STAT_shadow_valid 0 1, _, _, by decide +kernel, rfl, rfl,
      by decide +kernel, by decide +kernel, by decide +kernel, by decide +kernel, rfl⟩,
    ⟨req [0, 0x000100C8], rdy, _, _, by decide +kernel, by decide +kernel, by decide +kernel, rfl, rfl⟩,
    ⟨req [1, 0x00010030, 0, 1000000000, 0], rdy, _, _, _, by decide +kernel, rfl, rfl, by decide +kernel,
      by decide +kernel, by decide +kernel, rfl, by decide +kernel, by decide +kernel, by decide +kernel,
      by decide +kernel⟩,
    ⟨req [0x20], rdy, by decide +kernel, by decide +kernel, by decide +kernel, by decide +kernel, by decide +kernel,
      by decide +kernel⟩⟩

/-- Meets the hypotheses of ProfileCommandsComplete, clause by clause. -/
theorem witness_ProfileCommandsComplete :
    (∃ (q : Req) (s : State) (u : State) (l : List Word) (p : Profile) (n : Nat), s.precheck specProfileLoad q = none ∧
      s.regionOk q 2 1 ∧ s.openTile (regionFirst q 2) 3 true = (true, u) ∧ n = bits (q.arg 1) 2 0 ∧ l = u.tileWords
      (regionFirst q 2) (8 + codeWords (bits ((u.tileWords (regionFirst q 2) 8).getD 0 0) 27 24)) ∧ p =
      Profile.ofWords l ∧ profileReservedOk (u.tileWords (regionFirst q 2) 8) = true ∧ p.valid = true ∧
      u.rxb.profMask.testBit n = false ∧ u.profileUsed n = false) ∧
    (∃ (q : Req) (s : State) (u : State) (p : Profile) (slot : Nat) (k : CodeSlot), s.precheck specCodeLoad q = none ∧
      s.regionOk q 2 1 ∧ s.openTile (regionFirst q 2) 3 true = (true, u) ∧ slot = bits (q.arg 1) 3 0 ∧ s.profile
      (bits (q.arg 1) 6 4) = some p ∧ u.profile (bits (q.arg 1) 6 4) = some p ∧ s.rxb.codeMask.testBit slot = false
      ∧ k = CodeSlot.mk (bits (q.arg 1) 6 4) (u.tileWords (regionFirst q 2) (codeWords p.sfLog2))) ∧
    (∃ (q : Req) (s : State), s.precheck specProfileEnable q = none ∧ s.canSchedule q 2 200000 ∧ s.masksReady (bits
      (q.arg 1) 7 0) (bits (q.arg 1) 31 16) = true ∧ s.profilePending = false) ∧
    (∃ (q : Req) (s : State), s.precheck specDetThrSet q = none ∧ 4 ≤ bits (q.arg 1) 23 16 ∧ bits (q.arg 1) 23 16 ≤
      160) ∧
    (∃ (q : Req) (s : State) (u : State) (l : List Word) (n : Nat), s.precheck specBgLoad q = none ∧ s.regionOk q 2 1 ∧
      s.openTile (regionFirst q 2) 3 true = (true, u) ∧ n = bits (q.arg 1) 1 0 ∧ l = u.tileWords (regionFirst q 2)
      1024 ∧ bgValid l = true ∧ u.slotNamed n = false ∧ u.slotUsed n = false) ∧
    (∃ (q : Req) (s : State), s.precheck specDecCfgSet q = none ∧ 1 ≤ bits (q.arg 1) 5 0 ∧ bits (q.arg 1) 5 0 ≤ 50 ∧ 8
      ≤ bits (q.arg 1) 12 8 ∧ bits (q.arg 1) 12 8 ≤ 16) :=
  ⟨⟨req [0, 0x000100C8], rdy.setMemWords (tileAddr 200) [0x070F4240, 0x01004014, 0, 0, 0x11010064, 0x10000004], _, _,
      _, _, by decide +kernel, by decide +kernel, rfl, rfl, rfl, rfl, by decide +kernel, by decide +kernel,
      by decide +kernel, by decide +kernel⟩,
    ⟨req [0, 0x000100C8],
      { rdy with rxb := { rdy.rxb with profiles := [(0, some (Profile.ofWords [0x070F4240, 0x01004014, 0, 0, 0x11010064, 0x10000004]))], codes := [(0, some ⟨0, [0]⟩)], bg := [(0, some (BaseGraph.ofWords []))] } },
      _, (Profile.ofWords [0x070F4240, 0x01004014, 0, 0, 0x11010064, 0x10000004]), _, _, by decide +kernel,
      by decide +kernel, rfl, rfl, (rfl), (rfl), by decide +kernel, rfl⟩,
    ⟨req [0x00010001, 0, 1000000000, 0],
      { rdy with rxb := { rdy.rxb with profiles := [(0, some (Profile.ofWords [0x070F4240, 0x01004014, 0, 0, 0x11010064, 0x10000004]))], codes := [(0, some ⟨0, [0]⟩)], bg := [(0, some (BaseGraph.ofWords []))] } },
      by decide +kernel, by decide +kernel, by decide +kernel, by decide +kernel⟩,
    ⟨req [0x001C0001], rdy, by decide +kernel, by decide +kernel, by decide +kernel⟩,
    ⟨req [0, 0x000100C8], rdy.setMemWords (tileAddr 200) [0x00040421, 0x00040001, 0, 0x40000000, 0, 0, 0, 0, 0, 0,
      0x00002100, 0x00002201, 0x00002302, 0x00002403], _, _, _, by decide +kernel, by decide +kernel, rfl, rfl,
      rfl, by decide +kernel, by decide +kernel, by decide +kernel⟩,
    ⟨req [0x00000801], rdy, by decide +kernel, by decide +kernel, by decide +kernel, by decide +kernel,
      by decide +kernel⟩⟩

/-- Meets the hypotheses of PlacementCommandsComplete, clause by clause. -/
theorem witness_PlacementCommandsComplete :
    (∃ (q : Req) (s : State) (m : Nat) (p : Policy), s.precheck specTongsPolicySet q = none ∧ m = bits (q.arg 1) 2 0 ∧
      p = (s.policyOf m).merge q ∧ m ∈ policyModes ∧ (m = mReach → bitAt (q.arg 1) 22 = false) ∧ p.valid = true ∧
      (bitAt (q.arg 1) 23 = true → p.retTiles = 0 ∨ (s.panFitted = true ∧ s.blTiles + p.retTiles ≤ s.fld
      F.MEM_PAN_USABLE_tiles)) ∧ (s.setPolicy m p).modeNo = m) ∧
    (∃ (q : Req) (s : State) (m : Nat) (p : Policy), s.precheck specTongsPolicySet q = none ∧ m = bits (q.arg 1) 2 0 ∧
      p = (s.policyOf m).merge q ∧ m ∈ policyModes ∧ (m = mReach → bitAt (q.arg 1) 22 = false) ∧ p.valid = true ∧
      (bitAt (q.arg 1) 23 = true → p.retTiles = 0 ∨ (s.panFitted = true ∧ s.blTiles + p.retTiles ≤ s.fld
      F.MEM_PAN_USABLE_tiles)) ∧ (s.setPolicy m p).modeNo ≠ m) ∧
    (∃ (q : Req) (s : State), s.precheck specTongsPolicyGet q = none ∧ bits (q.arg 1) 2 0 ∈ policyModes) ∧
    (∃ (q : Req) (s : State), s.precheck specPlaceLogSet q = none ∧ regionCount q 1 = 0) ∧
    (∃ (q : Req) (s : State), s.precheck specPlaceLogSet q = none ∧ regionCount q 1 ≤ 64 ∧ s.regionOk q 1 1) ∧
    (∃ (q : Req) (s : State) (x : Ctx), s.precheck specCtxRead q = none ∧ x = s.report (bits (q.arg 1) 7 0) false) ∧
    (∃ (q : Req) (s : State), s.precheck specCtxSummary q = none) ∧
    (∃ (q : Req) (s : State), s.precheck specBacklogCfgSet q = none ∧ (bits (q.arg 1) 21 0 ≠ 0 → s.panFitted = true) ∧
      bits (q.arg 1) 21 0 + s.maxRet ≤ s.fld F.MEM_PAN_USABLE_tiles ∧ (bits (q.arg 1) 21 0 = s.blTiles ∨
      s.blRecords = [])) ∧
    (∃ (q : Req) (s : State), s.precheck specBacklogStat q = none) :=
  ⟨⟨req [0x00010002, 0x100, 0, 0, 0], rdy.setFld F.SYS_MODE_mode 0 2, _, _, by decide +kernel, rfl, rfl,
      by decide +kernel, by decide +kernel, by decide +kernel, by decide +kernel, by decide +kernel⟩,
    ⟨req [0x00010002, 0x100, 0, 0, 0], rdy, _, _, by decide +kernel, rfl, rfl, by decide +kernel, by decide +kernel,
      by decide +kernel, by decide +kernel, by decide +kernel⟩,
    ⟨req [2], rdy, by decide +kernel, by decide +kernel⟩,
    ⟨req [0], rdy, by decide +kernel, by decide +kernel⟩,
    ⟨req [0x000100C8], rdy, by decide +kernel, by decide +kernel, by decide +kernel⟩,
    ⟨req [0], rdy, _, by decide +kernel, rfl⟩,
    ⟨req [], rdy, by decide +kernel⟩,
    ⟨req [0], rdy, by decide +kernel, by decide +kernel, by decide +kernel, by decide +kernel⟩,
    ⟨req [], rdy, by decide +kernel⟩⟩

/-- Meets the hypotheses of TransmitCommandsComplete, clause by clause. -/
theorem witness_TransmitCommandsComplete :
    (∃ (q : Req) (s : State) (l : List Nat), s.precheck specPaCfgSet q = none ∧ l = maskList 64 (pathsOf q 1) ∧ pathsOf
      q 1 ≠ 0 ∧ bits (q.arg 3) 9 0 ≤ 1000 ∧ bits (q.arg 3) 19 10 ≤ 1000 ∧ bits (q.arg 3) 29 20 ≤ 1000 ∧ 1 ≤ bits
      (q.arg 4) 7 0 ∧ 1 ≤ bits (q.arg 4) 17 8 ∧ bits (q.arg 4) 17 8 ≤ 1000 ∧ leadUs (bits (q.arg 5) 11 0) (bits
      (q.arg 5) 27 16) (bits (q.arg 4) 7 0) (bits (q.arg 4) 17 8) (bits (q.arg 3) 9 0) (bits (q.arg 3) 19 10) (bits
      (q.arg 3) 29 20) ≤ 10000 ∧ (∀ p ∈ l, s.paState p ≤ 1 ∧ s.flag F.TX_PATH_STAT_degraded p = false)) ∧
    (∃ (q : Req) (s : State) (l : List Nat) (off : Bool), s.precheck specPaSeq q = none ∧ l = maskList 64 (pathsOf q 1)
      ∧ off = bitAt (q.arg 3) 0 ∧ pathsOf q 1 ≠ 0 ∧ s.canSchedule q 4 200000 ∧ (∀ p ∈ l, s.paStatic p = true ∧
      s.flag F.TX_EVT_bias_sc p = false ∧ s.flag F.TX_PATH_STAT_degraded p = false ∧ s.paState p = if off then
      pRfOn else pOff)) ∧
    (∃ (q : Req) (s : State) (n : Nat), s.precheck specPaBiasStrobe q = none ∧ n = bits (q.arg 1) 2 0 ∧ n ≤ 4 ∧ s.holds
      q.mbx resStrobe n = true ∧ (schedOf q 2).now = true) ∧
    (∃ (q : Req) (s : State) (n : Nat), s.precheck specPaBiasStrobe q = none ∧ n = bits (q.arg 1) 2 0 ∧ n ≤ 4 ∧ s.holds
      q.mbx resStrobe n = true ∧ s.canSchedule q 2 200000) ∧
    (∃ (q : Req) (s : State) (c : AckCfg), s.precheck specAckCfgSet q = none ∧ 16 ≤ bits (q.arg 1) 26 16 ∧ bits (q.arg
      1) 26 16 ≤ 1024 ∧ 500 ≤ bits (q.arg 2) 23 0 ∧ bits (q.arg 2) 23 0 ≤ 10000000 ∧ bits (q.arg 4) 6 4 ≤ 4 ∧ bits
      (q.arg 4) 3 0 + bits (q.arg 4) 6 4 ≤ 16 ∧ (∀ i < bits (q.arg 4) 6 4, s.holds q.mbx resTc (bits (q.arg 4) 3 0
      + i) = true) ∧ (∀ x ∈ s.bursts, x.2.ack = true → x.2.profile ≠ bits (q.arg 1) 2 0) ∧ c = AckCfg.mk (bitAt
      (q.arg 1) 3) (bitAt (q.arg 1) 4) (bits (q.arg 1) 12 8) (bits (q.arg 1) 26 16) (bits (q.arg 2) 23 0) (bits
      (q.arg 3) 15 0)) ∧
    (∃ (q : Req) (s : State), s.precheck specAckStat q = none) :=
  ⟨⟨req [1, 0, 0, 0x00000101, 0], rdy, _, by decide +kernel, rfl, by decide +kernel, by decide +kernel,
      by decide +kernel, by decide +kernel, by decide +kernel, by decide +kernel, by decide +kernel,
      by decide +kernel, by decide +kernel⟩,
    ⟨req [1, 0, 0, 0, 1000000000, 0], (rdy.setFld F.TX_PATH_STAT_pa_state 0 1).setFld F.PA_MODE_mode 0 1, _, _,
      by decide +kernel, rfl, rfl, by decide +kernel, by decide +kernel, by decide +kernel⟩,
    ⟨req [0, 0x80000000, 0, 0], rdy, _, by decide +kernel, rfl, by decide +kernel, by decide +kernel,
      by decide +kernel⟩,
    ⟨req [0, 0, 1000000000, 0], rdy, _, by decide +kernel, rfl, by decide +kernel, by decide +kernel,
      by decide +kernel⟩,
    ⟨req [0x00100000, 500, 0, 0x10], rdy, _, by decide +kernel, by decide +kernel, by decide +kernel,
      by decide +kernel, by decide +kernel, by decide +kernel, by decide +kernel, by decide +kernel,
      by decide +kernel, rfl⟩,
    ⟨req [], rdy, by decide +kernel⟩⟩

/-- Meets the hypotheses of PredistortionCommandsComplete, clause by clause. -/
theorem witness_PredistortionCommandsComplete :
    (∃ (q : Req) (s : State) (l : List Nat), s.precheck specDpdCfgSet q = none ∧ l = maskList 64 (pathsOf q 1) ∧
      pathsOf q 1 ≠ 0 ∧ 1 ≤ bits (q.arg 3) 29 16 ∧ bits (q.arg 3) 29 16 ≤ 10000 ∧ 10 ≤ bits (q.arg 3) 13 8 ∧ bits
      (q.arg 3) 13 8 ≤ 50 ∧ (∀ p ∈ l, (s.flag F.DPD_CFG_bypass p = bitAt (q.arg 3) 0 ∨ s.paState p ≤ pOff) ∧ s.flag
      F.TX_PATH_STAT_degraded p = false)) ∧
    (∃ (q : Req) (s : State) (u : State) (set : List Word) (p : Nat), s.precheck specDpdCoefLoad q = none ∧ p = bits
      (q.arg 1) 5 0 ∧ s.regionOk q 2 1 ∧ s.flag F.TX_PATH_STAT_degraded p = false ∧ s.openTile (regionFirst q 2) 3
      true = (true, u) ∧ set = u.tileWords (regionFirst q 2) 64 ∧ setOk set = true) ∧
    (∃ (q : Req) (s : State) (x : DpdPath) (n : Nat), s.precheck specDpdCoefRead q = none ∧ x = s.dpdOf (bits (q.arg 1)
      5 0) ∧ n = bits (q.arg 1) 9 8 ∧ s.regionOk q 2 1 ∧ n ≠ 3 ∧ (n = 1 → x.target ≠ none)) ∧
    (∃ (q : Req) (s : State) (l : List Nat), s.precheck specDpdReset q = none ∧ l = maskList 64 (pathsOf q 1) ∧ pathsOf
      q 1 ≠ 0 ∧ (∀ p ∈ l, s.flag F.TX_PATH_STAT_degraded p = false)) ∧
    (∃ (q : Req) (s : State) (p : Nat), s.precheck specOrxCapture q = none ∧ p = bits (q.arg 1) 5 0 ∧ s.onHosc = false
      ∧ s.regionOk q 2 16 ∧ s.holds q.mbx resOrx (quadOf p) = true ∧ s.canSchedule q 3 200000 ∧ s.hostCapture
      (quadOf p) = false ∧ s.domState (dQuad + 4 * quadOf p + 3) = 0) ∧
    (∃ (q : Req) (s : State) (p : Nat) (x : DpdPath) (r : _) (k : _), s.precheck specDpdStatGet q = none ∧ p = bits
      (q.arg 1) 5 0 ∧ x = s.dpdOf p ∧ r = (fun i => satN 16 (Store.get (fun _ => 0) s.dpd.rejects (16 * p + i))) ∧
      k = (fun i => satN 16 (Store.get (fun _ => 0) s.dpd.skips (8 * p + i)))) :=
  ⟨⟨req [1, 0, 0x00010A00], rdy, _, by decide +kernel, rfl, by decide +kernel, by decide +kernel, by decide +kernel,
      by decide +kernel, by decide +kernel, by decide +kernel⟩,
    ⟨req [0, 0x000100C8], rdy, _, _, _, by decide +kernel, rfl, by decide +kernel, by decide +kernel, rfl, rfl,
      by decide +kernel⟩,
    ⟨req [0, 0x000100C8], rdy, _, _, by decide +kernel, rfl, rfl, by decide +kernel, by decide +kernel,
      by decide +kernel⟩,
    ⟨req [1, 0], rdy, _, by decide +kernel, rfl, by decide +kernel, by decide +kernel⟩,
    ⟨req [0, 0x001000C8, 0, 1000000000, 0], rdy, _, by decide +kernel, rfl, by decide +kernel, by decide +kernel,
      by decide +kernel, by decide +kernel, by decide +kernel, by decide +kernel⟩,
    ⟨req [0], rdy, _, _, _, _, by decide +kernel, rfl, rfl, rfl, rfl⟩⟩

/-- Meets the hypotheses of CalibrationCommandsComplete, clause by clause. -/
theorem witness_CalibrationCommandsComplete :
    (∃ (q : Req) (s : State) (qm : Nat) (m : Nat) (sides : List Nat) (r : CalRun), s.precheck specCalRun q = none ∧
      s.onHosc = false ∧ bits (q.arg 1) 11 0 &&& 0x808 = 0 ∧ qm = bits (q.arg 1) 19 16 ∧ qm ≠ 0 ∧ m = pathsOf q 2 ∧
      (m = 0 ↔ bitAt (q.arg 1) 24 = false) ∧ sides = s.runSides (bits (q.arg 1) 11 0) qm ∧ (usesOrx (bits (q.arg 1)
      11 0) = true → ∀ k ∈ sides, k % 2 = 1 → s.holds q.mbx resOrx (k / 2) = false) ∧ (∀ k ∈ sides, s.sideState k ≠
      sOff) ∧ (∀ p ∈ maskList 64 m, qm.testBit (quadOf p) = true → (2 * quadOf p ∈ sides → s.degraded p false =
      false) ∧ (2 * quadOf p + 1 ∈ sides → s.degraded p true = false)) ∧ s.modeChanging = false ∧ (∀ a ∈ maskList 4
      qm, s.runOn a = none) ∧ r = CalRun.mk 0 (bits (q.arg 1) 11 0) qm (if bitAt (q.arg 1) 24 then m else 2 ^ 64 -
      1) sides [] (some q.cmd) (if (schedOf q 4).now then none else some (schedOf q 4).unit) (schedOf q 4).t false
      [] none ∧ (schedOf q 4).now = true) ∧
    (∃ (q : Req) (s : State) (qm : Nat) (m : Nat) (sides : List Nat) (r : CalRun), s.precheck specCalRun q = none ∧
      s.onHosc = false ∧ bits (q.arg 1) 11 0 &&& 0x808 = 0 ∧ qm = bits (q.arg 1) 19 16 ∧ qm ≠ 0 ∧ m = pathsOf q 2 ∧
      (m = 0 ↔ bitAt (q.arg 1) 24 = false) ∧ sides = s.runSides (bits (q.arg 1) 11 0) qm ∧ (usesOrx (bits (q.arg 1)
      11 0) = true → ∀ k ∈ sides, k % 2 = 1 → s.holds q.mbx resOrx (k / 2) = false) ∧ (∀ k ∈ sides, s.sideState k ≠
      sOff) ∧ (∀ p ∈ maskList 64 m, qm.testBit (quadOf p) = true → (2 * quadOf p ∈ sides → s.degraded p false =
      false) ∧ (2 * quadOf p + 1 ∈ sides → s.degraded p true = false)) ∧ s.modeChanging = false ∧ (∀ a ∈ maskList 4
      qm, s.runOn a = none) ∧ r = CalRun.mk 0 (bits (q.arg 1) 11 0) qm (if bitAt (q.arg 1) 24 then m else 2 ^ 64 -
      1) sides [] (some q.cmd) (if (schedOf q 4).now then none else some (schedOf q 4).unit) (schedOf q 4).t false
      [] none ∧ s.canSchedule q 4 200000) ∧
    (∃ (q : Req) (s : State), s.precheck specCalCfgSet q = none ∧ 1 ≤ bits (q.arg 1) 31 22 ∧ bits (q.arg 1) 31 22 ≤
      1000 ∧ 1 ≤ bits (q.arg 1) 21 12 ∧ bits (q.arg 1) 21 12 ≤ 1000 ∧ 1 ≤ bits (q.arg 1) 4 0 ∧ bits (q.arg 1) 4 0 ≤
      30 ∧ 10 ≤ bits (q.arg 2) 13 0 ∧ bits (q.arg 2) 13 0 ≤ 10000) ∧
    (∃ (q : Req) (s : State) (a : Nat), s.precheck specCalStatGet q = none ∧ a = bits (q.arg 1) 1 0) ∧
    (∃ (q : Req) (s : State) (p : Nat) (tx : Bool) (r : CalRun), s.precheck specCalRestore q = none ∧ p = bits (q.arg
      1) 5 0 ∧ tx = bitAt (q.arg 1) 8 ∧ s.degraded p tx = true ∧ s.runOn (quadOf p) = none ∧ r = CalRun.mk 2
      (restoreCals tx) (2 ^ quadOf p) (2 ^ p) [2 * quadOf p + if tx then 1 else 0] [] (some q.cmd) none s.now false
      [] none) ∧
    (∃ (q : Req) (s : State) (u : State), s.precheck specCalNetLoad q = none ∧ s.regionOk q 1 1 ∧ (∀ r ∈ s.cal.runs,
      r.begun = false) ∧ s.openTile (regionFirst q 1) 3 true = (true, u)) ∧
    (∃ (q : Req) (s : State) (u : Nat), s.precheck specCalResultRead q = none ∧ s.regionOk q 2 1 ∧ u = (if bitAt (q.arg
      1) 8 then 64 + bits (q.arg 1) 1 0 else bits (q.arg 1) 5 0) ∧ (Config.calWords u).toNat + 1 ≤ 1024 *
      regionCount q 2) :=
  ⟨⟨req [0x00010001, 0, 0, 0x80000000, 0, 0], (rdy.setFld F.RADIO_STAT_rx_state 0 2).setFld F.RADIO_STAT_tx_state 0 2,
      _, _, _, _, by decide +kernel, by decide +kernel, by decide +kernel, rfl, by decide +kernel, rfl,
      by decide +kernel, rfl, by decide +kernel, by decide +kernel, by decide +kernel, by decide +kernel,
      by decide +kernel, rfl, by decide +kernel⟩,
    ⟨req [0x00010001, 0, 0, 0, 1000000000, 0], (rdy.setFld F.RADIO_STAT_rx_state 0 2).setFld F.RADIO_STAT_tx_state 0 2,
      _, _, _, _, by decide +kernel, by decide +kernel, by decide +kernel, rfl, by decide +kernel, rfl,
      by decide +kernel, rfl, by decide +kernel, by decide +kernel, by decide +kernel, by decide +kernel,
      by decide +kernel, rfl, by decide +kernel⟩,
    ⟨req [0x00401001, 10], rdy, by decide +kernel, by decide +kernel, by decide +kernel, by decide +kernel,
      by decide +kernel, by decide +kernel, by decide +kernel, by decide +kernel, by decide +kernel⟩,
    ⟨req [0], rdy, _, by decide +kernel, rfl⟩,
    ⟨req [0], rdy.setFld F.RX_PATH_STAT_degraded 0 1, _, _, _, by decide +kernel, rfl, rfl, by decide +kernel,
      by decide +kernel, rfl⟩,
    ⟨req [0x000100C8], rdy, _, by decide +kernel, by decide +kernel, by decide +kernel, rfl⟩,
    ⟨req [0, 0x000400C8], rdy, _, by decide +kernel, by decide +kernel, rfl,
      (Nat.le_trans (BitVec.isLt _) (by decide +kernel))⟩⟩

/-- Meets the hypotheses of LinkCommandsComplete, clause by clause. -/
theorem witness_LinkCommandsComplete :
    (∃ (q : Req) (s : State), s.precheck specLinkCfgSet q = none ∧ bits (q.arg 1) 6 4 + 1 ≤ popCount 8 (bits (q.arg 1)
      15 8) ∧ (bits (q.arg 2) 7 0 ≠ 0 → ffeOk (q.arg 3) = true) ∧ s.cfgDrops (q.arg 1) = true) ∧
    (∃ (q : Req) (s : State), s.precheck specLinkCfgSet q = none ∧ bits (q.arg 1) 6 4 + 1 ≤ popCount 8 (bits (q.arg 1)
      15 8) ∧ (bits (q.arg 2) 7 0 ≠ 0 → ffeOk (q.arg 3) = true) ∧ s.cfgDrops (q.arg 1) = false) ∧
    (∃ (q : Req) (s : State), s.precheck specLinkStateGet q = none) ∧
    (∃ (q : Req) (s : State), s.precheck specLinkRetrain q = none ∧ s.flag F.LNK_CFG_en = true ∧ s.linkState = lDown) ∧
    (∃ (q : Req) (s : State), s.precheck specLinkRetrain q = none ∧ s.flag F.LNK_CFG_en = true ∧ s.linkState ≠ lDown) ∧
    (∃ (q : Req) (s : State) (u : State), s.precheck specLinkLoopSet q = none ∧ s.flag F.LNK_CFG_en = false ∧ bits
      (q.arg 1) 7 0 ≠ 0 ∧ u = (maskList 8 (bits (q.arg 1) 7 0)).foldl (fun s n => ((s.setFld F.LNK_LANE_STAT_loop n
      (bits (q.arg 1) 9 8)).setFlag F.LNK_LANE_STAT_prbs_on n (bitAt (q.arg 1) 16)).setFld
      F.LNK_LANE_STAT_prbs_sync n 0) s) ∧
    (∃ (q : Req) (s : State) (m0 : Nat) (mMin : Nat) (u : State), s.precheck specFrameContentSet q = none ∧ mOfCode
      (bits (q.arg 1) 7 4) = some m0 ∧ mOfCode (bits (q.arg 1) 11 8) = some mMin ∧ (bits (q.arg 1) 2 0 = mRelay ∨
      bits (q.arg 1) 2 0 = mMirror) ∧ mMin ≤ m0 ∧ 1 ≤ bits (q.arg 1) 22 16 ∧ bits (q.arg 1) 22 16 ≤ 100 ∧ u =
      ({ s with link := { s.link with content := Store.set contentDefault s.link.content (bits (q.arg 1) 2 0) (m0, mMin, bits (q.arg 1) 15 12) } }
      : State).setFld F.LNK_BL_DRAIN_drain_pct 0 (bits (q.arg 1) 22 16) ∧ s.modeNo = bits (q.arg 1) 2 0) ∧
    (∃ (q : Req) (s : State) (m0 : Nat) (mMin : Nat) (u : State), s.precheck specFrameContentSet q = none ∧ mOfCode
      (bits (q.arg 1) 7 4) = some m0 ∧ mOfCode (bits (q.arg 1) 11 8) = some mMin ∧ (bits (q.arg 1) 2 0 = mRelay ∨
      bits (q.arg 1) 2 0 = mMirror) ∧ mMin ≤ m0 ∧ 1 ≤ bits (q.arg 1) 22 16 ∧ bits (q.arg 1) 22 16 ≤ 100 ∧ u =
      ({ s with link := { s.link with content := Store.set contentDefault s.link.content (bits (q.arg 1) 2 0) (m0, mMin, bits (q.arg 1) 15 12) } }
      : State).setFld F.LNK_BL_DRAIN_drain_pct 0 (bits (q.arg 1) 22 16) ∧ s.modeNo ≠ bits (q.arg 1) 2 0) ∧
    (∃ (q : Req) (s : State) (k : Nat) (lim : Nat) (sent : Nat), s.precheck specFrameStatGet q = none ∧ k = bits (q.arg
      1) 7 0 ∧ (lim, sent) = (if creditedTx.contains k then (perStream s.link.limit k, perStream s.link.sent k)
      else if grantedRx.contains k then (perStream s.link.grant k, perStream s.link.got k) else (0, 0))) :=
  ⟨⟨req [0x00000100, 0, 0], rdy.setFld F.LNK_STAT_state 0 1 |>.setFld F.LNK_CFG_en 0 1, by decide +kernel,
      by decide +kernel, by decide +kernel, by decide +kernel⟩,
    ⟨req [0x00000100, 0, 0], rdy, by decide +kernel, by decide +kernel, by decide +kernel, by decide +kernel⟩,
    ⟨req [], rdy, by decide +kernel⟩,
    ⟨req [], rdy.setFld F.LNK_CFG_en 0 1, by decide +kernel, by decide +kernel, by decide +kernel⟩,
    ⟨req [], (rdy.setFld F.LNK_CFG_en 0 1).setFld F.LNK_STAT_state 0 5, by decide +kernel, by decide +kernel,
      by decide +kernel⟩,
    ⟨req [1], rdy, _, by decide +kernel, by decide +kernel, by decide +kernel, rfl⟩,
    ⟨req [0x00010884], rdy.setFld F.SYS_MODE_mode 0 4, _, _, _, by decide +kernel, rfl, rfl, by decide +kernel,
      by decide +kernel, by decide +kernel, by decide +kernel, rfl, by decide +kernel⟩,
    ⟨req [0x00010884], rdy, _, _, _, by decide +kernel, rfl, rfl, by decide +kernel, by decide +kernel,
      by decide +kernel, by decide +kernel, rfl, by decide +kernel⟩,
    ⟨req [0], rdy, _, _, _, by decide +kernel, rfl, (rfl)⟩⟩

/-- Meets the hypotheses of TimeCommandsComplete, clause by clause. -/
theorem witness_TimeCommandsComplete :
    (∃ (q : Req) (s : State), s.precheck specTimeCfgSet q = none ∧ 1 ≤ bits (q.arg 1) 31 16 ∧ bits (q.arg 1) 31 16 ≤
      1000 ∧ (q.arg 3).toNat ≤ 999999999) ∧
    (∃ (q : Req) (s : State) (u : State), s.precheck specTimeStep q = none ∧ bits (q.arg 2) 31 16 = (if bitAt (q.arg 2)
      15 then 0xFFFF else 0) ∧ s.anyArmed = false ∧ u = s.tick.stepBy (stepOf q)) ∧
    (∃ (q : Req) (s : State), s.precheck specTimeGet q = none) ∧
    (∃ (q : Req) (s : State) (u : Nat) (c : T48), s.precheck specTcArm q = none ∧ u = bits (q.arg 1) 3 0 ∧ c =
      BitVec.ofNat 48 ((q.arg 3).toNat + 2 ^ 32 * bits (q.arg 4) 15 0) ∧ (bits (q.arg 2) 7 4 = 1 ∨ bits (q.arg 2) 7
      4 = 2) ∧ (bitAt (q.arg 2) 1 = true → 100 ≤ (q.arg 5).toNat) ∧ s.holds q.mbx resTc u = true ∧ s.armed u =
      false ∧ s.cmpPast c = false) ∧
    (∃ (q : Req) (s : State) (u : Nat), s.precheck specTcDisarm q = none ∧ u = bits (q.arg 1) 3 0 ∧ s.holds q.mbx resTc
      u = true ∧ s.flag F.TC_CTL_cmd_armed u = false) :=
  ⟨⟨req [0x00010000, 0, 0, 0, 0], rdy, by decide +kernel, by decide +kernel, by decide +kernel, by decide +kernel⟩,
    ⟨req [1, 0], rdy, _, by decide +kernel, by decide +kernel, by decide +kernel, rfl⟩,
    ⟨req [], rdy, by decide +kernel⟩,
    ⟨req [0, 0x10, 1000000000, 0, 0], rdy, _, _, by decide +kernel, rfl, rfl, by decide +kernel, by decide +kernel,
      by decide +kernel, by decide +kernel, by decide +kernel⟩,
    ⟨req [0], rdy, _, by decide +kernel, rfl, by decide +kernel, by decide +kernel⟩⟩

/-- Meets the hypotheses of MemoryCommandsComplete, clause by clause. -/
theorem witness_MemoryCommandsComplete :
    (∃ (q : Req) (s : State) (l : List Nat), s.precheck specTileSeal q = none ∧ s.regionOk q 1 1 ∧ l = (regionTiles q
      1).filter (fun t => (s.tile t).state = .open)) ∧
    (∃ (q : Req) (s : State) (l : List Nat), s.precheck specTileOpen q = none ∧ s.regionOk q 1 1 ∧ l = (regionTiles q
      1).filter (fun t => (s.tile t).state = .sealed)) ∧
    (∃ (q : Req) (s : State), s.precheck specTileVerify q = none ∧ s.regionOk q 1 1 ∧ (∀ t ∈ regionTiles q 1,
      s.tileFails t = false)) ∧
    (∃ (q : Req) (s : State) (t : Nat), s.precheck specTileVerify q = none ∧ s.regionOk q 1 1 ∧ (regionTiles q 1).find?
      s.tileFails = some t) ∧
    (∃ (q : Req) (s : State), s.precheck specMemStat q = none) ∧
    (∃ (q : Req) (s : State) (lar : List Nat) (pan : List Nat), s.precheck specQuarList q = none ∧ s.regionOk q 1 1 ∧
      lar = s.quarList 0 6144 ∧ pan = (s.quarList 0x400000 0x800000).map (· - 0x400000) ∧ lar.length + pan.length ≤
      1024 * regionCount q 1) ∧
    (∃ (q : Req) (s : State) (l : List Nat), s.precheck specQuarRetest q = none ∧ 1 ≤ regionCount q 1 ∧ regionFirst q 1
      + regionCount q 1 ≤ 6144 ∧ l = (regionTiles q 1).filter (fun t => (s.tile t).state = .quarantined) ∧ (∀ t ∈
      l, ∀ c, s.owner resTile t = some c → c.internal = true)) ∧
    (∃ (q : Req) (s : State), s.precheck specDmaCfgSet q = none ∧ bits (q.arg 1) 15 0 ≠ 0 ∧ s.dmaBusy = false) :=
  ⟨⟨req [0x000100C8], rdy, _, by decide +kernel, by decide +kernel, rfl⟩,
    ⟨req [0x000100C8], rdy, _, by decide +kernel, by decide +kernel, rfl⟩,
    ⟨req [0x000100C8], rdy, by decide +kernel, by decide +kernel, by decide +kernel⟩,
    ⟨req [0x000100C8], rdy.setTile 200 { state := .quarantined }, _, by decide +kernel, by decide +kernel, rfl⟩,
    ⟨req [], rdy, by decide +kernel⟩,
    ⟨req [0x000100C8], rdy, _, _, by decide +kernel, by decide +kernel, rfl, rfl, by decide +kernel⟩,
    ⟨req [0x000100C8], rdy, _, by decide +kernel, by decide +kernel, by decide +kernel, rfl, (by intro t h; cases h)⟩,
    ⟨req [1], rdy, by decide +kernel, by decide +kernel, by decide +kernel⟩⟩

/-- Meets the hypotheses of PowerCommandsComplete, clause by clause. -/
theorem witness_PowerCommandsComplete :
    (∃ (q : Req) (s : State) (r : PwrReq), s.precheck specPwrDomainSet q = none ∧ r = PwrReq.mk q.cmd (bits (q.arg 1) 1
      0) (bits (q.arg 1) 13 8) (bits (q.arg 1) 18 16) (maskList 64 (pathMask (q.arg 2) (q.arg 3))) ∧ s.powerRefused
      r = none ∧ (∃ d ∈ r.group, s.domBusy d = true)) ∧
    (∃ (q : Req) (s : State) (r : PwrReq), s.precheck specPwrDomainSet q = none ∧ r = PwrReq.mk q.cmd (bits (q.arg 1) 1
      0) (bits (q.arg 1) 13 8) (bits (q.arg 1) 18 16) (maskList 64 (pathMask (q.arg 2) (q.arg 3))) ∧ s.powerRefused
      r = none ∧ (∀ d ∈ r.group, s.domBusy d = false) ∧ r.target = 0) ∧
    (∃ (q : Req) (s : State) (r : PwrReq), s.precheck specPwrDomainSet q = none ∧ r = PwrReq.mk q.cmd (bits (q.arg 1) 1
      0) (bits (q.arg 1) 13 8) (bits (q.arg 1) 18 16) (maskList 64 (pathMask (q.arg 2) (q.arg 3))) ∧ s.powerRefused
      r = none ∧ (∀ d ∈ r.group, s.domBusy d = false) ∧ r.target ≠ 0 ∧ (∀ d ∈ r.group, s.domState d = r.target)) ∧
    (∃ (q : Req) (s : State) (r : PwrReq), s.precheck specPwrDomainSet q = none ∧ r = PwrReq.mk q.cmd (bits (q.arg 1) 1
      0) (bits (q.arg 1) 13 8) (bits (q.arg 1) 18 16) (maskList 64 (pathMask (q.arg 2) (q.arg 3))) ∧ s.powerRefused
      r = none ∧ (∀ d ∈ r.group, s.domBusy d = false) ∧ r.target ≠ 0 ∧ (∃ d ∈ r.group, s.domState d ≠ r.target)) ∧
    (∃ (q : Req) (s : State) (u : State), s.precheck specPwrOpSet q = none ∧ u = ((s.setFld F.PWR_SIEVE_OP_fixed 0
      (bits (q.arg 1) 3 0)).setFlag F.PWR_OP_col_fixed 0 (bitAt (q.arg 1) 4)).setFlag F.PWR_OP_txb_fixed 0 (bitAt
      (q.arg 1) 5)) ∧
    (∃ (q : Req) (s : State) (d : Nat), s.precheck specPwrStatGet q = none ∧ d = bits (q.arg 1) 5 0 ∧ isDomain d =
      true) ∧
    (∃ (q : Req) (s : State), s.precheck specVmonCfgSet q = none ∧ bits (q.arg 1) 7 0 ≠ 0 ∧ 4 ≤ bits (q.arg 2) 4 0 ∧
      bits (q.arg 2) 4 0 ≤ 16 ∧ 12 ≤ bits (q.arg 2) 12 8 ∧ bits (q.arg 2) 12 8 ≤ 24 ∧ bits (q.arg 2) 4 0 + 4 ≤ bits
      (q.arg 2) 12 8) :=
  ⟨⟨req [0x00001400, 4, 0], { rdy with pwr := { rdy.pwr with trans := [(2, some 1)] } }, _, by decide +kernel, rfl,
      by decide +kernel, by decide +kernel⟩,
    ⟨req [0x00001400, 4, 0], rdy, _, by decide +kernel, rfl, by decide +kernel, by decide +kernel, by decide +kernel⟩,
    ⟨req [0x00000001, 4, 0], rdy.setFld F.PWR_DOM_state 2 1, _, by decide +kernel, rfl, by decide +kernel,
      by decide +kernel, by decide +kernel, by decide +kernel⟩,
    ⟨req [0x00000001, 4, 0], rdy, _, by decide +kernel, rfl, by decide +kernel, by decide +kernel, by decide +kernel,
      by decide +kernel⟩,
    ⟨req [0], rdy, _, by decide +kernel, rfl⟩,
    ⟨req [0], rdy, _, by decide +kernel, rfl, by decide +kernel⟩,
    ⟨req [1, 0x0C04], rdy, by decide +kernel, by decide +kernel, by decide +kernel, by decide +kernel,
      by decide +kernel, by decide +kernel, by decide +kernel⟩⟩

/-- Meets the hypotheses of FaultCommandsComplete, clause by clause. -/
theorem witness_FaultCommandsComplete :
    (∃ (q : Req) (s : State), s.precheck specFaultStatGet q = none) ∧
    (∃ (q : Req) (s : State), s.precheck specFaultInject q = none ∧ s.modeNo = mHold ∧ bits (q.arg 1) 15 0 ∈ faultCodes
      ∧ bits (q.arg 1) 15 0 ≠ 0x0102 ∧ bits (q.arg 1) 15 0 ≠ 0x0205) :=
  ⟨⟨req [], rdy, by decide +kernel⟩,
    ⟨req [0x0401], rdy, by decide +kernel, by decide +kernel, by decide +kernel, by decide +kernel, by decide +kernel⟩⟩

/-- Meets the hypotheses of HostFramesComplete, clause by clause. -/
theorem witness_HostFramesComplete :
    (∃ (addr : Nat) (v : Word) (s : State) (r : RegName) (i : Nat), s.cspiUp = true ∧ addr < 0x4000 ∧ plainAddr (4 *
      addr) ∧ s.regAt .cspi (4 * addr) = some (r, i) ∧ r.plainWrite = true ∧ r.resource i = none ∧ s.targets .cspi
      r i = [i]) ∧
    (∃ (addr : Nat) (v : Word) (s : State), s.cspiUp = true ∧ 0x800000 ≤ addr ∧ addr < 2 ^ 24 ∧ s.writable .cspi
      (s.winByte addr)) ∧
    (∃ (addr : Nat) (s : State), s.cspiUp = true ∧ 0x800000 ≤ addr ∧ addr < 2 ^ 24 ∧ s.readableMem (s.winByte addr)) ∧
    (∃ (s : State), s.cspiUp = true) ∧
    (∃ (op : Nat) (s : State), s.cspiUp = true ∧ op ≠ 0x02 ∧ op ≠ 0x0B ∧ op ≠ 0x05) ∧
    (∃ (a : Nat) (v : Word) (s : State) (u : State) (r : RegName) (i : Nat), s.rxOpen = true ∧ a % 4 = 0 ∧ plainAddr a
      ∧ u = s.received 0 (len8Of 4) ∧ u.regAt .link a = some (r, i) ∧ r.plainWrite = true ∧ r.resource i = none ∧
      u.targets .link r i = [i]) ∧
    (∃ (a : Nat) (v : Word) (s : State) (u : State), s.rxOpen = true ∧ a % 4 = 0 ∧ a < 2 ^ 40 ∧ u = s.received 0
      (len8Of 4) ∧ u.writable .link a) ∧
    (∃ (a : Nat) (s : State) (u : State), s.rxOpen = true ∧ a % 4 = 0 ∧ a < 2 ^ 40 ∧ u = s.received 0 (len8Of 3) ∧
      u.readableMem a) ∧
    (∃ (a : Nat) (n : Nat) (data : List Word) (s : State) (u : State) (ch : Nat) (c : DmaCh), s.rxOpen = true ∧ 1 ≤ n ∧
      n ≤ 256 ∧ data.length = n ∧ u = s.received 0 (len8Of (4 + n)) ∧ (List.range 32).find? (fun k => decide
      ((u.dma k).want = some (a, n))) = some ch ∧ c = u.dma ch ∧ c.phase = 2) ∧
    (∃ (a : Nat) (n : Nat) (data : List Word) (s : State) (u : State) (ch : Nat) (c : DmaCh), s.rxOpen = true ∧ 1 ≤ n ∧
      n ≤ 256 ∧ data.length = n ∧ u = s.received 0 (len8Of (4 + n)) ∧ (List.range 32).find? (fun k => decide
      ((u.dma k).want = some (a, n))) = some ch ∧ c = u.dma ch ∧ c.phase ≠ 2 ∧ (descOf c.desc).len / 4 ≤
      c.remote.length + n) ∧
    (∃ (n : Nat) (h : Word) (args : List Word) (s : State) (u : State) (w : State), s.rxOpen = true ∧ n < 8 ∧
      args.length ≤ 63 ∧ u = s.received 0 (len8Of (2 + args.length)) ∧ w = (u.putRequest n (h :: args)).setFld
      F.SYS_MBX_STAT_collide n 1 ∧ u.mbxState n = mbBusy) ∧
    (∃ (n : Nat) (h : Word) (args : List Word) (s : State) (u : State) (w : State), s.rxOpen = true ∧ n < 8 ∧
      args.length ≤ 63 ∧ u = s.received 0 (len8Of (2 + args.length)) ∧ w = (u.putRequest n (h :: args)).setFld
      F.SYS_MBX_STAT_collide n 1 ∧ u.mbxState n ≠ mbBusy ∧ (u.mbx n).lastLink = some (h :: args)) ∧
    (∃ (n : Nat) (h : Word) (args : List Word) (s : State) (u : State) (w : State), s.rxOpen = true ∧ n < 8 ∧
      args.length ≤ 63 ∧ u = s.received 0 (len8Of (2 + args.length)) ∧ w = (u.putRequest n (h :: args)).setFld
      F.SYS_MBX_STAT_collide n 1 ∧ u.mbxState n ≠ mbBusy ∧ (u.mbx n).lastLink ≠ some (h :: args)) :=
  ⟨⟨9, 1, rdy, .SYS_IRQ_EN, 0, by decide +kernel, by decide +kernel, by decide +kernel, by decide +kernel,
      by decide +kernel, by decide +kernel, by decide +kernel⟩,
    ⟨0x800000 + 204800, 1, win, by decide +kernel, by decide +kernel, by decide +kernel,
      (⟨200, by decide +kernel, by decide +kernel, by decide +kernel, by decide +kernel, by decide +kernel⟩)⟩,
    ⟨0x800000 + 204800, win, by decide +kernel, by decide +kernel, by decide +kernel,
      (⟨200, by decide +kernel, by decide +kernel, by decide +kernel⟩)⟩,
    ⟨rdy, by decide +kernel⟩,
    ⟨0, rdy, by decide +kernel, by decide +kernel, by decide +kernel, by decide +kernel⟩,
    ⟨0x24, 1, lnk, _, .SYS_IRQ_EN, 0, by decide +kernel, by decide +kernel, by decide +kernel, rfl, by decide +kernel,
      by decide +kernel, by decide +kernel, by decide +kernel⟩,
    ⟨0x100C8000, 1, lnk, _, by decide +kernel, by decide +kernel, by decide +kernel, rfl,
      (⟨200, by decide +kernel, by decide +kernel, by decide +kernel, by decide +kernel, by decide +kernel⟩)⟩,
    ⟨0x100C8000, lnk, _, by decide +kernel, by decide +kernel, by decide +kernel, rfl,
      (⟨200, by decide +kernel, by decide +kernel, by decide +kernel⟩)⟩,
    ⟨64, 1, [0], remoteRead 2, _, 0, _, by decide +kernel, by decide +kernel, by decide +kernel, by decide +kernel,
      rfl, by decide +kernel, rfl, by decide +kernel⟩,
    ⟨64, 1, [0], remoteRead 0, _, 0, _, by decide +kernel, by decide +kernel, by decide +kernel, by decide +kernel,
      rfl, by decide +kernel, rfl, by decide +kernel, by decide +kernel⟩,
    ⟨1, 0x0101, [], lnk.setFld F.SYS_MBX_STAT_state 1 1, _, _, by decide +kernel, by decide +kernel, by decide +kernel,
      rfl, rfl, by decide +kernel⟩,
    ⟨1, 0x0101, [], { lnk with sys := { lnk.sys with mbx := [(1, { lastLink := some [0x0101] })] } }, _, _,
      by decide +kernel, by decide +kernel, by decide +kernel, rfl, rfl, by decide +kernel, by decide +kernel⟩,
    ⟨1, 0x0101, [], lnk, _, _, by decide +kernel, by decide +kernel, by decide +kernel, rfl, rfl, by decide +kernel,
      by decide +kernel⟩⟩

/-- Meets the hypotheses of RegisterAccessesComplete, clause by clause. -/
theorem witness_RegisterAccessesComplete :
    (∃ (p : Port) (a : Nat) (v : Word) (s : State) (r : RegName) (i : Nat), a % 4 = 0 ∧ plainAddr a ∧ s.regAt p a =
      some (r, i) ∧ r.plainWrite = true ∧ r.resource i = none ∧ s.targets p r i = [i]) ∧
    (∃ (p : Port) (a : Nat) (s : State) (r : RegName) (i : Nat), a % 4 = 0 ∧ plainAddr a ∧ s.regAt p a = some (r, i) ∧
      r.plainRead = true) ∧
    (∃ (p : Port) (s : State) (l : Store Word), l = Store.set (fun _ => 0) (Store.set (fun _ => 0) s.time.latch (2 *
      p.idx) s.timeSub) (2 * p.idx + 1) (toWord s.timeWraps)) ∧
    (∃ (p : Port) (n : Nat) (s : State), n < 8 ∧ s.mbxState n = mbBusy) ∧
    (∃ (p : Port) (n : Nat) (s : State), n < 8 ∧ s.mbxState n ≠ mbBusy) ∧
    (∃ (p : Port) (n : Nat) (s : State), n < 8 ∧ s.mbxState n = mbDone) ∧
    (∃ (p : Port) (v : Word) (s : State), (bitAt v 7 = false ∨ bits v 5 0 ≤ 31)) ∧
    (∃ (p : Port) (u : Nat) (v : Word) (s : State) (t : State), u < 16 ∧ s.portHolds p resTc u = true ∧ s.flag
      F.TC_CTL_cmd_armed u = false ∧ t = s.setReg .TC_CTL u (RegName.TC_CTL.written (s.reg .TC_CTL u) v) ∧ bitAt v
      0 = false) ∧
    (∃ (p : Port) (u : Nat) (v : Word) (s : State) (t : State), u < 16 ∧ s.portHolds p resTc u = true ∧ s.flag
      F.TC_CTL_cmd_armed u = false ∧ t = s.setReg .TC_CTL u (RegName.TC_CTL.written (s.reg .TC_CTL u) v) ∧ bitAt v
      0 = true ∧ (bits v 7 4 = 1 ∨ bits v 7 4 = 2) ∧ (bitAt v 1 = true → 100 ≤ (t.reg .TC_PERIOD u).toNat) ∧
      t.cmpPast (t.cmpTime u) = false) ∧
    (∃ (p : Port) (v : Word) (s : State), (s.fld F.TIME_CFG_src = 0 ∨ (s.fld F.TIME_CFG_src = 2 ∧ p = .tilin))) ∧
    (∃ (p : Port) (n : Nat) (v : Word) (s : State) (t : State), n < 32 ∧ s.portHolds p resDma n = true ∧ s.flag
      F.DMA_CH_CTL_en n = false ∧ s.fld F.DMA_CH_STAT_state n = 0 ∧ t = s.setReg .DMA_CH_CTL n
      (RegName.DMA_CH_CTL.written (s.reg .DMA_CH_CTL n) v) ∧ t.fld F.DMA_CH_STAT_state n = 0 ∧ bitAt v 0 = false) ∧
    (∃ (p : Port) (n : Nat) (v : Word) (s : State) (t : State), n < 32 ∧ s.portHolds p resDma n = true ∧ s.flag
      F.DMA_CH_CTL_en n = false ∧ s.fld F.DMA_CH_STAT_state n = 0 ∧ t = s.setReg .DMA_CH_CTL n
      (RegName.DMA_CH_CTL.written (s.reg .DMA_CH_CTL n) v) ∧ t.fld F.DMA_CH_STAT_state n = 0 ∧ bitAt v 0 = true ∧
      t.flag F.DMA_CH_CTL_tc_start n = false) ∧
    (∃ (p : Port) (n : Nat) (v : Word) (s : State) (t : State), n < 32 ∧ s.portHolds p resDma n = true ∧ s.flag
      F.DMA_CH_CTL_en n = false ∧ s.fld F.DMA_CH_STAT_state n = 0 ∧ t = s.setReg .DMA_CH_CTL n
      (RegName.DMA_CH_CTL.written (s.reg .DMA_CH_CTL n) v) ∧ t.fld F.DMA_CH_STAT_state n = 0 ∧ bitAt v 0 = true ∧
      t.flag F.DMA_CH_CTL_tc_start n = true ∧ t.unitOfOwner n (t.fld F.DMA_CH_CTL_tc_unit n) = true) ∧
    (∃ (p : Port) (v : Word) (s : State) (t : State), s.portHolds p resAux 0 = true ∧ s.flag F.AUX_SEQ_CTL_run = false
      ∧ t = s.setReg .AUX_SEQ_CTL 0 (RegName.AUX_SEQ_CTL.written (s.reg .AUX_SEQ_CTL 0) (v &&& 0xFFFFFFFE)) ∧ bitAt
      v 0 = false) ∧
    (∃ (p : Port) (v : Word) (s : State) (t : State), s.portHolds p resAux 0 = true ∧ s.flag F.AUX_SEQ_CTL_run = false
      ∧ t = s.setReg .AUX_SEQ_CTL 0 (RegName.AUX_SEQ_CTL.written (s.reg .AUX_SEQ_CTL 0) (v &&& 0xFFFFFFFE)) ∧ bitAt
      v 0 = true ∧ t.reg .AUX_SEQ_MASK 0 ≠ 0 ∧ t.auxRingOk = true) ∧
    (∃ (s : State), s.flt.wdogOn = true) ∧
    (∃ (s : State) (n : Nat) (t : State), s.coreUp = true ∧ s.nextMbx = some n ∧ commandOf (reqOpcode (((s.markTaken
      n).mbx n).copied.headD 0)) (s.reqOf n) (s.markTaken n) = some (.next t)) ∧
    (∃ (s : State) (n : Nat) (t : State), s.coreUp = true ∧ s.nextMbx = some n ∧ commandOf (reqOpcode (((s.markTaken
      n).mbx n).copied.headD 0)) (s.reqOf n) (s.markTaken n) = none) ∧
    (∃ (n : Nat) (s : State) (r : Rsp), n < 8 ∧ s.mbxState n = mbBusy ∧ (s.mbx n).staged = some r) ∧
    (∃ (code : Nat) (scope : Nat) (s : State) (w : RlWin), s.window code scope = some w) :=
  ⟨⟨.cspi, 0x24, 1, rdy, .SYS_IRQ_EN, 0, by decide +kernel, by decide +kernel, by decide +kernel, by decide +kernel,
      by decide +kernel, by decide +kernel⟩,
    ⟨.cspi, 0x24, rdy, .SYS_IRQ_EN, 0, by decide +kernel, by decide +kernel, by decide +kernel, by decide +kernel⟩,
    ⟨.cspi, rdy, _, rfl⟩,
    ⟨.cspi, 1, busy {}, by decide +kernel, by decide +kernel⟩,
    ⟨.cspi, 1, rdy, by decide +kernel, by decide +kernel⟩,
    ⟨.cspi, 1, rdy.setFld F.SYS_MBX_STAT_state 1 2, by decide +kernel, by decide +kernel⟩,
    ⟨.cspi, 0x80, rdy, by decide +kernel⟩,
    ⟨.cspi, 0, 0, rdy, _, by decide +kernel, by decide +kernel, by decide +kernel, rfl, by decide +kernel⟩,
    ⟨.cspi, 0, 0x11, rdy.setReg .TC_CMP_NS 0 1000000000, _, by decide +kernel, by decide +kernel, by decide +kernel,
      rfl, by decide +kernel, by decide +kernel, by decide +kernel, by decide +kernel⟩,
    ⟨.cspi, 5, rdy.setFld F.TIME_CFG_src 0 0, by decide +kernel⟩,
    ⟨.cspi, 0, 0, rdy, _, by decide +kernel, by decide +kernel, by decide +kernel, by decide +kernel, rfl,
      by decide +kernel, by decide +kernel⟩,
    ⟨.cspi, 0, 1, rdy, _, by decide +kernel, by decide +kernel, by decide +kernel, by decide +kernel, rfl,
      by decide +kernel, by decide +kernel, by decide +kernel⟩,
    ⟨.cspi, 0, 3, rdy, _, by decide +kernel, by decide +kernel, by decide +kernel, by decide +kernel, rfl,
      by decide +kernel, by decide +kernel, by decide +kernel, by decide +kernel⟩,
    ⟨.cspi, 0, rdy, _, by decide +kernel, by decide +kernel, rfl, by decide +kernel⟩,
    ⟨.cspi, 1, ((rdy.setReg .AUX_SEQ_MASK 0 1).setReg .AUX_BUF_BASE 0 0x100C8000).setFld F.AUX_BUF_CTL_size_log2 0 9,
      _, by decide +kernel, by decide +kernel, rfl, by decide +kernel, by decide +kernel, by decide +kernel⟩,
    ⟨{ rdy with flt := { rdy.flt with wdogOn := true } }, by decide +kernel⟩,
    ⟨busy { copied := [0x0101] }, _, _, by decide +kernel, rfl, (rfl)⟩,
    ⟨busy { copied := [0] }, 1, rdy, by decide +kernel, by decide +kernel, by decide +kernel⟩,
    ⟨1, busy { staged := some rspOk }, _, by decide +kernel, by decide +kernel, rfl⟩,
    ⟨0x0401, 0, rdy.setWindow 0x0401 0 (some ⟨0, 0, 0, 0⟩), _, rfl⟩⟩

/-- Meets the hypotheses of BootCommandsComplete, clause by clause. -/
theorem witness_BootCommandsComplete :
    (∃ (b : Nat) (r : Bool) (s : State), s.sys.resetN = false) ∧
    (∃ (b : Nat) (r : Bool) (s : State), s.sys.held = true) ∧
    (∃ (s : State), s.stage = 1) ∧
    (∃ (h : Nat) (s : State) (u : State), s.stage = 2 ∧ s.time.held = false ∧ s.fld F.SYS_STATE_boot_src ≠ 2 ∧ u =
      ((s.setFld F.SYS_STATE_stage 0 3).setFld F.CLK_STAT_hosc_ready 0 1).setFld F.CLK_SRC_rdy_hosc 0 1) ∧
    (∃ (s : State), s.stage = 3 ∧ (s.fld F.SYS_STATE_boot_src = 0 ∨ s.fld F.SYS_STATE_boot_src = 3) ∧ s.sys.imageFrom <
      2) ∧
    (∃ (img : ImageChecks) (s : State), s.stage = 4 ∧ s.imageCause img = 0) ∧
    (∃ (img : ImageChecks) (s : State), s.stage = 4 ∧ s.imageCause img ≠ 0) ∧
    (∃ (l : List Byte) (s : State) (u : State), s.stage = 5 ∧ s.cal.commissioned = false ∧ s.fld F.SYS_STATE_boot_src =
      0 ∧ profileOk l = true ∧ bitAt (profileWord l 2) 0 = true ∧ bitAt (profileWord l 2) 1 = false ∧ u = s.setNet
      ((List.range 68).map fun i => profileWord l (3 + i))) ∧
    (∃ (rs : List CalResult) (s : State) (u : State), s.stage = 6 ∧ s.flag F.CLK_STAT_ref_ok = true ∧ 1 ≤ s.cal.step ∧
      s.cal.step ≤ 11 ∧ s.cal.step ≠ 2 ∧ u = (s.stepResults rs).foldl (fun s r => s.calResult r true) s ∧
      s.cal.step = 11) ∧
    (∃ (rs : List CalResult) (s : State) (u : State), s.stage = 6 ∧ s.flag F.CLK_STAT_ref_ok = true ∧ 1 ≤ s.cal.step ∧
      s.cal.step ≤ 11 ∧ s.cal.step ≠ 2 ∧ u = (s.stepResults rs).foldl (fun s r => s.calResult r true) s ∧
      s.cal.step ≠ 11) ∧
    (∃ (rs : List CalResult) (s : State) (u : State), s.stage = 6 ∧ s.flag F.CLK_STAT_ref_ok = true ∧ 1 ≤ s.cal.step ∧
      s.cal.step ≤ 11 ∧ s.cal.step = 2 ∧ u = ((s.stepResults rs).foldl (fun s r => s.calResult r true)
      s.sidesIntoCal).firstClocks) ∧
    (∃ (s : State), s.sys.resetN = true) ∧
    (∃ (rail : Nat) (code : Nat) (s : State), rail < 8) ∧
    (∃ (s : State) (dev : Bool) (t : T48), s.flt.deferred = some (dev, some t)) :=
  ⟨⟨0, false, State.reset, by decide +kernel⟩,
    ⟨0, false, { rdy with sys := { rdy.sys with held := true } }, by decide +kernel⟩,
    ⟨rdy.setFld F.SYS_STATE_stage 0 1, by decide +kernel⟩,
    ⟨0, rdy.setFld F.SYS_STATE_stage 0 2, _, by decide +kernel, by decide +kernel, by decide +kernel, rfl⟩,
    ⟨rdy.setFld F.SYS_STATE_stage 0 3, by decide +kernel, by decide +kernel, by decide +kernel⟩,
    ⟨⟨true, true, true, true, true, 0⟩, rdy.setFld F.SYS_STATE_stage 0 4, by decide +kernel, by decide +kernel⟩,
    ⟨⟨false, true, true, true, true, 0⟩, rdy.setFld F.SYS_STATE_stage 0 4, by decide +kernel, by decide +kernel⟩,
    ⟨prl, rdy.setFld F.SYS_STATE_stage 0 5, _, by decide +kernel, by decide +kernel, by decide +kernel, (prl_ok),
      by decide +kernel, by decide +kernel, rfl⟩,
    ⟨[], { rdy.setFld F.SYS_STATE_stage 0 6 |>.setFld F.CLK_STAT_ref_ok 0 1 with cal := { rdy.cal with step := 11 } },
      _, by decide +kernel, by decide +kernel, by decide +kernel, by decide +kernel, by decide +kernel, rfl,
      by decide +kernel⟩,
    ⟨[], { rdy.setFld F.SYS_STATE_stage 0 6 |>.setFld F.CLK_STAT_ref_ok 0 1 with cal := { rdy.cal with step := 1 } },
      _, by decide +kernel, by decide +kernel, by decide +kernel, by decide +kernel, by decide +kernel, rfl,
      by decide +kernel⟩,
    ⟨[], { rdy.setFld F.SYS_STATE_stage 0 6 |>.setFld F.CLK_STAT_ref_ok 0 1 with cal := { rdy.cal with step := 2 } },
      _, by decide +kernel, by decide +kernel, by decide +kernel, by decide +kernel, by decide +kernel, rfl⟩,
    ⟨rdy, by decide +kernel⟩,
    ⟨7, 0, rdy, by decide +kernel⟩,
    ⟨{ rdy with flt := { rdy.flt with deferred := some (true, some 0) } }, _, _, (rfl)⟩⟩

/-- Meets the hypotheses of FaultRowsComplete, clause by clause. -/
theorem witness_FaultRowsComplete :
    (∃ (k : Nat) (s : State), k < 12) ∧
    (∃ (k : Nat) (s : State) (a : Nat), s.assistOf k = some a) ∧
    (∃ (s : State), s.coreUp = true) ∧
    (∃ (s : State), s.flt.wdogOn = true) ∧
    (∃ (s : State) (c : Nat), s.sys.restartCause = some c ∧ s.stage = 5 ∧ s.cal.commissioned = true) ∧
    (∃ (d : Nat) (s : State) (code : Nat) (unit : Nat) (u : State), isDomain d = true ∧ s.domState d = 0 ∧ s.sagging d
      = false ∧ s.sys.resetN = true ∧ sagFault d = some (code, unit) ∧ u = (if d = dTxb then (s.setSag d
      true).queuesStop else s.setSag d true) ∧ (u.fld F.VMON_STAT_warn).testBit 0 = false) ∧
    (∃ (d : Nat) (s : State) (e : FaultEnt), s.sagging d = true ∧ s.flt.running = some e ∧ (e.code = 0x0103 ∨ e.code =
      0x0104) ∧ e.unit = d) ∧
    (∃ (ok : Bool) (rs : List CalResult) (s : State) (e : FaultEnt), s.flt.running = some e ∧ e.code = 0x0401 ∧ e.unit
      < 12) ∧
    (∃ (ok : Bool) (rs : List CalResult) (s : State) (e : FaultEnt), s.flt.running = some e ∧ (e.code = 0x0201 ∨ e.code
      = 0x0202 ∨ e.code = 0x0203 ∨ e.code = 0x0204 ∨ e.code = 0x0302 ∨ e.code = 0x0303 ∨ e.code = 0x0504)) ∧
    (∃ (l : List Nat) (s : State) (u : State), l.length = 5 ∧ s.sys.resetN = true ∧ s.sys.held = false ∧ u =
      (((s.takeTemps l).biasTemp (sensorCode l 4)).rearmWarn l).noteCool l ∧ hotSensor l (tjMax - 5) = none) ∧
    (∃ (l : List Nat) (s : State) (u : State) (n : Nat), l.length = 5 ∧ s.sys.resetN = true ∧ s.sys.held = false ∧ u =
      (((s.takeTemps l).biasTemp (sensorCode l 4)).rearmWarn l).noteCool l ∧ hotSensor l (tjMax + 5) = none ∧
      hotSensor l (tjMax - 5) = some n ∧ u.flt.warned = false) ∧
    (∃ (l : List Nat) (s : State) (u : State) (n : Nat) (m : Nat), l.length = 5 ∧ s.sys.resetN = true ∧ s.sys.held =
      false ∧ u = (((s.takeTemps l).biasTemp (sensorCode l 4)).rearmWarn l).noteCool l ∧ hotSensor l (tjMax + 5) =
      some n ∧ hotSensor l (tjMax - 5) = some m ∧ u.flt.crit = false) ∧
    (∃ (s : State) (t : T48), s.flt.coolSince = some t ∧ s.flag F.FLT_STAT_therm_hold = true) :=
  ⟨⟨11, rdy, by decide +kernel⟩,
    ⟨0, { rdy with rxb := { rdy.rxb with assist := [(0, some 1)] } }, _, (rfl)⟩,
    ⟨rdy, by decide +kernel⟩,
    ⟨{ rdy with flt := { rdy.flt with wdogOn := true } }, by decide +kernel⟩,
    ⟨{ rdy.setFld F.SYS_STATE_stage 0 5 with sys := { rdy.sys with restartCause := some 1 }, cal := { rdy.cal with commissioned := true } },
      _, rfl, by decide +kernel, by decide +kernel⟩,
    ⟨2, rdy, 0x0103, 2, _, by decide +kernel, by decide +kernel, by decide +kernel, by decide +kernel,
      by decide +kernel, rfl, by decide +kernel⟩,
    ⟨2, (running 0x0103 2).setSag 2 true, _, by decide +kernel, rfl, by decide +kernel, by decide +kernel⟩,
    ⟨true, [], running 0x0401 11, _, rfl, by decide +kernel, by decide +kernel⟩,
    ⟨true, [], running 0x0303 0, _, rfl, by decide +kernel⟩,
    ⟨List.replicate 5 0, rdy, _, by decide +kernel, by decide +kernel, by decide +kernel, rfl,
      (by unfold hotSensor tempCode tjMax; generalize Config.gradeFE = b; cases b <;> decide +kernel)⟩,
    ⟨[0, tempCode tjMax, 0, 0, 0], rdy, _, 1, by decide +kernel, by decide +kernel, by decide +kernel, rfl,
      (by unfold hotSensor tempCode tjMax; generalize Config.gradeFE = b; cases b <;> decide +kernel),
      (by unfold hotSensor tempCode tjMax; generalize Config.gradeFE = b; cases b <;> decide +kernel),
      (cool_warned _ _ (by decide +kernel))⟩,
    ⟨[0, tempCode (tjMax + 5), 0, 0, 0], rdy, _, 1, 1, by decide +kernel, by decide +kernel, by decide +kernel, rfl,
      (by unfold hotSensor tempCode tjMax; generalize Config.gradeFE = b; cases b <;> decide +kernel),
      (by unfold hotSensor tempCode tjMax; generalize Config.gradeFE = b; cases b <;> decide +kernel),
      (cool_crit _ _ (by decide +kernel))⟩,
    ⟨{ rdy.setFld F.FLT_STAT_therm_hold 0 1 with flt := { rdy.flt with coolSince := some 0 } }, _, rfl,
      by decide +kernel⟩⟩

/-- Meets the hypotheses of TimeRowsComplete, clause by clause. -/
theorem witness_TimeRowsComplete :
    (∃ (t : T48) (frac : Nat) (s : State) (u : State) (v : State), u = s.elapseTo t ∧ v =
      ({ ((u.setReg .TS_PPS_NS 0 (toWord t.toNat)).setReg .TS_PPS_WF 0 (pack16 (t.toNat / 2 ^ 32) frac)) with time := { u.time with lastPps := some t } }
      : State).setFld F.TIME_STAT_pps_valid 0 1 ∧ (∀ p, u.time.lastPps = some p → 900000000 ≤ (t - p).toNat) ∧
      v.fld F.TIME_CFG_src ≠ 1) ∧
    (∃ (t : T48) (frac : Nat) (s : State) (u : State) (v : State), u = s.elapseTo t ∧ v =
      ({ ((u.setReg .TS_PPS_NS 0 (toWord t.toNat)).setReg .TS_PPS_WF 0 (pack16 (t.toNat / 2 ^ 32) frac)) with time := { u.time with lastPps := some t } }
      : State).setFld F.TIME_STAT_pps_valid 0 1 ∧ (∀ p, u.time.lastPps = some p → 900000000 ≤ (t - p).toNat) ∧
      v.fld F.TIME_CFG_src = 1) ∧
    (∃ (t : T48) (frac : Nat) (s : State) (u : State) (v : State) (p : T48), u = s.elapseTo t ∧ v =
      ({ ((u.setReg .TS_PPS_NS 0 (toWord t.toNat)).setReg .TS_PPS_WF 0 (pack16 (t.toNat / 2 ^ 32) frac)) with time := { u.time with lastPps := some t } }
      : State).setFld F.TIME_STAT_pps_valid 0 1 ∧ u.time.lastPps = some p ∧ (t - p).toNat < 900000000) ∧
    (∃ (s : State) (p : T48), s.time.lastPps = some p ∧ s.flag F.TIME_STAT_pps_valid = true) ∧
    (∃ (s : State) (u : State) (v : State), s.linkUp = true ∧ u = s.setFld F.TS_MARK_SEQ_tx_seq 0 (s.fld
      F.TS_MARK_SEQ_tx_seq + 1) ∧ v = (u.setReg .TS_MARK_TX_NS 0 u.timeNs).setReg .TS_MARK_TX_WF 0 (pack16
      u.timeWraps (u.timeSub.toNat / 65536))) ∧
    (∃ (seq : Nat) (t : T48) (frac : Nat) (s : State) (u : State), s.linkUp = true ∧ seq < 65536 ∧ u = (((s.elapseTo
      t).setFld F.TS_MARK_SEQ_rx_seq 0 seq).setReg .TS_MARK_RX_NS 0 (toWord t.toNat)).setReg .TS_MARK_RX_WF 0
      (pack16 (t.toNat / 2 ^ 32) frac)) ∧
    (∃ (a : Word) (b : Word) (c : Word) (d : Word) (e : Word) (f : Word) (s : State), s.linkUp = true ∧ bits a 7 0 = 1
      ∧ bits d 15 0 = s.fld F.TS_MARK_SEQ_tx_seq ∧ bits a 23 8 = s.fld F.TS_MARK_SEQ_rx_seq ∧ s.time.staleTx =
      false ∧ s.time.staleRx = false ∧ s.fld F.TIME_CFG_src = 2) ∧
    (∃ (n : Nat) (s : State) (u : State), n < 16 ∧ s.armed n = true ∧ u = (s.elapseTo (s.unitC n)).setFld
      F.TC_CTL_fired n 1 ∧ u.flag F.TC_CTL_cmd_armed n = false ∧ u.fld F.TC_CTL_action n = 1 ∧ (u.fireOut n
      (u.unitC n)).flag F.TC_CTL_periodic n = false) ∧
    (∃ (n : Nat) (s : State) (u : State) (a : TcAction), n < 16 ∧ s.armed n = true ∧ u = (s.elapseTo (s.unitC
      n)).setFld F.TC_CTL_fired n 1 ∧ u.flag F.TC_CTL_cmd_armed n = true ∧ u.actOf n = some a ∧ u.unprepared n a =
      false) ∧
    (∃ (n : Nat) (s : State) (u : State) (a : TcAction) (p : PendMode), n < 16 ∧ s.armed n = true ∧ s.actOf n = some a
      ∧ u = s.elapseTo (tAdd (s.unitC n) (-(s.prepLead a : Int))) ∧ a = .mode ∧ u.mode.pend = some p) ∧
    (∃ (n : Nat) (s : State) (u : State) (a : TcAction), n < 16 ∧ s.armed n = true ∧ s.actOf n = some a ∧ u =
      s.elapseTo (tAdd (s.unitC n) (-(s.prepLead a : Int))) ∧ a.crossing ≠ 0 ∧ u.prepShown n a = false) :=
  ⟨⟨5, 0, rdy, _, _, rfl, rfl, (fun _ h => nomatch h), by decide +kernel⟩,
    ⟨5, 0, rdy.setFld F.TIME_CFG_src 0 1, _, _, rfl, rfl, (fun _ h => nomatch h), by decide +kernel⟩,
    ⟨5, 0, { rdy with time := { rdy.time with lastPps := some 0 } }, _, _, _, rfl, rfl, (rfl), by decide +kernel⟩,
    ⟨{ rdy.setFld F.TIME_STAT_pps_valid 0 1 with time := { rdy.time with lastPps := some 0 } }, _, rfl,
      by decide +kernel⟩,
    ⟨lnk, _, _, by decide +kernel, rfl, rfl⟩,
    ⟨65535, 5, 0, lnk, _, by decide +kernel, by decide +kernel, rfl⟩,
    ⟨1, 0, 0, 0, 0, 0,
      { lnk.setFld F.TIME_CFG_src 0 2 with time := { lnk.time with staleTx := false, staleRx := false } },
      by decide +kernel, by decide +kernel, by decide +kernel, by decide +kernel, by decide +kernel,
      by decide +kernel, by decide +kernel⟩,
    ⟨0, (rdy.setFld F.TC_CTL_arm 0 1).setFld F.TC_CTL_action 0 1, _, by decide +kernel, by decide +kernel, rfl,
      by decide +kernel, by decide +kernel, by decide +kernel⟩,
    ⟨0, rdy.armCmd 0 1000 0xB (.side 1 false true ⟨1, 5⟩), _, _, by decide +kernel, by decide +kernel, rfl,
      by decide +kernel, (rfl), by decide +kernel⟩,
    ⟨0,
      { rdy.armCmd 0 1000000000 7 .mode with mode := { rdy.mode with pend := some ⟨0, 0, false, 0, 0, 0, 0, 1000000000, ⟨1, 5⟩, 5, false⟩ } },
      _, .mode, _, by decide +kernel, by decide +kernel, by decide +kernel, rfl, by decide +kernel, (rfl)⟩,
    ⟨0, rdy.armCmd 0 1000000000 5 (.rxGain 1 5 ⟨1, 5⟩), _, _, by decide +kernel, by decide +kernel, rfl, rfl,
      by decide +kernel, by decide +kernel⟩⟩

/-- Meets the hypotheses of ModeRowsComplete, clause by clause. -/
theorem witness_ModeRowsComplete :
    (∃ (s : State) (p : PendMode) (u : State), s.mode.pend = some p ∧ p.prepared = false ∧ u = (s.elapseTo (tAdd p.at_
      (-(msec p.lead : Nat)))).prepareMode p) ∧
    (∃ (s : State) (d : DrainMode) (u : State) (v : State), (s.mode.drains.find? fun d => !d.entered) = some d ∧ u =
      s.elapseTo (tAdd d.t 100000) ∧ v = (u.unneeded.filter fun x => decide (u.domState x = 0) && !u.domBusy
      x).foldl (fun s x => s.askGroup none 1 [x]) u) ∧
    (∃ (s : State) (d : DrainMode), s.mode.drains.find? s.modeDrained = some d ∧ d.forced = true) ∧
    (∃ (s : State) (d : DrainMode), s.mode.drains.find? s.modeDrained = some d ∧ d.forced = false) ∧
    (∃ (s : State) (c : Nat) (t : T48) (u : State) (w : State) (v : State), s.mode.forced = some (c, t) ∧ u =
      s.elapseTo t ∧ w = { u with mode := { u.mode with forced := none } } ∧ w.mode.pend = none ∧ w.modeNo ≠ mHold
      ∧ v = ((w.applyMode t (w.holdChange t) false).drainFrom t mHold ⟨0, 0⟩ true).postAt t 0x0109 clsWarn (toWord
      (c + 16 * w.modeNo)) ∧ c ≠ 1) ∧
    (∃ (s : State) (c : Nat) (t : T48) (u : State) (w : State) (v : State), s.mode.forced = some (c, t) ∧ u =
      s.elapseTo t ∧ w = { u with mode := { u.mode with forced := none } } ∧ w.mode.pend = none ∧ w.modeNo ≠ mHold
      ∧ v = ((w.applyMode t (w.holdChange t) false).drainFrom t mHold ⟨0, 0⟩ true).postAt t 0x0109 clsWarn (toWord
      (c + 16 * w.modeNo)) ∧ c = 1) ∧
    (∃ (s : State) (u : State), s.modeNo = mSentinel ∧ s.mode.paused = false ∧ u = s.elapseTo s.dwellEnd) ∧
    (∃ (s : State) (u : State), s.modeNo = mSentinel ∧ s.mode.paused = true ∧ s.openCtxs = [] ∧ u = s.elapseTo (nextMs
      s.now)) ∧
    (∃ (s : State) (u : State), s.modeNo = mSentinel ∧ s.mode.paused = false ∧ u = s.elapseTo (tAdd s.dwellEnd
      (-100000))) ∧
    (∃ (f : Nat) (n : Nat) (s : State) (u : State), f < 128 ∧ u = (s.abortWhere cSampleLoss fun x => x.state.live &&
      !x.retry && x.beams.any fun b => if f < 64 then decide (b = f) else (s.beamPaths b).contains (f - 64)).setFld
      F.SYS_MODE_sample_loss 0 1) :=
  ⟨⟨{ rdy with mode := { rdy.mode with pend := some ⟨0, 0, false, 0, 0, 0, 0, 1000000000, ⟨1, 5⟩, 5, false⟩ } }, _, _,
      rfl, by decide +kernel, rfl⟩,
    ⟨{ rdy with mode := { rdy.mode with drains := [⟨0, 1000, 0, ⟨1, 5⟩, [], false, false⟩] } }, _, _, _, (rfl), rfl,
      rfl⟩,
    ⟨{ rdy with mode := { rdy.mode with drains := [⟨0, 1000, 0, ⟨1, 5⟩, [], true, true⟩] } }, _, (rfl),
      by decide +kernel⟩,
    ⟨{ rdy with mode := { rdy.mode with drains := [⟨0, 1000, 0, ⟨1, 5⟩, [], true, false⟩] } }, _, (rfl),
      by decide +kernel⟩,
    ⟨{ rdy.setFld F.SYS_MODE_mode 0 2 with mode := { rdy.mode with forced := some (2, 1000000) } }, _, _, _, _, _,
      (rfl), rfl, rfl, by decide +kernel, by decide +kernel, rfl, by decide +kernel⟩,
    ⟨{ rdy.setFld F.SYS_MODE_mode 0 2 with mode := { rdy.mode with forced := some (1, 1000000) } }, _, _, _, _, _,
      (rfl), rfl, rfl, by decide +kernel, by decide +kernel, rfl, rfl⟩,
    ⟨rdy.setFld F.SYS_MODE_mode 0 1, _, by decide +kernel, by decide +kernel, rfl⟩,
    ⟨{ rdy.setFld F.SYS_MODE_mode 0 1 with mode := { rdy.mode with paused := true } }, _, by decide +kernel,
      by decide +kernel, by decide +kernel, rfl⟩,
    ⟨rdy.setFld F.SYS_MODE_mode 0 1, _, by decide +kernel, by decide +kernel, rfl⟩,
    ⟨127, 0, rdy, _, by decide +kernel, rfl⟩⟩

/-- Meets the hypotheses of ClockRowsComplete, clause by clause. -/
theorem witness_ClockRowsComplete :
    (∃ (s : State), s.stage ≠ 0 ∧ s.flag F.CLK_STAT_hosc_ready = true) ∧
    (∃ (s : State), s.stage ≠ 0 ∧ s.flag F.CLK_STAT_hosc_ready = false) ∧
    (∃ (ref : Nat) (lnk : Nat) (s : State) (u : State), s.flag F.CLK_STAT_hosc_ready = true ∧ u = (s.setFld
      F.CLK_MON_ref_count 0 ref).setFld F.CLK_MON_lnk_count 0 lnk ∧ u.clk.firstWin = true ∧ refRateOf ref ≠ 0) ∧
    (∃ (ref : Nat) (lnk : Nat) (s : State) (u : State), s.flag F.CLK_STAT_hosc_ready = true ∧ u = (s.setFld
      F.CLK_MON_ref_count 0 ref).setFld F.CLK_MON_lnk_count 0 lnk ∧ u.clk.firstWin = false ∧ u.flag
      F.CLK_STAT_ref_ok = true ∧ refRateOf ref = u.fld F.CLK_STAT_ref_rate) ∧
    (∃ (ref : Nat) (lnk : Nat) (s : State) (u : State), s.flag F.CLK_STAT_hosc_ready = true ∧ u = (s.setFld
      F.CLK_MON_ref_count 0 ref).setFld F.CLK_MON_lnk_count 0 lnk ∧ u.clk.firstWin = false ∧ u.flag
      F.CLK_STAT_ref_ok = false ∧ refRateOf ref ≠ 0 ∧ refRateOf ref = u.clk.passRate) ∧
    (∃ (s : State) (u : State), s.flag F.CLK_STAT_ref_ok = false ∧ 100 ≤ s.clk.passes ∧ s.stage = 7 ∧ u = ((s.setFld
      F.CLK_STAT_ref_rate 0 s.clk.passRate).setFld F.CLK_STAT_ref_ok 0 1).setFld F.CLK_SRC_rdy_ref 0 1 ∧ u.stage =
      7 ∧ u.onHosc = true ∧ u.flag F.CLK_CFG_auto_resume = true ∧ u.flag F.CLK_STAT_resuming = false) ∧
    (∃ (s : State) (u : State), s.flag F.CLK_STAT_ref_ok = false ∧ 100 ≤ s.clk.passes ∧ s.stage = 7 ∧ u = ((s.setFld
      F.CLK_STAT_ref_rate 0 s.clk.passRate).setFld F.CLK_STAT_ref_ok 0 1).setFld F.CLK_SRC_rdy_ref 0 1 ∧ u.stage =
      7 ∧ u.flag F.CLK_CFG_auto_resume = false) ∧
    (∃ (s : State) (w : State) (u : State) (v : State), s.flag F.CLK_STAT_resuming = true ∧ s.flag F.CLK_STAT_ref_ok =
      true ∧ w = ((List.range 8).foldl State.resumeSide s.spllsUp) ∧ u = w.runApply (w.clk.found.map (w.judge
      false)) ∧ v = ((u.elapseTo (nextMs u.now)).setFld F.CLK_STAT_resuming 0 0).offHosc) ∧
    (∃ (s : State) (u : State), s.stage = 6 ∧ s.flag F.CLK_STAT_ref_ok = false ∧ u = s.elapseTo (s.clk.noRefAt +
      1000000000)) ∧
    (∃ (q : Nat) (s : State) (u : State) (l : List T48), q < 4 ∧ (s.fld F.CLK_STAT_spll_lock).testBit q = true ∧ s.fld
      F.CLK_STAT_master_cur ≠ q ∧ u = ((((((s.setSpll q false).setFld F.CLK_EVT_spll_unlock 0 1).bump
      F.SPLL_STAT_unlocks q).parkQuad q).quadMute q).post 0x020D clsWarn (toWord q)).tickReady ∧ l = u.recent
      (Store.get (fun _ => []) u.flt.unlocks (8 + q)) 1000000000 ∧ l.length < 3) ∧
    (∃ (q : Nat) (s : State) (u : State) (l : List T48), q < 4 ∧ (s.fld F.CLK_STAT_spll_lock).testBit q = true ∧ s.fld
      F.CLK_STAT_master_cur ≠ q ∧ u = ((((((s.setSpll q false).setFld F.CLK_EVT_spll_unlock 0 1).bump
      F.SPLL_STAT_unlocks q).parkQuad q).quadMute q).post 0x020D clsWarn (toWord q)).tickReady ∧ l = u.recent
      (Store.get (fun _ => []) u.flt.unlocks (8 + q)) 1000000000 ∧ 3 ≤ l.length) ∧
    (∃ (q : Nat) (s : State), q < 4 ∧ s.flag F.CLK_STAT_ref_ok = true ∧ (s.fld F.CLK_STAT_spll_lock).testBit q = false) ∧
    (∃ (n : Nat) (s : State) (u : State), 1024 ≤ n ∧ u = s.setFld F.CLK_PACE_index 0 n) ∧
    (∃ (d : Nat) (b : Nat) (w : Initiator) (s : State) (u : State), isDomain d = true ∧ u = ((((s.bump
      F.CLK_GATE_CNT_forced 0).setFld F.CLK_EVT_gate_forced 0 1).post 0x0212 clsWarn (toWord d)).raiseFault 0x0207
      d).gateError w ∧ (∀ e ∈ u.pwr.entries, e.left.contains (d, b) = false)) ∧
    (∃ (d : Nat) (b : Nat) (w : Initiator) (s : State) (u : State) (e : PwrEntry), isDomain d = true ∧ u = ((((s.bump
      F.CLK_GATE_CNT_forced 0).setFld F.CLK_EVT_gate_forced 0 1).post 0x0212 clsWarn (toWord d)).raiseFault 0x0207
      d).gateError w ∧ (u.pwr.entries.find? fun e => e.left.contains (d, b)) = some e) ∧
    (∃ (q : Nat) (rs : List CalResult) (s : State), s.runOn q = none ∧ s.flag F.CLK_STAT_resuming = true ∧ s.flag
      F.CLK_STAT_ref_ok = true) :=
  ⟨⟨rdy.setFld F.CLK_STAT_hosc_ready 0 1, by decide +kernel, by decide +kernel⟩,
    ⟨rdy, by decide +kernel, by decide +kernel⟩,
    ⟨614, 0, { rdy.setFld F.CLK_STAT_hosc_ready 0 1 with clk := { rdy.clk with firstWin := true } }, _,
      by decide +kernel, rfl, by decide +kernel, by decide +kernel⟩,
    ⟨614, 0, (rdy.setFld F.CLK_STAT_hosc_ready 0 1).setFld F.CLK_STAT_ref_ok 0 1 |>.setFld F.CLK_STAT_ref_rate 0 1, _,
      by decide +kernel, rfl, by decide +kernel, by decide +kernel, by decide +kernel⟩,
    ⟨614, 0, { rdy.setFld F.CLK_STAT_hosc_ready 0 1 with clk := { rdy.clk with passRate := 1 } }, _, by decide +kernel,
      rfl, by decide +kernel, by decide +kernel, by decide +kernel, by decide +kernel⟩,
    ⟨{ rdy.setFld F.CLK_STAT_on_hosc 0 1 |>.setFld F.CLK_CFG_auto_resume 0 1 with clk := { rdy.clk with passes := 100 } },
      _, by decide +kernel, by decide +kernel, by decide +kernel, rfl, by decide +kernel, by decide +kernel,
      by decide +kernel, by decide +kernel⟩,
    ⟨{ rdy.setFld F.CLK_STAT_on_hosc 0 1 |>.setFld F.CLK_CFG_auto_resume 0 0 with clk := { rdy.clk with passes := 100 } },
      _, by decide +kernel, by decide +kernel, by decide +kernel, rfl, by decide +kernel, by decide +kernel⟩,
    ⟨(rdy.setFld F.CLK_STAT_resuming 0 1).setFld F.CLK_STAT_ref_ok 0 1, _, _, _, by decide +kernel, by decide +kernel,
      rfl, rfl, rfl⟩,
    ⟨rdy.setFld F.SYS_STATE_stage 0 6, _, by decide +kernel, by decide +kernel, rfl⟩,
    ⟨3, rdy.setFld F.CLK_STAT_spll_lock 0 15, _, _, by decide +kernel, by decide +kernel, by decide +kernel, rfl, rfl,
      by decide +kernel⟩,
    ⟨3, let x := rdy.setFld F.CLK_STAT_spll_lock 0 15; { x with flt := { x.flt with unlocks := [(11, [0, 0, 0])] } },
      _, _, by decide +kernel, by decide +kernel, by decide +kernel, rfl, rfl, by decide +kernel⟩,
    ⟨3, rdy.setFld F.CLK_STAT_ref_ok 0 1, by decide +kernel, by decide +kernel, by decide +kernel⟩,
    ⟨1024, rdy, _, by decide +kernel, rfl⟩,
    ⟨2, 1, .nobody, rdy, _, by decide +kernel, rfl, by decide +kernel⟩,
    ⟨2, 1, .nobody, { rdy with pwr := { rdy.pwr with entries := [⟨none, 1, [2], [(2, 1)], 0⟩] } }, _, _,
      by decide +kernel, rfl, (rfl)⟩,
    ⟨0, [⟨9, false, 0, false, 0, [1]⟩], (rdy.setFld F.CLK_STAT_resuming 0 1).setFld F.CLK_STAT_ref_ok 0 1,
      by decide +kernel, by decide +kernel, by decide +kernel⟩⟩

/-- Meets the hypotheses of PowerRowsComplete, clause by clause. -/
theorem witness_PowerRowsComplete :
    (∃ (d : Nat) (b : Nat) (s : State) (e : PwrEntry), (s.pwr.entries.find? fun e => e.left.contains (d, b)) = some e ∧
      s.blockRefuses d b = none) ∧
    (∃ (d : Nat) (b : Nat) (s : State) (e : PwrEntry) (c : Nat), (s.pwr.entries.find? fun e => e.left.contains (d, b))
      = some e ∧ s.blockRefuses d b = some c) ∧
    (∃ (s : State) (e : PwrEntry) (l : List PwrEntry) (d : Nat) (b : Nat) (m : List (Nat × Nat)), s.pwr.entries = e ::
      l ∧ e.left = (d, b) :: m) ∧
    (∃ (d : Nat) (s : State) (t : Nat) (w : State) (u : State), s.trans d = some t ∧ w = (((s.setTrans d none).setFld
      F.PWR_DOM_state d t).domArrives d (s.fld F.PWR_DOM_state d) t).jobArrived d ∧ u = (if t = 0 then w.opAtExit d
      else w) ∧ (t = 0 ∨ Store.get (fun _ => false) u.pwr.wake d = false)) ∧
    (∃ (d : Nat) (s : State) (t : Nat) (w : State) (u : State), s.trans d = some t ∧ w = (((s.setTrans d none).setFld
      F.PWR_DOM_state d t).domArrives d (s.fld F.PWR_DOM_state d) t).jobArrived d ∧ u = (if t = 0 then w.opAtExit d
      else w) ∧ t ≠ 0 ∧ Store.get (fun _ => false) u.pwr.wake d = true) ∧
    (∃ (s : State) (u : State), 5 ≤ s.stage ∧ s.domBusy dMgmt = false ∧ s.domState dMgmt = 0 ∧ s.pwr.stalled = false ∧
      u = { s with pwr := { s.pwr with stalled := true } } ∧ (u.fld F.PWR_MODE_mode = 0 ∨ u.needOf dMgmt = 2)) ∧
    (∃ (s : State) (u : State), 5 ≤ s.stage ∧ s.domBusy dMgmt = false ∧ s.domState dMgmt = 0 ∧ s.pwr.stalled = false ∧
      u = { s with pwr := { s.pwr with stalled := true } } ∧ u.fld F.PWR_MODE_mode ≠ 0 ∧ u.needOf dMgmt ≠ 2) ∧
    (∃ (k : Nat) (s : State), k < 12 ∧ s.domBusy (dSkl + k) = false ∧ s.domState (dSkl + k) = 0 ∧ s.sklPlaced k = false
      ∧ s.sklFits k = false ∧ s.assistOf k = none) ∧
    (∃ (d : Nat) (s : State) (c : OpChange), opDomain d = true ∧ s.onHosc = false ∧ s.opChange d = some c ∧ c.toF =
      c.second ∧ d ≠ dCol) ∧
    (∃ (d : Nat) (s : State) (c : OpChange), opDomain d = true ∧ s.onHosc = false ∧ s.opChange d = some c ∧ c.toF ≠
      c.second) ∧
    (∃ (d : Nat) (s : State), opDomain d = true ∧ s.onHosc = false ∧ s.opChange d = none ∧ s.flag F.PWR_DOM_oph d =
      false ∧ s.opFixed d = false ∧ s.ophOk d = true ∧ s.opPending = false ∧ s.domState d = 0 ∧ s.domBusy d =
      false) ∧
    (∃ (s : State) (c : OpChange) (u : State), s.opChange dCol = some c ∧ c.toF = c.second ∧ s.onHosc = false ∧ u =
      s.elapse 1000 ∧ c.ramp < 7) ∧
    (∃ (s : State) (c : OpChange) (u : State), s.opChange dCol = some c ∧ c.toF = c.second ∧ s.onHosc = false ∧ u =
      s.elapse 1000 ∧ 7 ≤ c.ramp) ∧
    (∃ (s : State) (x : Nat × Burst), s.nextCompare = some x) ∧
    (∃ (r : Nat) (c : Nat) (s : State) (u : State), r < 8 ∧ (s.fld F.VMON_STAT_warn).testBit r = false ∧ u = s.setFld
      F.VMON_STAT_warn 0 (s.fld F.VMON_STAT_warn + 2 ^ r)) ∧
    (∃ (r : Nat) (c : Nat) (s : State) (u : State), r < 8 ∧ (s.fld F.VMON_STAT_warn).testBit r = true ∧ u = s.setFld
      F.VMON_STAT_warn 0 (s.fld F.VMON_STAT_warn - 2 ^ r)) :=
  ⟨⟨2, 0, { rdy with pwr := { rdy.pwr with entries := [⟨none, 1, [2], [(2, 0)], 0⟩] } }, _, (rfl), by decide +kernel⟩,
    ⟨2, 0,
      { rdy with pwr := { rdy.pwr with entries := [⟨none, 1, [2], [(2, 0)], 0⟩] }, dpd := { rdy.dpd with fit := [(0, some { path := 0, tile := 0, ended := 0, skillet := some 0 })] } },
      _, 2, (rfl), by decide +kernel⟩,
    ⟨{ rdy with pwr := { rdy.pwr with entries := [⟨none, 1, [2], [(2, 0)], 0⟩] } }, _, _, _, _, _, (rfl), (rfl)⟩,
    ⟨2, { rdy with pwr := { rdy.pwr with trans := [(2, some 0)] } }, _, _, _, (rfl), rfl, rfl, by decide +kernel⟩,
    ⟨2, { rdy with pwr := { rdy.pwr with trans := [(2, some 1)], wake := [(2, true)] } }, _, _, _, (rfl), rfl, rfl,
      by decide +kernel, by decide +kernel⟩,
    ⟨rdy, _, by decide +kernel, by decide +kernel, by decide +kernel, by decide +kernel, rfl, by decide +kernel⟩,
    ⟨rdy.setFld F.PWR_MODE_mode 0 1, _, by decide +kernel, by decide +kernel, by decide +kernel, by decide +kernel,
      rfl, by decide +kernel, by decide +kernel⟩,
    ⟨0, rdy, by decide +kernel, by decide +kernel, by decide +kernel, by decide +kernel, by decide +kernel,
      by decide +kernel⟩,
    ⟨16, { rdy with pwr := { rdy.pwr with op := [(16, some { toF := true, second := true })] } }, _, by decide +kernel,
      by decide +kernel, rfl, by decide +kernel, by decide +kernel⟩,
    ⟨16, { rdy with pwr := { rdy.pwr with op := [(16, some { toF := true, second := false })] } }, _,
      by decide +kernel, by decide +kernel, rfl, by decide +kernel⟩,
    ⟨16, (rxAt 2).setFld F.SIEVE_CFG_preset 0 1, by decide +kernel, by decide +kernel, by decide +kernel,
      by decide +kernel, by decide +kernel, by decide +kernel, by decide +kernel, by decide +kernel,
      by decide +kernel⟩,
    ⟨{ rdy with pwr := { rdy.pwr with op := [(14, some { toF := true, second := true })] } }, _, _, rfl,
      by decide +kernel, by decide +kernel, rfl, by decide +kernel⟩,
    ⟨{ rdy with pwr := { rdy.pwr with op := [(14, some { toF := true, second := true, ramp := 7 })] } }, _, _, rfl,
      by decide +kernel, by decide +kernel, rfl, by decide +kernel⟩,
    ⟨air .waiting, _, rfl⟩,
    ⟨0, 0, rdy, _, by decide +kernel, by decide +kernel, rfl⟩,
    ⟨0, 0, rdy.setFld F.VMON_STAT_warn 0 1, _, by decide +kernel, by decide +kernel, rfl⟩⟩

/-- Meets the hypotheses of ReceivePathRowsComplete, clause by clause. -/
theorem witness_ReceivePathRowsComplete :
    (∃ (p : Nat) (c : Nat) (high : Bool) (t : T48) (n : Nat) (s : State), p < 64 ∧ c < 2 ∧ s.sampling p = true ∧ n <
      s.runOf p) ∧
    (∃ (p : Nat) (c : Nat) (high : Bool) (t : T48) (n : Nat) (s : State) (u : State) (f : Int) (d : Int) (e : OvrEv), p
      < 64 ∧ c < 2 ∧ s.sampling p = true ∧ s.runOf p ≤ n ∧ u = s.elapseTo t ∧ f = u.cycleOf t ∧ d = f + (u.runOf p
      - 1 : Nat) ∧ u.ovrEv (2 * p + c) = some e) ∧
    (∃ (p : Nat) (c : Nat) (high : Bool) (t : T48) (n : Nat) (s : State) (u : State) (f : Int) (d : Int), p < 64 ∧ c <
      2 ∧ s.sampling p = true ∧ s.runOf p ≤ n ∧ u = s.elapseTo t ∧ f = u.cycleOf t ∧ d = f + (u.runOf p - 1 : Nat)
      ∧ u.ovrEv (2 * p + c) = none) ∧
    (∃ (p : Nat) (c : Nat) (s : State) (e : OvrEv), s.ovrEv (2 * p + c) = some e ∧ e.held = true) ∧
    (∃ (p : Nat) (c : Nat) (t : T48) (s : State) (e : OvrEv) (u : State), s.ovrEv (2 * p + c) = some e ∧ u = s.elapseTo
      (tAdd t (fsNs (s.quietOf p)))) ∧
    (∃ (p : Nat) (s : State) (w : DistWin), s.distWin p = some w ∧ w.running = 0) ∧
    (∃ (p : Nat) (sum : Nat) (i : Int) (q : Int) (e : Bool) (s : State), p < 64 ∧ s.sampling p = true ∧ s.pathQualifies
      p = true ∧ (s.nfCount p sum).dcHeld p = true) ∧
    (∃ (p : Nat) (i : Int) (q : Int) (sum : Nat) (s : State), p < 64 ∧ s.sampling p = true ∧ s.pathQualifies p = false
      ∧ s.fld F.RX_PATH_STAT_state p = 2 ∧ s.flaggedNow p = false ∧ s.dcHeld p = false) ∧
    (∃ (p : Nat) (sum : Nat) (i : Int) (q : Int) (e : Bool) (s : State) (k : Nat) (u : State), p < 64 ∧ s.sampling p =
      false ∧ k = 2 * quadOf p ∧ s.mayWake k = true ∧ u = s.wakeFor k) ∧
    (∃ (n : Nat) (s : State) (t : Int), n < 64 ∧ Store.get (fun _ => none) s.rx.counted n = some t) ∧
    (∃ (n : Nat) (s : State) (t : Int), n < 64 ∧ Store.get (fun _ => none) s.rx.counted (n + 64) = some t) ∧
    (∃ (b : Nat) (sum : Nat) (s : State) (u : State), b < 64 ∧ s.flag F.BEAM_RX_STAT_enabled b = true ∧ u = ((s.setReg
      .BEAM_RX_PWR b (toWord (unsN 16 (nfOf ⟨sum, s.nfWin (64 + b)⟩) + 2 ^ 31))).bump
      F.BEAM_RX_EXCL_SMP_excl_samples b 0).setFlag F.BEAM_RX_STAT_sat b false ∧ u.beamQualifies b = true) ∧
    (∃ (b : Nat) (sum : Nat) (s : State) (u : State), b < 64 ∧ s.flag F.BEAM_RX_STAT_enabled b = true ∧ u = ((s.setReg
      .BEAM_RX_PWR b (toWord (unsN 16 (nfOf ⟨sum, s.nfWin (64 + b)⟩) + 2 ^ 31))).bump
      F.BEAM_RX_EXCL_SMP_excl_samples b 0).setFlag F.BEAM_RX_STAT_sat b false ∧ u.beamQualifies b = false) ∧
    (∃ (q : Nat) (d : List Nat) (ok : Bool) (s : State) (x : RffeXfer), s.rffeXfer q = some x) ∧
    (∃ (q : Nat) (d : List Nat) (ok : Bool) (s : State) (n : Nat) (i : Nat) (u : State), s.rffeXfer q = none ∧
      s.rffeRunning q = some (n, i) ∧ u = s.endBus q (s.entryNs q ((s.rffeSeq q n).getD i 0)) ∧ i + 1 < (u.rffeSeq
      q n).length) ∧
    (∃ (q : Nat) (d : List Nat) (ok : Bool) (s : State) (n : Nat) (i : Nat) (u : State), s.rffeXfer q = none ∧
      s.rffeRunning q = some (n, i) ∧ u = s.endBus q (s.entryNs q ((s.rffeSeq q n).getD i 0)) ∧ (u.rffeSeq q
      n).length ≤ i + 1) ∧
    (∃ (q : Nat) (s : State) (f : Fade) (u : State), s.fade q = some f ∧ f.cmd.mbx < 8 ∧ u = s.elapseTo (s.cycleTime
      (s.fadeOver q f + groupCycles (s.fld F.SIEVE_CFG_preset q)))) ∧
    (∃ (p : Nat) (s : State), p < 64 ∧ s.sideState (2 * quadOf p + 1) = sRun ∧ s.flag F.DPD_CFG_bypass p = false ∧
      dpdSum (s.dpdOf p).active (s.zLine p) ≠ dpdOut false (s.dpdOf p).active (s.zLine p)) :=
  ⟨⟨0, 0, true, 0, 0, act, by decide +kernel, by decide +kernel, by decide +kernel, by decide +kernel⟩,
    ⟨0, 0, true, 0, 8, { act with rx := { act.rx with ev := [(0, some { det := 0, last := 0 })] } }, _, _, _, _,
      by decide +kernel, by decide +kernel, by decide +kernel, by decide +kernel, rfl, rfl, rfl, rfl⟩,
    ⟨0, 0, true, 0, 8, act, _, _, _, by decide +kernel, by decide +kernel, by decide +kernel, by decide +kernel, rfl,
      rfl, rfl, by decide +kernel⟩,
    ⟨0, 0, { act with rx := { act.rx with ev := [(0, some { det := 0, last := 0 })] } }, _, rfl, by decide +kernel⟩,
    ⟨0, 0, 0, { act with rx := { act.rx with ev := [(0, some { det := 0, last := 0 })] } }, _, _, rfl, rfl⟩,
    ⟨0, { act with rx := { act.rx with win := [(0, some ⟨0, 0, 0⟩)] } }, _, rfl, by decide +kernel⟩,
    ⟨0, 4096, 0, 0, false, { act.setFld F.RX_DC_CFG_hold 0 1 with dp := { act.dp with cycle := 1000000 } },
      by decide +kernel, by decide +kernel, by decide +kernel, by decide +kernel⟩,
    ⟨0, 0, 0, 0, { act with rx := { act.rx with lastTx := [(0, 1000000)] } }, by decide +kernel, by decide +kernel,
      by decide +kernel, by decide +kernel, by decide +kernel, by decide +kernel⟩,
    ⟨0, 0, 0, 0, false, { rxAt 1 with cal := { rdy.cal with commissioned := true } }, _, _, by decide +kernel,
      by decide +kernel, rfl, by decide +kernel, rfl⟩,
    ⟨0, { act with rx := { act.rx with counted := [(0, some 0)] } }, _, by decide +kernel, rfl⟩,
    ⟨0, { act with rx := { act.rx with counted := [(64, some 0)] } }, _, by decide +kernel, rfl⟩,
    ⟨0, 4096, { rdy.setFld F.BEAM_RX_STAT_enabled 0 1 with dp := { act.dp with cycle := 1000000 } }, _,
      by decide +kernel, by decide +kernel, rfl, by decide +kernel⟩,
    ⟨0, 4096, let x := (rdy.setFld F.BEAM_RX_STAT_enabled 0 1).setFld F.BEAM_RX_CFG_qmask 0 1;
      { x with rx := { x.rx with lastTx := [(0, 1000000)] } }, _, by decide +kernel, by decide +kernel, rfl,
      by decide +kernel⟩,
    ⟨0, [], true, { rdy with rx := { rdy.rx with xfer := [(0, some ⟨1, 0, [], false⟩)] } }, _, rfl⟩,
    ⟨0, [], true, { rdy with rx := { rdy.rx with running := [(0, some (0, 0))], seq := [(0, [0, 0])] } }, 0, 0, _,
      by decide +kernel, by decide +kernel, rfl, by decide +kernel⟩,
    ⟨0, [], true, { rdy with rx := { rdy.rx with running := [(0, some (0, 0))], seq := [(0, [0])] } }, 0, 0, _,
      by decide +kernel, by decide +kernel, rfl, by decide +kernel⟩,
    ⟨0, { rdy with sieve := { rdy.sieve with fade := [(0, some { t := 0, f := 0, cmd := ⟨1, 5⟩ })] } }, _, _, rfl,
      by decide +kernel, rfl⟩,
    ⟨0, let x := txOn.setFld F.DPD_CFG_bypass 0 0;
      { x with dp := { x.dp with txp := [(0, some { z := [(32767, 0)] })] }, dpd := { x.dpd with path := [(0, { active := 0x00200000 :: List.replicate 63 0 })] } },
      by decide +kernel, by decide +kernel, by decide +kernel, by decide +kernel⟩⟩

/-- Meets the hypotheses of BurstRowsComplete, clause by clause. -/
theorem witness_BurstRowsComplete :
    (∃ (u : Nat) (s : State) (b : Burst) (v : State), s.burst u = some b ∧ b.phase = .waiting ∧ v = s.elapseTo (tAdd
      b.compare (-65000)) ∧ ((s.burstQuads b).any fun q => decide (s.sideState (2 * q + 1) = sSleep)) = true) ∧
    (∃ (p : Nat) (s : State) (u : Nat) (b : Burst), firstBurst (s.bursts.filter fun x => decide (x.2.phase ≠ .waiting)
      && s.usesPath x.2 p && !(x.2.started.contains p)) = some (u, b)) ∧
    (∃ (p : Nat) (s : State) (t : Tail) (v : State) (w : State), (s.tx.tails.find? fun t => t.paths.contains p) = some
      t ∧ v = s.elapseTo (tAdd t.fin (s.dRf p)) ∧ w =
      { v with tx := { v.tx with tails := (v.tx.tails.map fun x => if x = t then { t with paths := t.paths.erase p } else x).filter fun x => decide (x.paths ≠ []) } }
      ∧ w.keptOn 16 p t.fin = true) ∧
    (∃ (p : Nat) (s : State) (t : Tail) (v : State) (w : State), (s.tx.tails.find? fun t => t.paths.contains p) = some
      t ∧ v = s.elapseTo (tAdd t.fin (s.dRf p)) ∧ w =
      { v with tx := { v.tx with tails := (v.tx.tails.map fun x => if x = t then { t with paths := t.paths.erase p } else x).filter fun x => decide (x.paths ≠ []) } }
      ∧ w.keptOn 16 p t.fin = false) ∧
    (∃ (p : Nat) (s : State) (t : T48) (v : State) (w : State), (s.pa p).slewAt = some t ∧ v = s.elapseTo t ∧ v.fld
      F.PA_BIAS_OUT_out p + v.fld F.PA_SLEW_step p < v.fld F.PA_BIAS_OUT_target p ∧ 0 < v.fld F.PA_SLEW_step p ∧ w
      = v.setFld F.PA_BIAS_OUT_out p (v.fld F.PA_BIAS_OUT_out p + v.fld F.PA_SLEW_step p)) ∧
    (∃ (p : Nat) (s : State) (t : T48) (v : State) (w : State), (s.pa p).timer = some t ∧ v = s.elapseTo t ∧ v.paState
      p = pBiasUp ∧ w = (v.paTo p pEn).setFld F.TX_PATH_STAT_pa_en p 1) ∧
    (∃ (u : Nat) (s : State) (b : Burst) (h : T48) (v : State) (w : State), s.burst u = some b ∧ b.phase = .compared ∧
      h = b.air - BitVec.ofNat 48 (s.burstRf b) ∧ v = s.elapseTo h ∧ v.grantSince (b.air - BitVec.ofNat 48 v.tGnt)
      = true ∧ v.lockSince b h = true) ∧
    (∃ (u : Nat) (s : State) (b : Burst) (h : T48) (v : State) (w : State), s.burst u = some b ∧ b.phase = .compared ∧
      h = b.air - BitVec.ofNat 48 (s.burstRf b) ∧ v = s.elapseTo h ∧ v.grantSince (b.air - BitVec.ofNat 48 v.tGnt)
      = true ∧ v.lockSince b h = false ∧ w = (v.setBurst u (some { b with phase := .held })).showHold b true) ∧
    (∃ (u : Nat) (s : State) (b : Burst) (f : Word × State), s.burst u = some b ∧ b.phase = .held ∧ s.lockSince b
      (s.lockLast b) = false ∧ s.grantSince (s.grantLast b) = true ∧ f = (s.elapseTo (s.lockLast b)).takeFree) ∧
    (∃ (u : Nat) (s : State) (b : Burst) (v : State), s.burst u = some b ∧ b.ack = true ∧ b.uncomp = false ∧ b.moved =
      false ∧ b.phase ≠ .waiting ∧ b.phase ≠ .held ∧ v = (s.elapseTo (tAdd b.start (-5000))).setBurst u (some
      { b with moved := true })) ∧
    (∃ (u : Nat) (s : State) (b : Burst), s.burst u = some b ∧ b.phase = .released) ∧
    (∃ (u : Nat) (s : State) (b : Burst) (v : State) (w : State), s.burst u = some b ∧ b.phase = .air ∧ b.ack = false ∧
      b.starved = false ∧ b.n ≤ b.got ∧ v = (((s.elapseTo b.stop).ofsBack b).setFld F.TXB_STAT_busy b.beam
      0).burstDone b ∧ v.burstPaths b ≠ [] ∧ w = (v.setBurst u none).endLine u) ∧
    (∃ (beam : Nat) (s : State) (u : Nat) (b : Burst), (s.bursts.find? fun x => decide (x.2.beam = beam ∧ x.2.phase =
      .air)) = some (u, b) ∧ s.lineEmpty u = true) ∧
    (∃ (p : Nat) (s : State), p < 64 ∧ s.sideState (2 * quadOf p + 1) = sRun ∧ s.isDry p = false) ∧
    (∃ (p : Nat) (s : State), p < 64 ∧ s.sideState (2 * quadOf p + 1) = sRun ∧ s.isDry p = true ∧ s.burstOn p = false ∧
      s.txPath p = none) ∧
    (∃ (p : Nat) (s : State) (x : TxPath), p < 64 ∧ s.sideState (2 * quadOf p + 1) = sRun ∧ s.isDry p = true ∧
      s.burstOn p = false ∧ s.txPath p = some x) ∧
    (∃ (p : Nat) (s : State), p < 64 ∧ s.flag F.TX_PATH_STAT_bias_drv p = true) :=
  ⟨⟨3, (air .waiting).setFld F.RADIO_STAT_tx_state 0 1, _, _, rfl, by decide +kernel, rfl, by decide +kernel⟩,
    ⟨0, air .compared, 3, bst .compared, by decide +kernel⟩,
    ⟨0, { air .air with tx := { (air .air).tx with tails := [⟨1000, false, [0]⟩] } }, _, _, _, (rfl), rfl, rfl,
      by decide +kernel⟩,
    ⟨0, { rdy with tx := { rdy.tx with tails := [⟨1000, false, [0]⟩] } }, _, _, _, (rfl), rfl, rfl, by decide +kernel⟩,
    ⟨0,
      { (rdy.setFld F.PA_SLEW_step 0 5).setFld F.PA_BIAS_OUT_target 0 10 with tx := { rdy.tx with pa := [(0, { slewAt := some 0 })] } },
      _, _, _, rfl, rfl, by decide +kernel, by decide +kernel, rfl⟩,
    ⟨0, { rdy.setFld F.TX_PATH_STAT_pa_state 0 2 with tx := { rdy.tx with pa := [(0, { timer := some 0 })] } }, _, _,
      _, rfl, rfl, by decide +kernel, rfl⟩,
    ⟨3,
      { (air .compared).setFld F.RADIO_STAT_tx_lock 0 1 with radio := { rdy.radio with sides := [(1, { lockedAt := some 0 })] } },
      _, _, _, rdy, rfl, by decide +kernel, rfl, rfl, by decide +kernel, by decide +kernel⟩,
    ⟨3, air .compared, _, _, _, _, rfl, by decide +kernel, rfl, rfl, by decide +kernel, by decide +kernel, rfl⟩,
    ⟨3, air .held, _, _, rfl, by decide +kernel, by decide +kernel, by decide +kernel, rfl⟩,
    ⟨3, rdy.setBurst 3 (some { bst .compared with ack := true }), _, _, rfl, by decide +kernel, by decide +kernel,
      by decide +kernel, by decide +kernel, by decide +kernel, rfl⟩,
    ⟨3, air .released, _, rfl, by decide +kernel⟩,
    ⟨3, air .air, _, _, _, rfl, by decide +kernel, by decide +kernel, by decide +kernel, by decide +kernel, rfl,
      by decide +kernel, rfl⟩,
    ⟨0, air .air, 3, bst .air, by decide +kernel, by decide +kernel⟩,
    ⟨0, txOn, by decide +kernel, by decide +kernel, by decide +kernel⟩,
    ⟨0, { txOn with tx := { rdy.tx with dry := [(0, true)] } }, by decide +kernel, by decide +kernel,
      by decide +kernel, by decide +kernel, by decide +kernel⟩,
    ⟨0, { txOn with tx := { rdy.tx with dry := [(0, true)] }, dp := { rdy.dp with txp := [(0, some {})] } }, _,
      by decide +kernel, by decide +kernel, by decide +kernel, by decide +kernel, rfl⟩,
    ⟨0, rdy.setFld F.TX_PATH_STAT_bias_drv 0 1, by decide +kernel, by decide +kernel⟩⟩

/-- Meets the hypotheses of RadioRowsComplete, clause by clause. -/
theorem witness_RadioRowsComplete :
    (∃ (q : Nat) (tx : Bool) (s : State) (k : Nat), k = 2 * q + (if tx then 1 else 0) ∧ q < 4 ∧ sStandby ≤ s.sideState
      k ∧ s.locked k = false ∧ (s.lockGained k).network = false) ∧
    (∃ (q : Nat) (tx : Bool) (s : State) (k : Nat), k = 2 * q + (if tx then 1 else 0) ∧ q < 4 ∧ sStandby ≤ s.sideState
      k ∧ s.locked k = false ∧ (s.lockGained k).network = true) ∧
    (∃ (q : Nat) (s : State) (u : State) (v : State) (l : List T48) (m : Store Nat), q < 4 ∧ s.locked (2 * q) = true ∧
      u = (s.setLock (2 * q) false).setFld F.RADIO_EVT_lock_lost q 1 ∧ m = Store.set (fun _ => 0) u.radio.unlocks
      (2 * q) (Store.get (fun _ => 0) u.radio.unlocks (2 * q) + 1) ∧ v = ((pathsOfQuad q).foldl (fun (s : State) p
      => if 2 ≤ s.fld F.RX_PATH_STAT_state p then s.settleOpen p else s)
      { u with radio := { u.radio with unlocks := m } }).post 0x0207 clsWarn (toWord q) ∧ l = v.recent (Store.get
      (fun _ => []) v.flt.unlocks (2 * q)) 1000000000 ∧ l.length < 3) ∧
    (∃ (q : Nat) (s : State) (u : State) (v : State) (l : List T48) (m : Store Nat), q < 4 ∧ s.locked (2 * q) = true ∧
      u = (s.setLock (2 * q) false).setFld F.RADIO_EVT_lock_lost q 1 ∧ m = Store.set (fun _ => 0) u.radio.unlocks
      (2 * q) (Store.get (fun _ => 0) u.radio.unlocks (2 * q) + 1) ∧ v = ((pathsOfQuad q).foldl (fun (s : State) p
      => if 2 ≤ s.fld F.RX_PATH_STAT_state p then s.settleOpen p else s)
      { u with radio := { u.radio with unlocks := m } }).post 0x0207 clsWarn (toWord q) ∧ l = v.recent (Store.get
      (fun _ => []) v.flt.unlocks (2 * q)) 1000000000 ∧ 3 ≤ l.length) ∧
    (∃ (s : State) (u : State), u = ({ s with radio := { s.radio with gnt := some (s.radio.gnt.getD s.ns) } } :
      State).setFld F.COEX_STAT_gnt 0 1 ∧ u.flag F.COEX_CFG_en = true) ∧
    (∃ (s : State) (u : State), u = ({ s with radio := { s.radio with gnt := some (s.radio.gnt.getD s.ns) } } :
      State).setFld F.COEX_STAT_gnt 0 1 ∧ u.flag F.COEX_CFG_en = false) ∧
    (∃ (s : State) (u : State), u = ({ s with radio := { s.radio with gnt := none } } : State).setFld F.COEX_STAT_gnt 0
      0 ∧ u.flag F.COEX_CFG_en = true) ∧
    (∃ (s : State) (u : State), u = ({ s with radio := { s.radio with gnt := none } } : State).setFld F.COEX_STAT_gnt 0
      0 ∧ u.flag F.COEX_CFG_en = false) ∧
    (∃ (q : Nat) (s : State) (k : Nat) (st : Nat) (u : State), k = 2 * q ∧ (s.side k).going = some st ∧ u =
      ((s.enterSide k st).setSide k { (s.enterSide k st).side k with want := false }).sideArrived k ∧ st ≠ sSleep) ∧
    (∃ (q : Nat) (s : State) (k : Nat) (st : Nat) (u : State), k = 2 * q ∧ (s.side k).going = some st ∧ u =
      ((s.enterSide k st).setSide k { (s.enterSide k st).side k with want := false }).sideArrived k ∧ st = sSleep ∧
      (s.side k).want = true) ∧
    (∃ (q : Nat) (s : State) (k : Nat) (st : Nat) (u : State), k = 2 * q ∧ (s.side k).going = some st ∧ u =
      ((s.enterSide k st).setSide k { (s.enterSide k st).side k with want := false }).sideArrived k ∧ st = sSleep ∧
      (s.side k).want = false ∧ (s.side k).discard = false) ∧
    (∃ (q : Nat) (s : State) (k : Nat) (u : State), k = 2 * q + 1 ∧ u = s.elapse (1000 - s.now.toNat % 1000) ∧ (u.side
      k).going = none ∧ u.compareNear q = false ∧ (u.bursts.any fun e => u.drives e.2 q && decide (e.2.phase ≠
      .waiting)) = false ∧ u.paIdle q = true ∧ u.sideState k = sRun) ∧
    (∃ (q : Nat) (s : State) (k : Nat) (u : State), k = 2 * q + 1 ∧ u = s.elapse (1000 - s.now.toNat % 1000) ∧ (u.side
      k).going = none ∧ u.compareNear q = false ∧ (u.bursts.any fun e => u.drives e.2 q && decide (e.2.phase ≠
      .waiting)) = false ∧ u.paIdle q = true ∧ u.sideState k = sStandby ∧ u.targetNow k = sSleep) :=
  ⟨⟨0, false, rxAt 2, _, rfl, by decide +kernel, by decide +kernel, by decide +kernel, by decide +kernel⟩,
    ⟨0, false, { rxAt 2 with cal := { rdy.cal with net := some [] } }, _, rfl, by decide +kernel, by decide +kernel,
      by decide +kernel, by decide +kernel⟩,
    ⟨0, (rxAt 2).setFld F.RADIO_STAT_rx_lock 0 1, _, _, _, _, by decide +kernel, by decide +kernel, rfl, rfl, rfl, rfl,
      by decide +kernel⟩,
    ⟨0, let x := (rxAt 2).setFld F.RADIO_STAT_rx_lock 0 1;
      { x with flt := { x.flt with unlocks := [(0, [0, 0, 0])] } }, _, _, _, _, by decide +kernel,
      by decide +kernel, rfl, rfl, rfl, rfl, by decide +kernel⟩,
    ⟨rdy.setFld F.COEX_CFG_en 0 1, _, rfl, by decide +kernel⟩,
    ⟨rdy, _, rfl, by decide +kernel⟩,
    ⟨rdy.setFld F.COEX_CFG_en 0 1, _, rfl, by decide +kernel⟩,
    ⟨rdy, _, rfl, by decide +kernel⟩,
    ⟨0, { rxAt 2 with radio := { rdy.radio with sides := [(0, { going := some 3 })] } }, _, _, _, rfl, rfl, rfl,
      by decide +kernel⟩,
    ⟨0, { rxAt 2 with radio := { rdy.radio with sides := [(0, { going := some 1, want := true })] } }, _, _, _, rfl,
      rfl, rfl, rfl, by decide +kernel⟩,
    ⟨0, { rxAt 2 with radio := { rdy.radio with sides := [(0, { going := some 1 })] } }, _, _, _, rfl, rfl, rfl, rfl,
      by decide +kernel, by decide +kernel⟩,
    ⟨0, txOn, _, _, rfl, rfl, by decide +kernel, by decide +kernel, by decide +kernel, by decide +kernel,
      by decide +kernel⟩,
    ⟨0, rdy.setFld F.RADIO_STAT_tx_state 0 2, _, _, rfl, rfl, by decide +kernel, by decide +kernel, by decide +kernel,
      by decide +kernel, by decide +kernel, by decide +kernel⟩⟩

/-- Meets the hypotheses of AdaptationRowsComplete, clause by clause. -/
theorem witness_AdaptationRowsComplete :
    (∃ (p : Nat) (s : State) (u : State) (i : Nat) (x : DpdPath) (new : List Word), (s.dpdOf p).target.isSome = true ∧
      u = (s.elapseTo (s.dpdOf p).nextAt).dpdOpen p ∧ x = u.dpdOf p ∧ firstDiff x.active (x.target.getD x.active) =
      some i ∧ new = (x.active.set (2 * i) ((x.target.getD x.active).getD (2 * i) 0)).set (2 * i + 1)
      ((x.target.getD x.active).getD (2 * i + 1) 0) ∧ new ≠ x.target.getD x.active) ∧
    (∃ (p : Nat) (s : State) (u : State) (i : Nat) (x : DpdPath) (new : List Word), (s.dpdOf p).target.isSome = true ∧
      u = (s.elapseTo (s.dpdOf p).nextAt).dpdOpen p ∧ x = u.dpdOf p ∧ firstDiff x.active (x.target.getD x.active) =
      some i ∧ new = (x.active.set (2 * i) ((x.target.getD x.active).getD (2 * i) 0)).set (2 * i + 1)
      ((x.target.getD x.active).getD (2 * i + 1) 0) ∧ new = x.target.getD x.active) ∧
    (∃ (q : Nat) (n : Nat) (s : State) (b : Burst) (p : Nat) (t : Nat) (v : State) (w : State) (c : OrxCap), q < 4 ∧
      s.burst n = some b ∧ s.nextPath q = some p ∧ b.phase = .air ∧ s.drives b q = true ∧ s.paState p = pRfOn ∧
      56000 ≤ (b.fin - b.air).toNat ∧ txMode s.modeNo = true ∧ s.orxCap q = none ∧ s.orxFit q = none ∧ v =
      (s.elapseTo (tAdd b.start (20000 - 586))).setChosen q (some p) ∧ v.orxHost q = false ∧ v.owner resOrx q =
      none ∧ v.workRun 16 = some t ∧ w = ((List.range 16).foldl (fun s i => s.setOwner resTile (t + i) (some ⟨0, 0,
      true, 1, 0⟩)) v).setOwner resOrx q (some ⟨0, 0, true, 1, 0⟩) ∧ c =
      { path := p, att := w.fld F.ORX_ATT_att p, host := none, tile := t, start := w.now, unit := n, before := b.underflow.contains p }) ∧
    (∃ (q : Nat) (l : List Word) (s : State) (c : OrxCap) (u : State) (w : List Word) (v : State) (cmd : Cmd), s.orxCap
      q = some c ∧ l.length = 8192 ∧ u = s.elapseTo (tAdd c.start 33334) ∧ w = u.capWords c.path l ∧ v =
      (((u.sealCap c w).setCap q none).setFld F.ORX_STAT_busy q 0).orxRest q ∧ c.host = some cmd) ∧
    (∃ (q : Nat) (l : List Word) (s : State) (c : OrxCap) (u : State) (w : List Word) (v : State), s.orxCap q = some c
      ∧ l.length = 8192 ∧ u = s.elapseTo (tAdd c.start 33334) ∧ w = u.capWords c.path l ∧ v = (((u.sealCap c
      w).setCap q none).setFld F.ORX_STAT_busy q 0).orxRest q ∧ c.host = none ∧ capSkip w (v.capAborted c) = none) ∧
    (∃ (q : Nat) (l : List Word) (s : State) (c : OrxCap) (u : State) (w : List Word) (v : State) (a : Nat), s.orxCap q
      = some c ∧ l.length = 8192 ∧ u = s.elapseTo (tAdd c.start 33334) ∧ w = u.capWords c.path l ∧ v = (((u.sealCap
      c w).setCap q none).setFld F.ORX_STAT_busy q 0).orxRest q ∧ c.host = none ∧ capSkip w (v.capAborted c) = some
      a) ∧
    (∃ (q : Nat) (k : Nat) (s : State) (f : OrxFit), s.orxFit q = some f ∧ k < 12 ∧ f.skillet = none ∧ s.sklOn k = true
      ∧ s.sklFits k = false ∧ s.sklLoad k none < 64000000 ∧ atOrAfter s.now (f.ended + 50000000) = false ∧
      (s.openTiles f.tile 4 false 16).1 = true) ∧
    (∃ (q : Nat) (s : State) (f : OrxFit), s.orxFit q = some f ∧ f.skillet = none) ∧
    (∃ (q : Nat) (f : DpdFit) (s : State) (w : OrxFit) (p : Nat) (v : State) (t : List Word), s.orxFit q = some w ∧
      w.skillet.isSome = true ∧ f.est.length = 64 ∧ w.discard = false ∧ p = w.path ∧ v = (s.setFit q none).freeCap
      w.tile ∧ v.flag F.TX_PATH_STAT_degraded p = false ∧ (v.dpdOf p).loopDone = true ∧ t = blend (v.fld
      F.DPD_CFG_mu p) (v.dpdOf p).active f.est ∧ fitCause (v.dpdOf p).active t f (v.fld F.DPD_CFG_nmse_max_db p) =
      none) ∧
    (∃ (q : Nat) (f : DpdFit) (s : State) (w : OrxFit) (p : Nat) (v : State) (t : List Word) (c : Nat), s.orxFit q =
      some w ∧ w.skillet.isSome = true ∧ f.est.length = 64 ∧ w.discard = false ∧ p = w.path ∧ v = (s.setFit q
      none).freeCap w.tile ∧ v.flag F.TX_PATH_STAT_degraded p = false ∧ (v.dpdOf p).loopDone = true ∧ t = blend
      (v.fld F.DPD_CFG_mu p) (v.dpdOf p).active f.est ∧ fitCause (v.dpdOf p).active t f (v.fld
      F.DPD_CFG_nmse_max_db p) = some c) :=
  ⟨⟨0, { rdy with dpd := { rdy.dpd with path := [(0, { target := some (0 :: 0 :: 5 :: List.replicate 61 0) })] } }, _,
      0, _, _, by decide +kernel, rfl, rfl, by decide +kernel, rfl, by decide +kernel⟩,
    ⟨0, { rdy with dpd := { rdy.dpd with path := [(0, { target := some (List.replicate 64 0) })] } }, _, 0, _, _,
      by decide +kernel, rfl, rfl, by decide +kernel, rfl, rfl⟩,
    ⟨0, 3,
      { ((air .air).setFld F.TX_PATH_STAT_pa_state 0 4).setFld F.SYS_MODE_mode 0 2 |>.setFld F.DPD_CFG_adapt_en 0 1 |>.setFld F.DPD_CFG_bypass 0 0 with sys := { rdy.sys with claims := [] } },
      _, 0, 16, _, _, _, by decide +kernel, rfl, by decide +kernel, by decide +kernel, by decide +kernel,
      by decide +kernel, by decide +kernel, by decide +kernel, by decide +kernel, by decide +kernel, rfl,
      by decide +kernel, by decide +kernel, by decide +kernel, rfl, rfl⟩,
    ⟨0, List.replicate 8192 0,
      { rdy with dpd := { rdy.dpd with cap := [(0, some { path := 0, host := some ⟨1, 5⟩, tile := 16, start := 0 - 33334 })] } },
      _, _, _, _, _, rfl, (List.length_replicate), rfl, rfl, rfl, (rfl)⟩,
    ⟨0, List.replicate 8192 0x40004000,
      { (air .air).setFld F.TX_PATH_STAT_pa_state 0 4 with dpd := { rdy.dpd with cap := [(0, some { path := 0, host := none, tile := 16, start := 0 - 33334, unit := 3 })] }, dp := { rdy.dp with txp := [(0, some { ys := loud })] } },
      _, _, _, _, rfl, (List.length_replicate), rfl, rfl, rfl, by decide +kernel,
      (cap_none _ _ (by decide +kernel) (by decide +kernel) (by decide +kernel))⟩,
    ⟨0, List.replicate 8192 0,
      { rdy with dpd := { rdy.dpd with cap := [(0, some { path := 0, host := none, tile := 16, start := 0 - 33334 })] } },
      _, _, _, _, _, rfl, (List.length_replicate), rfl, rfl, rfl, by decide +kernel,
      (cap_aborted _ _ (by decide +kernel))⟩,
    ⟨0, 0, { rdy with dpd := { rdy.dpd with fit := [(0, some { path := 0, tile := 16, ended := 0 })] } }, _, rfl,
      by decide +kernel, by decide +kernel, by decide +kernel, by decide +kernel, by decide +kernel,
      by decide +kernel, by decide +kernel⟩,
    ⟨0, { rdy with dpd := { rdy.dpd with fit := [(0, some { path := 0, tile := 16, ended := 0 })] } }, _, rfl,
      by decide +kernel⟩,
    ⟨0, ⟨(0x00100000 : Word) :: List.replicate 63 0, false, -1000, 0, 0, 0⟩,
      { (rdy) with dpd := { fit := [(0, some { path := 0, tile := 16, ended := 0, skillet := some 0 })], path := [(0, { loopDone := true })] } },
      _, _, _, _, rfl, by decide +kernel, by decide +kernel, by decide +kernel, rfl, rfl, by decide +kernel,
      by decide +kernel, rfl, by decide +kernel⟩,
    ⟨0, ⟨(0x00100000 : Word) :: List.replicate 63 0, false, 1000, 0, 0, 0⟩,
      { (rdy) with dpd := { fit := [(0, some { path := 0, tile := 16, ended := 0, skillet := some 0 })], path := [(0, { loopDone := true })] } },
      _, _, _, _, 0x45, rfl, by decide +kernel, by decide +kernel, by decide +kernel, rfl, rfl, by decide +kernel,
      by decide +kernel, rfl, by decide +kernel⟩⟩

/-- Meets the hypotheses of ReceptionRowsComplete, clause by clause. -/
theorem witness_ReceptionRowsComplete :
    (∃ (b : Nat) (c : Nat) (f : Int) (n : Int) (freq : Int) (d : Det) (p : Profile) (k : Nat) (s : State) (u : State),
      s.report_ b c f n freq = some (d, p, k) ∧ u = ((s.elapseTo d.at_).countDet d).sentinelSeen d ∧ (u.tracked.any
      fun c => u.duplicates d p c.2) = true) ∧
    (∃ (b : Nat) (c : Nat) (f : Int) (n : Int) (freq : Int) (d : Det) (p : Profile) (k : Nat) (s : State) (u : State),
      s.report_ b c f n freq = some (d, p, k) ∧ u = ((s.elapseTo d.at_).countDet d).sentinelSeen d ∧ (u.tracked.any
      fun c => u.duplicates d p c.2) = false) ∧
    (∃ (c : Nat) (s : State) (e : EqSt), s.eq c = some e ∧ (s.ctx c).state = .acquire ∧ 16 ≤ e.count) ∧
    (∃ (c : Nat) (s : State) (p : Profile) (n : Nat) (k : Int) (t : Int) (u : State), s.profile (s.ctx c).profile =
      some p ∧ (s.eq c).bind (·.match_) = some (n, k) ∧ ((s.ctx c).state = .acquire ∨ (s.ctx c).state = .sync) ∧ n
      ≤ syncWindow (s.ctx c) p ∧ t = s.stampOf p.chipRate k ∧ u = s.trained c .header) ∧
    (∃ (c : Nat) (s : State) (p : Profile) (u : State), s.profile (s.ctx c).profile = some p ∧ ((s.ctx c).state =
      .acquire ∨ (s.ctx c).state = .sync) ∧ (s.ctx c).retry = false ∧ u = s.elapseTo (tAdd (syncEnd (s.ctx c) p)
      (s.symbolLag (s.ctx c) p)) ∧ u.syncMissed c p = true) ∧
    (∃ (c : Nat) (s : State) (p : Profile) (u : State), s.profile (s.ctx c).profile = some p ∧ ((s.ctx c).state =
      .acquire ∨ (s.ctx c).state = .sync) ∧ (s.ctx c).retry = false ∧ u = s.elapseTo (tAdd (syncEnd (s.ctx c) p)
      (s.symbolLag (s.ctx c) p)) ∧ u.syncMissed c p = false) ∧
    (∃ (c : Nat) (s : State) (p : Profile) (e : EqSt), s.profile (s.ctx c).profile = some p ∧ s.eq c = some e ∧ ((s.ctx
      c).state = .sync ∨ (s.ctx c).state = .header ∨ (s.ctx c).state = .payload) ∧ (s.ctx c).capture = true ∧
      (e.capLeft = 0 ∨ ((s.ctx c).state = .payload ∧ p.headerSymbols + (s.ctx c).paySymbols ≤ e.track.length)) ∧
      s.captureFails c p = true) ∧
    (∃ (c : Nat) (s : State) (p : Profile) (e : EqSt), s.profile (s.ctx c).profile = some p ∧ s.eq c = some e ∧ ((s.ctx
      c).state = .sync ∨ (s.ctx c).state = .header ∨ (s.ctx c).state = .payload) ∧ (s.ctx c).capture = true ∧
      (e.capLeft = 0 ∨ ((s.ctx c).state = .payload ∧ p.headerSymbols + (s.ctx c).paySymbols ≤ e.track.length)) ∧
      s.captureFails c p = false) ∧
    (∃ (c : Nat) (s : State) (p : Profile) (e : EqSt) (w : _) (u : State) (h : Header), s.profile (s.ctx c).profile =
      some p ∧ s.eq c = some e ∧ (s.ctx c).state = .header ∧ p.headerSymbols ≤ e.track.length ∧ s.ctxTileBad c =
      none ∧ w = decideHeader (e.llr.take 120) ∧ h = Header.ofWord w ∧ u = s.setCtx c
      { s.ctx c with hdr := some h, crc8 := h.crc8 } ∧ crc8Ok w = false) ∧
    (∃ (c : Nat) (s : State) (p : Profile) (e : EqSt) (w : _) (u : State) (h : Header) (g : Nat) (f : Fit), s.profile
      (s.ctx c).profile = some p ∧ s.eq c = some e ∧ (s.ctx c).state = .header ∧ p.headerSymbols ≤ e.track.length ∧
      s.ctxTileBad c = none ∧ w = decideHeader (e.llr.take 120) ∧ h = Header.ofWord w ∧ u = s.setCtx c
      { s.ctx c with hdr := some h, crc8 := h.crc8 } ∧ crc8Ok w = true ∧ h.length ≤ p.maxPayload ∧ u.headerSub
      (u.ctx c) p h = 0 ∧ h.length ≠ 0 ∧ selectGraph u.graph p.bgMask h.length h.rate = some (g, f)) ∧
    (∃ (c : Nat) (s : State) (p : Profile) (e : EqSt), s.profile (s.ctx c).profile = some p ∧ s.eq c = some e ∧ (s.ctx
      c).state = .payload ∧ ((e.errs.length = 64 ∧ e.sinrNow < p.sinrMin - 24) ∨ 60000 < (incHz (s.eqHz e p) e.inc
      1).natAbs)) ∧
    (∃ (c : Nat) (s : State) (p : Profile) (e : EqSt), s.profile (s.ctx c).profile = some p ∧ s.eq c = some e ∧ (s.ctx
      c).state = .payload ∧ (s.ctx c).capture = false ∧ p.headerSymbols + (s.ctx c).paySymbols ≤ e.track.length) ∧
    (∃ (k : Nat) (s : State) (n : Nat) (x : Ctx), s.assistOf k = none ∧ s.nextDecode k = some (n, x)) ∧
    (∃ (k : Nat) (s : State) (n : Nat) (x : Ctx) (g : BaseGraph) (f : Fit) (a : Nat) (r : List Bool × Nat × Bool) (u :
      State), s.assistOf k = some n ∧ x = s.ctx n ∧ s.fitOf x = some (g, f, a) ∧ x.state = .decode ∧ x.block < f.c
      ∧ r = decodeBlock g f a x.block x.decCfg.1 x.decCfg.2 x.llr ∧ u = s.setCtx n
      { x with block := x.block + 1, hard := x.hard ++ r.1, iters := max x.iters r.2.1, unconverged := x.unconverged || !r.2.2, decCfg := (s.rxb.maxIter, s.rxb.alpha) }
      ∧ x.block + 1 = f.c) ∧
    (∃ (k : Nat) (s : State) (n : Nat) (x : Ctx) (g : BaseGraph) (f : Fit) (a : Nat) (r : List Bool × Nat × Bool) (u :
      State), s.assistOf k = some n ∧ x = s.ctx n ∧ s.fitOf x = some (g, f, a) ∧ x.state = .decode ∧ x.block < f.c
      ∧ r = decodeBlock g f a x.block x.decCfg.1 x.decCfg.2 x.llr ∧ u = s.setCtx n
      { x with block := x.block + 1, hard := x.hard ++ r.1, iters := max x.iters r.2.1, unconverged := x.unconverged || !r.2.2, decCfg := (s.rxb.maxIter, s.rxb.alpha) }
      ∧ x.block + 1 ≠ f.c) ∧
    (∃ (c : Nat) (s : State) (h : Header) (x : Ctx) (y : Ctx), x = s.ctx c ∧ x.hdr = some h ∧ s.decoded x = true ∧
      s.ctxTileBad c = none ∧ y = { x with crc24 := crc24Received h.length x.hard } ∧ crc24Ok h x.hard = true) ∧
    (∃ (c : Nat) (s : State) (h : Header) (x : Ctx) (y : Ctx), x = s.ctx c ∧ x.hdr = some h ∧ s.decoded x = true ∧
      s.ctxTileBad c = none ∧ y = { x with crc24 := crc24Received h.length x.hard } ∧ crc24Ok h x.hard = false) ∧
    (∃ (s : State) (c : Cand) (n : Nat) (k : Nat) (l : List Nat) (t : State) (u : State), s.rxb.cands.find? (fun c =>
      c.queued && !s.retrying c) = some c ∧ s.freeNo = some n ∧ s.bestSkillet c.ctx.load none = some k ∧ s.takePool
      2 = some (l, t) ∧ opensContexts s.modeNo = true ∧ s.policy.sicFree + s.openCtxs.length ≤ s.cLimit ∧
      s.openCtxs.length < s.cLimit ∧ u = (t.startRetry c n k l).wakeWork ∧ (s.retryTiles c).find? s.tileFails =
      none) ∧
    (∃ (s : State) (c : Cand) (n : Nat) (k : Nat) (l : List Nat) (t : State) (u : State) (b : Nat), s.rxb.cands.find?
      (fun c => c.queued && !s.retrying c) = some c ∧ s.freeNo = some n ∧ s.bestSkillet c.ctx.load none = some k ∧
      s.takePool 2 = some (l, t) ∧ opensContexts s.modeNo = true ∧ s.policy.sicFree + s.openCtxs.length ≤ s.cLimit
      ∧ s.openCtxs.length < s.cLimit ∧ u = (t.startRetry c n k l).wakeWork ∧ (s.retryTiles c).find? s.tileFails =
      some b) ∧
    (∃ (s : State) (t : T48) (u : State) (w : State), earliest (s.rxb.cands.map (·.expiry) ++ s.rxb.regen.map
      (·.expiry)) = some t ∧ u = s.elapseTo t ∧ w = (u.rxb.regen.filter fun r => atOrAfter t r.expiry).foldl (fun s
      r => s.freeRets r.tiles) ((u.rxb.cands.filter fun c => atOrAfter t c.expiry).foldl State.expireCand u)) ∧
    (∃ (c : Nat) (s : State) (x : Ctx) (p : Profile) (e : EqSt) (t : Nat) (u : State), x = s.ctx c ∧ x.state ≠ .free ∧
      x.retained = true ∧ s.profile x.profile = some p ∧ s.eq c = some e ∧ x.needsTile p e.ret.length = true ∧
      s.takeRet 2 = some (t, u)) ∧
    (∃ (c : Nat) (s : State) (x : Ctx) (p : Profile) (e : EqSt), x = s.ctx c ∧ x.state ≠ .free ∧ x.retained = true ∧
      s.profile x.profile = some p ∧ s.eq c = some e ∧ x.needsTile p e.ret.length = true ∧ s.takeRet 2 = none) ∧
    (∃ (c : Nat) (s : State) (d : Cand), (s.ctx c).state = .free ∧ s.candNeeds c = some d) ∧
    (∃ (s : State) (r : PendRec) (l : List PendRec) (u : State) (v : State), s.rxb.recQ = r :: l ∧ u =
      { s with rxb := { s.rxb with recQ := l } } ∧ v = (if r.toBacklog then u.toBacklog r else u.sendFrame 3
      r.words) ∧ r.delivers = true ∧ (v.ctx r.ctx).state = .deliver) ∧
    (∃ (s : State) (r : PendRec) (l : List PendRec) (u : State) (v : State), s.rxb.recQ = r :: l ∧ u =
      { s with rxb := { s.rxb with recQ := l } } ∧ v = (if r.toBacklog then u.toBacklog r else u.sendFrame 3
      r.words) ∧ r.delivers = false) ∧
    (∃ (s : State) (t : BlTile), s.openBacklog = some t) :=
  ⟨⟨0, 0, 0, -16, 0, (hearing { state := .acquire, beams := [0], snr := 400 }).1, (hearing
      { state := .acquire, beams := [0], snr := 400 }).2.1, (hearing
      { state := .acquire, beams := [0], snr := 400 }).2.2, heardIn
      { state := .acquire, beams := [0], snr := 400 }, _, (hearing_eq _ (by decide +kernel)), rfl,
      by decide +kernel⟩,
    ⟨0, 0, 0, -16, 0, (hearing {}).1, (hearing {}).2.1, (hearing {}).2.2, heardIn {}, _,
      (hearing_eq _ (by decide +kernel)), rfl, by decide +kernel⟩,
    ⟨0, rcvEq { state := .acquire } { eqz with count := 16 }, _, rfl, by decide +kernel, by decide +kernel⟩,
    ⟨0, rcvEq { state := .sync } { eqz with match_ := some (5, 0) }, _, 5, 0, _, _, rfl, (rfl), by decide +kernel,
      by decide +kernel, rfl, rfl⟩,
    ⟨0, rcv { state := .sync, det := 0 - 2000000 }, _, _, rfl, by decide +kernel, by decide +kernel, rfl,
      by decide +kernel⟩,
    ⟨0, rcvEq { state := .sync, det := 0 - 2000000 } { eqz with match_ := some (5, 0) }, _, _, rfl, by decide +kernel,
      by decide +kernel, rfl, by decide +kernel⟩,
    ⟨0, rcvEq { state := .header, capture := true } { eqz with capAcc := { n := 1, err := ⟨1000000000000, 0, 1⟩ } }, _,
      _, rfl, rfl, by decide +kernel, by decide +kernel, by decide +kernel, by decide +kernel⟩,
    ⟨0, rcvEq { state := .header, capture := true } eqz, _, _, rfl, rfl, by decide +kernel, by decide +kernel,
      by decide +kernel, by decide +kernel⟩,
    ⟨0, rcvEq { state := .header } { eqz with track := List.replicate 120 ⟨0, 0, ⟨0, 0, 1⟩⟩, llr := soft 1 }, _, _, _,
      _, _, rfl, rfl, by decide +kernel, by decide +kernel, by decide +kernel, rfl, rfl, rfl, by decide +kernel⟩,
    ⟨0, rcvEq { state := .header }
      { eqz with track := List.replicate 120 ⟨0, 0, ⟨0, 0, 1⟩⟩, llr := soft (0x100 + 2 ^ 32 * headerCrc 0x100) },
      _, _, _, _, _, 0, ⟨1, 32, 63, 4, 284⟩, rfl, rfl, by decide +kernel, by decide +kernel, by decide +kernel,
      rfl, rfl, rfl, by decide +kernel, by decide +kernel, by decide +kernel, by decide +kernel, by decide +kernel⟩,
    ⟨0, rcvEq { state := .payload } { eqz with inc := 2 ^ 31 }, _, _, rfl, rfl, by decide +kernel, by decide +kernel⟩,
    ⟨0, rcvEq { state := .payload } { eqz with track := List.replicate 120 ⟨0, 0, ⟨0, 0, 1⟩⟩ }, _, _, rfl, rfl,
      by decide +kernel, by decide +kernel, by decide +kernel⟩,
    ⟨0, rcv { state := .decode, decAt := some 0 }, 0, { state := .decode, decAt := some 0 }, by decide +kernel,
      by decide +kernel⟩,
    ⟨0, { rcv (dec) with rxb := { (rcv (dec)).rxb with assist := [(0, some 0)] } }, 0, _, graph, ⟨1, 32, 63, 4, 284⟩,
      32, _, _, by decide +kernel, rfl, by decide +kernel, by decide +kernel, by decide +kernel, rfl, rfl,
      by decide +kernel⟩,
    ⟨0,
      { rcv ({ dec with hdr := some { hdr1 with length := 300, rate := 6 } }) with rxb := { (rcv ({ dec with hdr := some { hdr1 with length := 300, rate := 6 } })).rxb with assist := [(0, some 0)] } },
      0, _, graph, ⟨2, 1212, 63, 4, 2928⟩, 2424, _, _, by decide +kernel, rfl, by decide +kernel,
      by decide +kernel, by decide +kernel, rfl, rfl, by decide +kernel⟩,
    ⟨0, rcv { dec with block := 1, hard := lowBits 0 8 ++ msbFirst (crc24 (lowBits hdr1.low 32 ++ lowBits 0 8)) 24 },
      hdr1, _, _, rfl, by decide +kernel, by decide +kernel, by decide +kernel, rfl, by decide +kernel⟩,
    ⟨0, rcv { dec with block := 1, hard := [] }, hdr1, _, _, rfl, by decide +kernel, by decide +kernel,
      by decide +kernel, rfl, by decide +kernel⟩,
    ⟨{ rcv {} with rxb := { (rcv {}).rxb with cands := [cand1] } }, _, 0, 11, [2048, 2049], ([2048, 2049] : List
      Nat).foldl State.useTile ({ rcv {} with rxb := { (rcv {}).rxb with cands := [cand1] } }), _, (rfl),
      by decide +kernel, by decide +kernel, by decide +kernel, by decide +kernel, by decide +kernel,
      by decide +kernel, rfl, by decide +kernel⟩,
    ⟨(({ rcv {} with rxb := { (rcv {}).rxb with cands := [{ cand1 with ctx := { retTiles := [0] } }] } }).setTile
      (panKey 0) { state := .quarantined }), _, 0, 11, [2048, 2049], ([2048, 2049] : List Nat).foldl State.useTile
      (({ rcv {} with rxb := { (rcv {}).rxb with cands := [{ cand1 with ctx := { retTiles := [0] } }] } }).setTile
      (panKey 0) { state := .quarantined }), _, panKey 0, (rfl), by decide +kernel, by decide +kernel,
      by decide +kernel, by decide +kernel, by decide +kernel, by decide +kernel, rfl, by decide +kernel⟩,
    ⟨{ rcv {} with rxb := { (rcv {}).rxb with cands := [cand1] } }, _, _, _, rfl, rfl, rfl⟩,
    ⟨0, (((rcvEq { state := .payload, beams := [0], retained := true, packetEnd := 1000000 }
      { eqz with retain := true }).setFld F.MEM_PAN_STAT_state 0 2).setFld F.MEM_PAN_USABLE_tiles 0 8).setPolicy 2
      { policyDefault 2 with retTiles := 4 }, _, _, _, _, _, rfl, by decide +kernel, by decide +kernel, rfl, rfl,
      by decide +kernel, (rfl)⟩,
    ⟨0, rcvEq { state := .payload, beams := [0], retained := true, packetEnd := 1000000 } { eqz with retain := true },
      _, _, _, rfl, by decide +kernel, by decide +kernel, rfl, rfl, by decide +kernel, by decide +kernel⟩,
    ⟨3, let x :=
      { rcv {} with rxb := { (rcv {}).rxb with cands := [{ cand1 with ctx := { beams := [0], packetEnd := 1000000 } }] } };
      { x with dp := { x.dp with eq := [(256, some eqz)] } }, _, by decide +kernel, (rfl)⟩,
    ⟨{ rcv { state := .deliver } with rxb := { (rcv { state := .deliver }).rxb with recQ := [⟨0, 0, [], false, true⟩] } },
      _, _, _, _, (rfl), rfl, rfl, by decide +kernel, by decide +kernel⟩,
    ⟨{ rcv {} with rxb := { (rcv {}).rxb with recQ := [⟨0, 0, [], false, false⟩] } }, _, _, _, _, (rfl), rfl, rfl,
      by decide +kernel⟩,
    ⟨{ rcv {} with rxb := { (rcv {}).rxb with backlog := [{ tile := 0, firstAt := 0 }] } }, _, rfl⟩⟩

/-- Meets the hypotheses of FramingRowsComplete, clause by clause. -/
theorem witness_FramingRowsComplete :
    (∃ (s : State) (u : State) (f : Frame), s.linkUp = true ∧ s.link.sending = none ∧ u = s.noteStall ∧ u.pickReady =
      some f) ∧
    (∃ (s : State) (u : State) (t : BlTile), s.linkUp = true ∧ s.link.sending = none ∧ u = s.noteStall ∧ u.pickReady =
      none ∧ u.drainable = some t) ∧
    (∃ (s : State) (f : Frame) (u : State), s.link.sending = some f ∧ u =
      ({ s with link := { s.link with sending := none, sentN := State.countStream s.link.sentN f.stream 1 } } :
      State).freshRows.sendBlocks [(true, rowOf [0x87])] ∧ f.stream = 4) ∧
    (∃ (s : State) (f : Frame) (u : State), s.link.sending = some f ∧ u =
      ({ s with link := { s.link with sending := none, sentN := State.countStream s.link.sentN f.stream 1 } } :
      State).freshRows.sendBlocks [(true, rowOf [0x87])] ∧ f.stream ≠ 4) ∧
    (∃ (l : List Word) (s : State) (u : State) (lim : Store Nat), s.rxOpen = true ∧ creditOk l = true ∧ u = s.received
      0 ((4 * l.length + 27) / 8) ∧ lim = ((creditEntries l).filter fun e => creditedTx.contains e.1).foldl (fun (m
      : Store Nat) e => Store.set (fun _ => 0) m e.1 e.2) u.link.limit) ∧
    (∃ (beam : Nat) (l : List Word) (s : State) (u : State) (st : Nat), s.rxOpen = true ∧ beam < 32 ∧ burstOk l = true
      ∧ u = s.received (0x50 + beam) 5 ∧ u.burstPlan (u.linkBurst beam l) = .inl st) ∧
    (∃ (beam : Nat) (l : List Word) (s : State) (u : State) (n : Nat), s.rxOpen = true ∧ beam < 32 ∧ burstOk l = true ∧
      u = s.received (0x50 + beam) 5 ∧ u.burstPlan (u.linkBurst beam l) = .inr n) ∧
    (∃ (beam : Nat) (id : Nat) (m : Nat) (last : Bool) (n : Nat) (payload : List Byte) (s : State) (u : Nat) (b :
      Burst) (l : List Iq), s.rxOpen = true ∧ beam < 32 ∧ iqDecode m n payload = some l ∧ (s.bursts.find? fun x =>
      decide (x.2.beam = beam ∧ x.2.ack = false ∧ x.2.id = id)) = some (u, b)) ∧
    (∃ (s : State), s.link.evtOpen ≠ []) ∧
    (∃ (stream : Nat) (t : T48) (n : Nat) (s : State) (u : State) (st : Step) (q : Nat) (l : List IqBlock) (f : Frame)
      (c : Int) (v : State), s.linkUp = true ∧ st = s.stepNow ∧ st.iq = true ∧ ((s.iqStreams.take st.count).find?
      fun x => decide (x.1 = stream)) = some (stream, q) ∧ 1 ≤ n ∧ n ≤ framesK st.m (s.quadRate q) ∧ c = s.cycleOf
      t ∧ u = s.elapseTo (s.cycleTime (c + s.blockCycles stream n)) ∧ u.streamBlocks stream c n = some l ∧ f =
      { stream := stream, first := !(Store.get (fun _ => false) u.link.run stream), gap := Store.get (fun _ => false) u.link.gap stream, mCode := mCode st.m, prune := st.prune, blocks := l.length, step := u.fld F.SYS_MODE_degrade_step, at_ := some (toWord (u.cycleTime ((u.timesFrom (u.streamPath stream) c 1).headD c)).toNat), payload := l.flatMap fun b => iqEncode b st.m (if st.prune then some (u.content u.modeNo).2.2 else none) }
      ∧ v = u.measureIq f l ∧ v.iqBuffered + 8 * f.len8 ≤ 2 ^ 20) ∧
    (∃ (stream : Nat) (t : T48) (n : Nat) (s : State) (u : State) (st : Step) (q : Nat) (l : List IqBlock) (f : Frame)
      (c : Int) (v : State), s.linkUp = true ∧ st = s.stepNow ∧ st.iq = true ∧ ((s.iqStreams.take st.count).find?
      fun x => decide (x.1 = stream)) = some (stream, q) ∧ 1 ≤ n ∧ n ≤ framesK st.m (s.quadRate q) ∧ c = s.cycleOf
      t ∧ u = s.elapseTo (s.cycleTime (c + s.blockCycles stream n)) ∧ u.streamBlocks stream c n = some l ∧ f =
      { stream := stream, first := !(Store.get (fun _ => false) u.link.run stream), gap := Store.get (fun _ => false) u.link.gap stream, mCode := mCode st.m, prune := st.prune, blocks := l.length, step := u.fld F.SYS_MODE_degrade_step, at_ := some (toWord (u.cycleTime ((u.timesFrom (u.streamPath stream) c 1).headD c)).toNat), payload := l.flatMap fun b => iqEncode b st.m (if st.prune then some (u.content u.modeNo).2.2 else none) }
      ∧ v = u.measureIq f l ∧ 2 ^ 20 < v.iqBuffered + 8 * f.len8) ∧
    (∃ (ended : Bool) (l : List Byte) (s : State) (c : Nat), s.linkUp = true ∧ c = s.frameCheck ended l ∧ c = 0) ∧
    (∃ (ended : Bool) (l : List Byte) (s : State) (c : Nat), s.linkUp = true ∧ c = s.frameCheck ended l ∧ c ≠ 0) ∧
    (∃ (s : State), s.linkUp = true ∧ (s.modeNo = mRelay ∨ s.modeNo = mMirror) ∧ s.onPruneStep = true ∧ 98 * s.capacity
      < 100 * 16384 * s.iqRate) :=
  ⟨⟨{ lnk with link := { lnk.link with ready := [(0, [{ stream := 0, typ := 2 }])] } }, _, { stream := 0, typ := 2 },
      by decide +kernel, by decide +kernel, rfl, by decide +kernel⟩,
    ⟨{ lnk.setFld F.LNK_STAT_tx_bond 0 255 with rxb := { lnk.rxb with backlog := [{ tile := 0, firstAt := 0, isSealed := true }] }, link := { lnk.link with limit := [(4, 100)] } },
      _, { tile := 0, firstAt := 0, isSealed := true }, by decide +kernel, by decide +kernel, rfl,
      by decide +kernel, by decide +kernel⟩,
    ⟨{ lnk with link := { lnk.link with sending := some { stream := 4 } } }, _, _, rfl, rfl, by decide +kernel⟩,
    ⟨{ lnk with link := { lnk.link with sending := some { stream := 3 } } }, _, _, rfl, rfl, by decide +kernel⟩,
    ⟨[1, 0], lnk, _, _, by decide +kernel, by decide +kernel, rfl, rfl⟩,
    ⟨0, [0x40000000, 0, 100, 0], lnk, _, 8, by decide +kernel, by decide +kernel, by decide +kernel, rfl,
      by decide +kernel⟩,
    ⟨0, [0x40000000, 0, 100, 0],
      { (lnk.setFld F.SYS_MODE_mode 0 2).setFld F.TXB_STAT_source 0 1 |>.setFld F.TXB_CFG_qmask 0 1 |>.setFld F.RADIO_STAT_tx_state 0 1 with tx := { lnk.tx with linkTc := some (1, 0, 3) }, sys := rdy.sys },
      _, 0, by decide +kernel, by decide +kernel, by decide +kernel, rfl, by decide +kernel⟩,
    ⟨0, 0, 8, false, 1, [0], lnk.setBurst 3 (some (bst .air)), 3, bst .air, _, by decide +kernel, by decide +kernel,
      (rfl), by decide +kernel⟩,
    ⟨{ lnk with link := { lnk.link with evtOpen := [⟨0, 0, 0, 0⟩] } }, by decide +kernel⟩,
    ⟨0x10, 0 - 1000000, 1, (lnk.setFld F.SYS_MODE_mode 0 4).setFld F.BEAM_RX_STAT_enabled 0 1 |>.setFld
      F.BEAM_RX_CFG_qmask 0 1, _, _, 0, [⟨List.replicate 16 (0, 0), 65535, 2⟩], _, _, _, by decide +kernel, rfl,
      by decide +kernel, by decide +kernel, by decide +kernel, by decide +kernel, rfl, rfl, by decide +kernel, rfl,
      rfl, by decide +kernel⟩,
    ⟨0x10, 0 - 1000000, 1,
      { (lnk.setFld F.SYS_MODE_mode 0 4).setFld F.BEAM_RX_STAT_enabled 0 1 |>.setFld F.BEAM_RX_CFG_qmask 0 1 with link := { lnk.link with ready := [(0x10, List.replicate 129 full)] } },
      _, _, 0, [⟨List.replicate 16 (0, 0), 65535, 2⟩], _, _, _, by decide +kernel, rfl, by decide +kernel,
      by decide +kernel, by decide +kernel, by decide +kernel, rfl, rfl, by decide +kernel, rfl, rfl,
      (buffered _ _ (by rfl))⟩,
    ⟨true, frame24, lnk, 0, by decide +kernel, by decide +kernel, by decide +kernel⟩,
    ⟨false, [], lnk, _, by decide +kernel, rfl, by decide +kernel⟩,
    ⟨let x := ((lnk.setFld F.SYS_MODE_mode 0 4).setFld F.BEAM_RX_STAT_enabled 0 1 |>.setFld F.BEAM_RX_CFG_qmask 0
      1).setFld F.SYS_MODE_degrade_step 0 5; { x with link := { x.link with iqBins := [(0, 1000000000, 0)] } },
      by decide +kernel, by decide +kernel, by decide +kernel, by decide +kernel⟩⟩

/-- Meets the hypotheses of LinkPhyRowsComplete, clause by clause. -/
theorem witness_LinkPhyRowsComplete :
    (∃ (n : Nat) (s : State), n < 8 ∧ s.flag F.LNK_LANE_STAT_signal n = false) ∧
    (∃ (n : Nat) (i : List (BitVec 64)) (s : State) (u : State), n < 8 ∧ s.flag F.LNK_LANE_STAT_signal n = true ∧ u =
      (if s.flag F.LNK_LANE_STAT_block_lock n = true then s else s.setLockAt n (some s.now))) ∧
    (∃ (n : Nat) (s : State), n < 8 ∧ s.flag F.LNK_LANE_STAT_block_lock n = true) ∧
    (∃ (n : Nat) (s : State), n < 8 ∧ s.flag F.LNK_LANE_STAT_am_lock n = true ∧ 3 ≤ perStream s.link.amBad n) ∧
    (∃ (s : State), s.linkState = lLock ∧ s.minLanes ≤ s.readyLanes (fun r => s.flag F.LNK_LANE_STAT_block_lock r)) ∧
    (∃ (s : State) (u : State), u = s.freshRows.applyFfe.sendAms ∧ u.linkState ≠ lHello ∧ u.linkState ≠ lUp) ∧
    (∃ (s : State) (u : State), u = s.freshRows.applyFfe.sendAms ∧ u.linkState = lHello ∧ u.sendLstat.linkState ≠ lUp) ∧
    (∃ (s : State) (u : State), u = s.freshRows.applyFfe.sendAms ∧ u.linkState = lUp ∧ u.sendLstat.linkState = lUp) ∧
    (∃ (s : State) (u : State) (v : State), s.linkState = lHello ∧ u = s.freshRows ∧ u.linkState ≠ lUp ∧ v = u.sendRow
      (helloRow u.laneEn u.rate25Ok u.link.helloGot false (u.fld F.LNK_CFG_node_id) u.link.helloSeq)) ∧
    (∃ (row : BitVec 64) (s : State) (v : State) (u : State), s.linkState = lUp ∧ helloOk row = true ∧ v =
      s.freshRows.setReg .LNK_PARTNER 0 (helloWord row) ∧ u =
      { v with link := { v.link with peerNode := some (rowByte row 4 + 256 * rowByte row 5), heard := true } } ∧
      u.linkState = lUp ∧ (rowByte row 3).testBit 2 = false) ∧
    (∃ (row : BitVec 64) (s : State), helloOk row = false) ∧
    (∃ (row : BitVec 64) (s : State), complOk 0x55 row = false) ∧
    (∃ (row : BitVec 64) (s : State), complOk 0x66 row = false) ∧
    (∃ (row : BitVec 64) (s : State) (u : State) (v : State) (since : Store (Option T48)), (s.linkState = lHello ∨
      s.linkState = lUp) ∧ complOk 0x55 row = true ∧ u = s.freshRows ∧ since = (List.range 8).foldl (fun (m : Store
      (Option T48)) n => if (rowByte row 1).testBit n then (if u.link.peerLocked.testBit n then m else Store.set
      (fun _ => none) m n (some u.now)) else Store.set (fun _ => none) m n none) u.link.lockedSince ∧ v =
      (List.range 8).foldl (fun s n => s.setFlag F.LNK_LANE_STAT_partner_locked n ((rowByte row 1).testBit n))
      { u with link := { u.link with peerLocked := rowByte row 1, lockedSince := since } } ∧ v.linkState = lUp) ∧
    (∃ (row : BitVec 64) (s : State) (u : State) (v : State) (since : Store (Option T48)), (s.linkState = lHello ∨
      s.linkState = lUp) ∧ complOk 0x55 row = true ∧ u = s.freshRows ∧ since = (List.range 8).foldl (fun (m : Store
      (Option T48)) n => if (rowByte row 1).testBit n then (if u.link.peerLocked.testBit n then m else Store.set
      (fun _ => none) m n (some u.now)) else Store.set (fun _ => none) m n none) u.link.lockedSince ∧ v =
      (List.range 8).foldl (fun s n => s.setFlag F.LNK_LANE_STAT_partner_locked n ((rowByte row 1).testBit n))
      { u with link := { u.link with peerLocked := rowByte row 1, lockedSince := since } } ∧ v.linkState ≠ lUp) ∧
    (∃ (row : BitVec 64) (s : State) (u : State) (v : State) (w : State), s.linkState = lUp ∧ complOk 0x66 row = true ∧
      u = s.freshRows ∧ v = (({ u with link := { u.link with discard := false } } : State).staleMarks) ∧ w =
      (v.setBonds (v.fld F.LNK_STAT_tx_bond) (rowByte row 1)).bondEvents false (u.fld F.LNK_STAT_rx_bond) (rowByte
      row 1) (v.setBonds (v.fld F.LNK_STAT_tx_bond) (rowByte row 1)).rxCause ∧
      ({ w with link := { w.link with lossCause := [] } } : State).minLanes ≤ popCount 8 (rowByte row 1)) ∧
    (∃ (n : Nat) (s : State), (s.linkState = lHello ∨ s.linkState = lUp) ∧ 24 < n) ∧
    (∃ (n : Nat) (s : State), (s.linkState = lHello ∨ s.linkState = lUp) ∧ n < 8) ∧
    (∃ (n : Nat) (s : State), (s.linkState = lHello ∨ s.linkState = lUp) ∧ 8 ≤ n ∧ n ≤ 24) ∧
    (∃ (s : State) (u : State), s.linkState ≠ lDown ∧ s.linkState ≠ lUp ∧ (s.linkState = lDetect ∨ u.link.rateStep =
      false) ∧ u = s.elapseTo (s.link.since + BitVec.ofNat 48 (trainTimeout s.linkState).1)) ∧
    (∃ (s : State), s.linkState = lUp) ∧
    (∃ (s : State) (u : State), s.linkState = lDown ∧ s.flag F.LNK_CFG_en = true ∧ s.link.refLost = false ∧ u =
      s.elapseTo (s.link.since + BitVec.ofNat 48 (msec (s.fld F.LNK_TRAIN_backoff_ms)))) ∧
    (∃ (s : State) (t : T48) (u : State), s.link.fallbackEnd = some t ∧ u = (s.elapseTo t).setFallback false) ∧
    (∃ (n : Nat) (s : State), n < 8 ∧ s.linkState = lUp ∧ s.laneEn.testBit n = true ∧ s.flag F.LNK_LANE_STAT_in_rx_bond
      n = false ∧ s.pairLocked n = false) ∧
    (∃ (s : State) (c : LinkChange) (t : T48) (u : State) (w : Word), s.link.deferred = some c ∧ c.at_ = some t ∧ u =
      { s.elapseTo t with link := { (s.elapseTo t).link with deferred := none } } ∧ c.cfg = some w) ∧
    (∃ (s : State) (c : LinkChange) (t : T48) (u : State), s.link.deferred = some c ∧ c.at_ = some t ∧ u =
      { s.elapseTo t with link := { (s.elapseTo t).link with deferred := none } } ∧ c.cfg = none ∧ u.linkState =
      lDown) ∧
    (∃ (s : State) (c : LinkChange) (t : T48) (u : State), s.link.deferred = some c ∧ c.at_ = some t ∧ u =
      { s.elapseTo t with link := { (s.elapseTo t).link with deferred := none } } ∧ c.cfg = none ∧ u.linkState ≠
      lDown) :=
  ⟨⟨0, rdy, by decide +kernel, by decide +kernel⟩,
    ⟨0, [], rdy.setFld F.LNK_LANE_STAT_signal 0 1, _, by decide +kernel, by decide +kernel, rfl⟩,
    ⟨0, rdy.setFld F.LNK_LANE_STAT_block_lock 0 1, by decide +kernel, by decide +kernel⟩,
    ⟨0, { rdy.setFld F.LNK_LANE_STAT_am_lock 0 1 with link := { rdy.link with amBad := [(0, 3)] } }, by decide +kernel,
      by decide +kernel, by decide +kernel⟩,
    ⟨(rdy.setFld F.LNK_STAT_state 0 2).setFld F.LNK_CFG_lane_en 0 255 |>.setFld F.LNK_LANE_STAT_block_lock 0 1
      |>.setFld F.LNK_CFG_min_lanes 0 0, by decide +kernel, by decide +kernel⟩,
    ⟨rdy.setFld F.LNK_STAT_state 0 3, _, rfl, by decide +kernel, by decide +kernel⟩,
    ⟨rdy.setFld F.LNK_STAT_state 0 4, _, rfl, by decide +kernel, by decide +kernel⟩,
    ⟨rdy.setFld F.LNK_STAT_state 0 5, _, rfl, by decide +kernel, by decide +kernel⟩,
    ⟨rdy.setFld F.LNK_STAT_state 0 4, _, _, by decide +kernel, rfl, by decide +kernel, rfl⟩,
    ⟨helloRow 255 false true false 7 0, rdy.setFld F.LNK_STAT_state 0 5, _, _, by decide +kernel, by decide +kernel,
      rfl, rfl, by decide +kernel, by decide +kernel⟩,
    ⟨lstatRow 0 0 0, rdy.setFld F.LNK_STAT_state 0 5, by decide +kernel⟩,
    ⟨0, rdy, by decide +kernel⟩,
    ⟨0, rdy, by decide +kernel⟩,
    ⟨lstatRow 0 0 0, rdy.setFld F.LNK_STAT_state 0 5, _, _, _, by decide +kernel, by decide +kernel, rfl, rfl, rfl,
      by decide +kernel⟩,
    ⟨lstatRow 0 0 0, rdy.setFld F.LNK_STAT_state 0 4, _, _, _, by decide +kernel, by decide +kernel, rfl, rfl, rfl,
      by decide +kernel⟩,
    ⟨bondRow 255 0 0, rdy.setFld F.LNK_STAT_state 0 5, _, _, _, by decide +kernel, by decide +kernel, rfl, rfl, rfl,
      by decide +kernel⟩,
    ⟨25, lnk, by decide +kernel, by decide +kernel⟩,
    ⟨0, lnk, by decide +kernel, by decide +kernel⟩,
    ⟨8, lnk, by decide +kernel, by decide +kernel, by decide +kernel⟩,
    ⟨rdy.setFld F.LNK_STAT_state 0 1, _, by decide +kernel, by decide +kernel, by decide +kernel, rfl⟩,
    ⟨lnk, by decide +kernel⟩,
    ⟨rdy.setFld F.LNK_CFG_en 0 1, _, by decide +kernel, by decide +kernel, by decide +kernel, rfl⟩,
    ⟨{ lnk with link := { lnk.link with fallbackEnd := some 0 } }, _, _, rfl, rfl⟩,
    ⟨0, lnk.setFld F.LNK_CFG_lane_en 0 255, by decide +kernel, by decide +kernel, by decide +kernel, by decide +kernel,
      by decide +kernel⟩,
    ⟨{ lnk with link := { lnk.link with deferred := some { mbx := 1, cfg := some 0, at_ := some 0 } } }, _, _, _, _,
      rfl, rfl, rfl, (rfl)⟩,
    ⟨{ rdy with link := { rdy.link with deferred := some { mbx := 1, cfg := none, at_ := some 0 } } }, _, _, _, rfl,
      rfl, rfl, by decide +kernel, by decide +kernel⟩,
    ⟨{ lnk with link := { lnk.link with deferred := some { mbx := 1, cfg := none, at_ := some 0 } } }, _, _, _, rfl,
      rfl, rfl, by decide +kernel, by decide +kernel⟩⟩

/-- Meets the hypotheses of MemoryRowsComplete, clause by clause. -/
theorem witness_MemoryRowsComplete :
    (∃ (sup : Bool) (r : Option Nat) (size : Nat) (s : State) (k : Nat), s.fld F.MEM_PAN_STAT_state = 1 ∧ usableTiles
      size ≠ 0 ∧ r = some k) ∧
    (∃ (s : State), s.pantryReady = true ∧ s.mem.dqsFailed = false) ∧
    (∃ (s : State), s.pantryReady = true ∧ s.mem.dqsFailed = true) ∧
    (∃ (ch : Nat) (s : State) (a : Nat) (t : Nat) (u : State) (d : Desc) (v : State), ch < 32 ∧ s.fld
      F.DMA_CH_STAT_state ch = dFetch ∧ a = s.dmaNext ch ∧ s.target a = .larder t ∧ u = s.setDma ch
      { s.dma ch with desc := s.memWords a 8 } ∧ d = descOf (s.memWords a 8) ∧ u.fld F.PWR_DOM_state (dLar + bankOf
      t) = 0 ∧ u.fld F.DMA_CFG_hop_max ≤ u.fld F.DMA_CH_STAT_hop ch) ∧
    (∃ (ch : Nat) (s : State) (a : Nat) (t : Nat) (u : State) (d : Desc) (v : State), ch < 32 ∧ s.fld
      F.DMA_CH_STAT_state ch = dFetch ∧ a = s.dmaNext ch ∧ s.target a = .larder t ∧ u = s.setDma ch
      { s.dma ch with desc := s.memWords a 8 } ∧ d = descOf (s.memWords a 8) ∧ u.fld F.PWR_DOM_state (dLar + bankOf
      t) = 0 ∧ u.fld F.DMA_CH_STAT_hop ch < u.fld F.DMA_CFG_hop_max ∧ u.descCause ch a d ≠ 0) ∧
    (∃ (ch : Nat) (s : State) (a : Nat) (t : Nat) (u : State) (d : Desc) (v : State), ch < 32 ∧ s.fld
      F.DMA_CH_STAT_state ch = dFetch ∧ a = s.dmaNext ch ∧ s.target a = .larder t ∧ u = s.setDma ch
      { s.dma ch with desc := s.memWords a 8 } ∧ d = descOf (s.memWords a 8) ∧ u.fld F.PWR_DOM_state (dLar + bankOf
      t) = 0 ∧ u.fld F.DMA_CH_STAT_hop ch < u.fld F.DMA_CFG_hop_max ∧ u.descCause ch a d = 0 ∧ v = u.setFld
      F.DMA_CH_STAT_hop ch (u.fld F.DMA_CH_STAT_hop ch + 1) ∧ d.pace ≠ 0 ∧ v.flag F.DMA_CH_STAT_pace_pending ch =
      false) ∧
    (∃ (ch : Nat) (s : State) (a : Nat) (t : Nat) (u : State) (d : Desc) (v : State), ch < 32 ∧ s.fld
      F.DMA_CH_STAT_state ch = dFetch ∧ a = s.dmaNext ch ∧ s.target a = .larder t ∧ u = s.setDma ch
      { s.dma ch with desc := s.memWords a 8 } ∧ d = descOf (s.memWords a 8) ∧ u.fld F.PWR_DOM_state (dLar + bankOf
      t) = 0 ∧ u.fld F.DMA_CH_STAT_hop ch < u.fld F.DMA_CFG_hop_max ∧ u.descCause ch a d = 0 ∧ v = u.setFld
      F.DMA_CH_STAT_hop ch (u.fld F.DMA_CH_STAT_hop ch + 1) ∧ d.pace = 0) ∧
    (∃ (ch : Nat) (s : State) (d : Desc), ch < 32 ∧ s.fld F.DMA_CH_STAT_state ch = dActive ∧ (s.dma ch).want = none ∧ d
      = descOf (s.dma ch).desc ∧ s.dmaClaims ch d = true ∧ d.len = 0 ∧ (s.dma ch).unacked = none) ∧
    (∃ (ch : Nat) (s : State) (d : Desc), ch < 32 ∧ s.fld F.DMA_CH_STAT_state ch = dActive ∧ (s.dma ch).want = none ∧ d
      = descOf (s.dma ch).desc ∧ s.dmaClaims ch d = true ∧ (s.dma ch).phase ≠ 3 ∧ d.len ≠ 0 ∧ (s.dmaMove ch d).1 =
      true ∧ ((s.dmaMove ch d).2.dma ch).unacked = none) ∧
    (∃ (ch : Nat) (s : State) (t : T48), ch < 32 ∧ (s.dma ch).issued = some t ∧ (s.dma ch).want.isSome = true) ∧
    (∃ (c : Nat) (s : State) (i : Nat) (l : List Nat) (u : State), s.mem.auxLeft = i :: l ∧ u = s.auxEntry i (if i = 15
      then 0 else c) ∧ l ≠ []) ∧
    (∃ (c : Nat) (s : State) (i : Nat) (l : List Nat) (u : State), s.mem.auxLeft = i :: l ∧ u = s.auxEntry i (if i = 15
      then 0 else c) ∧ l = [] ∧ u.flag F.AUX_SEQ_CTL_paced = true) ∧
    (∃ (c : Nat) (s : State) (i : Nat) (l : List Nat) (u : State), s.mem.auxLeft = i :: l ∧ u = s.auxEntry i (if i = 15
      then 0 else c) ∧ l = [] ∧ u.flag F.AUX_SEQ_CTL_paced = false) ∧
    (∃ (s : State), s.flag F.AUX_SEQ_CTL_run = true ∧ s.flag F.AUX_SEQ_CTL_paced = true ∧ s.mem.auxLeft = []) ∧
    (∃ (s : State), s.flag F.AUX_SEQ_CTL_run = true ∧ s.flag F.AUX_SEQ_CTL_paced = true ∧ s.mem.auxLeft ≠ []) :=
  ⟨⟨true, _, 1, rdy.setFld F.MEM_PAN_STAT_state 0 1, 0, by decide +kernel, by decide +kernel, rfl⟩,
    ⟨rdy.setFld F.MEM_PAN_STAT_state 0 2, by decide +kernel, by decide +kernel⟩,
    ⟨{ rdy.setFld F.MEM_PAN_STAT_state 0 2 with mem := { rdy.mem with dqsFailed := true } }, by decide +kernel,
      by decide +kernel⟩,
    ⟨0, ((rdy.setFld F.DMA_CH_STAT_state 0 2).setReg .DMA_CH_NEXT_LO 0 0x100C8000).setMemWords 0x100C8000 [0x100C8100,
      0x00040000, 0x100C8200, 4, 0, 0, 0, 0] |>.setFld F.DMA_CFG_hop_max 0 0, _, 200, _, _, rdy, by decide +kernel,
      by decide +kernel, rfl, by decide +kernel, rfl, rfl, by decide +kernel, by decide +kernel⟩,
    ⟨0, ((rdy.setFld F.DMA_CH_STAT_state 0 2).setReg .DMA_CH_NEXT_LO 0 0x100C8000).setMemWords 0x100C8000 [0, 0, 0, 0,
      0, 0, 1, 0] |>.setFld F.DMA_CFG_hop_max 0 8, _, 200, _, _, rdy, by decide +kernel, by decide +kernel, rfl,
      by decide +kernel, rfl, rfl, by decide +kernel, by decide +kernel, by decide +kernel⟩,
    ⟨0, ((rdy.setFld F.DMA_CH_STAT_state 0 2).setReg .DMA_CH_NEXT_LO 0 0x100C8000).setMemWords 0x100C8000 [0x100C8100,
      0x30040000, 0x100C8200, 4, 0, 0, 0, 0] |>.setFld F.DMA_CFG_hop_max 0 8, _, 200, _, _, _, by decide +kernel,
      by decide +kernel, rfl, by decide +kernel, rfl, rfl, by decide +kernel, by decide +kernel, by decide +kernel,
      rfl, by decide +kernel, by decide +kernel⟩,
    ⟨0, ((rdy.setFld F.DMA_CH_STAT_state 0 2).setReg .DMA_CH_NEXT_LO 0 0x100C8000).setMemWords 0x100C8000 [0x100C8100,
      0x00040000, 0x100C8200, 4, 0, 0, 0, 0] |>.setFld F.DMA_CFG_hop_max 0 8, _, 200, _, _, _, by decide +kernel,
      by decide +kernel, rfl, by decide +kernel, rfl, rfl, by decide +kernel, by decide +kernel, by decide +kernel,
      rfl, by decide +kernel⟩,
    ⟨0,
      { rdy.setFld F.DMA_CH_STAT_state 0 4 with mem := { rdy.mem with ch := [(0, { desc := [0, 0, 0, 0, 0, 0, 0, 0] })] } },
      _, by decide +kernel, by decide +kernel, by decide +kernel, rfl, by decide +kernel, by decide +kernel,
      by decide +kernel⟩,
    ⟨0,
      { rdy.setFld F.DMA_CH_STAT_state 0 4 with mem := { rdy.mem with ch := [(0, { desc := [0x100C8100, 0x00040000, 0x100C8200, 4, 0, 0, 0, 0] })] } },
      _, by decide +kernel, by decide +kernel, by decide +kernel, rfl, by decide +kernel, by decide +kernel,
      by decide +kernel, by decide +kernel, by decide +kernel⟩,
    ⟨0,
      { rdy.setFld F.DMA_CH_STAT_state 0 4 with mem := { rdy.mem with ch := [(0, { desc := [], want := some (64, 1), issued := some 0 })] } },
      _, by decide +kernel, rfl, by decide +kernel⟩,
    ⟨0,
      { (rdy.setReg .AUX_BUF_BASE 0 0x100C8000).setFld F.AUX_SEQ_CTL_run 0 1 with mem := { rdy.mem with auxLeft := [0, 1] } },
      _, _, _, (rfl), rfl, by decide +kernel⟩,
    ⟨0,
      { (rdy.setReg .AUX_BUF_BASE 0 0x100C8000).setFld F.AUX_SEQ_CTL_run 0 1 |>.setFld F.AUX_SEQ_CTL_paced 0 1 with mem := { rdy.mem with auxLeft := [0] } },
      _, _, _, (rfl), rfl, rfl, by decide +kernel⟩,
    ⟨0,
      { (rdy.setReg .AUX_BUF_BASE 0 0x100C8000).setFld F.AUX_SEQ_CTL_run 0 1 with mem := { rdy.mem with auxLeft := [0] } },
      _, _, _, (rfl), rfl, rfl, by decide +kernel⟩,
    ⟨{ (rdy.setReg .AUX_BUF_BASE 0 0x100C8000).setFld F.AUX_SEQ_CTL_run 0 1 |>.setFld F.AUX_SEQ_CTL_paced 0 1 with mem := { rdy.mem with auxLeft := [] } },
      by decide +kernel, by decide +kernel, by decide +kernel⟩,
    ⟨{ (rdy.setReg .AUX_BUF_BASE 0 0x100C8000).setFld F.AUX_SEQ_CTL_run 0 1 |>.setFld F.AUX_SEQ_CTL_paced 0 1 with mem := { rdy.mem with auxLeft := [0] } },
      by decide +kernel, by decide +kernel, by decide +kernel⟩⟩

/-- Meets the hypotheses of CalibrationRowsComplete, clause by clause. -/
theorem witness_CalibrationRowsComplete :
    (∃ (q : Nat) (tx : Bool) (s : State) (r : CalRun) (k : Nat), s.runOn q = some r ∧ k = 2 * q + (if tx then 1 else 0)
      ∧ r.begun = true ∧ r.sides.contains k = true ∧ r.entered.contains k = false ∧ s.calReady k = true ∧ (tx =
      false ∨ s.txEntryOk q (s.runNs r) (usesOrx r.cals) (s.radiates r) = true)) ∧
    (∃ (q : Nat) (s : State) (r : CalRun), s.runOn q = some r ∧ r.begun = true ∧ r.kind = 0 ∧ r.sides.any (fun k =>
      decide (k % 2 = 1) && !r.entered.contains k) = true) ∧
    (∃ (q : Nat) (rs : List CalResult) (s : State) (r : CalRun) (u : State) (v : State), s.runOn q = some r ∧ r.begun =
      true ∧ r.kind = 0 ∧ r.sides.all (fun k => r.entered.contains k) = true ∧ u = s.runApply (s.runResults r rs) ∧
      v = ((s.runResults r rs).filter fun x => x.quad && decide (x.cause = 0 ∧ x.unit < 4)).foldl (fun s x =>
      s.unmarkQuad (2 * x.unit + if x.tx then 1 else 0) x.cal) ((setsOf r).foldl (fun s k => s.setRun k (r.temp (k
      / 2)) r.start) u) ∧ (∀ x ∈ s.runResults r rs, x.cause = 0)) ∧
    (∃ (q : Nat) (rs : List CalResult) (s : State) (r : CalRun) (u : State) (v : State) (x : CalResult), s.runOn q =
      some r ∧ r.begun = true ∧ r.kind = 0 ∧ r.sides.all (fun k => r.entered.contains k) = true ∧ u = s.runApply
      (s.runResults r rs) ∧ v = ((s.runResults r rs).filter fun x => x.quad && decide (x.cause = 0 ∧ x.unit <
      4)).foldl (fun s x => s.unmarkQuad (2 * x.unit + if x.tx then 1 else 0) x.cal) ((setsOf r).foldl (fun s k =>
      s.setRun k (r.temp (k / 2)) r.start) u) ∧ (s.runResults r rs).find? (fun x => decide (x.cause ≠ 0)) = some x) ∧
    (∃ (l : List Int) (s : State), s.stage = 7 ∧ l.length = 4 ∧ s.onHosc = false ∧ s.flag F.CAL_CFG_kettle_en = false) ∧
    (∃ (l : List Int) (s : State), s.stage = 7 ∧ l.length = 4 ∧ s.onHosc = false ∧ s.flag F.CAL_CFG_kettle_en = true) ∧
    (∃ (q : Nat) (tx : Bool) (rs : List CalResult) (s : State) (r : CalRun) (k : Nat) (u : State), k = 2 * q + (if tx
      then 1 else 0) ∧ s.runOn q = some r ∧ r.kind = 1 ∧ r.sides = [k] ∧ u = (s.runResults r rs).foldl (fun s x =>
      s.calResult x false) s) ∧
    (∃ (rs : List CalResult) (drive : Int) (s : State) (u : State) (v : State) (q : Nat), s.stage = 7 ∧ s.flag
      F.CAL_CFG_track_en = true ∧ s.network = true ∧ s.onHosc = false ∧ u = s.elapseTo (s.cal.trackAt +
      BitVec.ofNat 48 (msec (s.fld F.CAL_CFG_track_ms))) ∧ v = { u with cal := { u.cal with trackAt := u.now } } ∧
      v.servedQuads = [q]) ∧
    (∃ (rs : List CalResult) (drive : Int) (s : State) (u : State) (v : State) (a : Nat) (b : Nat) (m : List Nat) (ks :
      List Nat) (w : State) (l : List CalResult) (z : State), s.stage = 7 ∧ s.flag F.CAL_CFG_track_en = true ∧
      s.network = true ∧ s.onHosc = false ∧ u = s.elapseTo (s.cal.trackAt + BitVec.ofNat 48 (msec (s.fld
      F.CAL_CFG_track_ms))) ∧ v = { u with cal := { u.cal with trackAt := u.now } } ∧ v.servedQuads = a :: b :: m ∧
      ks = (List.range 8).filter (fun k => v.mayWake k) ∧ w = ks.foldl State.wakeFor v ∧ l = (rs.filter
      (w.roundTakes v.pilotSource)).map (w.judge true) ∧ z =
      { w with cal := { w.cal with drive := Store.set (fun _ => 0) w.cal.drive v.pilotSource drive } }) ∧
    (∃ (q : Nat) (tx : Bool) (s : State) (t : T48) (k : Nat) (u : State), k = 2 * q + (if tx then 1 else 0) ∧ Store.get
      (fun _ => none) s.cal.stepAt k = some t ∧ u = (s.elapseTo t).stepSide k) :=
  ⟨⟨0, false,
      { rxAt 2 with cal := { rdy.cal with runs := [{ kind := 0, cals := 0x110, qmask := 1, paths := 1, sides := [0], start := 0, begun := true }] } },
      _, _, rfl, rfl, by decide +kernel, by decide +kernel, by decide +kernel, by decide +kernel,
      by decide +kernel⟩,
    ⟨0,
      { rxAt 2 with cal := { rdy.cal with runs := [{ kind := 0, cals := 0x110, qmask := 1, paths := 1, sides := [1], start := 0, begun := true }] } },
      _, rfl, by decide +kernel, by decide +kernel, by decide +kernel⟩,
    ⟨0, [],
      { rxAt 2 with cal := { rdy.cal with runs := [{ kind := 0, cals := 0x110, qmask := 1, paths := 1, sides := [0], start := 0, begun := true, entered := [0] }] } },
      _, _, _, rfl, by decide +kernel, by decide +kernel, by decide +kernel, rfl, rfl, by decide +kernel⟩,
    ⟨0, [⟨5, false, 0, false, 0x51, []⟩],
      { rxAt 2 with cal := { rdy.cal with runs := [{ kind := 0, cals := 0x110, qmask := 1, paths := 1, sides := [0], start := 0, begun := true, entered := [0] }] } },
      _, _, _, ⟨5, false, 0, false, 0x51, []⟩, rfl, by decide +kernel, by decide +kernel, by decide +kernel, rfl,
      rfl, by decide +kernel⟩,
    ⟨[0, 0, 0, 0], rdy.setFld F.CAL_CFG_kettle_en 0 0, by decide +kernel, by decide +kernel, by decide +kernel,
      by decide +kernel⟩,
    ⟨[0, 0, 0, 0], rdy.setFld F.CAL_CFG_kettle_en 0 1, by decide +kernel, by decide +kernel, by decide +kernel,
      by decide +kernel⟩,
    ⟨0, false, [],
      { rxAt 2 with cal := { rdy.cal with runs := [{ kind := 1, cals := 0x110, qmask := 1, paths := 1, sides := [0], start := 0, begun := true }] } },
      _, _, _, rfl, rfl, by decide +kernel, by decide +kernel, rfl⟩,
    ⟨[], 0,
      { { rdy.setFld F.CAL_CFG_track_en 0 1 with cal := { rdy.cal with net := some [], commissioned := true } } with clk := { rdy.clk with parked := [(1, 65535), (2, 65535), (3, 65535)] } },
      _, _, 0, by decide +kernel, by decide +kernel, by decide +kernel, by decide +kernel, rfl, rfl,
      by decide +kernel⟩,
    ⟨[], 0, { rdy.setFld F.CAL_CFG_track_en 0 1 with cal := { rdy.cal with net := some [], commissioned := true } }, _,
      _, 0, 1, [2, 3], _, _, _, _, by decide +kernel, by decide +kernel, by decide +kernel, by decide +kernel, rfl,
      rfl, by decide +kernel, rfl, rfl, rfl, rfl⟩,
    ⟨0, false, { rdy with cal := { rdy.cal with stepAt := [(0, some 0)] } }, _, _, _, rfl, rfl, rfl⟩⟩

/-- Meets the hypotheses of StepsKeepTheCanonicalForm, clause by clause. -/
theorem witness_StepsKeepTheCanonicalForm :
    (∃ (s : State) (t : State), s.canonical ∧ step s = .next t) :=
  ⟨{ rdy with pending := [.loopFilterRelease 0 0] }, rdy, by decide +kernel, (rfl)⟩

/-- Meets the hypotheses of CommandsLeaveTheQueue, clause by clause. -/
theorem witness_CommandsLeaveTheQueue :
    (∃ (c : Instr) (s : State) (t : State), exec c s = .next t) :=
  ⟨.loopFilterRelease 0 0, rdy, rdy, (rfl)⟩

/-- Meets the hypotheses of StepRunsTheFrontCommand, clause by clause. -/
theorem witness_StepRunsTheFrontCommand :
    (∃ (s : State), s.pending = [] ∧ s.time.running = false) ∧
    (∃ (s : State) (r : Int), s.pending = [] ∧ s.time.running = true ∧ r = (s.reg .TS_RATE 0).toInt ∧ s.flag
      F.TIME_STAT_on_hosc = true) ∧
    (∃ (s : State) (r : Int), s.pending = [] ∧ s.time.running = true ∧ r = (s.reg .TS_RATE 0).toInt ∧ s.flag
      F.TIME_STAT_on_hosc = false) :=
  ⟨⟨State.reset, by decide +kernel, by decide +kernel⟩,
    ⟨rdy.setFld F.TIME_STAT_on_hosc 0 1, _, by decide +kernel, by decide +kernel, rfl, by decide +kernel⟩,
    ⟨rdy, _, by decide +kernel, by decide +kernel, rfl, by decide +kernel⟩⟩

/-- Meets the hypotheses of ResetRegistersHoldTheirTables, clause by clause. -/
theorem witness_ResetRegistersHoldTheirTables :
    (∃ (r : RegName) (i : Nat) (f : FieldSpec), r ≠ .SYS_ID ∧ r ≠ .HOSC_TRIM ∧ r ≠ .WHISK_SEED ∧ f ∈ r.fields) ∧
    (∃ (r : RegName) (i : Nat) (n : Nat), r ≠ .SYS_ID ∧ r ≠ .HOSC_TRIM ∧ r ≠ .WHISK_SEED ∧ n < 32 ∧ (∀ f ∈ r.fields, n
      < f.lo ∨ f.lo + f.width ≤ n)) :=
  ⟨⟨.SYS_MODE, 0, ⟨22, 2, .ro, 0⟩, by decide +kernel, by decide +kernel, by decide +kernel, by decide +kernel⟩,
    ⟨.SYS_MODE, 0, 31, by decide +kernel, by decide +kernel, by decide +kernel, by decide +kernel, by decide +kernel⟩⟩

/-- Meets the hypotheses of FieldTypesGovernEachBit, clause by clause. -/
theorem witness_FieldTypesGovernEachBit :
    (∃ (r : RegName) (f : FieldSpec) (n : Nat) (w : Word) (v : Word), f ∈ r.fields ∧ f.lo ≤ n ∧ n < f.lo + f.width) ∧
    (∃ (r : RegName) (n : Nat) (w : Word) (v : Word), (∀ f ∈ r.fields, n < f.lo ∨ f.lo + f.width ≤ n)) :=
  ⟨⟨.SYS_MODE, ⟨21, 1, .w1c, 0⟩, 21, 0x200000, 0x200000, by decide +kernel, by decide +kernel, by decide +kernel⟩,
    ⟨.SYS_MODE, 31, 0, 0, by decide +kernel⟩⟩

/-- Meets the hypotheses of BadBeamSelectionIsIgnored, clause by clause. -/
theorem witness_BadBeamSelectionIsIgnored :
    (∃ (p : Port) (v : Word) (s : State), bitAt v 7 = true ∧ 31 < bits v 5 0) :=
  ⟨.cspi, 0xA0, rdy, by decide +kernel, by decide +kernel⟩

/-- Meets the hypotheses of FirstAccessErrorIsKept, clause by clause. -/
theorem witness_FirstAccessErrorIsKept :
    (∃ (p : Port) (a : Nat) (v : Word) (s : State), 0xC000 ≤ a ∧ a < 0x10000 ∧ p ≠ .tilin) ∧
    (∃ (a : Nat) (v : Word) (s : State), 0xC000 ≤ a ∧ a < 0x10000) ∧
    (∃ (p : Port) (v : Word) (s : State), bitAt v 4 = true) :=
  ⟨⟨.cspi, 0xC000, 1, rdy, by decide +kernel, by decide +kernel, by decide +kernel⟩,
    ⟨0xC000, 1, rdy, by decide +kernel, by decide +kernel⟩,
    ⟨.cspi, 0x10, rdy, by decide +kernel⟩⟩

/-- Meets the hypotheses of UnclaimedResourceWritesAreIgnored, clause by clause. -/
theorem witness_UnclaimedResourceWritesAreIgnored :
    (∃ (p : Port) (a : Nat) (v : Word) (s : State) (r : RegName) (i : Nat) (ty : Nat) (j : Nat), a % 4 = 0 ∧ plainAddr
      a ∧ s.regAt p a = some (r, i) ∧ r.resource i = some (ty, j) ∧ p ≠ .tilin ∧ (∀ c, s.owner ty j = some c →
      c.internal = true ∨ c.port ≠ p.idx)) ∧
    (∃ (p : Port) (a : Nat) (v : Word) (s : State) (r : RegName) (i : Nat) (ty : Nat) (j : Nat) (c : Claim), a % 4 = 0
      ∧ plainAddr a ∧ s.regAt p a = some (r, i) ∧ r.resource i = some (ty, j) ∧ p ≠ .tilin ∧ s.owner ty j = some c
      ∧ c.internal = false ∧ c.port = p.idx) ∧
    (∃ (p : Port) (a : Nat) (s : State), a < 0xC000) :=
  ⟨⟨.cspi, 20796, 1, rdy, .TC_PERIOD, 3, resTc, 3, by decide +kernel, by decide +kernel, by decide +kernel,
      by decide +kernel, by decide +kernel, (by intro c h; exact nomatch h)⟩,
    ⟨.cspi, 20748, 1, rdy, .TC_PERIOD, 0, resTc, 0, ⟨1, 0, false, 0, 0⟩, by decide +kernel, by decide +kernel,
      by decide +kernel, by decide +kernel, by decide +kernel, by decide +kernel, by decide +kernel,
      by decide +kernel⟩,
    ⟨.cspi, 0x24, rdy, by decide +kernel⟩⟩

/-- Meets the hypotheses of BroadcastWritesReachEveryTarget, clause by clause. -/
theorem witness_BroadcastWritesReachEveryTarget :
    (∃ (p : Port) (a : Nat) (v : Word) (s : State) (r : RegName) (i : Nat), a % 4 = 0 ∧ plainAddr a ∧ s.regAt p a =
      some (r, i) ∧ r.resource i = none ∧ r.plainWrite = true) ∧
    (∃ (p : Port) (a : Nat) (s : State) (r : RegName) (i : Nat) (w : Word), s.regAt p a = some (r, i) ∧ w = s.reg
      .PATH_SEL p.idx ∧ r.place.1 = .path) ∧
    (∃ (p : Port) (a : Nat) (s : State) (r : RegName) (i : Nat) (w : Word) (j : Nat), s.regAt p a = some (r, i) ∧ w =
      s.reg .PATH_SEL p.idx ∧ r.place.1 = .path) ∧
    (∃ (p : Port) (a : Nat) (s : State) (r : RegName) (i : Nat) (w : Word), s.regAt p a = some (r, i) ∧ w = s.reg
      .BEAM_SEL p.idx ∧ (r.place.1 = .rxBeam ∨ r.place.1 = .txBeam)) ∧
    (∃ (p : Port) (a : Nat) (s : State) (r : RegName) (i : Nat) (w : Word) (j : Nat), s.regAt p a = some (r, i) ∧ w =
      s.reg .BEAM_SEL p.idx ∧ (r.place.1 = .rxBeam ∨ r.place.1 = .txBeam)) ∧
    (∃ (p : Port) (a : Nat) (s : State) (r : RegName) (i : Nat), s.regAt p a = some (r, i) ∧ a % 4 = 0 ∧ plainAddr a ∧
      r.plainRead = true) :=
  ⟨⟨.cspi, 0x24, 1, rdy, .SYS_IRQ_EN, 0, by decide +kernel, by decide +kernel, by decide +kernel, by decide +kernel,
      by decide +kernel⟩,
    ⟨.cspi, 8216, rdy.setReg .PATH_SEL 0 0x205, .RX_OVR_CFG, 5, _, by decide +kernel, rfl, by decide +kernel⟩,
    ⟨.cspi, 8216, rdy.setReg .PATH_SEL 0 0x205, .RX_OVR_CFG, 5, _, 0, by decide +kernel, rfl, by decide +kernel⟩,
    ⟨.cspi, 45188, rdy.setReg .BEAM_SEL 0 0x185, .TXB_CFG, 5, _, by decide +kernel, rfl, by decide +kernel⟩,
    ⟨.cspi, 45188, rdy.setReg .BEAM_SEL 0 0x185, .TXB_CFG, 5, _, 0, by decide +kernel, rfl, by decide +kernel⟩,
    ⟨.cspi, 0x24, rdy, .SYS_IRQ_EN, 0, by decide +kernel, by decide +kernel, by decide +kernel, by decide +kernel⟩⟩

/-- Meets the hypotheses of MailboxesMoveByTheirTable, clause by clause. -/
theorem witness_MailboxesMoveByTheirTable :
    (∃ (p : Port) (n : Nat) (s : State), n < 8 ∧ s.mbxState n ≠ mbBusy ∧ reqLen (s.reqWord n 0) ≤ 63) ∧
    (∃ (p : Port) (n : Nat) (s : State), n < 8 ∧ s.mbxState n ≠ mbBusy ∧ 63 < reqLen (s.reqWord n 0)) ∧
    (∃ (p : Port) (n : Nat) (s : State), n < 8 ∧ s.mbxState n = mbBusy) ∧
    (∃ (n : Nat) (s : State) (r : Rsp), n < 8 ∧ s.mbxState n = mbBusy ∧ (s.mbx n).staged = some r ∧ r.status < 256 ∧
      r.words.length < 64) ∧
    (∃ (p : Port) (n : Nat) (s : State), n < 8 ∧ s.mbxState n = mbDone) ∧
    (∃ (p : Port) (n : Nat) (s : State), n < 8 ∧ s.mbxState n ≠ mbDone) :=
  ⟨⟨.cspi, 1, rdy, by decide +kernel, by decide +kernel, by decide +kernel⟩,
    ⟨.cspi, 1, { rdy with sys := { rdy.sys with reqArea := [(64, 0x40000000)] } }, by decide +kernel,
      by decide +kernel, by decide +kernel⟩,
    ⟨.cspi, 1, busy {}, by decide +kernel, by decide +kernel⟩,
    ⟨1, busy { staged := some (rspOk [7, 8]) }, _, by decide +kernel, by decide +kernel, rfl, by decide +kernel,
      by decide +kernel⟩,
    ⟨.cspi, 1, rdy.setFld F.SYS_MBX_STAT_state 1 2, by decide +kernel, by decide +kernel⟩,
    ⟨.cspi, 1, rdy, by decide +kernel, by decide +kernel⟩⟩

/-- Meets the hypotheses of StrobeClaimsConflict, clause by clause. -/
theorem witness_StrobeClaimsConflict :
    (∃ (q : Req) (s : State) (k : Nat), s.precheck specResClaim q = none ∧ resBad q = false ∧ resType q = resStrobe ∧
      resFirst q = 4 ∧ resLen q = 1 ∧ s.holds q.mbx resStrobe 4 = false ∧ k < 4 ∧ s.otherHolds q.mbx resStrobe k =
      true) ∧
    (∃ (q : Req) (s : State), s.precheck specResClaim q = none ∧ resBad q = false ∧ resType q = resStrobe ∧ resFirst q
      < 4 ∧ resLen q = 1 ∧ s.holds q.mbx resStrobe (resFirst q) = false ∧ s.otherHolds q.mbx resStrobe 4 = true) :=
  ⟨⟨⟨2, 5, [0x00010405]⟩, rdy, 0, by decide +kernel, by decide +kernel, by decide +kernel, by decide +kernel,
      by decide +kernel, by decide +kernel, by decide +kernel, by decide +kernel⟩,
    ⟨⟨2, 5, [0x00010005]⟩, { rdy with sys := { rdy.sys with claims := [own 5 4] } }, by decide +kernel,
      by decide +kernel, by decide +kernel, by decide +kernel, by decide +kernel, by decide +kernel,
      by decide +kernel⟩⟩

/-- Meets the hypotheses of PostedEventsEnterTheRing, clause by clause. -/
theorem witness_PostedEventsEnterTheRing :
    (∃ (s : State) (u : State) (t : T48) (code : Nat) (cls : Nat) (arg : Word) (cmd : Option Cmd) (sw : Bool) (size :
      Nat) (wr : Nat) (rd : Nat) (a : Nat) (c : Cmd), s.sys.ringMade = true ∧ s.fld F.SYS_EVT_CTL_size_log2 ≤ 16 ∧
      u = s.postAt t code cls arg cmd sw ∧ size = 2 ^ s.fld F.SYS_EVT_CTL_size_log2 ∧ wr = s.fld F.SYS_EVT_WR_wr %
      size ∧ rd = s.fld F.SYS_EVT_RD_rd % size ∧ a = (s.reg .SYS_EVT_BASE 0).toNat + 16 * wr ∧ cmd = some c) ∧
    (∃ (s : State) (u : State) (t : T48) (code : Nat) (cls : Nat) (arg : Word) (cmd : Option Cmd) (sw : Bool) (size :
      Nat) (wr : Nat) (rd : Nat) (a : Nat), s.sys.ringMade = true ∧ s.fld F.SYS_EVT_CTL_size_log2 ≤ 16 ∧ u =
      s.postAt t code cls arg cmd sw ∧ size = 2 ^ s.fld F.SYS_EVT_CTL_size_log2 ∧ wr = s.fld F.SYS_EVT_WR_wr % size
      ∧ rd = s.fld F.SYS_EVT_RD_rd % size ∧ a = (s.reg .SYS_EVT_BASE 0).toNat + 16 * wr ∧ (wr + 1) % size = rd) ∧
    (∃ (s : State) (u : State) (t : T48) (code : Nat) (cls : Nat) (arg : Word) (cmd : Option Cmd) (sw : Bool) (size :
      Nat) (wr : Nat) (rd : Nat) (a : Nat), s.sys.ringMade = true ∧ s.fld F.SYS_EVT_CTL_size_log2 ≤ 16 ∧ u =
      s.postAt t code cls arg cmd sw ∧ size = 2 ^ s.fld F.SYS_EVT_CTL_size_log2 ∧ wr = s.fld F.SYS_EVT_WR_wr % size
      ∧ rd = s.fld F.SYS_EVT_RD_rd % size ∧ a = (s.reg .SYS_EVT_BASE 0).toNat + 16 * wr ∧ (wr + 1) % size ≠ rd) ∧
    (∃ (s : State) (u : State) (t : T48) (code : Nat) (cls : Nat) (arg : Word) (cmd : Option Cmd) (sw : Bool) (size :
      Nat) (wr : Nat) (rd : Nat) (a : Nat) (b : Nat), s.sys.ringMade = true ∧ s.fld F.SYS_EVT_CTL_size_log2 ≤ 16 ∧
      u = s.postAt t code cls arg cmd sw ∧ size = 2 ^ s.fld F.SYS_EVT_CTL_size_log2 ∧ wr = s.fld F.SYS_EVT_WR_wr %
      size ∧ rd = s.fld F.SYS_EVT_RD_rd % size ∧ a = (s.reg .SYS_EVT_BASE 0).toNat + 16 * wr ∧ (b < a ∨ a + 16 ≤
      b)) :=
  ⟨⟨{ (rdy.setFld F.SYS_EVT_CTL_size_log2 0 10).setReg .SYS_EVT_BASE 0 0x10080000 with sys := { rdy.sys with ringMade := true } },
      _, 5, 0x0105, 2, 9, some ⟨1, 5⟩, false, _, _, _, _, _, by decide +kernel, by decide +kernel, rfl, rfl, rfl,
      rfl, rfl, (rfl)⟩,
    ⟨{ (rdy.setFld F.SYS_EVT_CTL_size_log2 0 0).setReg .SYS_EVT_BASE 0 0x10080000 with sys := { rdy.sys with ringMade := true } },
      _, 5, 0x0105, 2, 9, none, false, _, _, _, _, by decide +kernel, by decide +kernel, rfl, rfl, rfl, rfl, rfl,
      by decide +kernel⟩,
    ⟨{ (rdy.setFld F.SYS_EVT_CTL_size_log2 0 10).setReg .SYS_EVT_BASE 0 0x10080000 with sys := { rdy.sys with ringMade := true } },
      _, 5, 0x0105, 2, 9, none, false, _, _, _, _, by decide +kernel, by decide +kernel, rfl, rfl, rfl, rfl, rfl,
      by decide +kernel⟩,
    ⟨{ (rdy.setFld F.SYS_EVT_CTL_size_log2 0 10).setReg .SYS_EVT_BASE 0 0x10080000 with sys := { rdy.sys with ringMade := true } },
      _, 5, 0x0105, 2, 9, none, false, _, _, _, _, 0, by decide +kernel, by decide +kernel, rfl, rfl, rfl, rfl,
      rfl, by decide +kernel⟩⟩

/-- Meets the hypotheses of TcControlWritesAreGuarded, clause by clause. -/
theorem witness_TcControlWritesAreGuarded :
    (∃ (p : Port) (u : Nat) (v : Word) (s : State), u < 16 ∧ p ≠ .tilin ∧ s.portHolds p resTc u = true ∧ s.flag
      F.TC_CTL_cmd_armed u = true) ∧
    (∃ (p : Port) (u : Nat) (v : Word) (s : State), u < 16 ∧ p ≠ .tilin ∧ s.portHolds p resTc u = true ∧ bitAt v 0 =
      true ∧ bits v 7 4 ≠ 1 ∧ bits v 7 4 ≠ 2) ∧
    (∃ (p : Port) (u : Nat) (v : Word) (s : State), u < 16 ∧ p ≠ .tilin ∧ s.portHolds p resTc u = true ∧ s.flag
      F.TC_CTL_cmd_armed u = false ∧ bitAt v 0 = false) ∧
    (∃ (p : Port) (u : Nat) (v : Word) (s : State) (w : State), u < 16 ∧ s.portHolds p resTc u = true ∧ s.flag
      F.TC_CTL_cmd_armed u = false ∧ bitAt v 0 = true ∧ (bits v 7 4 = 1 ∨ bits v 7 4 = 2) ∧ w = s.setReg .TC_CTL u
      (RegName.TC_CTL.written (s.reg .TC_CTL u) v) ∧ bitAt v 1 = true ∧ (s.reg .TC_PERIOD u).toNat < 100) ∧
    (∃ (p : Port) (u : Nat) (v : Word) (s : State) (w : State), u < 16 ∧ s.portHolds p resTc u = true ∧ s.flag
      F.TC_CTL_cmd_armed u = false ∧ bitAt v 0 = true ∧ (bits v 7 4 = 1 ∨ bits v 7 4 = 2) ∧ w = s.setReg .TC_CTL u
      (RegName.TC_CTL.written (s.reg .TC_CTL u) v) ∧ (bitAt v 1 = false ∨ 100 ≤ (s.reg .TC_PERIOD u).toNat) ∧
      s.cmpPast (s.cmpTime u) = true) :=
  ⟨⟨.cspi, 0, 1, rdy.setFld F.TC_CTL_cmd_armed 0 1, by decide +kernel, by decide +kernel, by decide +kernel,
      by decide +kernel⟩,
    ⟨.cspi, 0, 0x31, rdy, by decide +kernel, by decide +kernel, by decide +kernel, by decide +kernel,
      by decide +kernel, by decide +kernel⟩,
    ⟨.cspi, 0, 0, rdy, by decide +kernel, by decide +kernel, by decide +kernel, by decide +kernel, by decide +kernel⟩,
    ⟨.cspi, 0, 0x13, rdy, _, by decide +kernel, by decide +kernel, by decide +kernel, by decide +kernel,
      by decide +kernel, rfl, by decide +kernel, by decide +kernel⟩,
    ⟨.cspi, 0, 0x11, rdy, _, by decide +kernel, by decide +kernel, by decide +kernel, by decide +kernel,
      by decide +kernel, rfl, by decide +kernel, by decide +kernel⟩⟩

/-- Meets the hypotheses of ServoFollowsOffsets, clause by clause. -/
theorem witness_ServoFollowsOffsets :
    (∃ (p : Port) (v : Word) (s : State) (i0 : Int) (i : Int) (r0 : Int) (r : Int), (s.fld F.TIME_CFG_src = 0 ∨ (s.fld
      F.TIME_CFG_src = 2 ∧ p = .tilin)) ∧ i0 = (s.reg .TS_INTEG 0).toInt + divHalfAway (s.fld F.TIME_GAIN_ki *
      v.toInt) 256 ∧ i = max (-2147483) (min 2147483 i0) ∧ r0 = i + divHalfAway (s.fld F.TIME_GAIN_kp * v.toInt)
      256 ∧ r = max (-2147483) (min 2147483 r0)) ∧
    (∃ (x : Int) (y : Int), y = divHalfAway x 256 ∧ 0 ≤ x) ∧
    (∃ (x : Int) (y : Int), y = divHalfAway x 256 ∧ x < 0) :=
  ⟨⟨.tilin, 100, rdy.setFld F.TIME_CFG_src 0 0, _, _, _, _, by decide +kernel, rfl, rfl, rfl, rfl⟩,
    ⟨384, _, rfl, by decide +kernel⟩,
    ⟨-384, _, rfl, by decide +kernel⟩⟩

/-- Meets the hypotheses of SealedTilesAreVerified, clause by clause. -/
theorem witness_SealedTilesAreVerified :
    (∃ (s : State) (u : State) (k : Nat) (j : Nat), (s.tile k).state = .open ∧ u = s.sealTile k ∧ j ≠ k) ∧
    (∃ (s : State) (u : State) (k : Nat) (c : Nat) (b : Bool), (s.tile k).state = .open ∧ u = s.sealTile k) ∧
    (∃ (s : State) (k : Nat) (c : Nat) (b : Bool), k < 6144 ∧ (s.tile k).state = .sealed ∧ (s.tile k).sum ≠
      BitVec.ofNat 32 (crc32c ((List.range 4096).map fun i => s.byte (tileAddr k + i)))) ∧
    (∃ (s : State) (k : Nat) (c : Nat) (b : Bool), (s.tile k).state = .quarantined) :=
  ⟨⟨rdy, _, 200, 201, by decide +kernel, rfl, by decide +kernel⟩,
    ⟨rdy, _, 200, 1, false, by decide +kernel, rfl⟩,
    ⟨rdy.setTile 200 { state := .sealed, sum := 1 + rdy.tileSum 200 }, 200, 1, false, by decide +kernel,
      by decide +kernel, (one_add_ne _)⟩,
    ⟨rdy.setTile 200 { state := .quarantined }, 200, 1, false, by decide +kernel⟩⟩

/-- Meets the hypotheses of HostMemoryAccessFollowsTheTile, clause by clause. -/
theorem witness_HostMemoryAccessFollowsTheTile :
    (∃ (addr : Nat) (v : Word) (s : State) (a : Nat) (e : _) (t : Nat), s.cspiUp = true ∧ 5 ≤ s.stage ∧ s.stage < 8 ∧
      0x800000 ≤ addr ∧ addr < 2 ^ 24 ∧ a = s.winByte addr ∧ s.target a = .larder t ∧ s.fld F.PWR_DOM_state (dLar +
      bankOf t) = 0 ∧ e = (if (s.tile t).state ≠ .open then errTile else errClaim) ∧ (s.tile t).state = .open ∧
      s.portHolds .cspi resTile t = true) ∧
    (∃ (addr : Nat) (v : Word) (s : State) (a : Nat) (e : _) (t : Nat), s.cspiUp = true ∧ 5 ≤ s.stage ∧ s.stage < 8 ∧
      0x800000 ≤ addr ∧ addr < 2 ^ 24 ∧ a = s.winByte addr ∧ s.target a = .larder t ∧ s.fld F.PWR_DOM_state (dLar +
      bankOf t) = 0 ∧ e = (if (s.tile t).state ≠ .open then errTile else errClaim) ∧ ¬ ((s.tile t).state = .open ∧
      s.portHolds .cspi resTile t = true)) ∧
    (∃ (addr : Nat) (v : Word) (s : State) (a : Nat) (e : _) (t : Nat), s.cspiUp = true ∧ 5 ≤ s.stage ∧ s.stage < 8 ∧
      0x800000 ≤ addr ∧ addr < 2 ^ 24 ∧ a = s.winByte addr ∧ s.target a = .larder t ∧ s.fld F.PWR_DOM_state (dLar +
      bankOf t) = 0 ∧ e = (if (s.tile t).state ≠ .open then errTile else errClaim) ∧ (s.tile t).state ≠
      .quarantined) ∧
    (∃ (addr : Nat) (v : Word) (s : State) (a : Nat) (e : _) (t : Nat), s.cspiUp = true ∧ 5 ≤ s.stage ∧ s.stage < 8 ∧
      0x800000 ≤ addr ∧ addr < 2 ^ 24 ∧ a = s.winByte addr ∧ s.target a = .larder t ∧ s.fld F.PWR_DOM_state (dLar +
      bankOf t) = 0 ∧ e = (if (s.tile t).state ≠ .open then errTile else errClaim) ∧ (s.tile t).state =
      .quarantined) ∧
    (∃ (addr : Nat) (v : Word) (s : State) (a : Nat) (e : _) (t : Nat), s.cspiUp = true ∧ 5 ≤ s.stage ∧ s.stage < 8 ∧
      0x800000 ≤ addr ∧ addr < 2 ^ 24 ∧ a = s.winByte addr ∧ s.target a = .pantry t ∧ e = (if (s.tile (panKey
      t)).state = .quarantined then errTile else errClaim) ∧ (s.tile (panKey t)).state ≠ .quarantined) ∧
    (∃ (addr : Nat) (v : Word) (s : State) (a : Nat) (e : _) (t : Nat), s.cspiUp = true ∧ 5 ≤ s.stage ∧ s.stage < 8 ∧
      0x800000 ≤ addr ∧ addr < 2 ^ 24 ∧ a = s.winByte addr ∧ s.target a = .pantry t ∧ e = (if (s.tile (panKey
      t)).state = .quarantined then errTile else errClaim) ∧ (s.tile (panKey t)).state = .quarantined) ∧
    (∃ (addr : Nat) (v : Word) (s : State) (a : Nat) (e : Nat), s.cspiUp = true ∧ 5 ≤ s.stage ∧ s.stage < 8 ∧ 0x800000
      ≤ addr ∧ addr < 2 ^ 24 ∧ a = s.winByte addr ∧ s.target a = .remote) ∧
    (∃ (a : Nat) (v : Word) (s : State) (u : State) (e : _) (t : Nat), s.rxOpen = true ∧ u = s.received 0 (len8Of 4) ∧
      5 ≤ u.stage ∧ u.stage < 8 ∧ a % 4 = 0 ∧ a < 2 ^ 40 ∧ u.target a = .larder t ∧ u.fld F.PWR_DOM_state (dLar +
      bankOf t) = 0 ∧ e = (if (u.tile t).state ≠ .open then errTile else errClaim) ∧ (u.tile t).state = .open ∧
      u.portHolds .link resTile t = true) ∧
    (∃ (a : Nat) (v : Word) (s : State) (u : State) (e : _) (t : Nat), s.rxOpen = true ∧ u = s.received 0 (len8Of 4) ∧
      5 ≤ u.stage ∧ u.stage < 8 ∧ a % 4 = 0 ∧ a < 2 ^ 40 ∧ u.target a = .larder t ∧ u.fld F.PWR_DOM_state (dLar +
      bankOf t) = 0 ∧ e = (if (u.tile t).state ≠ .open then errTile else errClaim) ∧ ¬ ((u.tile t).state = .open ∧
      u.portHolds .link resTile t = true)) ∧
    (∃ (a : Nat) (v : Word) (s : State) (u : State) (e : _) (t : Nat), s.rxOpen = true ∧ u = s.received 0 (len8Of 4) ∧
      5 ≤ u.stage ∧ u.stage < 8 ∧ a % 4 = 0 ∧ a < 2 ^ 40 ∧ u.target a = .pantry t ∧ e = (if (u.tile (panKey
      t)).state = .quarantined then errTile else errClaim)) ∧
    (∃ (a : Nat) (v : Word) (s : State) (u : State) (e : Nat), s.rxOpen = true ∧ u = s.received 0 (len8Of 4) ∧ 5 ≤
      u.stage ∧ u.stage < 8 ∧ a % 4 = 0 ∧ a < 2 ^ 40 ∧ u.target a = .remote) ∧
    (∃ (a : Nat) (s : State) (u : State) (h : Nat → List Word) (t : Nat) (k : Nat), s.rxOpen = true ∧ u = s.received 0
      (len8Of 3) ∧ 5 ≤ u.stage ∧ u.stage < 8 ∧ a % 4 = 0 ∧ a < 2 ^ 40 ∧ h = (fun cause => [toWord (0x12 + 65536 *
      (a / 2 ^ 32)), toWord a, toWord 1, toWord cause]) ∧ ((u.target a = .larder t ∧ k = t ∧ u.fld F.PWR_DOM_state
      (dLar + bankOf t) = 0) ∨ (u.target a = .pantry t ∧ k = panKey t)) ∧ (u.tile k).state ≠ .quarantined) ∧
    (∃ (a : Nat) (s : State) (u : State) (h : Nat → List Word) (t : Nat) (k : Nat), s.rxOpen = true ∧ u = s.received 0
      (len8Of 3) ∧ 5 ≤ u.stage ∧ u.stage < 8 ∧ a % 4 = 0 ∧ a < 2 ^ 40 ∧ h = (fun cause => [toWord (0x12 + 65536 *
      (a / 2 ^ 32)), toWord a, toWord 1, toWord cause]) ∧ ((u.target a = .larder t ∧ k = t ∧ u.fld F.PWR_DOM_state
      (dLar + bankOf t) = 0) ∨ (u.target a = .pantry t ∧ k = panKey t)) ∧ (u.tile k).state = .quarantined) ∧
    (∃ (a : Nat) (s : State) (u : State) (h : Nat → List Word), s.rxOpen = true ∧ u = s.received 0 (len8Of 3) ∧ 5 ≤
      u.stage ∧ u.stage < 8 ∧ a % 4 = 0 ∧ a < 2 ^ 40 ∧ h = (fun cause => [toWord (0x12 + 65536 * (a / 2 ^ 32)),
      toWord a, toWord 1, toWord cause]) ∧ u.target a = .remote) :=
  ⟨⟨0x800000 + 204800, 1, win, _, _, 200, by decide +kernel, by decide +kernel, by decide +kernel, by decide +kernel,
      by decide +kernel, rfl, by decide +kernel, by decide +kernel, rfl, by decide +kernel⟩,
    ⟨0x800000 + 204800, 1, win.setTile 200 { state := .quarantined }, _, _, 200, by decide +kernel, by decide +kernel,
      by decide +kernel, by decide +kernel, by decide +kernel, rfl, by decide +kernel, by decide +kernel, rfl,
      by decide +kernel⟩,
    ⟨0x800000 + 204800, 1, win, _, _, 200, by decide +kernel, by decide +kernel, by decide +kernel, by decide +kernel,
      by decide +kernel, rfl, by decide +kernel, by decide +kernel, rfl, by decide +kernel⟩,
    ⟨0x800000 + 204800, 1, win.setTile 200 { state := .quarantined }, _, _, 200, by decide +kernel, by decide +kernel,
      by decide +kernel, by decide +kernel, by decide +kernel, rfl, by decide +kernel, by decide +kernel, rfl,
      by decide +kernel⟩,
    ⟨0x800000 + 0, 1, (rdy.setFld F.MEM_PAN_STAT_state 0 2).setFld F.MEM_PAN_USABLE_tiles 0 8 |>.setFld
      F.SYS_CSPI_CFG_win_base 0 256, _, _, 0, by decide +kernel, by decide +kernel, by decide +kernel,
      by decide +kernel, by decide +kernel, rfl, by decide +kernel, rfl, by decide +kernel⟩,
    ⟨0x800000 + 0, 1, ((rdy.setFld F.MEM_PAN_STAT_state 0 2).setFld F.MEM_PAN_USABLE_tiles 0 8 |>.setFld
      F.SYS_CSPI_CFG_win_base 0 256).setTile (panKey 0) { state := .quarantined }, _, _, 0, by decide +kernel,
      by decide +kernel, by decide +kernel, by decide +kernel, by decide +kernel, rfl, by decide +kernel, rfl,
      by decide +kernel⟩,
    ⟨0x800000 + 0, 1, rdy.setFld F.SYS_CSPI_CFG_win_base 0 1024, _, 0, by decide +kernel, by decide +kernel,
      by decide +kernel, by decide +kernel, by decide +kernel, rfl, by decide +kernel⟩,
    ⟨0x100C8000, 1, lnk, _, _, 200, by decide +kernel, rfl, by decide +kernel, by decide +kernel, by decide +kernel,
      by decide +kernel, by decide +kernel, by decide +kernel, rfl, by decide +kernel⟩,
    ⟨0x100C8000, 1, lnk.setTile 200 { state := .sealed }, _, _, 200, by decide +kernel, rfl, by decide +kernel,
      by decide +kernel, by decide +kernel, by decide +kernel, by decide +kernel, by decide +kernel, rfl,
      by decide +kernel⟩,
    ⟨panBase, 1, (lnk.setFld F.MEM_PAN_STAT_state 0 2).setFld F.MEM_PAN_USABLE_tiles 0 8, _, _, 0, by decide +kernel,
      rfl, by decide +kernel, by decide +kernel, by decide +kernel, by decide +kernel, by decide +kernel, rfl⟩,
    ⟨remBase, 1, lnk, _, 0, by decide +kernel, rfl, by decide +kernel, by decide +kernel, by decide +kernel,
      by decide +kernel, by decide +kernel⟩,
    ⟨0x100C8000, lnk, _, _, 200, 200, by decide +kernel, rfl, by decide +kernel, by decide +kernel, by decide +kernel,
      by decide +kernel, rfl, (Or.inl (by decide +kernel)), by decide +kernel⟩,
    ⟨0x100C8000, lnk.setTile 200 { state := .quarantined }, _, _, 200, 200, by decide +kernel, rfl, by decide +kernel,
      by decide +kernel, by decide +kernel, by decide +kernel, rfl, (Or.inl (by decide +kernel)),
      by decide +kernel⟩,
    ⟨remBase, lnk, _, _, by decide +kernel, rfl, by decide +kernel, by decide +kernel, by decide +kernel,
      by decide +kernel, rfl, by decide +kernel⟩⟩

/-- Meets the hypotheses of RefusedCommandsChangeNothing, clause by clause. -/
theorem witness_RefusedCommandsChangeNothing :
    (∃ (i : Instr) (c : CmdSpec) (q : Req) (s : State) (e : Nat), requestOf i = some (c, q) ∧ s.served c = false ∧ e =
      stNotReady) ∧
    (∃ (i : Instr) (c : CmdSpec) (q : Req) (s : State) (e : Nat), requestOf i = some (c, q) ∧ s.served c = true ∧
      (q.args.length < c.minLen ∨ c.maxLen < q.args.length) ∧ e = stBadArg) ∧
    (∃ (i : Instr) (c : CmdSpec) (q : Req) (s : State) (e : Nat), requestOf i = some (c, q) ∧ s.served c = true ∧
      c.minLen ≤ q.args.length ∧ q.args.length ≤ c.maxLen ∧ reservedOk c.masks q.args = false ∧ e = stBadArg) ∧
    (∃ (i : Instr) (c : CmdSpec) (q : Req) (s : State) (e : Nat), requestOf i = some (c, q) ∧ s.served c = true ∧
      c.minLen ≤ q.args.length ∧ q.args.length ≤ c.maxLen ∧ reservedOk c.masks q.args = true ∧ c.radio = true ∧
      s.s3Running = true ∧ e = stFault) ∧
    (∃ (i : Instr) (c : CmdSpec) (q : Req) (s : State) (e : Nat), requestOf i = some (c, q) ∧ s.served c = true ∧
      c.minLen ≤ q.args.length ∧ q.args.length ≤ c.maxLen ∧ reservedOk c.masks q.args = true ∧ (∃ u ∈ c.units q,
      s.underRecovery u.1 u.2 = true) ∧ e = stFault) :=
  ⟨⟨.sysStateGet (req []), _, _, State.reset, _, (rfl), by decide +kernel, rfl⟩,
    ⟨.sysStateGet (req [1]), _, _, rdy, _, (rfl), by decide +kernel, by decide +kernel, rfl⟩,
    ⟨.loTune (req [0xFF000001, 900000000, 0, 0, 0]), _, _, rdy, _, (rfl), by decide +kernel, by decide +kernel,
      by decide +kernel, by decide +kernel, rfl⟩,
    ⟨.loTune (req [0x001, 900000000, 0, 0, 0]), _, _,
      { rdy with flt := { rdy.flt with running := some ⟨0x0303, 0, 3, 0, 0⟩ } }, _, (rfl), by decide +kernel,
      by decide +kernel, by decide +kernel, by decide +kernel, by decide +kernel, by decide +kernel, rfl⟩,
    ⟨.loTune (req [0x001, 900000000, 0, 0, 0]), _, _,
      { rdy with flt := { rdy.flt with running := some ⟨0x0203, 0, 2, 0, 0⟩ } }, _, (rfl), by decide +kernel,
      by decide +kernel, by decide +kernel, by decide +kernel, (⟨(0x0203, 0), by decide, by decide⟩), rfl⟩⟩

/-- Meets the hypotheses of ResetsKeepTheFaultLog, clause by clause. -/
theorem witness_ResetsKeepTheFaultLog :
    (∃ (s : State), s.sys.resetN = true) ∧
    (∃ (s : State) (n : Nat), s.sys.resetN = true ∧ s.sys.held = false ∧ n = s.fld F.FLT_LOG_WR_wr) :=
  ⟨⟨rdy, by decide +kernel⟩,
    ⟨rdy, _, by decide +kernel, by decide +kernel, rfl⟩⟩

/-- Meets the hypotheses of ResetFloatsEveryOutput, clause by clause. -/
theorem witness_ResetFloatsEveryOutput :
    (∃ (r : Nat) (c : Nat) (s : State), r < 8 ∧ s.sys.resetN = true ∧ s.sys.held = false) ∧
    (∃ (s : State), s.sys.resetN = true ∧ s.sys.held = false) ∧
    (∃ (n : Nat) (src : Nat) (ref : Bool), n < 8 ∧ src < 4) :=
  ⟨⟨0, 0, rdy, by decide +kernel, by decide +kernel, by decide +kernel⟩,
    ⟨rdy, by decide +kernel, by decide +kernel⟩,
    ⟨7, 3, true, by decide +kernel, by decide +kernel⟩⟩

/-- Meets the hypotheses of SampleArithmeticRoundsExactly, clause by clause. -/
theorem witness_SampleArithmeticRoundsExactly :
    (∃ (a : Int) (b : Nat), 0 < b ∧ 2 * (a - b * divHalfEven a b).natAbs = b) ∧
    (∃ (all : Nat) (kept : Nat), 0 < kept ∧ 4 * kept < all) ∧
    (∃ (all : Nat) (kept : Nat), 0 < kept ∧ kept ≤ all ∧ all ≤ 4 * kept) ∧
    (∃ (acc : Int) (r : Nat) (s : Nat) (v : Int), v = divHalfEven (acc * r) (2 ^ (27 + s))) ∧
    (∃ (acc : Int) (t : Nat) (v : Int), v = divHalfEven acc (2 ^ (15 + t))) ∧
    (∃ (f : Nat) (k : Nat) (old : Int) (new : Int), 1 ≤ f) :=
  ⟨⟨1, 2, by decide +kernel, by decide +kernel⟩,
    ⟨5, 1, by decide +kernel, by decide +kernel⟩,
    ⟨4, 4, by decide +kernel, by decide +kernel, by decide +kernel⟩,
    ⟨1, 1, 0, _, rfl⟩,
    ⟨1, 0, _, rfl⟩,
    ⟨1, 0, 0, 0, by decide +kernel⟩⟩

end Sys2Proof.Tests
end

section
/-! PROOFS. The statements of the spec's scope: what every command keeps, the reset values, and the field types. -/

namespace Sys2Proof.Machine
open Host

/-! ### What every command keeps -/

/-- The dispatch: every command answers a next state and keeps the canonical form and the queue (the law of its own
meaning, row by row of the table). -/
theorem exec_holds {W : Bool × List Instr} {s : State} (c : Instr) (h : s.Holds W) : OutHolds W (exec c s) := by
  cases c with
  | versionGet => exact execVersionGet_holds h
  | sysStateGet => exact execSysStateGet_holds h
  | modeSet => exact execModeSet_holds h
  | modeCancel => exact execModeCancel_holds h
  | modeCfgSet => exact execModeCfgSet_holds h
  | evtRingSet => exact execEvtRingSet_holds h
  | resClaim => exact execResClaim_holds h
  | resRelease => exact execResRelease_holds h
  | resQuery => exact execResQuery_holds h
  | trvState => exact execTrvState_holds h
  | trvFaultLog => exact execTrvFaultLog_holds h
  | trvBootExec => exact execTrvBootExec_holds h
  | trvMgmtReset => exact execTrvMgmtReset_holds h
  | trvDeviceReset => exact execTrvDeviceReset_holds h
  | loTune => exact execLoTune_holds h
  | radioCfgSet => exact execRadioCfgSet_holds h
  | radioStateGet => exact execRadioStateGet_holds h
  | radioSideSet => exact execRadioSideSet_holds h
  | rxGainSet => exact execRxGainSet_holds h
  | rffeXfer => exact execRffeXfer_holds h
  | rffeSeqLoad => exact execRffeSeqLoad_holds h
  | rffeSeqArm => exact execRffeSeqArm_holds h
  | sieveCfgSet => exact execSieveCfgSet_holds h
  | sieveFirLoad => exact execSieveFirLoad_holds h
  | sieveFirSwap => exact execSieveFirSwap_holds h
  | sieveFirRead => exact execSieveFirRead_holds h
  | coexCfgSet => exact execCoexCfgSet_holds h
  | coexStatGet => exact execCoexStatGet_holds h
  | clkCfgSet => exact execClkCfgSet_holds h
  | clkStatGet => exact execClkStatGet_holds h
  | clkResume => exact execClkResume_holds h
  | beamCfgSet => exact execBeamCfgSet_holds h
  | beamWeightLoad => exact execBeamWeightLoad_holds h
  | beamSwap => exact execBeamSwap_holds h
  | beamWeightRead => exact execBeamWeightRead_holds h
  | txbCfgSet => exact execTxbCfgSet_holds h
  | txbLinkTcSet => exact execTxbLinkTcSet_holds h
  | profileLoad => exact execProfileLoad_holds h
  | codeLoad => exact execCodeLoad_holds h
  | profileEnable => exact execProfileEnable_holds h
  | detThrSet => exact execDetThrSet_holds h
  | tongsPolicySet => exact execTongsPolicySet_holds h
  | tongsPolicyGet => exact execTongsPolicyGet_holds h
  | placeLogSet => exact execPlaceLogSet_holds h
  | ctxRead => exact execCtxRead_holds h
  | ctxSummary => exact execCtxSummary_holds h
  | bgLoad => exact execBgLoad_holds h
  | decCfgSet => exact execDecCfgSet_holds h
  | backlogCfgSet => exact execBacklogCfgSet_holds h
  | backlogStat => exact execBacklogStat_holds h
  | paCfgSet => exact execPaCfgSet_holds h
  | paSeq => exact execPaSeq_holds h
  | paBiasStrobe => exact execPaBiasStrobe_holds h
  | ackCfgSet => exact execAckCfgSet_holds h
  | ackStat => exact execAckStat_holds h
  | dpdCfgSet => exact execDpdCfgSet_holds h
  | dpdCoefLoad => exact execDpdCoefLoad_holds h
  | dpdCoefRead => exact execDpdCoefRead_holds h
  | dpdReset => exact execDpdReset_holds h
  | orxCapture => exact execOrxCapture_holds h
  | dpdStatGet => exact execDpdStatGet_holds h
  | calRun => exact execCalRun_holds h
  | calCfgSet => exact execCalCfgSet_holds h
  | calStatGet => exact execCalStatGet_holds h
  | calRestore => exact execCalRestore_holds h
  | calNetLoad => exact execCalNetLoad_holds h
  | calResultRead => exact execCalResultRead_holds h
  | linkCfgSet => exact execLinkCfgSet_holds h
  | linkStateGet => exact execLinkStateGet_holds h
  | linkRetrain => exact execLinkRetrain_holds h
  | linkLoopSet => exact execLinkLoopSet_holds h
  | frameContentSet => exact execFrameContentSet_holds h
  | frameStatGet => exact execFrameStatGet_holds h
  | timeCfgSet => exact execTimeCfgSet_holds h
  | timeStep => exact execTimeStep_holds h
  | timeGet => exact execTimeGet_holds h
  | tcArm => exact execTcArm_holds h
  | tcDisarm => exact execTcDisarm_holds h
  | tileSeal => exact execTileSeal_holds h
  | tileOpen => exact execTileOpen_holds h
  | tileVerify => exact execTileVerify_holds h
  | memStat => exact execMemStat_holds h
  | quarList => exact execQuarList_holds h
  | quarRetest => exact execQuarRetest_holds h
  | dmaCfgSet => exact execDmaCfgSet_holds h
  | pwrDomainSet => exact execPwrDomainSet_holds h
  | pwrOpSet => exact execPwrOpSet_holds h
  | pwrStatGet => exact execPwrStatGet_holds h
  | vmonCfgSet => exact execVmonCfgSet_holds h
  | faultStatGet => exact execFaultStatGet_holds h
  | faultInject => exact execFaultInject_holds h
  | cspiWrite => exact execCspiWrite_holds h
  | cspiRead => exact execCspiRead_holds h
  | cspiStatus => exact execCspiStatus_holds h
  | cspiUnknownOpcode => exact execCspiUnknownOpcode_holds h
  | regWr => exact execRegWr_holds h
  | regRd => exact execRegRd_holds h
  | mbxReq => exact execMbxReq_holds h
  | regRdRsp => exact execRegRdRsp_holds h
  | registerWrite => exact execRegisterWrite_holds h
  | rcRegisterRead => exact execRcRegisterRead_holds h
  | timeNsRead => exact execTimeNsRead_holds h
  | mailboxRing => exact execMailboxRing_holds h
  | mailboxAck port => exact execMailboxAck_holds (x1 := port) h
  | beamSelWrite => exact execBeamSelWrite_holds h
  | tcCtlWrite => exact execTcCtlWrite_holds h
  | tsOffsetWrite => exact execTsOffsetWrite_holds h
  | dmaChCtlWrite => exact execDmaChCtlWrite_holds h
  | auxSeqCtlWrite => exact execAuxSeqCtlWrite_holds h
  | watchdogKick => exact execWatchdogKick_holds h
  | commandTake => exact execCommandTake_holds h
  | commandFinish => exact execCommandFinish_holds h
  | rateLimitWindowEnd => exact execRateLimitWindowEnd_holds h
  | powerOnReset => exact execPowerOnReset_holds h
  | resetNRise => exact execResetNRise_holds h
  | supplyCheckEnd => exact execSupplyCheckEnd_holds h
  | hoscReady => exact execHoscReady_holds h
  | imageLoadDone => exact execImageLoadDone_holds h
  | imageVerifyDone => exact execImageVerifyDone_holds h
  | calibratingEntry => exact execCalibratingEntry_holds h
  | startupCalStepDone => exact execStartupCalStepDone_holds h
  | clkNoRefTick => exact execClkNoRefTick_holds h
  | resetNAssert => exact execResetNAssert_holds h
  | deviceResetRelease => exact execDeviceResetRelease_holds h
  | refclkActivityLoss => exact execRefclkActivityLoss_holds h
  | clockMonitorWindow => exact execClockMonitorWindow_holds h
  | refOkRestored => exact execRefOkRestored_holds h
  | clockResumeDone => exact execClockResumeDone_holds h
  | hoscStop => exact execHoscStop_holds h
  | spllLockLoss => exact execSpllLockLoss_holds h
  | spllRelock => exact execSpllRelock_holds h
  | paceMonitorRefresh => exact execPaceMonitorRefresh_holds h
  | gateHandshakeTimeout => exact execGateHandshakeTimeout_holds h
  | loLockLoss => exact execLoLockLoss_holds h
  | loLock => exact execLoLock_holds h
  | operatingPointStep => exact execOperatingPointStep_holds h
  | colDividerRampStep => exact execColDividerRampStep_holds h
  | timeNsWrap => exact execTimeNsWrap_holds h
  | ppsEdge => exact execPpsEdge_holds h
  | ppsLossTimeout => exact execPpsLossTimeout_holds h
  | timeMarkSend => exact execTimeMarkSend_holds h
  | timeMarkReceived => exact execTimeMarkReceived_holds h
  | markInfoReceived => exact execMarkInfoReceived_holds h
  | tcFire => exact execTcFire_holds h
  | preparationDeadline => exact execPreparationDeadline_holds h
  | modePrepStart => exact execModePrepStart_holds h
  | modeDrainEnd => exact execModeDrainEnd_holds h
  | forcedModeChange => exact execForcedModeChange_holds h
  | sentinelDwellBoundary => exact execSentinelDwellBoundary_holds h
  | sentinelRunRestart => exact execSentinelRunRestart_holds h
  | sentinelPrewake => exact execSentinelPrewake_holds h
  | overloadStart => exact execOverloadStart_holds h
  | loopFilterRelease => exact execLoopFilterRelease_holds h
  | overloadEnd => exact execOverloadEnd_holds h
  | disturbanceWindowClose => exact execDisturbanceWindowClose_holds h
  | noiseFloorBlock _ clean => exact execNoiseFloorBlock_holds (x1 := clean) h
  | noiseFloorStale => exact execNoiseFloorStale_holds h
  | beamMeterBlock => exact execBeamMeterBlock_holds h
  | rffeTransactionDone => exact execRffeTransactionDone_holds h
  | sieveFadeEnd => exact execSieveFadeEnd_holds h
  | rxFifoOverflow => exact execRxFifoOverflow_holds h
  | txFifoEmpty => exact execTxFifoEmpty_holds h
  | burstAirEnd => exact execBurstAirEnd_holds h
  | paOnStart => exact execPaOnStart_holds h
  | paOffStart => exact execPaOffStart_holds h
  | paDelayExpiry => exact execPaDelayExpiry_holds h
  | biasSlewTick => exact execBiasSlewTick_holds h
  | biasCurrentLimitHold => exact execBiasCurrentLimitHold_holds h
  | dacQueueUnderflow => exact execDacQueueUnderflow_holds h
  | dacQueueRefilled => exact execDacQueueRefilled_holds h
  | loOffsetMove => exact execLoOffsetMove_holds h
  | burstHoldPoint => exact execBurstHoldPoint_holds h
  | coexGntRise => exact execCoexGntRise_holds h
  | burstHoldExpiry => exact execBurstHoldExpiry_holds h
  | coexGntFall => exact execCoexGntFall_holds h
  | burstWake => exact execBurstWake_holds h
  | txReturnCheck => exact execTxReturnCheck_holds h
  | sideTransitionDone => exact execSideTransitionDone_holds h
  | dpdApplyStep => exact execDpdApplyStep_holds h
  | adaptCaptureStart => exact execAdaptCaptureStart_holds h
  | orxCaptureEnd => exact execOrxCaptureEnd_holds h
  | dpdFitStart => exact execDpdFitStart_holds h
  | dpdFitStale => exact execDpdFitStale_holds h
  | dpdFitDone => exact execDpdFitDone_holds h
  | detection => exact execDetection_holds h
  | preambleTrainingDone _ t => exact execPreambleTrainingDone_holds (x1 := t) h
  | syncMatch _ errs tSync frac t => exact execSyncMatch_holds (x1 := errs) (x2 := tSync) (x3 := frac) (x4 := t) h
  | syncWindowEnd => exact execSyncWindowEnd_holds h
  | captureCheckEnd _ mean => exact execCaptureCheckEnd_holds (x1 := mean) h
  | headerComplete _ llr t => exact execHeaderComplete_holds (x1 := llr) (x2 := t) h
  | lockLost _ mean freq => exact execLockLost_holds (x1 := mean) (x2 := freq) h
  | lastPayloadSymbol _ llr t => exact execLastPayloadSymbol_holds (x1 := llr) (x2 := t) h
  | ldpcContextStart => exact execLdpcContextStart_holds h
  | ldpcBlockEnd => exact execLdpcBlockEnd_holds h
  | ldpcBlockOverrun => exact execLdpcBlockOverrun_holds h
  | decodingEnd => exact execDecodingEnd_holds h
  | sicRetryStart => exact execSicRetryStart_holds h
  | retentionExpiry => exact execRetentionExpiry_holds h
  | recordCommitted => exact execRecordCommitted_holds h
  | backlogSealTimeout => exact execBacklogSealTimeout_holds h
  | frameStart => exact execFrameStart_holds h
  | frameSent => exact execFrameSent_holds h
  | creditFrame => exact execCreditFrame_holds h
  | burstFrame => exact execBurstFrame_holds h
  | burstSampleFrame => exact execBurstSampleFrame_holds h
  | creditGrantTimer => exact execCreditGrantTimer_holds h
  | eventFrameClose => exact execEventFrameClose_holds h
  | iqFrameFormed => exact execIqFrameFormed_holds h
  | degradeMeasureWindow rate => exact execDegradeMeasureWindow_holds (x1 := rate) h
  | laneSignalDetect => exact execLaneSignalDetect_holds h
  | blockLockGain => exact execBlockLockGain_holds h
  | blockLockLoss => exact execBlockLockLoss_holds h
  | amRowReceived => exact execAmRowReceived_holds h
  | amLockLoss => exact execAmLockLoss_holds h
  | amRowSend => exact execAmRowSend_holds h
  | helloSend => exact execHelloSend_holds h
  | helloRowReceived => exact execHelloRowReceived_holds h
  | lstatReceived => exact execLstatReceived_holds h
  | bondRowReceived => exact execBondRowReceived_holds h
  | fillerRowReceived => exact execFillerRowReceived_holds h
  | fillerRowSend => exact execFillerRowSend_holds h
  | trainingTimeout => exact execTrainingTimeout_holds h
  | helloSilence => exact execHelloSilence_holds h
  | backoffEnd => exact execBackoffEnd_holds h
  | fallbackExpiry => exact execFallbackExpiry_holds h
  | laneRetrainRestart => exact execLaneRetrainRestart_holds h
  | lnkRefclkLoss => exact execLnkRefclkLoss_holds h
  | deferredLinkChange => exact execDeferredLinkChange_holds h
  | pantryTrainingDone => exact execPantryTrainingDone_holds h
  | dqsRetrain => exact execDqsRetrain_holds h
  | descriptorFetched => exact execDescriptorFetched_holds h
  | descriptorComplete => exact execDescriptorComplete_holds h
  | dmaResponseTimeout => exact execDmaResponseTimeout_holds h
  | auxConversionDone => exact execAuxConversionDone_holds h
  | auxPacedSweep => exact execAuxPacedSweep_holds h
  | calEntry => exact execCalEntry_holds h
  | calEntryTimeout => exact execCalEntryTimeout_holds h
  | calRunEnd => exact execCalRunEnd_holds h
  | kettleCheck => exact execKettleCheck_holds h
  | kettleSetEnd => exact execKettleSetEnd_holds h
  | phaseTrackingRound => exact execPhaseTrackingRound_holds h
  | correctionStep => exact execCorrectionStep_holds h
  | domainBlockAnswer => exact execDomainBlockAnswer_holds h
  | domainAnswerTimeout => exact execDomainAnswerTimeout_holds h
  | domainTransitionDone => exact execDomainTransitionDone_holds h
  | mgmtWait => exact execMgmtWait_holds h
  | skilletWait => exact execSkilletWait_holds h
  | headerSag => exact execHeaderSag_holds h
  | vmonWarnCrossing => exact execVmonWarnCrossing_holds h
  | vmonWarnRecovery => exact execVmonWarnRecovery_holds h
  | vmonRstCrossing => exact execVmonRstCrossing_holds h
  | temperatureRead => exact execTemperatureRead_holds h
  | thermHoldClear => exact execThermHoldClear_holds h
  | skilletParityError => exact execSkilletParityError_holds h
  | mgmtException => exact execMgmtException_holds h
  | watchdogExpiry => exact execWatchdogExpiry_holds h
  | mgmtResumeDone => exact execMgmtResumeDone_holds h
  | recoveryEnd => exact execRecoveryEnd_holds h
  | headerGoodFlagReturn => exact execHeaderGoodFlagReturn_holds h
  | lnkRefclkRestored => exact execLnkRefclkRestored_holds h
  | frameDiscard => exact execFrameDiscard_holds h
  | retentionTileAllocation => exact execRetentionTileAllocation_holds h
  | burstPathSumStart => exact execBurstPathSumStart_holds h
  | unneededDomainEntry => exact execUnneededDomainEntry_holds h
  | txbOpfRaise => exact execTxbOpfRaise_holds h
  | blockLockHeld => exact execBlockLockHeld_holds h
  | deferredTrivetReset => exact execDeferredTrivetReset_holds h
  | pathSumSaturation => exact execPathSumSaturation_holds h
  | actuatorSaturation _ xs => exact execActuatorSaturation_holds (x1 := xs) h

theorem OutHolds.exists_next {W : Bool × List Instr} {o : Outcome State Fault Refusal} (h : OutHolds W o) :
    ∃ t, o = .next t ∧ t.Holds W := by
  cases o with
  | next t => exact ⟨t, rfl, h⟩
  | fault _ => exact h.elim
  | refused _ => exact h.elim

/-- The canonical form and the queue, as the one predicate that the laws of every meaning are stated in. -/
theorem State.holds_of_canonical {s : State} (h : s.canonical) : s.Holds (true, s.pending) :=
  ⟨fun _ => h.1, fun _ => h.2, rfl⟩

theorem State.Holds.canonical {s : State} {l : List Instr} (h : s.Holds (true, l)) : s.canonical := by
  obtain ⟨hregs, hbytes, -⟩ := h
  exact ⟨hregs rfl, hbytes rfl⟩

/-- Of any state, canonical or not, the queue alone. -/
theorem State.holds_pending (s : State) : s.Holds (false, s.pending) := ⟨nofun, nofun, rfl⟩

theorem exec_next (c : Instr) (s : State) : ∃ t, exec c s = .next t ∧ t.pending = s.pending := by
  obtain ⟨t, e, -, -, hq⟩ := (exec_holds c s.holds_pending).exists_next
  exact ⟨t, e, hq⟩

theorem exec_canonical {c : Instr} {s t : State} (h : s.canonical) (e : exec c s = .next t) : t.canonical := by
  obtain ⟨t', e', h'⟩ := (exec_holds c (State.holds_of_canonical h)).exists_next
  cases e.symm.trans e'
  exact h'.canonical

theorem State.tick_canonical {s : State} (h : s.canonical) : s.tick.canonical :=
  (State.tick_holds (State.holds_of_canonical h)).canonical

/-- Settles O39: the reset state lists nothing. -/
theorem resetIsCanonical : Obligations.ResetIsCanonical := ⟨⟨rfl, rfl⟩, rfl⟩

/-- Settles O40, by the two kinds of step: an advance of the counter, or the front command on the rest of the queue. -/
theorem stepsKeepTheCanonicalForm : Obligations.StepsKeepTheCanonicalForm := by
  intro s t h e
  unfold step at e
  split at e
  next =>
    cases e
    exact State.tick_canonical h
  next c l _ => exact exec_canonical (s := { s with pending := l }) h e

/-- Settles O41: no row's meaning faults or refuses. That a row whose precondition fails is a next state is the model's
choice (log entries 10 and 128). -/
theorem everyCommandCompletes : Obligations.EveryCommandCompletes := by
  intro c s
  obtain ⟨t, e, -⟩ := exec_next c s
  exact ⟨t, e⟩

/-- Settles O42: no row's meaning writes the queue. That one queue stands for the commands still outside, and is kept across
resets, is the model's choice (log entries 24 and 79). -/
theorem commandsLeaveTheQueue : Obligations.CommandsLeaveTheQueue := by
  intro c s t e
  obtain ⟨t', e', hq⟩ := exec_next c s
  cases e.symm.trans e'
  exact hq

/-! ### Reset values (R13) -/

/-- The word that the Reset column of a register's table spells. -/
def RegName.tableWord (r : RegName) : Word := r.fields.foldl (fun w f => w ||| toWord (f.reset <<< f.lo)) 0

/-- Beside the grade's identity, the factory's trim and the synthesisers' seeds, a register resets to its table's word
in every copy. -/
theorem RegName.resetValue_eq_tableWord {r : RegName} (i : Nat) (h1 : r ≠ .SYS_ID) (h2 : r ≠ .HOSC_TRIM)
    (h3 : r ≠ .WHISK_SEED) : r.resetValue i = r.tableWord := by
  unfold RegName.resetValue
  split
  · exact absurd rfl h1
  · exact absurd rfl h2
  · exact absurd rfl h3
  · rfl

theorem RegName.tableWord_field (r : RegName) :
    ∀ f ∈ r.fields, bits r.tableWord (f.lo + f.width - 1) f.lo = f.reset := by
  cases r <;> decide

theorem RegName.tableWord_gap (r : RegName) :
    ∀ n < 32, (∀ f ∈ r.fields, n < f.lo ∨ f.lo + f.width ≤ n) → r.tableWord.getLsbD n = false := by
  cases r <;> decide

/-- Settles O44: a register at reset reads its reset value, which is its table's word or one of the named three. -/
theorem resetRegistersHoldTheirTables : Obligations.ResetRegistersHoldTheirTables := by
  refine ⟨fun r i h1 h2 h3 => ?_, fun i => State.reg_reset .SYS_ID i, fun k => State.reg_reset .WHISK_SEED k⟩
  rw [State.reg_reset, RegName.resetValue_eq_tableWord i h1 h2 h3]
  exact ⟨r.tableWord_field, r.tableWord_gap⟩

/-! ### Field types (R12, R14) -/

/-- What a write leaves in bit n: the RW mask takes v's bit, the W1C mask clears, the W1S mask sets. -/
theorem RegName.written_bit (r : RegName) (w v : Word) (n : Nat) :
    (r.written w v).getLsbD n =
      (((w.getLsbD n && !(r.maskOf .rw).getLsbD n || v.getLsbD n && (r.maskOf .rw).getLsbD n) &&
        !(v.getLsbD n && (r.maskOf .w1c).getLsbD n)) || v.getLsbD n && (r.maskOf .w1s).getLsbD n) := by
  by_cases hn : n < 32
  · simp [RegName.written, hn]
  · simp [BitVec.getLsbD_of_ge _ n (Nat.not_lt.1 hn)]

theorem RegName.readable_bit (r : RegName) (w : Word) (n : Nat) :
    (r.readable w).getLsbD n = (w.getLsbD n && !(r.maskOf .wo).getLsbD n) := by
  by_cases hn : n < 32
  · simp [RegName.readable, hn]
  · simp [BitVec.getLsbD_of_ge _ n (Nat.not_lt.1 hn)]

theorem RegName.cleared_bit (r : RegName) (w : Word) (n : Nat) :
    (r.cleared w).getLsbD n = (w.getLsbD n && !(r.maskOf .rc).getLsbD n) := by
  by_cases hn : n < 32
  · simp [RegName.cleared, hn]
  · simp [BitVec.getLsbD_of_ge _ n (Nat.not_lt.1 hn)]

/-- Settles O45: a field's bits lie in its own type's mask alone, and a bit in no field lies in none. -/
theorem fieldTypesGovernEachBit : Obligations.FieldTypesGovernEachBit := by
  refine ⟨fun r f n w v hf hlo hhi => ?_, fun r n w v hgap => ?_⟩
  · rw [RegName.written_bit, RegName.readable_bit, RegName.cleared_bit]
    have hmask := fun k => r.maskOf_field k n hf hlo hhi
    cases hk : f.kind <;> simp [hmask, hk]
  · have hmask := fun k => r.maskOf_gap k n hgap
    simp [RegName.written_bit, RegName.cleared_bit, hmask]

end Sys2Proof.Machine
end

section
/-! PROOFS. The mode rows: the preparation and the end of a mode change, forced changes to HOLD, SENTINEL's dwells, and
sample loss. Each law takes what its row acts on by hypothesis and gives the one next state. -/

namespace Sys2Proof.Machine

open Host

/-! ### A mode change before and after T (R52, R58) -/

theorem execModePrepStart_of_unprepared {s : State} {p : PendMode} (hpend : s.mode.pend = some p)
    (hprep : p.prepared = false) {u : State} (hu : u = (s.elapseTo (tAdd p.at_ (-(msec p.lead : Nat)))).prepareMode p) :
    execModePrepStart s = .next { u with mode := { u.mode with pend := some { p with prepared := true } } } := by
  subst hu
  simp [execModePrepStart, hpend, hprep]

theorem execUnneededDomainEntry_of_find {s : State} {d : DrainMode} (hd : (s.mode.drains.find? fun d => !d.entered) = some d)
    {u v : State} (hu : u = s.elapseTo (tAdd d.t 100000))
    (hv : v = (u.unneeded.filter fun x => decide (u.domState x = 0) && !u.domBusy x).foldl
      (fun s x => s.askGroup none 1 [x]) u) :
    execUnneededDomainEntry s = .next { v with
      mode := { v.mode with drains := v.mode.drains.map fun e => if e = d then { e with entered := !v.txbHeld } else e } } := by
  subst hu hv
  simp only [execUnneededDomainEntry, hd]

/-- The drain point drops the change, and reports MODE_DONE of any change but a forced one. -/
theorem execModeDrainEnd_of_find {s : State} {d : DrainMode} (hd : s.mode.drains.find? s.modeDrained = some d) {w : State}
    (hw : w = { s with mode := { s.mode with drains := s.mode.drains.erase d } }) :
    execModeDrainEnd s = .next (if d.forced then w else w.postAt d.t 0x0106 clsDone
      (toWord (d.target + 16 * d.step + 2 ^ 12 * satN 20 ((s.now - d.t).toNat / 1000))) (some d.cmd)) := by
  subst hw
  simp only [execModeDrainEnd, hd]
  split <;> rfl

/-! ### Forced changes to HOLD (R29, R53) -/

/-- With no change pending and outside HOLD, HOLD applies at t and MODE_FORCED is posted, then MODE_DEGRADED after a
Pantry failure (cause 1). -/
theorem execForcedModeChange_outside_hold {s u w v : State} {c : Nat} {t : T48} (hforced : s.mode.forced = some (c, t))
    (hu : u = s.elapseTo t) (hw : w = { u with mode := { u.mode with forced := none } }) (hpend : w.mode.pend = none)
    (hmode : w.modeNo ≠ mHold)
    (hv : v = ((w.applyMode t (w.holdChange t) false).drainFrom t mHold ⟨0, 0⟩ true).postAt t 0x0109 clsWarn
      (toWord (c + 16 * w.modeNo))) :
    execForcedModeChange s =
      .next (if c = 1 then v.post 0x0105 clsWarn (toWord (2 + 2 ^ 12 * w.modeNo)) else v) := by
  subst hu hw hv
  have hnone : (s.elapseTo t).mode.pend = none := hpend
  simp only [execForcedModeChange, hforced, hnone]
  exact if_neg hmode

/-! ### SENTINEL (R39, R40) -/

section
variable {s u : State} (hmode : s.modeNo = mSentinel)
include hmode

theorem execSentinelDwellBoundary_of_running (hrun : s.mode.paused = false) (hu : u = s.elapseTo s.dwellEnd) :
    execSentinelDwellBoundary s =
      .next ({ u with mode := { u.mode with dwellNo := u.mode.dwellNo + 1 } } : State).rotate := by
  subst hu
  exact if_pos ⟨hmode, hrun⟩

theorem execSentinelRunRestart_of_paused (hpaused : s.mode.paused = true) (hfree : s.openCtxs = [])
    (hu : u = s.elapseTo (nextMs s.now)) :
    execSentinelRunRestart s =
      .next ({ u with mode := { u.mode with ts := nextMs s.now, dwellNo := 0 } } : State).rotate := by
  subst hu
  exact if_pos ⟨hmode, hpaused, hfree⟩

theorem execSentinelPrewake_of_running (hrun : s.mode.paused = false) (hu : u = s.elapseTo (tAdd s.dwellEnd (-100000))) :
    execSentinelPrewake s = .next ((u.wakeDomain (dOrx u.nextAwake)).wakeSide (2 * u.nextAwake)) := by
  subst hu
  exact if_pos ⟨hmode, hrun⟩

end

/-! ### Sample loss (R27) -/

theorem execRxFifoOverflow_of_lt {s u : State} {f : Nat} (n : Nat) (hf : f < 128)
    (hu : u = (s.abortWhere cSampleLoss fun x => x.state.live && !x.retry && x.beams.any fun b =>
      if f < 64 then decide (b = f) else (s.beamPaths b).contains (f - 64)).setFld F.SYS_MODE_sample_loss 0 1) :
    execRxFifoOverflow f n s =
      .next ((u.post 0x0213 clsWarn (toWord (f + 256 * satN 16 n))).raiseFault 0x0402 f) := by
  subst hu
  exact if_pos hf

/-- Settles O27, by the law of each row. Which domains are asked and where the drain point lies, when a pause ends, and what
a forced change to HOLD posts rest in part on the model's readings (log entries 112, 115 and 116). -/
theorem modeRowsComplete : Obligations.ModeRowsComplete := by
  refine ⟨fun s p u hpend hprep hu => execModePrepStart_of_unprepared hpend hprep hu,
    fun s d u v hd hu hv => execUnneededDomainEntry_of_find hd hu hv,
    fun s d hd hforced => ?doneForced, fun s d hd hforced => ?doneAsked,
    fun s c t u w v hforced hu hw hpend hmode hv => ?forced,
    fun s u hmode hrun hu => execSentinelDwellBoundary_of_running hmode hrun hu,
    fun s u hmode hpaused hfree hu => execSentinelRunRestart_of_paused hmode hpaused hfree hu,
    fun s u hmode hrun hu => execSentinelPrewake_of_running hmode hrun hu,
    fun f n s u hf hu => execRxFifoOverflow_of_lt n hf hu⟩
  case doneForced => exact (execModeDrainEnd_of_find hd rfl).trans (by rw [if_pos hforced])
  case doneAsked => exact (execModeDrainEnd_of_find hd rfl).trans (by rw [hforced]; rfl)
  case forced =>
    have hstep : exec .forcedModeChange s = _ := execForcedModeChange_outside_hold hforced hu hw hpend hmode hv
    exact ⟨fun hc => hstep.trans (by rw [if_neg hc]), fun hc => hstep.trans (by rw [if_pos hc])⟩

end Sys2Proof.Machine
end

section
/-! PROOFS. Chapter 02, registers through a port: access errors, claims, selections and the targets of a write. -/

namespace Sys2Proof.Machine

open Host

/-! ### Fields of words -/

/-- A field of a word that spells a number. -/
theorem bits_toWord (n hi lo : Nat) : bits (toWord n) hi lo = n % 2 ^ 32 / 2 ^ lo % 2 ^ (hi + 1 - lo) := by
  rw [bits, toWord, BitVec.toNat_ofNat, Nat.shiftRight_eq_div_pow]

/-- A one-bit field is its bit. -/
theorem bits_single (w : Word) (n : Nat) : bits w n n = (bitAt w n).toNat := by
  have e : n + 1 - n = 1 := by omega
  rw [bits, bitAt, e, BitVec.getLsbD, Nat.toNat_testBit, Nat.shiftRight_eq_div_pow, pow_one]

/-- Words that agree on a field's bits agree on the field. -/
theorem bits_congr {w w' : Word} {lo width : Nat} (hw : 0 < width)
    (h : ∀ n, lo ≤ n → n < lo + width → w.getLsbD n = w'.getLsbD n) :
    bits w (lo + width - 1) lo = bits w' (lo + width - 1) lo := by
  have e : lo + width - 1 + 1 - lo = width := by omega
  unfold bits
  rw [e]
  refine Nat.eq_of_testBit_eq fun i => ?_
  simp only [Nat.testBit_mod_two_pow, Nat.testBit_shiftRight, BitVec.testBit_toNat]
  by_cases hi : i < width
  · rw [h (lo + i) (by omega) (by omega)]
  · simp [hi]

theorem State.fld_setReg_same (s : State) (f : Fld) (i : Nat) (w : Word) :
    (s.setReg f.reg i w).fld f i = bits w (f.lo + f.width - 1) f.lo := by
  rw [State.fld, State.reg_setReg_same]

/-- A count after an occurrence: one more, up to the top of its field. -/
theorem State.fld_bump_same (s : State) (f : Fld) (i : Nat) (h : f.ok = true) :
    (s.bump f i).fld f i = min (2 ^ f.width - 1) (s.fld f i + 1) := by
  have hpos := Nat.two_pow_pos f.width
  rw [State.bump, State.fld_setFld_same _ _ _ _ h, satN]
  split
  · rw [Nat.mod_eq_of_lt (by omega)]; omega
  · rw [Nat.mod_eq_of_lt (by omega)]; omega

/-- A field of a type that no write changes keeps its value through a write (R12). -/
theorem RegName.bits_written_ro {r : RegName} {f : FieldSpec} (hf : f ∈ r.fields) (hro : f.kind = .ro) (hw : 0 < f.width)
    (w v : Word) : bits (r.written w v) (f.lo + f.width - 1) f.lo = bits w (f.lo + f.width - 1) f.lo := by
  refine bits_congr hw fun n hlo hhi => ?_
  obtain ⟨hwrite, -, -⟩ := fieldTypesGovernEachBit.1 r f n w v hf hlo hhi
  rwa [hro] at hwrite

/-! ### What writes leave unchanged -/

theorem RegsBut.refl (l : List (RegName × Nat)) (s : State) : RegsBut l s s := fun _ _ _ => rfl

theorem RegsBut.setReg {l : List (RegName × Nat)} {s t : State} {r : RegName} {i : Nat} (h : RegsBut l s t) (hm : (r, i) ∈ l)
    (w : Word) : RegsBut l s (t.setReg r i w) := by
  intro r' i' hr
  rw [State.reg_setReg, if_neg (by rintro ⟨rfl, rfl⟩; exact hr hm)]
  exact h r' i' hr

theorem RegsBut.setFld {l : List (RegName × Nat)} {s t : State} {f : Fld} {i : Nat} (h : RegsBut l s t) (hm : (f.reg, i) ∈ l)
    (v : Nat) : RegsBut l s (t.setFld f i v) := h.setReg hm _

theorem RegsBut.of_regs {l : List (RegName × Nat)} {s t u : State} (h : RegsBut l s t) (hu : u.regs = t.regs) :
    RegsBut l s u := fun r i hr => (State.reg_congr hu r i).trans (h r i hr)

/-! ### What an access error leaves (R104) -/

theorem sameBytes_of_mem {s t : State} (h : t.mem = s.mem) : SameBytes s t := fun a => State.byte_congr h a

/-- What SYS_ACC_ERR holds after the first error: cause, valid, port, addr_hi. -/
def accErrWord (p : Port) (a c : Nat) : Word := toWord (c % 16 + 16 + 32 * p.idx + 65536 * ((a / 2 ^ 32) % 256))

section
variable {s : State} {p : Port} (hp : p ≠ .tilin) (a c : Nat)
include hp

theorem Port.idx_lt_two : p.idx < 2 := by
  cases p with
  | cspi => decide
  | link => decide
  | tilin => exact absurd rfl hp

theorem State.accErr_first (hfree : s.flag F.SYS_ACC_ERR_valid = false) :
    s.accErr p a c = ((s.setReg .SYS_ACC_ERR 0 (accErrWord p a c)).setReg .SYS_ACC_ADDR 0 (toWord a)).setFld
      F.SYS_IRQ_STAT_acc_err 0 1 := by
  simp [State.accErr, hp, hfree, accErrWord]

theorem State.accErr_later (hset : s.flag F.SYS_ACC_ERR_valid = true) :
    s.accErr p a c = (s.bump F.SYS_ACC_ERR_count 0).setFld F.SYS_IRQ_STAT_acc_err 0 1 := by
  simp [State.accErr, hp, hset]

/-- A field of SYS_ACC_ERR after the first error. -/
theorem State.fld_accErr_first (hfree : s.flag F.SYS_ACC_ERR_valid = false) {f : Fld} (hf : f.reg = .SYS_ACC_ERR) :
    (s.accErr p a c).fld f = bits (accErrWord p a c) (f.lo + f.width - 1) f.lo := by
  rw [s.accErr_first hp a c hfree, State.fld, hf, State.reg_setFld_ne _ _ _ _ (by decide),
    State.reg_setReg_ne _ _ _ _ (by decide), State.reg_setReg_same]

/-- A field of SYS_ACC_ERR beside the count after a later error. -/
theorem State.fld_accErr_later (hset : s.flag F.SYS_ACC_ERR_valid = true) {f : Fld} (hirq : F.SYS_IRQ_STAT_acc_err.apart f)
    (hcount : F.SYS_ACC_ERR_count.apart f) : (s.accErr p a c).fld f = s.fld f := by
  rw [s.accErr_later hp a c hset, State.fld_setFld_apart _ _ _ _ _ _ hirq, State.bump,
    State.fld_setFld_apart _ _ _ _ _ _ hcount]

theorem State.accErr_valid : (s.accErr p a c).flag F.SYS_ACC_ERR_valid = true := by
  have hidx := Port.idx_lt_two hp
  rw [State.flag, decide_eq_true_eq]
  cases hv : s.flag F.SYS_ACC_ERR_valid with
  | false =>
    rw [s.fld_accErr_first hp a c hv rfl, accErrWord, bits_toWord]
    simp only [F.SYS_ACC_ERR_valid]
    omega
  | true =>
    rw [s.fld_accErr_later hp a c hv (by decide) (by decide)]
    simpa [State.flag] using hv

theorem State.accErr_irq : (s.accErr p a c).fld F.SYS_IRQ_STAT_acc_err = 1 := by
  cases hv : s.flag F.SYS_ACC_ERR_valid with
  | false => rw [s.accErr_first hp a c hv, State.fld_setFld_same _ _ _ _ (by decide)]; rfl
  | true => rw [s.accErr_later hp a c hv, State.fld_setFld_same _ _ _ _ (by decide)]; rfl

theorem State.accErr_cause (hfree : s.flag F.SYS_ACC_ERR_valid = false) (hc : c < 16) :
    (s.accErr p a c).fld F.SYS_ACC_ERR_cause = c := by
  have hidx := Port.idx_lt_two hp
  rw [s.fld_accErr_first hp a c hfree rfl, accErrWord, bits_toWord]
  simp only [F.SYS_ACC_ERR_cause]
  omega

theorem State.accErr_port (hfree : s.flag F.SYS_ACC_ERR_valid = false) :
    (s.accErr p a c).fld F.SYS_ACC_ERR_port = p.idx := by
  have hidx := Port.idx_lt_two hp
  rw [s.fld_accErr_first hp a c hfree rfl, accErrWord, bits_toWord]
  simp only [F.SYS_ACC_ERR_port]
  omega

theorem State.accErr_addr_hi (hfree : s.flag F.SYS_ACC_ERR_valid = false) :
    (s.accErr p a c).fld F.SYS_ACC_ERR_addr_hi = a / 2 ^ 32 % 256 := by
  have hidx := Port.idx_lt_two hp
  rw [s.fld_accErr_first hp a c hfree rfl, accErrWord, bits_toWord]
  simp only [F.SYS_ACC_ERR_addr_hi]
  omega

theorem State.accErr_count_first (hfree : s.flag F.SYS_ACC_ERR_valid = false) :
    (s.accErr p a c).fld F.SYS_ACC_ERR_count = 0 := by
  have hidx := Port.idx_lt_two hp
  rw [s.fld_accErr_first hp a c hfree rfl, accErrWord, bits_toWord]
  simp only [F.SYS_ACC_ERR_count]
  omega

theorem State.accErr_addr (hfree : s.flag F.SYS_ACC_ERR_valid = false) :
    (s.accErr p a c).reg .SYS_ACC_ADDR 0 = toWord a := by
  rw [s.accErr_first hp a c hfree, State.reg_setFld_ne _ _ _ _ (by decide), State.reg_setReg_same]

theorem State.accErr_count_later (hset : s.flag F.SYS_ACC_ERR_valid = true) :
    (s.accErr p a c).fld F.SYS_ACC_ERR_count = min 255 (s.fld F.SYS_ACC_ERR_count + 1) := by
  rw [s.accErr_later hp a c hset, State.fld_setFld_apart _ _ _ _ _ _ (by decide), State.fld_bump_same _ _ _ (by decide)]
  rfl

theorem State.accErr_addr_later (hset : s.flag F.SYS_ACC_ERR_valid = true) :
    (s.accErr p a c).reg .SYS_ACC_ADDR 0 = s.reg .SYS_ACC_ADDR 0 := by
  rw [s.accErr_later hp a c hset, State.reg_setFld_ne _ _ _ _ (by decide), State.bump,
    State.reg_setFld_ne _ _ _ _ (by decide)]

end

/-! ### A selection that names no beam (R76) -/

theorem execBeamSelWrite_bad {p : Port} {v : Word} {s : State} (htx : bitAt v 7 = true) (hbeam : 31 < bits v 5 0) :
    execBeamSelWrite p v s = .next (s.accErr p 0xB000 errBadSel) := by
  rw [execBeamSelWrite, State.writeBeamSel, if_pos ⟨htx, hbeam⟩]

/-- Settles O46: the write is an access error and nothing else. What the error records is R104's; that a counted error sets
acc_err again is the model's choice (log entry 139). -/
theorem badBeamSelectionIsIgnored : Obligations.BadBeamSelectionIsIgnored := by
  intro p v s htx hbeam
  refine ⟨_, execBeamSelWrite_bad htx hbeam, fun i => s.accErr_reg p _ _ _ i (by decide) (by decide) (by decide), ?_, ?_,
    s.accErr_regsBut p _ _, sameBytes_of_mem (s.accErr_mem p _ _), s.accErr_pending p _ _⟩
  · rintro rfl
    exact s.accErr_tilin _ _
  · exact fun hp => ⟨s.accErr_valid hp _ _, s.accErr_irq hp _ _,
      fun hfree => ⟨s.accErr_cause hp _ _ hfree (by decide), s.accErr_port hp _ _ hfree⟩⟩

/-! ### Unmapped addresses, and the clearing of the error (R71, R104) -/

theorem execRegisterWrite_unmapped {a : Nat} (p : Port) (v : Word) (s : State) (hlo : 0xC000 ≤ a) (hhi : a < 0x10000) :
    execRegisterWrite p a v s = .next (s.accErr p (a / 4 * 4) errUnmapped) := by
  rw [execRegisterWrite, if_pos hhi, State.writeReg, if_pos (by omega)]

/-- A write to an aligned register address below the unmapped blocks. -/
theorem execRegisterWrite_aligned {a : Nat} (p : Port) (v : Word) (s : State) (halign : a % 4 = 0) (ha : plainAddr a) :
    execRegisterWrite p a v s = .next (s.writeReg p a v).2 := by
  have haddr : a / 4 * 4 = a := by omega
  rw [execRegisterWrite, if_pos (by omega), haddr]

theorem State.regAt_accErr (s : State) (p : Port) : s.regAt p 0x30 = some (.SYS_ACC_ERR, 0) := rfl

/-- The word that a write of SYS_ACC_ERR with bit 4 set leaves: by field type, and the count cleared with valid. -/
theorem execRegisterWrite_accErr_clear {v : Word} (p : Port) (s : State) (hv : bitAt v 4 = true) :
    execRegisterWrite p 0x30 v s = .next ((s.writeTyped .SYS_ACC_ERR 0 v).setFld F.SYS_ACC_ERR_count 0 0) := by
  rw [execRegisterWrite_aligned p v s (by decide) (by decide),
    s.writeReg_free p _ v _ _ (by decide) (s.regAt_accErr p) rfl]
  show Outcome.next (s.writeCopy p .SYS_ACC_ERR 0 v) = _
  simp only [State.writeCopy, hv, if_true]

theorem State.valid_writeTyped_clear {v : Word} (s : State) (hv : bitAt v 4 = true) :
    (s.writeTyped .SYS_ACC_ERR 0 v).fld F.SYS_ACC_ERR_valid = 0 := by
  obtain ⟨hwrite, -, -⟩ := fieldTypesGovernEachBit.1 .SYS_ACC_ERR ⟨4, 1, .w1c, 0⟩ 4 (s.reg .SYS_ACC_ERR 0) v (by decide)
    (by decide) (by decide)
  have hbit : bitAt (RegName.SYS_ACC_ERR.written (s.reg .SYS_ACC_ERR 0) v) 4 = false := by
    rw [bitAt] at hv
    exact hwrite.trans (by simp only [hv, Bool.not_true, Bool.and_false])
  refine (State.fld_setReg_same s F.SYS_ACC_ERR_valid 0 _).trans ?_
  exact (bits_single _ 4).trans (by rw [hbit]; rfl)

/-- Settles O47, by the two cases of an access error and the write that clears it. That an error which is only counted sets
acc_err again is the model's choice (log entry 139). -/
theorem firstAccessErrorIsKept : Obligations.FirstAccessErrorIsKept := by
  refine ⟨fun p a v s hlo hhi hp => ?_, fun a v s hlo hhi => execRegisterWrite_unmapped .tilin v s hlo hhi,
    fun p v s hv => ?_⟩
  · refine ⟨_, execRegisterWrite_unmapped p v s hlo hhi, s.accErr_valid hp _ _, s.accErr_irq hp _ _, fun hfree => ?first,
      fun hset => ?later, s.accErr_regsBut p _ _, sameBytes_of_mem (s.accErr_mem p _ _)⟩
    case first =>
      refine ⟨s.accErr_cause hp _ _ hfree (by decide), s.accErr_port hp _ _ hfree, ?_, s.accErr_count_first hp _ _ hfree, ?_⟩
      · rw [s.accErr_addr_hi hp _ _ hfree]
        omega
      · rw [s.accErr_addr hp _ _ hfree, toWord, BitVec.toNat_ofNat]
        omega
    case later =>
      exact ⟨s.accErr_count_later hp _ _ hset, s.fld_accErr_later hp _ _ hset (by decide) (by decide),
        s.fld_accErr_later hp _ _ hset (by decide) (by decide), s.fld_accErr_later hp _ _ hset (by decide) (by decide),
        s.accErr_addr_later hp _ _ hset⟩
  · refine ⟨_, execRegisterWrite_accErr_clear p s hv, ?_, State.fld_setFld_same _ _ _ _ (by decide), ?_, ?_,
      sameBytes_of_mem rfl⟩
    · rw [State.flag, State.fld_setFld_apart _ _ _ _ _ _ (by decide), s.valid_writeTyped_clear hv]
      rfl
    · rw [State.fld_setFld_apart _ _ _ _ _ _ (by decide)]
      refine (State.fld_setReg_same s F.SYS_ACC_ERR_cause 0 _).trans ?_
      exact RegName.bits_written_ro (f := ⟨0, 4, .ro, 0⟩) (by decide) rfl (by decide) _ v
    · exact ((RegsBut.refl _ s).setReg (by decide) _).setFld (f := F.SYS_ACC_ERR_count) (by decide) 0

/-! ### Claims of registers (R72) -/

/-- A host port holds a resource by a mailbox's claim that came from it. -/
theorem State.portHolds_iff {p : Port} (hp : p ≠ .tilin) (s : State) (ty j : Nat) :
    s.portHolds p ty j = true ↔ ∃ c, s.owner ty j = some c ∧ c.internal = false ∧ c.port = p.idx := by
  cases p with
  | tilin => exact absurd rfl hp
  | cspi => cases h : s.owner ty j <;> simp [State.portHolds, h]
  | link => cases h : s.owner ty j <;> simp [State.portHolds, h]

theorem State.portHolds_of_unclaimed {s : State} {p : Port} {ty j : Nat} (hp : p ≠ .tilin)
    (h : ∀ c, s.owner ty j = some c → c.internal = true ∨ c.port ≠ p.idx) : s.portHolds p ty j = false := by
  rw [Bool.eq_false_iff, Ne, State.portHolds_iff hp]
  rintro ⟨c, howner, hhost, hport⟩
  obtain hint | hne := h c howner
  · simp [hhost] at hint
  · exact hne hport

theorem State.readReg_errs_not {a : Nat} (s : State) (p : Port) (ha : a < 0xC000) : (s.readReg p a).2.1 = 0 := by
  rw [State.readReg, if_neg (by omega)]
  split
  · rfl
  · split <;> rfl

theorem RegName.resource_ne_none_iff (r : RegName) (i : Nat) : r.resource i ≠ none ↔ r ∈ [RegName.DMA_CH_CTL,
    .DMA_CH_NEXT_LO, .DMA_CH_NEXT_HI, .DMA_CH_STAT, .DMA_CH_ERR_LO, .DMA_CH_ERR_HI, .DMA_CH_DESCS, .DMA_CH_BYTES, .TC_CTL,
    .TC_CMP_NS, .TC_CMP_WP, .TC_PERIOD, .GPIO_PIN, .AUX_SEQ_MASK, .AUX_SEQ_CTL, .AUX_BUF_BASE, .AUX_BUF_CTL, .AUX_BUF_WR,
    .AUX_BUF_RD, .AUX_STAT] := by
  cases r <;> simp [RegName.resource]

/-- Settles O48: without the claim a write is an access error, with it the register's own; a read meets no claim. How the
error is recorded is R104's. -/
theorem unclaimedResourceWritesAreIgnored : Obligations.UnclaimedResourceWritesAreIgnored := by
  refine ⟨fun p a v s r i ty j halign ha hreg hres hp hclaim => ?unclaimed,
    fun p a v s r i ty j c halign ha hreg hres hp howner hhost hport => ?claimed,
    fun p a s ha => s.readReg_errs_not p ha, RegName.resource_ne_none_iff⟩
  case unclaimed =>
    have hstep : exec (.registerWrite p a v) s = .next (s.accErr p a errClaim) :=
      (execRegisterWrite_aligned p v s halign ha).trans (congrArg Outcome.next
        (s.writeReg_unheld p a v r i ty j ha hreg hres (State.portHolds_of_unclaimed hp hclaim)))
    exact ⟨_, hstep, s.accErr_valid hp _ _, fun hfree => ⟨s.accErr_cause hp _ _ hfree (by decide), s.accErr_port hp _ _ hfree⟩,
      s.accErr_regsBut p _ _, sameBytes_of_mem (s.accErr_mem p _ _)⟩
  case claimed =>
    exact (execRegisterWrite_aligned p v s halign ha).trans (congrArg Outcome.next
      (s.writeReg_held p a v r i ty j ha hreg hres ((State.portHolds_iff hp s ty j).2 ⟨c, howner, hhost, hport⟩)))

/-! ### The targets of a write (R74, R75, R77) -/

theorem mem_sixteen (k j : Nat) : j ∈ sixteen k ↔ j / 16 = k := by
  simp only [sixteen, List.mem_map, List.mem_range]
  exact ⟨fun ⟨i, hi, e⟩ => by omega, fun e => ⟨j % 16, by omega, by omega⟩⟩

theorem sixteen_nodup (k : Nat) : (sixteen k).Nodup :=
  List.nodup_range.map fun i j (e : 16 * k + i = 16 * k + j) => by omega

/-- Bits [5:4] of a selection are the quadrant, or the group, of bits [5:0]. -/
theorem bits_5_4 (w : Word) : bits w 5 4 = bits w 5 0 / 16 := by
  simp only [bits, Nat.shiftRight_eq_div_pow]
  omega

theorem State.targets_nodup (s : State) (p : Port) (r : RegName) (i : Nat) : (s.targets p r i).Nodup := by
  have hall : ∀ (b : Bool) n {l : List Nat}, l.Nodup → (if b then List.range n else l).Nodup := fun b n l hl => by
    cases b
    · exact hl
    · exact List.nodup_range
  have hgroup : ∀ (b : Bool) k, (if b then sixteen k else [i]).Nodup := fun b k => by
    cases b
    · exact List.nodup_singleton i
    · exact sixteen_nodup k
  unfold State.targets
  dsimp only
  split
  · exact hall _ 64 (hgroup _ _)
  · exact hall _ 4 (List.nodup_singleton i)
  · exact hall _ 64 (hgroup _ _)
  · exact hall _ 32 (hgroup _ _)
  · exact List.nodup_singleton i

/-- The register that an address names stands in the table at a place that the address and the port's selections meet. -/
theorem State.regAt_place {s : State} {p : Port} {a : Nat} {r : RegName} {i : Nat} (h : s.regAt p a = some (r, i)) :
    (r.place.1 = .path → i = bits (s.reg .PATH_SEL p.idx) 5 0) ∧
    (r.place.1 = .rxBeam → bitAt (s.reg .BEAM_SEL p.idx) 7 = false ∧ i = bits (s.reg .BEAM_SEL p.idx) 5 0) ∧
    (r.place.1 = .txBeam → bitAt (s.reg .BEAM_SEL p.idx) 7 = true ∧ i = bits (s.reg .BEAM_SEL p.idx) 5 0) := by
  obtain ⟨r', -, hr⟩ := List.exists_of_findSome?_eq_some h
  split at hr
  next base stride n hplace =>
    split at hr
    · obtain ⟨rfl, -⟩ := Prod.mk.inj (Option.some.inj hr)
      simp [hplace]
    · cases hr
  next b base stride n hdirect hplace =>
    split at hr
    · cases hr
    · cases b with
      | rxBeam =>
        obtain ⟨hrx, rfl, rfl⟩ : _ ∧ r' = r ∧ _ = i := by simpa using hr
        simp [hplace, hrx]
      | txBeam =>
        obtain ⟨htx, rfl, rfl⟩ : _ ∧ r' = r ∧ _ = i := by simpa using hr
        simp [hplace, htx]
      | path =>
        obtain ⟨rfl, rfl⟩ := Prod.mk.inj (Option.some.inj hr)
        simp [hplace]
      | _ =>
        obtain ⟨rfl, -⟩ := Prod.mk.inj (Option.some.inj hr)
        simp [hplace]

theorem State.mem_targets_path {s : State} {p : Port} {r : RegName} {i : Nat} {w : Word} (hw : w = s.reg .PATH_SEL p.idx)
    (hplace : r.place.1 = .path) (hi : i = bits w 5 0) (j : Nat) :
    j ∈ s.targets p r i ↔ if bitAt w 9 then j < 64 else if bitAt w 8 then j / 16 = i / 16 else j = i := by
  subst hw hi
  simp only [State.targets, hplace]
  split
  · exact List.mem_range
  · split
    · rw [mem_sixteen, bits_5_4]
    · exact List.mem_singleton

theorem State.mem_targets_beam {s : State} {p : Port} {r : RegName} {i : Nat} {w : Word} (hw : w = s.reg .BEAM_SEL p.idx)
    (hplace : r.place.1 = .rxBeam ∨ r.place.1 = .txBeam) (hi : i = bits w 5 0) (j : Nat) :
    j ∈ s.targets p r i ↔ if bitAt w 9 then j < (if r.place.1 = .txBeam then 32 else 64)
      else if bitAt w 8 then j / 16 = i / 16 else j = i := by
  subst hw hi
  have hgroup : (j ∈ if bitAt (s.reg .BEAM_SEL p.idx) 8 then sixteen (bits (s.reg .BEAM_SEL p.idx) 5 4)
      else [bits (s.reg .BEAM_SEL p.idx) 5 0]) ↔ if bitAt (s.reg .BEAM_SEL p.idx) 8 then
        j / 16 = bits (s.reg .BEAM_SEL p.idx) 5 0 / 16 else j = bits (s.reg .BEAM_SEL p.idx) 5 0 := by
    split
    · rw [mem_sixteen, bits_5_4]
    · exact List.mem_singleton
  obtain h | h := hplace <;> simp only [State.targets, h] <;> split
  · exact List.mem_range
  · exact hgroup
  · exact List.mem_range
  · exact hgroup

/-- A write by field type of distinct copies of a register. -/
theorem State.foldl_writeTyped {r : RegName} (v : Word) {l : List Nat} (hl : l.Nodup) (s : State) :
    (∀ j ∈ l, (l.foldl (fun s j => s.writeTyped r j v) s).reg r j = r.written (s.reg r j) v) ∧
    RegsBut (l.map fun j => (r, j)) s (l.foldl (fun s j => s.writeTyped r j v) s) ∧
    SameBytes s (l.foldl (fun s j => s.writeTyped r j v) s) := by
  induction l generalizing s with
  | nil => exact ⟨by simp, RegsBut.refl _ s, fun _ => rfl⟩
  | cons k l ih =>
    obtain ⟨hk, hl⟩ := List.nodup_cons.1 hl
    obtain ⟨hmem, hbut, hbytes⟩ := ih hl (s.writeTyped r k v)
    have hother : ∀ {j}, j ≠ k → (s.writeTyped r k v).reg r j = s.reg r j := fun h =>
      State.reg_setReg_idx s r r _ (Ne.symm h)
    refine ⟨fun j hj => ?_, fun r' i hri => ?_, hbytes⟩
    · obtain rfl | hj := List.mem_cons.1 hj
      · exact (hbut r j (by simpa using hk)).trans (State.reg_setReg_same s r j _)
      · exact (hmem j hj).trans (by rw [hother (fun e => hk (e ▸ hj))])
    · simp only [List.map_cons, List.mem_cons, not_or] at hri
      refine (hbut r' i hri.2).trans ?_
      exact ((RegsBut.refl [(r, k)] s).setReg List.mem_cons_self _) r' i (by simpa using hri.1)

theorem State.foldl_writeCopy_plain (s : State) (p : Port) {r : RegName} (v : Word) (h : r.plainWrite = true) (l : List Nat) :
    l.foldl (fun s j => s.writeCopy p r j v) s = l.foldl (fun s j => s.writeTyped r j v) s := by
  simp only [State.writeCopy_plain _ _ _ _ _ h]

/-- A read of a plain register: its word, its RC fields cleared. -/
theorem execRcRegisterRead_plain {p : Port} {a : Nat} {s : State} {r : RegName} {i : Nat} (halign : a % 4 = 0)
    (ha : plainAddr a) (hreg : s.regAt p a = some (r, i)) (hr : r.plainRead = true) :
    execRcRegisterRead p a s = .next ((if r.hasRc then s.setReg r i (r.cleared (s.reg r i)) else s).setRdata p
      (r.readable (s.reg r i))) := by
  have haddr : a / 4 * 4 = a := by omega
  rw [execRcRegisterRead, if_pos (by omega), haddr]
  simp [State.readReg, ha.2, Nat.not_le.2 ha.1, hreg, State.readCopy_plain _ _ _ _ hr]

/-- Settles O49: the targets are distinct, and each takes the write by field type; which they are is R74's and R75's. -/
theorem broadcastWritesReachEveryTarget : Obligations.BroadcastWritesReachEveryTarget := by
  refine ⟨fun p a v s r i halign ha hreg hres hr => ?write, fun p a s r i w hreg hw hplace => ?path,
    fun p a s r i w hreg hw hplace => ?beam, fun p a s r i hreg halign ha hr => execRcRegisterRead_plain halign ha hreg hr⟩
  case write =>
    have hstep := (execRegisterWrite_aligned p v s halign ha).trans (congrArg Outcome.next
      ((s.writeReg_free p a v r i ha hreg hres).trans (s.foldl_writeCopy_plain p v hr _)))
    exact ⟨_, hstep, State.foldl_writeTyped v (s.targets_nodup p r i) s⟩
  case path =>
    have hi : i = bits w 5 0 := hw ▸ (State.regAt_place hreg).1 hplace
    exact ⟨hi, State.mem_targets_path hw hplace hi⟩
  case beam =>
    obtain ⟨-, hrx, htx⟩ := State.regAt_place hreg
    rw [← hw] at hrx htx
    have hi : i = bits w 5 0 := hplace.elim (fun h => (hrx h).2) fun h => (htx h).2
    refine ⟨hi, ⟨fun h7 => ?_, fun h => (htx h).1⟩, State.mem_targets_beam hw hplace hi⟩
    exact hplace.resolve_left fun h => Bool.false_ne_true ((hrx h).1.symm.trans h7)

end Sys2Proof.Machine
end

section
/-! PROOFS. Chapter 02, the mailboxes: what the power sequencer and Trivet leave of them, how a response is written, rings,
acknowledgements and turns; and the conflict of the strobes' claims. -/

namespace Sys2Proof.Machine

open Host

/-! ### Operations that leave the mailboxes alone -/

/-- The mailboxes' registers, the requests that they have copied, and memory are as before; a response may have been staged. -/
structure KeepsMailboxes (s t : State) : Prop where
  stat : ∀ i, t.reg .SYS_MBX_STAT i = s.reg .SYS_MBX_STAT i
  copied : ∀ n, (t.mbx n).copied = (s.mbx n).copied
  mem : t.mem = s.mem

theorem State.mbx_stageRsp_copied (s : State) (n k : Nat) (r : Rsp) : ((s.stageRsp n r).mbx k).copied = (s.mbx k).copied := by
  unfold State.stageRsp State.setMbx State.mbx
  simp only [Store.get_set]
  split
  · subst k; rfl
  · rfl

namespace KeepsMailboxes

variable {u s : State}

protected theorem refl (s : State) : KeepsMailboxes s s := ⟨fun _ => rfl, fun _ => rfl, rfl⟩

theorem setFld (h : KeepsMailboxes u s) {f : Fld} (hf : f.reg ≠ .SYS_MBX_STAT) (i v : Nat) : KeepsMailboxes u (s.setFld f i v) :=
  ⟨fun j => (s.reg_setFld_ne i j v hf).trans (h.stat j), h.copied, h.mem⟩

theorem setFlag (h : KeepsMailboxes u s) {f : Fld} (hf : f.reg ≠ .SYS_MBX_STAT) (i : Nat) (b : Bool) :
    KeepsMailboxes u (s.setFlag f i b) := h.setFld hf i _

theorem stageRsp (h : KeepsMailboxes u s) (n : Nat) (r : Rsp) : KeepsMailboxes u (s.stageRsp n r) :=
  ⟨h.stat, fun k => (s.mbx_stageRsp_copied n k r).trans (h.copied k), h.mem⟩

theorem withPwr (h : KeepsMailboxes u s) (x : PwrSt) : KeepsMailboxes u { s with pwr := x } := ⟨h.stat, h.copied, h.mem⟩

theorem ite {c : Prop} [Decidable c] {s' : State} (h : KeepsMailboxes u s) (h' : KeepsMailboxes u s') :
    KeepsMailboxes u (if c then s else s') := by
  split
  · exact h
  · exact h'

theorem foldl {α : Type} {f : State → α → State} (hf : ∀ s a, KeepsMailboxes u s → KeepsMailboxes u (f s a)) (l : List α)
    (h : KeepsMailboxes u s) : KeepsMailboxes u (l.foldl f s) := by
  induction l generalizing s with
  | nil => exact h
  | cons a l ih => exact ih (hf s a h)

end KeepsMailboxes

/-! ### The power sequencer (R546-R549) -/

section
variable {u s : State} (h : KeepsMailboxes u s)
include h

theorem State.setTrans_keeps (d : Nat) (t : Option Nat) : KeepsMailboxes u (s.setTrans d t) := (h.withPwr _).setFlag (by decide) d _

theorem State.startTrans_keeps (target : Nat) (l : List Nat) : KeepsMailboxes u (s.startTrans target l) :=
  KeepsMailboxes.foldl (fun _ d h => State.setTrans_keeps h d _) l h

theorem State.hostReq_keeps (target : Nat) (l : List Nat) : KeepsMailboxes u (s.hostReq target l) :=
  KeepsMailboxes.foldl (fun _ d h => h.setFld (by decide) d _) l h

theorem State.isolate_keeps (e : PwrEntry) : KeepsMailboxes u (s.isolate e) := by
  have hstart : KeepsMailboxes u ((s.dropEntry e).startTrans e.target (e.group.filter fun d => decide (s.domState d ≠ e.target))) :=
    State.startTrans_keeps (h.withPwr _) _ _
  unfold State.isolate
  dsimp only
  split
  · exact hstart
  · exact (State.hostReq_keeps hstart _ _).withPwr _

theorem State.askGroup_keeps (cmd : Option Cmd) (target : Nat) (group : List Nat) :
    KeepsMailboxes u (s.askGroup cmd target group) := by
  unfold State.askGroup
  dsimp only
  split
  · exact State.isolate_keeps h _
  · exact KeepsMailboxes.foldl (fun _ d h => h.setFld (by decide) d _) _ (h.withPwr _)

theorem State.powerOn_keeps (r : PwrReq) : KeepsMailboxes u (s.powerOn r) := by
  have hset : KeepsMailboxes u ((r.group.filter hasSetpoint).foldl (fun s d =>
      ((s.setFld F.PWR_DOM_v_on d r.vOn).setFld F.PWR_DOM_fbias d r.fbias).setFlag F.PWR_DOM_fbias_held d
        (s.pwr.biasOff && decide (r.fbias ≠ 0))) (s.hostReq 0 r.group)) :=
    KeepsMailboxes.foldl (fun _ d h => ((h.setFld (by decide) d _).setFld (by decide) d _).setFlag (by decide) d _) _
      (State.hostReq_keeps h _ _)
  unfold State.powerOn
  dsimp only
  split
  · exact hset.stageRsp _ _
  · split
    · exact ((State.startTrans_keeps hset _ _).withPwr _).stageRsp _ _
    · exact (State.startTrans_keeps hset _ _).withPwr _

theorem State.takePower_keeps (r : PwrReq) : KeepsMailboxes u (s.takePower r) := by
  unfold State.takePower
  split
  · exact h.stageRsp _ _
  · split
    · exact h.withPwr _
    · split
      · exact State.powerOn_keeps h r
      · split
        · exact (State.hostReq_keeps h _ _).stageRsp _ _
        · exact State.askGroup_keeps h _ _ _

theorem State.evalWaiting_keeps : KeepsMailboxes u s.evalWaiting :=
  KeepsMailboxes.foldl (fun _ r h => State.takePower_keeps h r) _ (h.withPwr _)

theorem State.rollback_keeps (e : PwrEntry) (d b cause : Nat) : KeepsMailboxes u (s.rollback e d b cause) := by
  have hmark : KeepsMailboxes u (((e.group.foldl (fun s d => s.setFlag F.PWR_DOM_busy d (s.trans d).isSome)
      (s.dropEntry e)).setFld F.PWR_DOM_refused d 1).setFld F.PWR_DOM_refuse_cause d cause) :=
    ((KeepsMailboxes.foldl (fun _ d h => h.setFlag (by decide) d _) _ (h.withPwr _)).setFld (by decide) d _).setFld (by decide) d _
  unfold State.rollback
  dsimp only
  split
  · exact State.evalWaiting_keeps ((hmark.withPwr _).stageRsp _ _)
  · exact State.evalWaiting_keeps (hmark.withPwr _)

theorem State.wakeDomain_keeps (d : Nat) : KeepsMailboxes u (s.wakeDomain d) := by
  unfold State.wakeDomain
  extract_lets src w
  have hstall : KeepsMailboxes u w := (h.withPwr _).ite h
  clear_value w
  split
  · exact State.rollback_keeps (hstall.setFld (by decide) d _) _ _ _ _
  · split
    · exact hstall
    · exact hstall.withPwr _
    · exact hstall.ite (State.setTrans_keeps hstall _ _)

end

/-! ### Trivet's commands (R88, R89, R611) -/

theorem serve_keeps {c : CmdSpec} {q : Req} {body : State → State × Rsp} {s : State} (h : KeepsMailboxes s (body s).1) :
    KeepsMailboxes s (serve c q body s) := by
  unfold serve
  split
  · exact (KeepsMailboxes.refl s).stageRsp _ _
  · exact h.stageRsp _ _

theorem State.check_keeps {s : State} (tests : List (Bool × Rsp)) {e : State × Rsp} (h : KeepsMailboxes s e.1) :
    KeepsMailboxes s (s.check tests e).1 := by
  obtain ⟨t, -, -, hfail⟩ | hpass := s.check_cases tests e
  · rw [hfail]
    exact KeepsMailboxes.refl s
  · rwa [hpass]

theorem svcTrvBootExec_keeps (q : Req) (s : State) : KeepsMailboxes s (svcTrvBootExec q s).1 := by
  have himage : ∀ a k, KeepsMailboxes s
      { s with sys := { s.sys with imageFrom := 2, imageAddr := a, reload := k } } := fun _ _ =>
    ⟨fun _ => rfl, fun _ => rfl, rfl⟩
  exact State.check_keeps _ ((himage _ _).ite ((himage _ _).setFld (f := F.SYS_STATE_stage) (by decide) 0 4))

theorem State.trivetServe_keeps (s : State) (q : Req) (op : Nat) : KeepsMailboxes s (s.trivetServe q op) := by
  have hreset : ∀ dev, KeepsMailboxes s (svcTrvReset dev s).1 := fun dev => ⟨fun _ => rfl, fun _ => rfl, rfl⟩
  unfold State.trivetServe
  split
  · exact serve_keeps (KeepsMailboxes.refl s)
  · split
    · exact serve_keeps (State.check_keeps _ (KeepsMailboxes.refl s))
    · split
      · exact serve_keeps (svcTrvBootExec_keeps q s)
      · split
        · exact serve_keeps (hreset _)
        · split
          · exact serve_keeps (hreset _)
          · exact (KeepsMailboxes.refl s).stageRsp _ _

/-! ### Responses (R80, R82, R83) -/

/-- The registers, the state of chapter 02 and memory are as before. -/
structure SameBlock (s t : State) : Prop where
  regs : t.regs = s.regs
  sys : t.sys = s.sys
  mem : t.mem = s.mem

theorem State.sendFrame_sameBlock (s : State) (stream : Nat) (ws : List Word) : SameBlock s (s.sendFrame stream ws) := by
  unfold State.sendFrame State.formFrame
  split <;> exact ⟨rfl, rfl, rfl⟩

theorem State.startDeferred_sameBlock (s : State) (n : Nat) : SameBlock s (s.startDeferred n) := by
  unfold State.startDeferred
  extract_lets t src w
  have hlink : SameBlock s w := by
    unfold w
    split
    · split <;> exact ⟨rfl, rfl, rfl⟩
    · exact ⟨rfl, rfl, rfl⟩
  clear_value w
  split
  · split
    · exact ⟨hlink.regs, hlink.sys, hlink.mem⟩
    · exact hlink
  · exact hlink

/-- Words written one after another into a mailbox's response area, from word o. -/
theorem State.foldl_setRspWord (n : Nat) (ws : List Word) (o : Nat) (s : State) :
    ∃ area, (ws.zipIdx o).foldl (fun s x => s.setRspWord n x.2 x.1) s = { s with sys := { s.sys with rspArea := area } } ∧
      ∀ k, Store.get (fun _ => 0) area (areaKey n k) =
        if o ≤ k ∧ k < o + ws.length then ws.getD (k - o) 0 else s.rspWord n k := by
  induction ws generalizing o s with
  | nil => exact ⟨s.sys.rspArea, rfl, fun k => by rw [if_neg (by simp)]; rfl⟩
  | cons w ws ih =>
    obtain ⟨area, hput, hread⟩ := ih (o + 1) (s.setRspWord n o w)
    refine ⟨area, hput, fun k => (hread k).trans ?_⟩
    have hfirst : (s.setRspWord n o w).rspWord n k = if o = k then w else s.rspWord n k := by
      simp only [State.rspWord, State.setRspWord, Store.get_set, areaKey, Nat.add_left_cancel_iff]
    rw [hfirst]
    simp only [List.length_cons]
    obtain hk | rfl | hk := Nat.lt_trichotomy k o
    · rw [if_neg (by omega), if_neg (by omega), if_neg (by omega)]
    · rw [if_neg (by omega), if_pos rfl, if_pos (by omega), Nat.sub_self]
      rfl
    · have hsub : k - o = k - (o + 1) + 1 := by omega
      rw [hsub, List.getD_cons_succ]
      split
      · rw [if_pos (by omega)]
      · rw [if_neg (by omega), if_neg (by omega)]

/-- The registers of a mailbox that enters DONE. -/
def State.markDone (s : State) (n status tag : Nat) : State :=
  (((s.setFld F.SYS_MBX_STAT_last_status n status).setFld F.SYS_MBX_STAT_last_tag n tag).setFld F.SYS_MBX_STAT_state n
    mbDone).setFld F.SYS_IRQ_STAT_mbx_done 0 (s.fld F.SYS_IRQ_STAT_mbx_done ||| 2 ^ n)

/-- A response: the registers of DONE, and the header and the words in the response area; no byte of memory. -/
theorem State.respond_writes (s : State) (n : Nat) (r : Rsp) :
    (s.respond n r).regs = (s.markDone n r.status (reqTag ((s.mbx n).copied.headD 0))).regs ∧ (s.respond n r).mem = s.mem ∧
      ∀ k ≤ r.words.length, (s.respond n r).rspWord n k =
        (s.rspHeader (reqTag ((s.mbx n).copied.headD 0)) r :: r.words).getD k 0 := by
  obtain ⟨area, hput, hread⟩ := State.foldl_setRspWord n
    (s.rspHeader (reqTag ((s.mbx n).copied.headD 0)) r :: r.words) 0 s
  have hwords : ∀ k ≤ r.words.length, Store.get (fun _ => 0) area (areaKey n k) =
      (s.rspHeader (reqTag ((s.mbx n).copied.headD 0)) r :: r.words).getD k 0 := fun k hk => by
    rw [hread, if_pos (by simp; omega)]
    rfl
  unfold State.respond
  extract_lets m tag hdr w link v x y
  have hw : w = { s with sys := { s.sys with rspArea := area } } := hput
  have hy : SameBlock x y := by
    unfold y
    split
    · exact State.sendFrame_sameBlock _ _ _
    · exact ⟨rfl, rfl, rfl⟩
  have hlast := y.startDeferred_sameBlock n
  have hregs : x.regs = (s.markDone n r.status tag).regs := by unfold x v; rw [hw]; rfl
  have hmem : x.mem = s.mem := by unfold x v; rw [hw]; rfl
  have harea : x.sys.rspArea = area := by unfold x v; rw [hw]; rfl
  refine ⟨hlast.regs.trans (hy.regs.trans hregs), hlast.mem.trans (hy.mem.trans hmem), fun k hk => ?_⟩
  rw [State.rspWord, hlast.sys, hy.sys, harea]
  exact hwords k hk

section
variable {s u : State} {n : Nat} {r : Rsp} (hu : u = s.respond n r)
include hu

theorem State.respond_sameBytes : SameBytes s u := by
  subst hu
  exact sameBytes_of_mem (s.respond_writes n r).2.1

theorem State.respond_mbxState : u.mbxState n = mbDone := by
  subst hu
  obtain ⟨hregs, -, -⟩ := s.respond_writes n r
  rw [State.mbxState, State.fld_congr hregs, State.markDone, State.fld_setFld_apart _ _ _ _ _ _ (by decide),
    State.fld_setFld_same _ _ _ _ (by decide)]
  rfl

theorem State.respond_last_status (hst : r.status < 256) : u.fld F.SYS_MBX_STAT_last_status n = r.status := by
  subst hu
  obtain ⟨hregs, -, -⟩ := s.respond_writes n r
  rw [State.fld_congr hregs, State.markDone, State.fld_setFld_apart _ _ _ _ _ _ (by decide),
    State.fld_setFld_apart _ _ _ _ _ _ (by decide), State.fld_setFld_apart _ _ _ _ _ _ (by decide),
    State.fld_setFld_same _ _ _ _ (by decide)]
  exact Nat.mod_eq_of_lt hst

theorem State.respond_mbx_done (hn : n < 8) : (u.fld F.SYS_IRQ_STAT_mbx_done).testBit n = true := by
  subst hu
  obtain ⟨hregs, -, -⟩ := s.respond_writes n r
  rw [State.fld_congr hregs, State.markDone, State.fld_setFld_same _ _ _ _ (by decide), Nat.testBit_mod_two_pow,
    Nat.testBit_or, Nat.testBit_two_pow_self, Bool.or_true, Bool.and_true]
  exact decide_eq_true hn

end

/-- The response's header gives its status and its length, whatever its flags (R80). -/
theorem State.rspHeader_fields (s : State) {tag : Nat} (htag : tag < 256) {r : Rsp} (hst : r.status < 256)
    (hlen : r.words.length < 64) :
    bits (s.rspHeader tag r) 7 0 = r.status ∧ bits (s.rspHeader tag r) 23 16 = r.words.length := by
  obtain ⟨flags, hflags⟩ : ∃ flags, s.rspHeader tag r =
      toWord (r.status + 256 * tag + 65536 * r.words.length + 2 ^ 24 * flags) := by
    refine ⟨r.evtFollows.toNat + 2 * (r.holder || decide (r.status = stHeld)).toNat + 4 * r.trivet.toNat +
      8 * s.faultPending.toNat, congrArg toWord ?_⟩
    have hflag : ∀ (x : Bool) k, (if x then 2 ^ k else 0) = 2 ^ k * x.toNat := fun x k => by cases x <;> simp
    simp only [hflag]
    omega
  rw [hflags, bits_toWord, bits_toWord]
  omega

theorem reqTag_lt (w : Word) : reqTag w < 256 := Nat.mod_lt _ (by decide)

theorem State.respond_header (s : State) (n : Nat) {r : Rsp} (hst : r.status < 256) (hlen : r.words.length < 64) :
    bits ((s.respond n r).rspWord n 0) 7 0 = r.status ∧ bits ((s.respond n r).rspWord n 0) 23 16 = r.words.length := by
  obtain ⟨-, -, hwords⟩ := s.respond_writes n r
  rw [hwords 0 (Nat.zero_le _)]
  exact s.rspHeader_fields (reqTag_lt _) hst hlen

theorem State.respond_word (s : State) {n k : Nat} {r : Rsp} (hk : k < r.words.length) :
    (s.respond n r).rspWord n (k + 1) = r.words.getD k 0 := by
  obtain ⟨-, -, hwords⟩ := s.respond_writes n r
  rw [hwords (k + 1) hk, List.getD_cons_succ]

/-! ### Rings (R82, R84) -/

/-- A ring whose request leaves the area is answered with ST_BAD_ARG. -/
theorem State.takeRing_long {s : State} {n : Nat} (p : Port) (v : Option (List Word)) (hlen : 63 < reqLen (s.reqWord n 0)) :
    ∃ (w : State) (b : Bool), s.takeRing p n v = w.respond n { status := stBadArg, trivet := b } ∧ w.mem = s.mem := by
  unfold State.takeRing
  extract_lets hdr len u byTrivet l src w
  rw [if_pos hlen]
  exact ⟨w, byTrivet, rfl, rfl⟩

/-- Any other ring copies the request, records the port and makes the mailbox BUSY, whatever Trivet or the wake of MGMT does
besides. -/
theorem State.takeRing_short {s : State} {n : Nat} (p : Port) (v : Option (List Word)) (hlen : reqLen (s.reqWord n 0) ≤ 63) :
    ∃ w, KeepsMailboxes w (s.takeRing p n v) ∧ w.mbxState n = mbBusy ∧
      (w.mbx n).copied = (List.range (reqLen (s.reqWord n 0) + 1)).map (s.reqWord n) ∧
      w.fld F.SYS_MBX_STAT_port n = (if p = .link then 1 else 0) ∧ w.mem = s.mem := by
  unfold State.takeRing
  extract_lets hdr len u byTrivet l src w x
  have hl : l = (List.range (reqLen (s.reqWord n 0) + 1)).map (s.reqWord n) := if_pos hlen
  have hcopied : (x.mbx n).copied = l := congrArg MbxSt.copied (u.mbx_setMbx n _)
  refine ⟨x, ?_, State.fld_setFld_same w F.SYS_MBX_STAT_state n mbBusy (by decide), hcopied.trans hl, ?_, rfl⟩
  · rw [if_neg (Nat.not_lt.2 hlen)]
    exact (x.trivetServe_keeps _ _).ite (((KeepsMailboxes.refl x).stageRsp _ _).ite (State.wakeDomain_keeps (.refl x) _))
  · refine (State.fld_setFld_apart w F.SYS_MBX_STAT_state _ n n mbBusy (by decide)).trans ?_
    refine (State.fld_setFld_same s F.SYS_MBX_STAT_port n _ (by decide)).trans ?_
    split <;> rfl

theorem execMailboxRing_of_busy {s : State} {n : Nat} (p : Port) (hn : n < 8) (hbusy : s.mbxState n = mbBusy) :
    execMailboxRing p n s = .next (s.setFld F.SYS_MBX_STAT_collide n 1) := by
  rw [execMailboxRing, if_pos hn, State.ring, if_pos hbusy]

theorem execMailboxRing_of_free {s : State} {n : Nat} (p : Port) (hn : n < 8) (hfree : s.mbxState n ≠ mbBusy) :
    execMailboxRing p n s = .next (s.takeRing p n none) := by
  rw [execMailboxRing, if_pos hn, State.ring, if_neg hfree]

theorem execCommandFinish_of_staged {s : State} {n : Nat} {r : Rsp} (hn : n < 8) (hbusy : s.mbxState n = mbBusy)
    (hstaged : (s.mbx n).staged = some r) : execCommandFinish ⟨n, false⟩ s = .next (s.respond n r) := by
  simp [execCommandFinish, hn, hbusy, hstaged]

/-- A field of SYS_MBX_STAT is kept with the mailboxes. -/
theorem KeepsMailboxes.fld {s t : State} (h : KeepsMailboxes s t) {f : Fld} (hf : f.reg = .SYS_MBX_STAT) (i : Nat) :
    t.fld f i = s.fld f i := by
  rw [State.fld, State.fld, hf, h.stat]

/-- The first mailbox that waits, counted cyclically after the one served last (R85). -/
theorem State.nextMbx_iff (s : State) (n : Nat) : s.nextMbx = some n ↔ ∃ i < 7, n = (s.sys.served + 1 + i) % 7 ∧
    s.waits n = true ∧ ∀ j < i, s.waits ((s.sys.served + 1 + j) % 7) = false := by
  simp only [State.nextMbx, List.find?_map, Option.map_eq_some_iff, List.find?_range_eq_some, Function.comp_apply,
    Bool.not_eq_true', List.mem_range]
  constructor
  · rintro ⟨i, ⟨hwaits, hi, hbefore⟩, rfl⟩
    exact ⟨i, hi, rfl, hwaits, hbefore⟩
  · rintro ⟨i, hi, rfl, hwaits, hbefore⟩
    exact ⟨i, ⟨hwaits, hi, hbefore⟩, rfl⟩

/-- Settles O50, by what a taken ring and a response leave of the mailbox. That an overlong ring answers ST_BAD_ARG in every
state, and that a command's response is staged until its finish, are the model's choice (log entries 139 and 11). -/
theorem mailboxesMoveByTheirTable : Obligations.MailboxesMoveByTheirTable := by
  refine ⟨fun p n s hn hfree hlen => ?ring, fun p n s hn hfree hlen => ?overlong, fun p n s hn hbusy => ?collide,
    fun n s r hn hbusy hstaged hst hlen => ?finish, fun p n s hn => ⟨fun hdone => ?_, fun hother => ?_⟩, State.nextMbx_iff⟩
  case ring =>
    obtain ⟨w, hkeeps, hbusy, hcopied, hport, hmem⟩ := State.takeRing_short p none hlen
    exact ⟨_, execMailboxRing_of_free p hn hfree, (hkeeps.fld rfl n).trans hbusy, (hkeeps.copied n).trans hcopied,
      (hkeeps.fld rfl n).trans hport, sameBytes_of_mem (hkeeps.mem.trans hmem)⟩
  case overlong =>
    obtain ⟨w, b, hring, hmem⟩ := State.takeRing_long p none hlen
    have hst : stBadArg < 256 := by decide
    obtain ⟨hstatus, hlength⟩ := w.respond_header n (r := { status := stBadArg, trivet := b }) hst (Nat.zero_lt_succ 63)
    refine ⟨_, (execMailboxRing_of_free p hn hfree).trans (congrArg _ hring), State.respond_mbxState rfl,
      State.respond_last_status rfl hst, hstatus, hlength, fun a => ?_⟩
    exact (State.respond_sameBytes rfl a).trans (State.byte_congr hmem a)
  case collide =>
    exact ⟨execMailboxRing_of_busy p hn hbusy, (State.fld_setFld_apart s _ _ n n 1 (by decide)).trans hbusy⟩
  case finish =>
    obtain ⟨hstatus, hlength⟩ := s.respond_header n hst hlen
    exact ⟨_, execCommandFinish_of_staged hn hbusy hstaged, State.respond_mbxState rfl, State.respond_last_status rfl hst,
      State.respond_mbx_done rfl hn, hstatus, hlength, fun k hk => s.respond_word hk, State.respond_sameBytes rfl⟩
  · show execMailboxAck p n s = _
    rw [execMailboxAck, if_pos hn, State.ackMbx, if_pos hdone]
  · show execMailboxAck p n s = _
    rw [execMailboxAck, if_pos hn, State.ackMbx, if_neg hother]

/-! ### The strobes' claims (R94) -/

/-- A claim that its caller does not hold yet, and that meets an index of another owner, answers ST_HELD and changes no
claim. -/
theorem execResClaim_held {q : Req} {s : State} {i j : Nat} (hpre : s.precheck specResClaim q = none)
    (hok : resBad q = false) (hi : i ∈ resIdx q) (hmine : s.holds q.mbx (resType q) i = false)
    (hj : j ∈ claimMeets (resType q) (resIdx q)) (hother : s.otherHolds q.mbx (resType q) j = true) :
    ∃ ws, execResClaim q s = .next (s.stageRsp q.mbx { status := stHeld, words := ws }) := by
  have hall : (resIdx q).all (fun i => s.holds q.mbx (resType q) i) = false :=
    List.all_eq_false.2 ⟨i, hi, by simp [hmine]⟩
  obtain ⟨k, hk⟩ := Option.isSome_iff_exists.1 (List.find?_isSome.2 ⟨j, hj, hother⟩)
  refine ⟨[s.ownerWord (resType q) k], ?_⟩
  rw [execResClaim, serve_ok _ hpre]
  simp [svcResClaim, hok, hall, hk, State.rspHeld, specResClaim]

theorem resIdx_single {q : Req} (hlen : resLen q = 1) : resIdx q = [resFirst q] := by
  simp [resIdx, hlen]

/-- Settles O51: index 4 meets every quadrant's strobe, and each of those meets index 4. -/
theorem strobeClaimsConflict : Obligations.StrobeClaimsConflict := by
  refine ⟨fun q s k hpre hok hty hfirst hlen hmine hk hother => ?_,
    fun q s hpre hok hty hfirst hlen hmine hother => ?_⟩
  · refine execResClaim_held (i := 4) (j := k) hpre hok ?_ (hty ▸ hmine) ?_ (hty ▸ hother)
    · simp [resIdx_single hlen, hfirst]
    · rw [resIdx_single hlen, hfirst, hty]
      simp [claimMeets]
      omega
  · refine execResClaim_held (i := resFirst q) (j := 4) hpre hok ?_ (hty ▸ hmine) ?_ (hty ▸ hother)
    · simp [resIdx_single hlen]
    · rw [resIdx_single hlen, hty]
      simp [claimMeets, hfirst]

end Sys2Proof.Machine
end

section
/-! PROOFS. Chapter 02, events and frames: an event enters the ring; the frames of CSPI and the management messages of the
link. -/

namespace Sys2Proof.Machine

open Host

/-! ### Words of memory (R8) -/

theorem bytesWord_extract (w : Word) : bytesWord (w.extractLsb' 0 8) (w.extractLsb' 8 8) (w.extractLsb' 16 8)
    (w.extractLsb' 24 8) = w := by
  rw [bytesWord, BitVec.extractLsb'_append_extractLsb'_eq_extractLsb' (show 24 = 16 + 8 from rfl),
    BitVec.extractLsb'_append_extractLsb'_eq_extractLsb' (show 16 = 8 + 8 from rfl),
    BitVec.extractLsb'_append_extractLsb'_eq_extractLsb' (show 8 = 0 + 8 from rfl)]
  exact BitVec.extractLsb'_eq_self

theorem State.memWord_setMemWord_same (s : State) (a : Nat) (w : Word) : (s.setMemWord a w).memWord a = w := by
  simp [State.memWord, State.byte_setMemWord, bytesWord_extract]

theorem State.byte_setMemWord_outside (s : State) {a b : Nat} (w : Word) (h : b < a ∨ a + 4 ≤ b) :
    (s.setMemWord a w).byte b = s.byte b := by
  rw [State.byte_setMemWord, if_neg (by omega), if_neg (by omega), if_neg (by omega), if_neg (by omega)]

theorem State.byte_setMemWords_outside (ws : List Word) (s : State) (a : Nat) {b : Nat} (h : b < a ∨ a + 4 * ws.length ≤ b) :
    (s.setMemWords a ws).byte b = s.byte b := by
  induction ws generalizing s a with
  | nil => rfl
  | cons w ws ih =>
    simp only [List.length_cons] at h
    exact (ih (s.setMemWord a w) (a + 4) (by omega)).trans (s.byte_setMemWord_outside w (by omega))

theorem State.memWord_setMemWords (ws : List Word) (s : State) (a : Nat) {k : Nat} (hk : k < ws.length) :
    (s.setMemWords a ws).memWord (a + 4 * k) = ws[k] := by
  induction ws generalizing s a k with
  | nil => exact absurd hk (Nat.not_lt_zero k)
  | cons w ws ih =>
    cases k with
    | zero =>
      have hfirst : ∀ i < 4, ((s.setMemWord a w).setMemWords (a + 4) ws).byte (a + i) = (s.setMemWord a w).byte (a + i) :=
        fun i hi => State.byte_setMemWords_outside ws _ _ (by omega)
      refine Eq.trans ?_ (s.memWord_setMemWord_same a w)
      simp only [State.setMemWords, State.memWord, Nat.mul_zero, Nat.add_zero, hfirst 1 (by omega), hfirst 2 (by omega),
        hfirst 3 (by omega)]
      exact congrArg (bytesWord · _ _ _) (hfirst 0 (by omega))
    | succ k =>
      have haddr : a + 4 * (k + 1) = a + 4 + 4 * k := by omega
      rw [haddr]
      exact ih (s.setMemWord a w) (a + 4) (by simpa using hk)

theorem State.setMemWords_regs (ws : List Word) (s : State) (a : Nat) : (s.setMemWords a ws).regs = s.regs := by
  induction ws generalizing s a with
  | nil => rfl
  | cons w ws ih => exact ih (s.setMemWord a w) (a + 4)

theorem State.setMemWords_sys (ws : List Word) (s : State) (a : Nat) : (s.setMemWords a ws).sys = s.sys := by
  induction ws generalizing s a with
  | nil => rfl
  | cons w ws ih => exact ih (s.setMemWord a w) (a + 4)

/-! ### The record of an event (R98) -/

theorem bitAt_of_bits {w : Word} {n : Nat} {b : Bool} (h : bits w n n = b.toNat) : bitAt w n = b := by
  rw [bits_single] at h
  rw [Bool.eq_iff_iff, ← Bool.toNat_eq_one, h, Bool.toNat_eq_one]

section
variable {e : EvtRec} {code cls : Nat} {arg : Word} {cmd : Option Cmd} {sw : Bool} {t : T48} {seq : BitVec 16}
  (he : e = evtRec code cls arg cmd sw t seq)
include he

/-- Word 0 of a record: code, class, sw_ts, cmd, and with a command its tag and mailbox. -/
theorem evtRec_w0_fields : bits e.w0 15 0 = code % 65536 ∧ bits e.w0 31 29 = cls % 8 ∧ bits e.w0 28 28 = sw.toNat ∧
    bits e.w0 27 27 = cmd.isSome.toNat ∧
    ∀ c, cmd = some c → bits e.w0 23 16 = c.tag % 256 ∧ bits e.w0 26 24 = c.mbx % 8 := by
  subst he
  have hsw : (if sw then 2 ^ 28 else 0) = 2 ^ 28 * sw.toNat := by cases sw <;> rfl
  have hsw_le := Bool.toNat_le sw
  cases cmd with
  | none =>
    simp only [evtRec, bits_toWord, hsw, Option.isSome_none, Bool.toNat_false, reduceCtorEq, false_implies, implies_true,
      and_true]
    omega
  | some c =>
    simp only [evtRec, bits_toWord, hsw, Option.isSome_some, Bool.toNat_true, Option.some.injEq, forall_eq']
    omega

theorem evtRec_w1 : e.w1.toNat = t.toNat % 2 ^ 32 := by
  subst he
  exact BitVec.toNat_ofNat ..

/-- Word 2 of a record: the wraps and the sequence number. -/
theorem evtRec_w2_fields : bits e.w2 15 0 = t.toNat / 2 ^ 32 ∧ bits e.w2 31 16 = seq.toNat := by
  subst he
  have ht := t.isLt
  have hseq := seq.isLt
  simp only [evtRec, bits_toWord]
  omega

end

/-! ### Into the ring (R102, R103) -/

/-- The link's copy of an event changes the link and the note of the oldest event not carried. -/
theorem State.evtToLink_keeps (s : State) (e : EvtRec) :
    (s.evtToLink e).regs = s.regs ∧ (s.evtToLink e).mem = s.mem ∧ (s.evtToLink e).sys.evtSeq = s.sys.evtSeq := by
  unfold State.evtToLink
  split
  · extract_lets at_ src w
    split
    · unfold State.closeEvents
      extract_lets l
      split
      · exact ⟨rfl, rfl, rfl⟩
      · obtain ⟨hregs, hsys, hmem⟩ := State.sendFrame_sameBlock ({ w with link := { w.link with evtOpen := [] } } : State) 1
          (l.flatMap fun e => [e.w0, e.w1, e.w2, e.w3])
        exact ⟨hregs, hmem, congrArg SysSt.evtSeq hsys⟩
    · exact ⟨rfl, rfl, rfl⟩
  · split <;> exact ⟨rfl, rfl, rfl⟩

/-- With the ring made, an event is posted by its ring entry, and the sequence number rises. -/
theorem State.postAt_ring {s : State} (hmade : s.sys.ringMade = true) (t : T48) (code cls : Nat) (arg : Word)
    (cmd : Option Cmd) (sw : Bool) {e : EvtRec} (he : e = evtRec code cls arg cmd sw t s.sys.evtSeq) :
    (s.postAt t code cls arg cmd sw).regs = (s.ringWrite e).regs ∧ (s.postAt t code cls arg cmd sw).mem = (s.ringWrite e).mem ∧
      (s.postAt t code cls arg cmd sw).sys.evtSeq = (s.ringWrite e).sys.evtSeq + 1 := by
  subst he
  unfold State.postAt
  extract_lets e u w
  have hu : u = s.ringWrite e := if_pos hmade
  obtain ⟨hregs, hmem, hseq⟩ := u.evtToLink_keeps e
  rw [← hu]
  exact ⟨hregs, hmem, congrArg (· + 1) hseq⟩

section
variable {s : State} {e : EvtRec} {size wr rd a : Nat} (hsize : size = 2 ^ s.fld F.SYS_EVT_CTL_size_log2)
  (hwr : wr = s.fld F.SYS_EVT_WR_wr % size) (hrd : rd = s.fld F.SYS_EVT_RD_rd % size)
  (ha : a = (s.reg .SYS_EVT_BASE 0).toNat + 16 * wr)
include hsize hwr hrd ha

/-- An entry in a ring that has room. -/
theorem State.ringWrite_room (hroom : (wr + 1) % size ≠ rd) : s.ringWrite e =
    ((s.setMemWords a [e.w0, e.w1, e.w2, e.w3]).setFld F.SYS_EVT_WR_wr 0 ((wr + 1) % size)).setFld F.SYS_IRQ_STAT_evt 0 1 := by
  subst ha hrd hwr hsize
  simp only [State.ringWrite, if_neg hroom]

/-- An entry in a full ring: the oldest is lost first. -/
theorem State.ringWrite_full (hfull : (wr + 1) % size = rd) : s.ringWrite e =
    (((((s.setMemWords a [e.w0, e.w1, e.w2, e.w3]).setFld F.SYS_EVT_RD_rd 0 ((rd + 1) % size)).setFld
      F.SYS_EVT_CTL_overrun 0 1).setFld F.SYS_IRQ_STAT_evt_overrun 0 1).setFld F.SYS_EVT_WR_wr 0 ((wr + 1) % size)).setFld
      F.SYS_IRQ_STAT_evt 0 1 := by
  subst ha hrd hwr hsize
  simp only [State.ringWrite, if_pos hfull]

theorem State.ringWrite_mem : (s.ringWrite e).mem = (s.setMemWords a [e.w0, e.w1, e.w2, e.w3]).mem := by
  by_cases h : (wr + 1) % size = rd
  · rw [State.ringWrite_full hsize hwr hrd ha h]
    simp only [State.setFld_mem]
  · rw [State.ringWrite_room hsize hwr hrd ha h]
    simp only [State.setFld_mem]

theorem State.ringWrite_sys : (s.ringWrite e).sys = s.sys := by
  by_cases h : (wr + 1) % size = rd
  · rw [State.ringWrite_full hsize hwr hrd ha h]
    simp only [State.setFld_sys, State.setMemWords_sys]
  · rw [State.ringWrite_room hsize hwr hrd ha h]
    simp only [State.setFld_sys, State.setMemWords_sys]

theorem State.ringWrite_regsBut :
    RegsBut [(.SYS_EVT_WR, 0), (.SYS_EVT_RD, 0), (.SYS_EVT_CTL, 0), (.SYS_IRQ_STAT, 0)] s (s.ringWrite e) := by
  have hmem := (RegsBut.refl [(.SYS_EVT_WR, 0), (.SYS_EVT_RD, 0), (.SYS_EVT_CTL, 0), (.SYS_IRQ_STAT, 0)] s).of_regs
    (s.setMemWords_regs [e.w0, e.w1, e.w2, e.w3] a)
  by_cases h : (wr + 1) % size = rd
  · rw [State.ringWrite_full hsize hwr hrd ha h]
    exact ((((hmem.setFld (by decide) _).setFld (by decide) _).setFld (by decide) _).setFld (by decide) _).setFld (by decide) _
  · rw [State.ringWrite_room hsize hwr hrd ha h]
    exact (hmem.setFld (by decide) _).setFld (by decide) _

theorem State.ringWrite_evt : (s.ringWrite e).fld F.SYS_IRQ_STAT_evt = 1 := by
  by_cases h : (wr + 1) % size = rd
  · rw [State.ringWrite_full hsize hwr hrd ha h]
    exact State.fld_setFld_same _ _ _ _ (by decide)
  · rw [State.ringWrite_room hsize hwr hrd ha h]
    exact State.fld_setFld_same _ _ _ _ (by decide)

/-- wr moves on by one. -/
theorem State.ringWrite_wr (hle : size ≤ 2 ^ 16) : (s.ringWrite e).fld F.SYS_EVT_WR_wr = (wr + 1) % size := by
  have hpos : 0 < size := hsize ▸ Nat.two_pow_pos _
  have hlt : (wr + 1) % size < 2 ^ F.SYS_EVT_WR_wr.width := (Nat.mod_lt _ hpos).trans_le hle
  by_cases h : (wr + 1) % size = rd
  · rw [State.ringWrite_full hsize hwr hrd ha h, State.fld_setFld_apart _ _ _ _ _ _ (by decide),
      State.fld_setFld_same _ _ _ _ (by decide), Nat.mod_eq_of_lt hlt]
  · rw [State.ringWrite_room hsize hwr hrd ha h, State.fld_setFld_apart _ _ _ _ _ _ (by decide),
      State.fld_setFld_same _ _ _ _ (by decide), Nat.mod_eq_of_lt hlt]

/-- rd is the oldest entry that stands: a full ring has moved it on and set the two overruns. -/
theorem State.ringWrite_overrun (hle : size ≤ 2 ^ 16) (hfull : (wr + 1) % size = rd) :
    (s.ringWrite e).fld F.SYS_EVT_RD_rd = (rd + 1) % size ∧ (s.ringWrite e).fld F.SYS_EVT_CTL_overrun = 1 ∧
      (s.ringWrite e).fld F.SYS_IRQ_STAT_evt_overrun = 1 := by
  have hpos : 0 < size := hsize ▸ Nat.two_pow_pos _
  have hlt : (rd + 1) % size < 2 ^ F.SYS_EVT_RD_rd.width := (Nat.mod_lt _ hpos).trans_le hle
  rw [State.ringWrite_full hsize hwr hrd ha hfull]
  refine ⟨?_, ?_, ?_⟩
  · rw [State.fld_setFld_apart _ _ _ _ _ _ (by decide), State.fld_setFld_apart _ _ _ _ _ _ (by decide),
      State.fld_setFld_apart _ _ _ _ _ _ (by decide), State.fld_setFld_apart _ _ _ _ _ _ (by decide),
      State.fld_setFld_same _ _ _ _ (by decide), Nat.mod_eq_of_lt hlt]
  · rw [State.fld_setFld_apart _ _ _ _ _ _ (by decide), State.fld_setFld_apart _ _ _ _ _ _ (by decide),
      State.fld_setFld_apart _ _ _ _ _ _ (by decide), State.fld_setFld_same _ _ _ _ (by decide)]
    rfl
  · rw [State.fld_setFld_apart _ _ _ _ _ _ (by decide), State.fld_setFld_apart _ _ _ _ _ _ (by decide),
      State.fld_setFld_same _ _ _ _ (by decide)]
    rfl

theorem State.ringWrite_room_regsBut (hroom : (wr + 1) % size ≠ rd) :
    RegsBut [(.SYS_EVT_WR, 0), (.SYS_IRQ_STAT, 0)] s (s.ringWrite e) := by
  rw [State.ringWrite_room hsize hwr hrd ha hroom]
  exact (((RegsBut.refl _ s).of_regs (s.setMemWords_regs [e.w0, e.w1, e.w2, e.w3] a)).setFld (by decide) _).setFld (by decide) _

end

/-- Settles O52: the record stands in memory at the entry, and the registers are the ring's. The ring's place and its overrun
are R102's; that an rd at or above the size counts modulo the size is the model's choice (log entry 139). -/
theorem postedEventsEnterTheRing : Obligations.PostedEventsEnterTheRing := by
  intro s u t code cls arg cmd sw size wr rd a hmade hlog hu hsize hwr hrd ha
  obtain ⟨e, he⟩ : ∃ e, e = evtRec code cls arg cmd sw t s.sys.evtSeq := ⟨_, rfl⟩
  obtain ⟨hregs, hmem, hseq⟩ := State.postAt_ring hmade t code cls arg cmd sw he
  rw [← hu] at hregs hmem hseq
  have hle : size ≤ 2 ^ 16 := hsize ▸ Nat.pow_le_pow_right (by decide) hlog
  have hbytes : ∀ b, u.byte b = (s.setMemWords a [e.w0, e.w1, e.w2, e.w3]).byte b :=
    fun b => State.byte_congr (hmem.trans (State.ringWrite_mem hsize hwr hrd ha)) b
  have hword : ∀ k (hk : k < 4), u.memWord (a + 4 * k) = [e.w0, e.w1, e.w2, e.w3][k] := fun k hk => by
    rw [← State.memWord_setMemWords [e.w0, e.w1, e.w2, e.w3] s a hk]
    simp only [State.memWord, hbytes]
  have h0 : u.memWord a = e.w0 := hword 0 (by decide)
  have h1 : u.memWord (a + 4) = e.w1 := hword 1 (by decide)
  have h2 : u.memWord (a + 8) = e.w2 := hword 2 (by decide)
  have h3 : u.memWord (a + 12) = e.w3 := hword 3 (by decide)
  have harg : e.w3 = arg := by rw [he]; rfl
  rw [h0, h1, h2, h3]
  obtain ⟨hcode, hcls, hsw, hissome, hcmd⟩ := evtRec_w0_fields he
  obtain ⟨hwraps, hseqno⟩ := evtRec_w2_fields he
  refine ⟨hcode, hcls, bitAt_of_bits hsw, bitAt_of_bits hissome, hcmd, evtRec_w1 he, hwraps, hseqno, harg, ?seq, ?wr, ?evt,
    fun hfull => ?full, fun hroom => ?room, fun b hb => ?bytes, ?regs⟩
  case seq => rw [hseq, State.ringWrite_sys hsize hwr hrd ha]
  case wr => rw [State.fld_congr hregs, State.ringWrite_wr hsize hwr hrd ha hle]
  case evt => rw [State.fld_congr hregs, State.ringWrite_evt hsize hwr hrd ha]
  case full =>
    rw [State.fld_congr hregs, State.fld_congr hregs, State.fld_congr hregs]
    exact State.ringWrite_overrun hsize hwr hrd ha hle hfull
  case room =>
    have hbut := (State.ringWrite_room_regsBut (e := e) hsize hwr hrd ha hroom).of_regs hregs
    exact ⟨hbut _ _ (by decide), hbut _ _ (by decide)⟩
  case bytes => exact (hbytes b).trans (State.byte_setMemWords_outside _ s a hb)
  case regs => exact (State.ringWrite_regsBut hsize hwr hrd ha).of_regs hregs

/-! ### Frames of CSPI (R60 to R65) -/

section
variable {s : State} (hup : s.cspiUp = true)
include hup

theorem execCspiWrite_word {addr : Nat} (v : Word) (haddr : addr < 2 ^ 24) :
    execCspiWrite addr 32 [v] s = .next ((s.cspiPut addr v).setMiso []) := by
  have hstep : execCspiWrite addr 32 [v] s = .next ((s.cspiPut (addr % 2 ^ 24) v).setMiso []) := if_pos hup
  rw [hstep, Nat.mod_eq_of_lt haddr]

theorem execCspiRead_word {addr : Nat} (haddr : addr < 2 ^ 24) :
    execCspiRead addr 1 none s = .next ((s.cspiGet addr).2.setMiso [(s.cspiGet addr).1]) := by
  have hstep : execCspiRead addr 1 none s =
      .next ((s.cspiGet (addr % 2 ^ 24)).2.setMiso [(s.cspiGet (addr % 2 ^ 24)).1]) := if_pos hup
  rw [hstep, Nat.mod_eq_of_lt haddr]

end

/-- An address of the window that names a Larder tile is no direct register's. -/
theorem State.cspiPut_window {s : State} {addr : Nat} (v : Word) (hlo : 0x800000 ≤ addr)
    (hw : s.writable .cspi (s.winByte addr)) : s.cspiPut addr v = s.setMemWord (s.winByte addr) v := by
  obtain ⟨t, htarget, -⟩ := id hw
  rw [State.cspiPut, if_neg (by omega), if_neg (by omega)]
  dsimp only
  rw [if_neg (s.target_larder_high _ t htarget), s.writeMem_ok _ _ v hw]

theorem State.cspiGet_window {s : State} {addr : Nat} (hlo : 0x800000 ≤ addr) (hr : s.readableMem (s.winByte addr)) :
    s.cspiGet addr = (s.memWord (s.winByte addr), s) := by
  obtain ⟨t, htarget, -⟩ := id hr
  rw [State.cspiGet, if_neg (by omega), if_neg (by omega), if_neg (s.target_larder_high _ t htarget),
    s.readMem_ok _ _ hr, wordState]

theorem State.cspiPut_plain {s : State} {addr : Nat} (v : Word) {r : RegName} {i : Nat} (hlo : addr < 0x4000)
    (ha : plainAddr (4 * addr)) (hreg : s.regAt .cspi (4 * addr) = some (r, i)) (hr : r.plainWrite = true)
    (hres : r.resource i = none) (htargets : s.targets .cspi r i = [i]) :
    s.cspiPut addr v = s.setReg r i (r.written (s.reg r i) v) := by
  rw [State.cspiPut, if_pos hlo, s.writeReg_plain _ _ v r i ha hreg hr hres htargets]

/-! ### Management messages of the link (R67 to R70) -/

section
variable {s u : State} (hopen : s.rxOpen = true)
include hopen

theorem execRegWr_word {a : Nat} (v : Word) (halign : a % 4 = 0) (ha : a < 2 ^ 40) (hu : u = s.received 0 (len8Of 4)) :
    execRegWr a 1 [v] s = .next (u.writeAt .link a v).2 := by
  have haddr : a % 2 ^ 40 / 4 * 4 = a := by omega
  rw [execRegWr, if_pos hopen, if_neg (by simp), haddr, hu]
  rfl

theorem execRegRd_word {a : Nat} (halign : a % 4 = 0) (ha : a < 2 ^ 40) (hu : u = s.received 0 (len8Of 3))
    (hr : u.readableMem a) : execRegRd a 1 s = .next (u.sendFrame 0
      [toWord (0x12 + 65536 * (a / 2 ^ 32)), toWord a, toWord 1, toWord 0, u.memWord a]) := by
  have haddr : a % 2 ^ 40 / 4 * 4 = a := by omega
  obtain ⟨t, htarget, -⟩ := id hr
  have hread : u.readAt .link a = (u.memWord a, 0, u) := by
    rw [State.readAt, if_neg (u.target_larder_high a t htarget), u.readMem_ok _ a hr]
  rw [execRegRd, if_pos hopen, if_neg (by simp), haddr, ← hu]
  simp [State.linkReads, hread]

/-- A response that a channel waits for is that channel's answer. -/
theorem execRegRdRsp_of_find {a n ch : Nat} {data : List Word} (hn : 1 ≤ n) (hle : n ≤ 256) (hdata : data.length = n)
    (hu : u = s.received 0 (len8Of (4 + n)))
    (hch : (List.range 32).find? (fun k => decide ((u.dma k).want = some (a, n))) = some ch) :
    execRegRdRsp a n 0 data s = .next (u.remoteAnswer ch 0 data) := by
  subst hu
  rw [execRegRdRsp, if_pos hopen, if_neg (by omega)]
  simp only [hch]

section
variable {n : Nat} (hn : n < 8) (h : Word) {args : List Word} (hargs : args.length ≤ 63)
  (hu : u = s.received 0 (len8Of (2 + args.length)))
include hn hargs hu

theorem execMbxReq_of_busy {w : State} (hw : w = (u.putRequest n (h :: args)).setFld F.SYS_MBX_STAT_collide n 1)
    (hbusy : u.mbxState n = mbBusy) : execMbxReq n h args s =
      .next (w.sendRsp n (w.rspHeader (reqTag h) { status := stBusy, trivet := decide (n = 7) || !w.coreUp }) []) := by
  subst hw hu
  rw [execMbxReq, if_pos ⟨hopen, hn⟩, if_neg (Nat.not_lt.2 hargs)]
  exact if_pos hbusy

theorem execMbxReq_of_repeated (hfree : u.mbxState n ≠ mbBusy) (hlast : (u.mbx n).lastLink = some (h :: args)) :
    execMbxReq n h args s = .next (u.resend n) := by
  subst hu
  rw [execMbxReq, if_pos ⟨hopen, hn⟩, if_neg (Nat.not_lt.2 hargs)]
  exact (if_neg hfree).trans (if_pos hlast)

theorem execMbxReq_of_new (hfree : u.mbxState n ≠ mbBusy) (hlast : (u.mbx n).lastLink ≠ some (h :: args)) :
    execMbxReq n h args s = .next ((u.putRequest n (h :: args)).takeRing .link n (some (h :: args))) := by
  subst hu
  rw [execMbxReq, if_pos ⟨hopen, hn⟩, if_neg (Nat.not_lt.2 hargs)]
  exact (if_neg hfree).trans (if_neg hlast)

end

end

/-- The end of a barrier. -/
theorem State.remoteAnswer_barrier {u : State} {ch : Nat} {c : DmaCh} (hc : c = u.dma ch) (data : List Word)
    (hphase : c.phase = 2) : u.remoteAnswer ch 0 data =
      (u.setDma ch { c with phase := 3, want := none, issued := none, unacked := none }).dmaStat := by
  subst hc
  simp [State.remoteAnswer, hphase]

/-- The last words of a remote read. -/
theorem State.remoteAnswer_last {u : State} {ch : Nat} {c : DmaCh} (hc : c = u.dma ch) {data : List Word}
    (hphase : c.phase ≠ 2) (hlen : (descOf c.desc).len / 4 ≤ c.remote.length + data.length) : u.remoteAnswer ch 0 data =
      (u.setDma ch { c with remote := c.remote ++ data, want := none, issued := none, phase := 1 }).dmaStat := by
  subst hc
  simp [State.remoteAnswer, hphase, Nat.not_lt.2 hlen]

/-- Settles O22, by the law of each frame. -/
theorem hostFramesComplete : Obligations.HostFramesComplete := by
  refine ⟨fun addr v s r i hup hlo ha hreg hr hres htargets => ?cspiReg, fun addr v s hup hlo hhi hw => ?cspiMem,
    fun addr s hup hlo hhi hr => ?cspiRead, fun s hup => if_pos hup, fun op s hup h2 hB h5 => if_pos ⟨hup, h2, hB, h5⟩,
    fun a v s u r i hopen halign ha hu hreg hr hres htargets => ?linkReg, fun a v s u hopen halign ha hu hw => ?linkMem,
    fun a s u hopen halign ha hu hr => execRegRd_word hopen halign ha hu hr,
    fun a n data s u ch c hopen hn hle hdata hu hch hc => ⟨fun hphase => ?barrier, fun hphase hlen => ?remote⟩,
    fun n h args s u w hopen hn hargs hu hw => ⟨execMbxReq_of_busy hopen hn h hargs hu hw,
      execMbxReq_of_repeated hopen hn h hargs hu, execMbxReq_of_new hopen hn h hargs hu⟩⟩
  case cspiReg =>
    exact (execCspiWrite_word hup v (by omega)).trans (by rw [State.cspiPut_plain v hlo ha hreg hr hres htargets])
  case cspiMem =>
    exact (execCspiWrite_word hup v hhi).trans (by rw [State.cspiPut_window v hlo hw])
  case cspiRead =>
    exact (execCspiRead_word hup hhi).trans (by rw [State.cspiGet_window hlo hr])
  case linkReg =>
    refine (execRegWr_word hopen v halign (by omega) hu).trans ?_
    rw [State.writeAt, if_pos (by omega), u.writeReg_plain _ a v r i ha hreg hr hres htargets]
  case linkMem =>
    obtain ⟨t, htarget, -⟩ := id hw
    refine (execRegWr_word hopen v halign ha hu).trans ?_
    rw [State.writeAt, if_neg (u.target_larder_high a t htarget), u.writeMem_ok _ a v hw]
  case barrier =>
    exact (execRegRdRsp_of_find hopen hn hle hdata hu hch).trans (by rw [State.remoteAnswer_barrier hc data hphase])
  case remote =>
    exact (execRegRdRsp_of_find hopen hn hle hdata hu hch).trans
      (by rw [State.remoteAnswer_last hc hphase (hdata ▸ hlen)])

end Sys2Proof.Machine
end

section
/-! PROOFS. Chapters 03 to 05 and 09, the receive rows: overloads and their windows, noise floors and beam meters, the end
of an RFFE transaction and of a fade, and saturation. Each law takes what its row acts on by hypothesis and gives the one
next state. -/

namespace Sys2Proof.Machine

open Host

/-! ### Overload (R126 to R131) -/

theorem execOverloadStart_of_short {s : State} {p n : Nat} (c : Nat) (high : Bool) (t : T48) (hshort : n < s.runOf p) :
    execOverloadStart p c high ⟨t, n⟩ s = .next s :=
  if_neg fun ⟨_, _, _, hrun⟩ => absurd hrun (Nat.not_le.2 hshort)

section
variable {s u : State} {p c n : Nat} {t : T48} (hp : p < 64) (hc : c < 2) (hsampling : s.sampling p = true)
  (hrun : s.runOf p ≤ n) (hu : u = s.elapseTo t) (high : Bool)
include hp hc hsampling hrun hu

/-- A full run is a new run of the event in progress on its component, whose loop filter it resets (R127). -/
theorem execOverloadStart_of_event {e : OvrEv} (hev : u.ovrEv (2 * p + c) = some e) :
    execOverloadStart p c high ⟨t, n⟩ s = .next (u.setOvrEv (2 * p + c) (some { e with
      runs := e.runs ++ [(u.cycleOf t, high)], last := u.cycleOf t + (u.runOf p - 1 : Nat), held := true })) := by
  subst hu
  rw [execOverloadStart, if_pos ⟨hp, hc, hsampling, hrun⟩]
  simp only [hev]

/-- A full run starts an event where none is in progress (R126). -/
theorem execOverloadStart_of_quiet (hev : u.ovrEv (2 * p + c) = none) :
    execOverloadStart p c high ⟨t, n⟩ s =
      .next (u.overload p c high (u.cycleOf t) (u.cycleOf t + (u.runOf p - 1 : Nat))) := by
  subst hu
  rw [execOverloadStart, if_pos ⟨hp, hc, hsampling, hrun⟩]
  simp only [hev]

end

section
variable {s : State} {p c : Nat} {e : OvrEv} (hev : s.ovrEv (2 * p + c) = some e)
include hev

theorem execLoopFilterRelease_of_held (hheld : e.held = true) :
    execLoopFilterRelease p c s =
      .next ((s.elapseTo (s.cycleTime (e.last + 16))).setOvrEv (2 * p + c) (some { e with held := false })) := by
  simp only [execLoopFilterRelease, hev]
  exact if_pos hheld

theorem execOverloadEnd_of_event {t : T48} {u : State} (hu : u = s.elapseTo (tAdd t (fsNs (s.quietOf p)))) :
    execOverloadEnd p c t s = .next ((othersOf p).foldl (fun s x => s.calm (u.cycleOf t) x)
      ((u.setOvrEv (2 * p + c) none).keepClip (2 * p + c) e (u.cycleOf t))) := by
  subst hu
  simp only [execOverloadEnd, hev]

end

theorem execDisturbanceWindowClose_of_idle {s : State} {p : Nat} {w : DistWin} (hwin : s.distWin p = some w)
    (hidle : w.running = 0) : execDisturbanceWindowClose p s =
      .next (((s.elapseTo (s.cycleTime w.close)).keepWin p w).setDistWin p none) := by
  simp only [execDisturbanceWindowClose, hwin]
  exact if_pos hidle

/-! ### Noise floors (R125, R136 to R138) -/

/-- A clean block counts for the floor, and leaves a DC loop alone that is held. -/
theorem State.blockDone_of_dcHeld {s : State} {p sum : Nat} (hclean : s.pathQualifies p = true)
    (hheld : (s.nfCount p sum).dcHeld p = true) (i q : Int) (refEnd : Bool) :
    s.blockDone p sum i q refEnd = s.nfCount p sum := by
  rw [State.blockDone, if_pos hclean]
  exact if_neg fun ⟨_, _, hfree⟩ => absurd hheld (by simp [hfree])

/-- A residual at the end of the reference range, of a running path whose loop is free, rejects the path. -/
theorem State.blockDone_of_refEnd {s : State} {p : Nat} (hdirty : s.pathQualifies p = false)
    (hstate : s.fld F.RX_PATH_STAT_state p = 2) (hflags : s.flaggedNow p = false) (hfree : s.dcHeld p = false) (sum : Nat)
    (i q : Int) : s.blockDone p sum i q true =
      (s.setReg .RX_DC_STAT p (pack16 (unsN 16 i) (unsN 16 q))).rejectPath 12 p false 0xC1 := by
  rw [State.blockDone, if_neg (Bool.eq_false_iff.1 hdirty)]
  exact if_pos ⟨hstate, hflags, hfree⟩

section
variable {s : State} {p : Nat} (hp : p < 64) (sum : Nat) (i q : Int) (refEnd : Bool)
include hp

theorem execNoiseFloorBlock_of_sampling (hsampling : s.sampling p = true) :
    execNoiseFloorBlock p () sum i q refEnd s = .next (s.blockDone p sum i q refEnd) :=
  if_pos ⟨hp, hsampling⟩

/-- In HOLD the block wakes the path's side, runs, and lets the side rest again. -/
theorem execNoiseFloorBlock_of_mayWake {k : Nat} {u : State} (hidle : s.sampling p = false) (hk : k = 2 * quadOf p)
    (hwake : s.mayWake k = true) (hu : u = s.wakeFor k) : execNoiseFloorBlock p () sum i q refEnd s =
      .next (((u.elapse (u.blockNs p)).blockDone p sum i q refEnd).restSide k) := by
  subst hk hu
  rw [execNoiseFloorBlock, if_neg (by simp [hidle]), if_pos ⟨hp, hwake⟩]

end

/-- Path n is unit n, RX beam n is unit n + 64. -/
theorem execNoiseFloorStale_of_counted {s : State} {beam : Bool} {n u : Nat} {t : Int} (hn : n < 64)
    (hunit : n + (if beam then 64 else 0) = u) (hcounted : Store.get (fun _ => none) s.rx.counted u = some t) :
    execNoiseFloorStale beam n s =
      .next ((s.elapseTo (BitVec.ofInt 48 (t + (msec (s.nfStale u) : Nat)))).refreshNf u) := by
  subst hunit
  simp only [execNoiseFloorStale, hcounted]
  rw [if_pos hn]

/-! ### Beam meters (R194 to R196) -/

/-- A block with no exclusion and no flag counts for the floor when its samples qualify. -/
theorem execBeamMeterBlock_of_unflagged {s u : State} {b : Nat} (sum : Nat) (hb : b < 64)
    (hen : s.flag F.BEAM_RX_STAT_enabled b = true)
    (hu : u = ((s.setReg .BEAM_RX_PWR b (toWord (unsN 16 (nfOf ⟨sum, s.nfWin (64 + b)⟩) + 2 ^ 31))).bump
      F.BEAM_RX_EXCL_SMP_excl_samples b 0).setFlag F.BEAM_RX_STAT_sat b false) :
    execBeamMeterBlock b sum ⟨0, false, false, false, false, false⟩ s =
      .next (if u.beamQualifies b = true then (u.nfCount (64 + b) sum).searchRegs else u) := by
  subst hu
  rw [execBeamMeterBlock, if_pos ⟨hb, hen⟩]
  simp

/-! ### RFFE (R140 to R144) -/

theorem execRffeTransactionDone_of_xfer {s : State} {q : Nat} {x : RffeXfer} (hxfer : s.rffeXfer q = some x)
    (data : List Nat) (parityOk : Bool) : execRffeTransactionDone q data parityOk s =
      .next (((s.endBus q (s.busNs q x)).endXfer q x data parityOk).afterXfer q) := by
  simp only [execRffeTransactionDone, hxfer]

/-- The step of a running sequence ends: the next begins, or the sequence is done. -/
theorem execRffeTransactionDone_of_running {s u : State} {q n i : Nat} (hxfer : s.rffeXfer q = none)
    (hrunning : s.rffeRunning q = some (n, i)) (hu : u = s.endBus q (s.entryNs q ((s.rffeSeq q n).getD i 0)))
    (data : List Nat) (parityOk : Bool) : execRffeTransactionDone q data parityOk s =
      if i + 1 < (u.rffeSeq q n).length then .next ((u.setRunning q (some (n, i + 1))).beginBus q u.now)
      else .next (((((u.setRunning q none).setFld F.RFFE_STAT_seq_active q 0).setFld F.RFFE_STAT_busy q 0).seqDone
        q).releaseXfer q) := by
  subst hu
  simp only [execRffeTransactionDone, hxfer, hrunning]

/-! ### The end of a fade (R160) -/

/-- The banks swap, and the fade's command is reported to its mailbox. -/
theorem State.finishFade_of_mailbox (s : State) (q : Nat) {f : Fade} (hmbx : f.cmd.mbx < 8) :
    s.finishFade q f = (((s.setFade q none).setFld F.SIEVE_CFG_fading q 0).setFld F.SIEVE_CFG_active_bank q
      (1 - s.fld F.SIEVE_CFG_active_bank q)).sieveDone f.t stOk q true f.cmd :=
  if_pos hmbx

theorem execSieveFadeEnd_of_fade {s : State} {q : Nat} {f : Fade} (hfade : s.fade q = some f) :
    execSieveFadeEnd q s =
      .next ((s.elapseTo (s.cycleTime (s.fadeOver q f + groupCycles (s.fld F.SIEVE_CFG_preset q)))).finishFade q f) := by
  simp only [execSieveFadeEnd, hfade]

/-! ### Saturation (R201, R310) -/

section
variable {s : State} {p : Nat} (hp : p < 64) (hrun : s.sideState (2 * quadOf p + 1) = sRun)
include hp hrun

theorem execPathSumSaturation_of_run : execPathSumSaturation p s =
    .next (((s.bump F.TXS_SAT_CNT_sat_samples p).setFld F.TXS_STAT_sat p 1).postLimited 0x0303 p (toWord p) s.now) := by
  rw [execPathSumSaturation, if_pos ⟨hp, hrun⟩]

theorem execActuatorSaturation_of_run (hactive : s.flag F.DPD_CFG_bypass p = false)
    (hsat : dpdSum (s.dpdOf p).active (s.zLine p) ≠ dpdOut false (s.dpdOf p).active (s.zLine p)) :
    execActuatorSaturation p () s =
      .next (((s.bump F.DPD_SAT_CNT_sat_samples p).setFld F.DPD_EVT_sat p 1).postLimited 0x0508 p (toWord p) s.now) := by
  rw [execActuatorSaturation, if_pos ⟨hp, hactive, hrun, hsat⟩]

end

/-- Settles O30, by the law of each row. That a fade takes effect a group delay after its last faded sample time is the
model's choice (log entry 139, at R160). -/
theorem receivePathRowsComplete : Obligations.ReceivePathRowsComplete := by
  refine ⟨fun p c high t n s hp hc hsampling => ⟨execOverloadStart_of_short c high t, ?overload⟩,
    fun p c s e hev hheld => execLoopFilterRelease_of_held hev hheld,
    fun p c t s e u hev hu => execOverloadEnd_of_event hev hu,
    fun p s w hwin hidle => execDisturbanceWindowClose_of_idle hwin hidle,
    fun p sum i q e s hp hsampling hclean hheld => ?dcHeld,
    fun p i q sum s hp hsampling hdirty hstate hflags hfree => ?refEnd,
    fun p sum i q e s k u hp hidle hk hwake hu => execNoiseFloorBlock_of_mayWake hp sum i q e hidle hk hwake hu,
    fun n s t hn => ⟨execNoiseFloorStale_of_counted hn rfl, execNoiseFloorStale_of_counted hn rfl⟩,
    fun b sum s u hb hen hu => ?beamMeter,
    fun q d ok s => ⟨fun x hxfer => execRffeTransactionDone_of_xfer hxfer d ok, fun n i u hxfer hrunning hu => ?sequence⟩,
    fun q s f u hfade hmbx hu => ?fade,
    fun p s hp hrun => execPathSumSaturation_of_run hp hrun,
    fun p s hp hrun hactive hsat => execActuatorSaturation_of_run hp hrun hactive hsat⟩
  case overload =>
    rintro u f d hrun hu rfl rfl
    exact ⟨fun e hev => execOverloadStart_of_event hp hc hsampling hrun hu high hev,
      execOverloadStart_of_quiet hp hc hsampling hrun hu high⟩
  case dcHeld =>
    exact (execNoiseFloorBlock_of_sampling hp sum i q e hsampling).trans
      (by rw [State.blockDone_of_dcHeld hclean hheld])
  case refEnd =>
    exact (execNoiseFloorBlock_of_sampling hp sum i q true hsampling).trans
      (by rw [State.blockDone_of_refEnd hdirty hstate hflags hfree])
  case beamMeter =>
    have hstep : exec (.beamMeterBlock b sum ⟨0, false, false, false, false, false⟩) s = _ :=
      execBeamMeterBlock_of_unflagged sum hb hen hu
    exact ⟨fun hq => hstep.trans (by rw [if_pos hq]), fun hq => hstep.trans (by rw [if_neg (Bool.eq_false_iff.1 hq)])⟩
  case sequence =>
    have hstep : exec (.rffeTransactionDone q d ok) s = _ := execRffeTransactionDone_of_running hxfer hrunning hu d ok
    exact ⟨fun hmore => hstep.trans (if_pos hmore), fun hlast => hstep.trans (if_neg (Nat.not_lt.2 hlast))⟩
  case fade =>
    subst hu
    exact (execSieveFadeEnd_of_fade hfade).trans (by rw [State.finishFade_of_mailbox _ q hmbx])

end Sys2Proof.Machine
end

section
/-! PROOFS. Chapters 04, 05 and 11, sample arithmetic: division with halves to even, the clamp, r of a beam, the outputs of a
cross-fade, and the scrambler of a lane. Each function has its laws here; the statement is put together from them. -/

namespace Sys2Proof.Machine

/-! ### Division rounding halves to even (R151) -/

/-- Rounding down, where the remainder is at most half of b; a half is rounded down only to an even quotient. -/
theorem divHalfEven_of_down {a : Int} {b : Nat} (h : 2 * (a % b) < b ∨ (2 * (a % b) = b ∧ a / b % 2 = 0)) :
    divHalfEven a b = a / b := if_pos h

/-- Rounding up in every other case. -/
theorem divHalfEven_of_up {a : Int} {b : Nat} (h : ¬ (2 * (a % b) < b ∨ (2 * (a % b) = b ∧ a / b % 2 = 0))) :
    divHalfEven a b = a / b + 1 := if_neg h

/-- The quotient is a nearest integer, and an even one where a / b is a half. -/
theorem divHalfEven_nearest (a : Int) {b : Nat} (hb : 0 < b) :
    2 * (a - b * divHalfEven a b).natAbs ≤ b ∧
      (2 * (a - b * divHalfEven a b).natAbs = b → divHalfEven a b % 2 = 0) := by
  have hdiv : b * (a / b) + a % b = a := Int.mul_ediv_add_emod a b
  have hnonneg : 0 ≤ a % b := Int.emod_nonneg a (by omega)
  have hlt : a % b < b := Int.emod_lt_of_pos a (by omega)
  by_cases h : 2 * (a % b) < b ∨ (2 * (a % b) = b ∧ a / b % 2 = 0)
  · have herr : a - b * divHalfEven a b = a % b := by rw [divHalfEven_of_down h]; omega
    rw [herr, divHalfEven_of_down h]
    omega
  · have herr : a - b * divHalfEven a b = a % b - b := by rw [divHalfEven_of_up h, mul_add_one]; omega
    rw [herr, divHalfEven_of_up h]
    omega

/-- An integer lower bound of a / b bounds the rounded quotient. -/
theorem le_divHalfEven {a n : Int} {b : Nat} (hb : 0 < b) (h : b * n ≤ a) : n ≤ divHalfEven a b := by
  by_contra hlt
  have hstep : (b : Int) * (divHalfEven a b + 1) ≤ b * n := mul_le_mul_of_nonneg_left (by omega) (by omega)
  have hnear := (divHalfEven_nearest a hb).1
  rw [mul_add_one] at hstep
  omega

/-- An integer upper bound of a / b bounds the rounded quotient. -/
theorem divHalfEven_le {a n : Int} {b : Nat} (hb : 0 < b) (h : a ≤ b * n) : divHalfEven a b ≤ n := by
  by_contra hlt
  have hstep : (b : Int) * (n + 1) ≤ b * divHalfEven a b := mul_le_mul_of_nonneg_left (by omega) (by omega)
  have hnear := (divHalfEven_nearest a hb).1
  rw [mul_add_one] at hstep
  omega

/-! ### r of a beam (R183) -/

@[simp] theorem renormOf_zero (all : Nat) : renormOf all 0 = 0 := rfl

theorem renormOf_of_few {all kept : Nat} (hkept : 0 < kept) (h : 4 * kept < all) : renormOf all kept = 16384 := by
  rw [renormOf, if_neg (by omega), if_pos h]

/-- With at least a quarter kept, r is the rounded quotient. -/
theorem renormOf_of_quarter {all kept : Nat} (hkept : 0 < kept) (h : all ≤ 4 * kept) :
    renormOf all kept = (divHalfEven (4096 * all) kept).toNat := by
  rw [renormOf, if_neg (by omega), if_neg (by omega)]

theorem le_renormOf {all kept : Nat} (hkept : 0 < kept) (hle : kept ≤ all) (h : all ≤ 4 * kept) :
    4096 ≤ renormOf all kept := by
  have hlow : 4096 ≤ divHalfEven (4096 * all) kept := le_divHalfEven hkept (by omega)
  rw [renormOf_of_quarter hkept h]
  omega

theorem renormOf_le {all kept : Nat} (hkept : 0 < kept) (h : all ≤ 4 * kept) : renormOf all kept ≤ 16384 := by
  have hhigh : divHalfEven (4096 * all) kept ≤ 16384 := divHalfEven_le hkept (by omega)
  rw [renormOf_of_quarter hkept h]
  omega

theorem renormOf_self {kept : Nat} (hkept : 0 < kept) : renormOf kept kept = 4096 := by
  have hhigh : divHalfEven (4096 * kept) kept ≤ 4096 := divHalfEven_le hkept (by omega)
  have hlow := le_renormOf hkept le_rfl (by omega)
  rw [renormOf_of_quarter hkept (by omega)] at hlow ⊢
  omega

/-! ### The clamp, beams and path sums (R183, R200) -/

theorem clampI_eq_max_min {lo hi : Int} (h : lo ≤ hi) (x : Int) : clampI lo hi x = max lo (min hi x) := by
  unfold clampI
  split
  · omega
  · split <;> omega

/-- The clamp acts exactly on what lies outside its limits. -/
theorem clampI_ne_iff {lo hi : Int} (h : lo ≤ hi) (x : Int) : clampI lo hi x ≠ x ↔ x < lo ∨ hi < x := by
  rw [clampI_eq_max_min h]
  omega

theorem beamOut_fst (acc : Int) (r shift : Nat) :
    (beamOut acc r shift).1 = clampI (-32767) 32767 (divHalfEven (acc * r) (2 ^ (27 + shift))) := rfl

theorem beamOut_flag (acc : Int) (r shift : Nat) :
    (beamOut acc r shift).2 = true ↔ (beamOut acc r shift).1 ≠ divHalfEven (acc * r) (2 ^ (27 + shift)) :=
  decide_eq_true_iff.trans (clampI_ne_iff (by decide) _).symm

theorem pathSumOut_fst (acc : Int) (t : Nat) :
    (pathSumOut acc t).1 = clampI (-32767) 32767 (divHalfEven acc (2 ^ (15 + t))) := rfl

theorem pathSumOut_flag (acc : Int) (t : Nat) :
    (pathSumOut acc t).2 = true ↔ (pathSumOut acc t).1 ≠ divHalfEven acc (2 ^ (15 + t)) :=
  decide_eq_true_iff.trans (clampI_ne_iff (by decide) _).symm

/-! ### Cross-fades (R160) -/

/-- The rounding half does not move a value that is already a multiple of the fade's length. -/
theorem fade_round_exact {f : Nat} (hf : 1 ≤ f) (v : Int) : (v * 2 ^ f + 2 ^ (f - 1)) / 2 ^ f = v := by
  have hhalf : (2 : Int) ^ (f - 1) < 2 ^ f := pow_lt_pow_right₀ (by decide) (by omega)
  rw [Int.mul_add_ediv_right _ _ (by positivity), Int.ediv_eq_zero_of_lt (by positivity) hhalf, add_zero]

/-- A fade's sample is the saturated value v wherever its weighted sum is v times the fade's length. -/
theorem fadeOut_of_exact {f k : Nat} {old new v : Int} (hf : 1 ≤ f)
    (h : old * (2 ^ f - (k + 1 : Nat) : Int) + new * (k + 1 : Nat) = v * 2 ^ f) : fadeOut f k old new = sat24 v := by
  rw [fadeOut, h, fade_round_exact hf]

theorem fadeOut_last {f : Nat} (hf : 1 ≤ f) (old new : Int) : fadeOut f (2 ^ f - 1) old new = sat24 new := by
  have hlast : ((2 ^ f - 1 + 1 : Nat) : Int) = 2 ^ f := by
    rw [Nat.sub_add_cancel Nat.one_le_two_pow, Nat.cast_pow, Nat.cast_ofNat]
  exact fadeOut_of_exact hf (by rw [hlast, sub_self, mul_zero, zero_add])

theorem fadeOut_same {f : Nat} (hf : 1 ≤ f) (k : Nat) (new : Int) : fadeOut f k new new = sat24 new :=
  fadeOut_of_exact hf (by rw [← mul_add, sub_add_cancel])

/-! ### The scrambler (R362) -/

/-- Both ends shift in the bit that was sent, so they hold the same 58 bits throughout, and the two taps cancel. -/
theorem descrambleBits_scrambleBits (s : BitVec 58) (l : List Bool) :
    descrambleBits s (scrambleBits s l).1 = (l, (scrambleBits s l).2) := by
  induction l generalizing s with
  | nil => rfl
  | cons b l ih =>
    have htaps : ∀ b x y : Bool, (b ^^ x ^^ y ^^ x ^^ y) = b := by decide
    simp only [scrambleBits, descrambleBits, ih, htaps]

/-- Settles O60, by the laws of each function. -/
theorem sampleArithmeticRoundsExactly : Obligations.SampleArithmeticRoundsExactly := by
  refine ⟨fun a b hb => divHalfEven_nearest a hb,
    fun all kept => ⟨renormOf_zero all, renormOf_of_few,
      fun hkept hle h => ⟨le_renormOf hkept hle h, renormOf_le hkept h⟩, renormOf_self⟩,
    ?beam, ?pathSum, fun f k old new hf => ⟨fadeOut_last hf old new, fadeOut_same hf k new⟩, ?scrambler⟩
  case beam =>
    rintro acc r s v rfl
    exact ⟨(beamOut_fst acc r s).trans (clampI_eq_max_min (by decide) _), beamOut_flag acc r s⟩
  case pathSum =>
    rintro acc t v rfl
    exact ⟨(pathSumOut_fst acc t).trans (clampI_eq_max_min (by decide) _), pathSumOut_flag acc t⟩
  case scrambler =>
    intro s l
    rw [descrambleBits_scrambleBits]
    exact ⟨rfl, rfl⟩

end Sys2Proof.Machine
end

section
/-! PROOFS. Chapters 06 and 07, the rows of a context: what the bank reports and how a detection is placed, training and
sync, the capture test, the header, the payload and its decoding, retries, retention, records and the open backlog tile.
Each law takes what its row acts on by hypothesis and gives the one next state. -/

namespace Sys2Proof.Machine

/-! ### Reads of a context -/

@[simp] theorem State.ctx_setCtx_same (s : State) (n : Nat) (x : Ctx) : (s.setCtx n x).ctx n = x :=
  Store.get_set_same _ _ _ _

@[simp] theorem State.ctx_setEq (s : State) (m : Nat) (e : Option EqSt) (n : Nat) : (s.setEq m e).ctx n = s.ctx n := rfl

@[simp] theorem State.setMemWord_rxb (s : State) (a : Nat) (w : Word) : (s.setMemWord a w).rxb = s.rxb := rfl

theorem State.setMemWords_rxb (ws : List Word) (s : State) (a : Nat) : (s.setMemWords a ws).rxb = s.rxb := by
  induction ws generalizing s a with
  | nil => rfl
  | cons w ws ih => exact ih (s.setMemWord a w) (a + 4)

/-- An entry of the placement log changes no context. -/
@[simp] theorem State.ctx_logPlace (s : State) (kind c : Nat) (t : T48) (a b n : Nat) :
    (s.logPlace kind c t a b).ctx n = s.ctx n := by
  unfold State.logPlace
  split
  · rfl
  · simp only [State.ctx, State.setMemWord_rxb, State.setMemWords_rxb]

/-! ### Detection (R210 to R219, R228) -/

section
variable {s : State} {b c : Nat} {f n freq : Int} {d : Det} {p : Profile} {k : Nat}
  (hreport : s.report_ b c f n freq = some (d, p, k))
include hreport

/-- A report is a searched slot's peak that meets its threshold, with the SNR of its statistic. -/
theorem State.report_sound : d.beam = b ∧ d.code = c ∧ d.freq = freq ∧ s.searched c = true ∧ s.profile k = some p ∧
    f.natAbs ≤ p.maxBin ∧ (∃ w l, s.codeSlot c = some w ∧ s.lambdaAt p w.code b c f n = some l ∧
      lambdaMeets l (s.thrAt b c) = true ∧ s.isPeak p w.code b c f n l = true ∧ d.snr = snrOf l) := by
  unfold State.report_ at hreport
  split at hreport
  next => cases hreport
  next w hslot =>
  split at hreport
  next => cases hreport
  next q hprofile =>
  split at hreport
  next => cases hreport
  next l hlambda =>
  split at hreport
  next hall =>
    obtain ⟨hsearched, -, -, -, hbin, -, hmeets, hpeak⟩ := hall
    cases hreport
    exact ⟨rfl, rfl, rfl, hsearched, hprofile, hbin, w, l, hslot, hlambda, hmeets, hpeak, rfl⟩
  next => cases hreport

variable {u : State} (hu : u = ((s.elapseTo d.at_).countDet d).sentinelSeen d)
include hu

/-- A duplicate of an open context is only counted (R218). -/
theorem execDetection_of_duplicate (hdup : (u.tracked.any fun x => u.duplicates d p x.2) = true) :
    execDetection ⟨b, c, f, n, freq⟩ s = .next (u.bump F.BEAM_DET_CNT_duplicates d.beam) := by
  subst hu
  simp only [execDetection, hreport]
  exact if_pos hdup

theorem execDetection_of_new (hnew : (u.tracked.any fun x => u.duplicates d p x.2) = false) :
    execDetection ⟨b, c, f, n, freq⟩ s = .next (u.place d p k).wakeWork := by
  subst hu
  simp only [execDetection, hreport]
  exact if_neg (Bool.eq_false_iff.1 hnew)

end

/-! ### Training and sync (R222, R224) -/

theorem execPreambleTrainingDone_of_trained {s : State} {c : Nat} {e : EqSt} (heq : s.eq c = some e)
    (hstate : (s.ctx c).state = .acquire) (hcount : 16 ≤ e.count) :
    execPreambleTrainingDone c () s = .next ((s.ctxTileBad c).getD (s.trained c .sync)) := by
  simp only [execPreambleTrainingDone, heq]
  exact if_pos ⟨hstate, hcount⟩

section
variable {s u : State} {c : Nat} {p : Profile} (hprofile : s.profile (s.ctx c).profile = some p)
  (hstate : (s.ctx c).state = .acquire ∨ (s.ctx c).state = .sync)
include hprofile hstate

theorem execSyncMatch_of_match {m : Nat} {i t : Int} (hmatch : (s.eq c).bind (·.match_) = some (m, i))
    (hwindow : m ≤ syncWindow (s.ctx c) p) (ht : t = s.stampOf p.chipRate i) (hu : u = s.trained c .header) :
    execSyncMatch c () () () () s = .next ((s.ctxTileBad c).getD (u.setCtx c { u.ctx c with
      tSync := BitVec.ofInt 48 (t / 2 ^ 16), tFrac := (t % 2 ^ 16).toNat, synced := true })) := by
  subst ht hu
  simp only [execSyncMatch, hprofile, hmatch]
  exact if_pos ⟨hstate, hwindow⟩

/-- The window of a context that reads the air ends at its time, and the context with it if nothing has matched. -/
theorem execSyncWindowEnd_of_live (hlive : (s.ctx c).retry = false)
    (hu : u = s.elapseTo (tAdd (syncEnd (s.ctx c) p) (s.symbolLag (s.ctx c) p))) :
    execSyncWindowEnd c s = .next (if u.syncMissed c p = true then u.abort c cFalseLock else u) := by
  subst hu
  simp only [execSyncWindowEnd, hprofile]
  rw [if_pos hstate, if_neg (Bool.eq_false_iff.1 hlive)]

end

/-! ### The capture test (R225) -/

theorem State.captureFails_of_idle {s : State} {c : Nat} (hidle : (s.ctx c).capture = false) (p : Profile) :
    s.captureFails c p = false := by
  rw [State.captureFails, hidle, Bool.false_and]

theorem State.endCapture_of_fails {s : State} {c : Nat} {p : Profile} (hfails : s.captureFails c p = true)
    (f : State → State) : s.endCapture c p f = s.abort c cCollided := if_pos hfails

/-- A test that runs and does not fail leaves its mark on the context, which goes on. -/
theorem State.endCapture_of_passes {s : State} {c : Nat} {p : Profile} (hcapture : (s.ctx c).capture = true)
    (hpasses : s.captureFails c p = false) (f : State → State) :
    s.endCapture c p f = f (s.setCtx c { s.ctx c with capture := false, captured := true }) := by
  rw [State.endCapture, if_neg (Bool.eq_false_iff.1 hpasses)]
  exact congrArg f (if_pos hcapture)

/-- Where no test runs, the context goes on as it is. -/
theorem State.endCapture_of_idle {s : State} {c : Nat} (hidle : (s.ctx c).capture = false) (p : Profile)
    (f : State → State) : s.endCapture c p f = f s := by
  rw [State.endCapture, if_neg (Bool.eq_false_iff.1 (State.captureFails_of_idle hidle p))]
  exact congrArg f (if_neg (Bool.eq_false_iff.1 hidle))

theorem execCaptureCheckEnd_of_due {s : State} {c : Nat} {p : Profile} {e : EqSt}
    (hprofile : s.profile (s.ctx c).profile = some p) (heq : s.eq c = some e)
    (hstate : (s.ctx c).state = .sync ∨ (s.ctx c).state = .header ∨ (s.ctx c).state = .payload)
    (hcapture : (s.ctx c).capture = true) (hdue : e.capLeft = 0 ∨
      ((s.ctx c).state = .payload ∧ p.headerSymbols + (s.ctx c).paySymbols ≤ e.track.length)) :
    execCaptureCheckEnd c () s = .next (s.endCapture c p id) := by
  simp only [execCaptureCheckEnd, hprofile, heq]
  exact if_pos ⟨hstate, hcapture, hdue⟩

/-! ### The header (R222, R252 to R254) -/

section
variable {s : State} {c : Nat} {p : Profile} {llr : List Int} {w : Nat} {h : Header}
  (hw : w = Machine.decideHeader llr) (hh : h = Header.ofWord w)
include hw hh

theorem State.decideHeader_of_badCrc (hcrc : crc8Ok w = false) :
    s.decideHeader c p llr = (s.setCtx c { s.ctx c with crc8 := h.crc8 }).abort c cFalseLock := by
  rw [State.decideHeader, ← hw, if_neg (Bool.eq_false_iff.1 hcrc), hh]

/-- A header that passes every check, of a packet with a payload, starts the payload under the graph of its rate. -/
theorem State.decideHeader_of_good {u : State} {g : Nat} {f : Fit}
    (hu : u = s.setCtx c { s.ctx c with hdr := some h, crc8 := h.crc8 }) (hcrc : crc8Ok w = true)
    (hlen : h.length ≤ p.maxPayload) (hsub : u.headerSub (u.ctx c) p h = 0) (hpay : h.length ≠ 0)
    (hgraph : selectGraph u.graph p.bgMask h.length h.rate = some (g, f)) :
    s.decideHeader c p llr = u.startPayload c p g f := by
  simp only [State.decideHeader, ← hw, ← hh, ← hu, if_pos hcrc, if_neg (Nat.not_lt.2 hlen), hsub, ne_eq,
    not_true_eq_false, if_false, if_neg hpay, hgraph]

end

theorem execHeaderComplete_of_bits {s : State} {c : Nat} {p : Profile} {e : EqSt}
    (hprofile : s.profile (s.ctx c).profile = some p) (heq : s.eq c = some e) (hstate : (s.ctx c).state = .header)
    (hbits : p.headerSymbols ≤ e.track.length) (htiles : s.ctxTileBad c = none) :
    execHeaderComplete c () () s = .next (s.decideHeader c p (e.llr.take 120)) := by
  simp only [execHeaderComplete, hprofile, heq, htiles]
  exact if_pos ⟨hstate, hbits⟩

/-! ### The payload (R222, R239, R262) -/

section
variable {s : State} {c : Nat} {p : Profile} {e : EqSt} (hprofile : s.profile (s.ctx c).profile = some p)
  (heq : s.eq c = some e) (hstate : (s.ctx c).state = .payload)
include hprofile heq hstate

theorem execLockLost_of_lost (hlost : (e.errs.length = 64 ∧ e.sinrNow < p.sinrMin - 24) ∨
    60000 < (incHz (s.eqHz e p) e.inc 1).natAbs) : execLockLost c () () s = .next (s.abort c cTrackLost) := by
  simp only [execLockLost, hprofile, heq]
  exact if_pos ⟨hstate, hlost⟩

theorem execLastPayloadSymbol_of_last (hlast : p.headerSymbols + (s.ctx c).paySymbols ≤ e.track.length) :
    execLastPayloadSymbol c () () s = .next ((s.ctxTileBad c).getD (s.endCapture c p fun s' =>
      s'.queueDecode c (((e.llr.drop 120).take (s'.codedBits (s.ctx c))).map (sat 127)))) := by
  simp only [execLastPayloadSymbol, hprofile, heq]
  exact if_pos ⟨hstate, hlast⟩

end

/-! ### Decoding (R263 to R266) -/

theorem execLdpcContextStart_of_next {s : State} {k n : Nat} {x : Ctx} (hfree : s.assistOf k = none)
    (hnext : s.nextDecode k = some (n, x)) : execLdpcContextStart k s =
      .next ((s.ctxTileBad n).getD ((s.setCtx n { x with
        block := 0, hard := [], decAt := none, decCfg := (s.rxb.maxIter, s.rxb.alpha) }).setAssist k (some n))) := by
  simp only [execLdpcContextStart, hfree, hnext]

/-- A decoded block joins the context's; after the last one the assist is free. -/
theorem execLdpcBlockEnd_of_block {s u : State} {k n a : Nat} {x : Ctx} {g : BaseGraph} {f : Fit}
    {r : List Bool × Nat × Bool} (hassist : s.assistOf k = some n) (hx : x = s.ctx n)
    (hfit : s.fitOf x = some (g, f, a)) (hstate : x.state = .decode) (hblock : x.block < f.c)
    (hr : r = decodeBlock g f a x.block x.decCfg.1 x.decCfg.2 x.llr)
    (hu : u = s.setCtx n { x with
      block := x.block + 1, hard := x.hard ++ r.1, iters := max x.iters r.2.1,
      unconverged := x.unconverged || !r.2.2, decCfg := (s.rxb.maxIter, s.rxb.alpha) }) :
    execLdpcBlockEnd k s = .next (if x.block + 1 = f.c then u.setAssist k none else u) := by
  subst hu hr hx
  simp only [execLdpcBlockEnd, hassist, hfit]
  exact if_pos ⟨hstate, hblock⟩

/-- The payload's CRC decides between delivery and CRC_FAIL (R264). -/
theorem execDecodingEnd_of_decoded {s : State} {c : Nat} {x y : Ctx} {h : Header} (hx : x = s.ctx c)
    (hhdr : x.hdr = some h) (hdecoded : s.decoded x = true) (htiles : s.ctxTileBad c = none)
    (hy : y = { x with crc24 := crc24Received h.length x.hard }) :
    execDecodingEnd c s = .next (if crc24Ok h x.hard = true
      then (s.setCtx c { y with payload := bytesOfBits h.length x.hard }).deliver c true
      else (s.setCtx c y).abort c cCrcFail) := by
  subst hy hx
  simp only [execDecodingEnd, hhdr, htiles]
  exact if_pos hdecoded

/-! ### Retries (R243 to R245) -/

/-- A retry stands in ACQUIRE, counted as the candidate's next attempt, with the interferers that are known. -/
theorem State.startRetry_ctx (s : State) (c : Cand) (n k : Nat) (l : List Nat) :
    ((s.startRetry c n k l).ctx n).state = .acquire ∧ ((s.startRetry c n k l).ctx n).retry = true ∧
      ((s.startRetry c n k l).ctx n).attempt = c.attempts + 1 ∧
      ((s.startRetry c n k l).ctx n).interferers = (s.interferersOf c).length := by
  simp only [State.startRetry, State.ctx_logPlace, State.ctx_setEq, State.ctx_setCtx_same, and_self]

section
variable {s t u : State} {c : Cand} {n k : Nat} {l : List Nat}
  (hqueued : s.rxb.cands.find? (fun c => c.queued && !s.retrying c) = some c) (hctx : s.freeNo = some n)
  (hskillet : s.bestSkillet c.ctx.load none = some k) (htiles : s.takePool 2 = some (l, t))
  (hmode : opensContexts s.modeNo = true) (hfree : s.policy.sicFree + s.openCtxs.length ≤ s.cLimit)
  (hlimit : s.openCtxs.length < s.cLimit) (hu : u = (t.startRetry c n k l).wakeWork)
include hqueued hctx hskillet htiles hmode hfree hlimit hu

theorem execSicRetryStart_of_sound (hsound : (s.retryTiles c).find? s.tileFails = none) :
    execSicRetryStart s = .next u := by
  simp only [execSicRetryStart, hqueued, hctx, hskillet, htiles, hsound, ← hu]
  exact if_pos ⟨hmode, hfree, hlimit⟩

/-- A tile that fails when it is opened takes the TILE_BAD way (R222, R455). -/
theorem execSicRetryStart_of_badTile {b : Nat} (hbad : (s.retryTiles c).find? s.tileFails = some b) :
    execSicRetryStart s = .next ((u.quarantineOpen b 6).abort n cTileBad) := by
  simp only [execSicRetryStart, hqueued, hctx, hskillet, htiles, hbad, ← hu]
  exact if_pos ⟨hmode, hfree, hlimit⟩

end

/-! ### Retention (R241, R242) -/

theorem execRetentionExpiry_of_earliest {s u w : State} {t : T48}
    (ht : earliest (s.rxb.cands.map (·.expiry) ++ s.rxb.regen.map (·.expiry)) = some t) (hu : u = s.elapseTo t)
    (hw : w = (u.rxb.regen.filter fun r => atOrAfter t r.expiry).foldl (fun s r => s.freeRets r.tiles)
      ((u.rxb.cands.filter fun c => atOrAfter t c.expiry).foldl State.expireCand u)) :
    execRetentionExpiry s =
      .next { w with rxb := { w.rxb with regen := w.rxb.regen.filter fun r => !(atOrAfter t r.expiry) } } := by
  subst hw hu
  simp only [execRetentionExpiry, ht]

section
variable {s : State} {c : Nat} {x : Ctx} {p : Profile} {e : EqSt} (hx : x = s.ctx c) (hopen : x.state ≠ .free)
  (hretained : x.retained = true) (hprofile : s.profile x.profile = some p) (heq : s.eq c = some e)
  (hneeds : x.needsTile p e.ret.length = true)
include hx hopen hretained hprofile heq hneeds

theorem execRetentionTileAllocation_of_tile {t : Nat} {u : State} (htile : s.takeRet 2 = some (t, u)) :
    execRetentionTileAllocation c s = .next (((u.addTile x t).1.setCtx c (u.addTile x t).2).logRetain c x t) := by
  subst hx
  simp only [execRetentionTileAllocation, hprofile, heq, htile]
  exact if_pos ⟨hopen, hretained, hneeds⟩

/-- With no tile left the retention stops. -/
theorem execRetentionTileAllocation_of_noTile (hnone : s.takeRet 2 = none) : execRetentionTileAllocation c s =
    .next ((s.dropRetention c).logPlace lgRetain c s.now (x.retTiles.length + 2 ^ 22) 0) := by
  subst hx
  simp only [execRetentionTileAllocation, hprofile, heq, hnone]
  exact if_pos ⟨hopen, hretained, hneeds⟩

end

/-- Of a free context number, a candidate's continuing retention takes the tile. -/
theorem execRetentionTileAllocation_of_candidate {s : State} {c : Nat} {d : Cand} (hfree : (s.ctx c).state = .free)
    (hneeds : s.candNeeds c = some d) : execRetentionTileAllocation c s = .next (s.candTile d) := by
  simp only [execRetentionTileAllocation, hneeds]
  exact if_neg fun ⟨hopen, _⟩ => hopen hfree

/-! ### Records (R270, R271) -/

/-- The oldest queued record goes to its destination, and a context that waits for it in DELIVER frees. -/
theorem execRecordCommitted_of_record {s u v : State} {r : PendRec} {l : List PendRec} (hqueue : s.rxb.recQ = r :: l)
    (hu : u = { s with rxb := { s.rxb with recQ := l } })
    (hv : v = (if r.toBacklog then u.toBacklog r else u.sendFrame 3 r.words)) : execRecordCommitted s =
      .next (if r.delivers = true ∧ (v.ctx r.ctx).state = .deliver then v.freeCtx r.ctx 0 else v) := by
  subst hv hu
  simp only [execRecordCommitted, hqueue]

theorem execBacklogSealTimeout_of_open {s : State} {t : BlTile} (hopen : s.openBacklog = some t) :
    execBacklogSealTimeout s = .next ((s.elapseTo (t.firstAt + 10000000)).sealBacklog t) := by
  simp only [execBacklogSealTimeout, hopen]

/-- Settles O34, by the law of each row. A lost lock is stated of PAYLOAD, whose row alone has it (log
entry 7). -/
theorem receptionRowsComplete : Obligations.ReceptionRowsComplete := by
  refine ⟨fun b c f n freq d p k s hreport => ?detection,
    fun c s e heq hstate hcount => execPreambleTrainingDone_of_trained heq hstate hcount,
    fun c s p n k t u hprofile hmatch hstate hwindow ht hu => execSyncMatch_of_match hprofile hstate hmatch hwindow ht hu,
    fun c s p u hprofile hstate hlive hu => ?syncWindow,
    fun c s p e hprofile heq hstate hcapture hdue => ?capture,
    fun c s p e w u h hprofile heq hstate hbits htiles hw hh hu => ?header,
    fun c s p e hprofile heq hstate hlost => execLockLost_of_lost hprofile heq hstate hlost,
    fun c s p e hprofile heq hstate hidle hlast => ?lastSymbol,
    fun k s n x hfree hnext => execLdpcContextStart_of_next hfree hnext,
    fun k s n x g f a r u hassist hx hfit hstate hblock hr hu => ?blockEnd,
    fun c s h x y hx hhdr hdecoded htiles hy => ?decodingEnd,
    fun s c n k l t u hqueued hctx hskillet htiles hmode hfree hlimit hu => ?retry,
    fun s t u w ht hu hw => execRetentionExpiry_of_earliest ht hu hw,
    fun c s x p e hx hopen hretained hprofile heq hneeds => ?retention,
    fun c s d hfree hneeds => execRetentionTileAllocation_of_candidate hfree hneeds,
    fun s r l u v hqueue hu hv => ?record,
    fun s t hopen => execBacklogSealTimeout_of_open hopen⟩
  case detection =>
    obtain ⟨hbeam, hcode, hfreq, hsearched, hprofile, hbin, hpeak⟩ := State.report_sound hreport
    exact ⟨hbeam, hcode, hfreq, hsearched, hprofile, hbin, hpeak, fun u hu =>
      ⟨execDetection_of_duplicate hreport hu, execDetection_of_new hreport hu⟩⟩
  case syncWindow =>
    have hstep : exec (.syncWindowEnd c) s = _ := execSyncWindowEnd_of_live hprofile hstate hlive hu
    exact ⟨fun hmissed => hstep.trans (by rw [if_pos hmissed]),
      fun hmet => hstep.trans (by rw [if_neg (Bool.eq_false_iff.1 hmet)])⟩
  case capture =>
    have hstep : exec (.captureCheckEnd c ()) s = _ := execCaptureCheckEnd_of_due hprofile heq hstate hcapture hdue
    exact ⟨fun hfails => hstep.trans (by rw [State.endCapture_of_fails hfails]),
      fun hpasses => hstep.trans (by rw [State.endCapture_of_passes hcapture hpasses, id])⟩
  case header =>
    have hstep : exec (.headerComplete c () ()) s = _ := execHeaderComplete_of_bits hprofile heq hstate hbits htiles
    exact ⟨fun hcrc => hstep.trans (by rw [State.decideHeader_of_badCrc hw hh hcrc]),
      fun g f hcrc hlen hsub hpay hgraph =>
        hstep.trans (by rw [State.decideHeader_of_good hw hh hu hcrc hlen hsub hpay hgraph])⟩
  case lastSymbol =>
    exact (execLastPayloadSymbol_of_last hprofile heq hstate hlast).trans (by rw [State.endCapture_of_idle hidle])
  case blockEnd =>
    have hstep : exec (.ldpcBlockEnd k) s = _ := execLdpcBlockEnd_of_block hassist hx hfit hstate hblock hr hu
    exact ⟨fun hlast => hstep.trans (by rw [if_pos hlast]), fun hmore => hstep.trans (by rw [if_neg hmore])⟩
  case decodingEnd =>
    have hstep : exec (.decodingEnd c) s = _ := execDecodingEnd_of_decoded hx hhdr hdecoded htiles hy
    exact ⟨fun hcrc => hstep.trans (by rw [if_pos hcrc]),
      fun hcrc => hstep.trans (by rw [if_neg (Bool.eq_false_iff.1 hcrc)])⟩
  case retry =>
    exact ⟨execSicRetryStart_of_sound hqueued hctx hskillet htiles hmode hfree hlimit hu,
      fun b hbad => execSicRetryStart_of_badTile hqueued hctx hskillet htiles hmode hfree hlimit hu hbad,
      t.startRetry_ctx c n k l⟩
  case retention =>
    exact ⟨fun t u htile => execRetentionTileAllocation_of_tile hx hopen hretained hprofile heq hneeds htile,
      execRetentionTileAllocation_of_noTile hx hopen hretained hprofile heq hneeds⟩
  case record =>
    have hstep : exec .recordCommitted s = _ := execRecordCommitted_of_record hqueue hu hv
    exact ⟨fun hdelivers hstate => hstep.trans (by rw [if_pos ⟨hdelivers, hstate⟩]),
      fun hdelivers => hstep.trans (by rw [if_neg fun hboth => Bool.eq_false_iff.1 hdelivers hboth.1])⟩

end Sys2Proof.Machine
end

section
/-! PROOFS. Chapter 08 and the bursts of chapter 10, the transmit rows: the PA sequencers, a burst from its wake to its off
starts, the DAC queues, and a held current limit. Each law takes what its row acts on by hypothesis and gives the one next
state. -/

namespace Sys2Proof.Machine

/-! ### PA sequencers (R286, R287, R292) -/

/-- Below the target by more than a step, a tick moves the output up by the step and counts on to the next tick. -/
theorem execBiasSlewTick_of_below {s v w : State} {p : Nat} {t : T48} (hslew : (s.pa p).slewAt = some t)
    (hv : v = s.elapseTo t) (hbelow : v.fld F.PA_BIAS_OUT_out p + v.fld F.PA_SLEW_step p < v.fld F.PA_BIAS_OUT_target p)
    (hstep : 0 < v.fld F.PA_SLEW_step p)
    (hw : w = v.setFld F.PA_BIAS_OUT_out p (v.fld F.PA_BIAS_OUT_out p + v.fld F.PA_SLEW_step p)) :
    execBiasSlewTick p s =
      .next (w.setPa p { s.pa p with slewAt := some (tAdd t (usec (w.fld F.PA_SLEW_tick_us p))) }) := by
  subst hv hw
  have hup : (s.elapseTo t).fld F.PA_BIAS_OUT_out p < (s.elapseTo t).fld F.PA_BIAS_OUT_target p := by omega
  simp only [execBiasSlewTick, State.slewTick, hslew, if_pos hup, Nat.min_eq_right hbelow.le]
  rw [if_neg hbelow.ne]

/-- In BIAS_UP the elapsed delay is d_bias: the path enables its PA and waits d_en. -/
theorem execPaDelayExpiry_of_biasUp {s v w : State} {p : Nat} {t : T48} (htimer : (s.pa p).timer = some t)
    (hv : v = s.elapseTo t) (hstate : v.paState p = pBiasUp) (hw : w = (v.paTo p pEn).setFld F.TX_PATH_STAT_pa_en p 1) :
    execPaDelayExpiry p s =
      .next (w.setPa p { s.pa p with timer := some (tAdd t (usec (w.fld F.PA_DLY_d_en p))) }) := by
  subst hv hw
  simp only [execPaDelayExpiry, State.paDelay, htimer]
  rw [if_pos hstate]

theorem execBiasCurrentLimitHold_of_driven {s : State} {p : Nat} (hp : p < 64)
    (hdriven : s.flag F.TX_PATH_STAT_bias_drv p = true) : execBiasCurrentLimitHold p s =
      .next (((((s.setFld F.TX_EVT_bias_sc p 1).setFld F.TX_EVT_bias_limit p 1).mutePath p).post 0x0502 clsWarn
        (toWord (p + 64 * s.paState p))).raiseFault 0x0502 p) :=
  if_pos ⟨hp, hdriven⟩

/-! ### On starts and off starts (R293) -/

theorem execPaOnStart_of_first {s : State} {p u : Nat} {b : Burst} (hfirst : firstBurst (s.bursts.filter fun x =>
      decide (x.2.phase ≠ .waiting) && s.usesPath x.2 p && !(x.2.started.contains p)) = some (u, b)) :
    execPaOnStart p s = .next (((s.elapseTo (b.air - BitVec.ofNat 48 (s.leadOn p))).setBurst u
      (some { b with started := p :: b.started })).paOnStart p) := by
  simp only [execPaOnStart, hfirst]

/-- The path leaves its burst's list of off starts due; another burst may keep it on. -/
theorem execPaOffStart_of_tail {s v w : State} {p : Nat} {t : Tail}
    (htail : (s.tx.tails.find? fun t => t.paths.contains p) = some t) (hv : v = s.elapseTo (tAdd t.fin (s.dRf p)))
    (hw : w = { v with tx := { v.tx with
      tails := (v.tx.tails.map fun x => if x = t then { t with paths := t.paths.erase p } else x).filter fun x =>
        decide (x.paths ≠ []) } }) :
    execPaOffStart p s = .next (if w.keptOn 16 p t.fin = true then w else w.paOffStart p).coexPins := by
  subst hv hw
  simp only [execPaOffStart, htail]

/-! ### A burst from its wake to its hold (R301, R341, R342, R344) -/

section
variable {s : State} {u : Nat} {b : Burst} (hburst : s.burst u = some b)
include hburst

theorem execBurstWake_of_asleep {v : State} (hwaiting : b.phase = .waiting)
    (hasleep : ((s.burstQuads b).any fun q => decide (s.sideState (2 * q + 1) = sSleep)) = true)
    (hv : v = s.elapseTo (tAdd b.compare (-65000))) :
    execBurstWake u s = .next ((v.burstQuads b).foldl (fun s q => s.wakeSide (2 * q + 1)) v) := by
  subst hv
  simp only [execBurstWake, hburst]
  exact if_pos ⟨hwaiting, hasleep⟩

section
variable {h : T48} {v : State} (hcompared : b.phase = .compared) (hh : h = b.air - BitVec.ofNat 48 (s.burstRf b))
  (hv : v = s.elapseTo h) (hgrant : v.grantSince (b.air - BitVec.ofNat 48 v.tGnt) = true)
include hcompared hh hv hgrant

theorem execBurstHoldPoint_of_locked (hlock : v.lockSince b h = true) :
    execBurstHoldPoint u s = .next (v.passHold u b 0) := by
  subst hh hv
  simp only [execBurstHoldPoint, hburst, if_pos hcompared, hlock, hgrant, Bool.and_true, if_true]

/-- Without the lock the burst holds, is shown as held, and is released at once where its conditions are met by now. -/
theorem execBurstHoldPoint_of_unlocked {w : State} (hlock : v.lockSince b h = false)
    (hw : w = (v.setBurst u (some { b with phase := .held })).showHold b true) :
    execBurstHoldPoint u s =
      .next (((w.burstQuads b).foldl (fun s q => s.setFld F.RADIO_EVT_burst_hold q 1) w).tryRelease u) := by
  subst hh hv hw
  simp only [execBurstHoldPoint, hburst, if_pos hcompared, hlock, hgrant, Bool.false_and, Bool.false_eq_true, if_false,
    if_true]

end

/-- With the grant there and the lock missing at its last moment, the lock's moment decides, and the burst drops. -/
theorem execBurstHoldExpiry_of_noLock {f : Word × State} (hheld : b.phase = .held)
    (hlock : s.lockSince b (s.lockLast b) = false) (hgrant : s.grantSince (s.grantLast b) = true)
    (hf : f = (s.elapseTo (s.lockLast b)).takeFree) :
    execBurstHoldExpiry u s = .next ((f.2.postHold b true false f.1.toNat).dropBurst u 1 9) := by
  subst hf
  simp only [execBurstHoldExpiry, hburst, if_pos hheld, hlock, hgrant, Bool.not_false, Bool.not_true, Bool.true_or,
    Bool.true_and, if_true]

/-- The pre-compensation of an acknowledgement past its hold moves once. -/
theorem execLoOffsetMove_of_ack {v : State} (hack : b.ack = true) (hcomp : b.uncomp = false) (hunmoved : b.moved = false)
    (hcompared : b.phase ≠ .waiting) (hpassed : b.phase ≠ .held)
    (hv : v = (s.elapseTo (tAdd b.start (-5000))).setBurst u (some { b with moved := true })) :
    execLoOffsetMove u s = .next ((v.burstQuads b).foldl (fun s q => s.setOfs q true (b.ofs.getD q 0)) v) := by
  subst hv
  simp only [execLoOffsetMove, hburst]
  exact if_pos ⟨hack, hcomp, hunmoved, hcompared, hpassed⟩

/-! ### A burst in the air (R281, R293, R416, R419) -/

theorem execBurstPathSumStart_of_released (hreleased : b.phase = .released) : execBurstPathSumStart u s =
    .next (((((s.elapseTo (tAdd b.start (-586))).startLine u).setBurst u (some { b with phase := .air })).setFld
      F.TXB_STAT_busy b.beam 1).sentUnaligned b) := by
  simp only [execBurstPathSumStart, hburst]
  exact if_pos hreleased

omit hburst in
/-- The mark that the air end sets leaves a burst as it is whose samples have all come. -/
theorem Burst.mark_starved_of_complete (hcomplete : b.n ≤ b.got) :
    ({ b with starved := b.starved || (!b.ack && decide (b.got < b.n)) } : Burst) = b := by
  rw [decide_eq_false (Nat.not_lt.2 hcomplete), Bool.and_false, Bool.or_false]

/-- The air end of a complete LINK burst: offsets return, beam and unit are free, and the off starts of its paths fall
due. -/
theorem execBurstAirEnd_of_complete {v w : State} (hair : b.phase = .air) (hack : b.ack = false)
    (hfed : b.starved = false) (hcomplete : b.n ≤ b.got)
    (hv : v = (((s.elapseTo b.stop).ofsBack b).setFld F.TXB_STAT_busy b.beam 0).burstDone b) (hpaths : v.burstPaths b ≠ [])
    (hw : w = (v.setBurst u none).endLine u) : execBurstAirEnd u s =
      .next ({ w with tx := { w.tx with tails := w.tx.tails ++ [⟨b.stop, b.pri, v.burstPaths b⟩] } } : State).coexPins := by
  subst hv hw
  simp only [execBurstAirEnd, hburst, if_pos hair, Burst.mark_starved_of_complete hcomplete]
  simp only [hfed, hack, decide_eq_false (Nat.not_lt.2 hcomplete), Bool.and_false, Bool.or_false, Bool.false_and,
    Bool.false_eq_true, if_false, if_neg hpaths, Nat.add_zero]

end

theorem execTxFifoEmpty_of_air {s : State} {beam u : Nat} {b : Burst}
    (hburst : (s.bursts.find? fun x => decide (x.2.beam = beam ∧ x.2.phase = .air)) = some (u, b))
    (hempty : s.lineEmpty u = true) : execTxFifoEmpty beam s =
      .next ((s.setBurst u (some { b with starved := true })).setFld F.TXB_EVT_starved beam 1) := by
  simp only [execTxFifoEmpty, hburst]
  exact if_pos hempty

/-! ### DAC queues (R282, R283) -/

section
variable {s : State} {p : Nat} (hp : p < 64) (hrun : s.sideState (2 * quadOf p + 1) = sRun)
include hp hrun

theorem execDacQueueUnderflow_of_fed (hfed : s.isDry p = false) :
    execDacQueueUnderflow p s = .next (s.queueUnderflow p) := by
  rw [execDacQueueUnderflow, if_pos ⟨hp, hrun, hfed⟩]

section
variable (hdry : s.isDry p = true) (hquiet : s.burstOn p = false)
include hdry hquiet

theorem execDacQueueRefilled_of_noSamples (hnone : s.txPath p = none) :
    execDacQueueRefilled p s = .next ((s.setDry p false).setFld F.TX_PATH_STAT_q_fill p 128) := by
  simp only [execDacQueueRefilled, hnone]
  rw [if_pos ⟨hp, hdry, hquiet, hrun⟩]

/-- The queue of a path that has carried samples restarts with 128 midscale entries. -/
theorem execDacQueueRefilled_of_samples {x : TxPath} (hpath : s.txPath p = some x) : execDacQueueRefilled p s =
    .next (((s.setTxPath p (some { x with queue := List.replicate 128 (8192, 8192) })).setDry p false).setFld
      F.TX_PATH_STAT_q_fill p 128) := by
  simp only [execDacQueueRefilled, hpath]
  rw [if_pos ⟨hp, hdry, hquiet, hrun⟩]

end

end

/-- Settles O31, by the law of each row. That an expired hold posts BURST_HOLD as the burst drops, and with a D that no rule
states, is the model's choice (log entries 39 and 3). -/
theorem burstRowsComplete : Obligations.BurstRowsComplete := by
  refine ⟨fun u s b v hburst hwaiting hv hasleep => execBurstWake_of_asleep hburst hwaiting hasleep hv,
    fun p s u b hfirst => execPaOnStart_of_first hfirst,
    fun p s t v w htail hv hw => ?offStart,
    fun p s t v w hslew hv hbelow hstep hw => execBiasSlewTick_of_below hslew hv hbelow hstep hw,
    fun p s t v w htimer hv hstate hw => execPaDelayExpiry_of_biasUp htimer hv hstate hw,
    fun u s b h v w hburst hcompared hh hv hgrant =>
      ⟨execBurstHoldPoint_of_locked hburst hcompared hh hv hgrant,
        execBurstHoldPoint_of_unlocked hburst hcompared hh hv hgrant⟩,
    fun u s b f hburst hheld hlock hgrant hf => execBurstHoldExpiry_of_noLock hburst hheld hlock hgrant hf,
    fun u s b v hburst hack hcomp hunmoved hcompared hpassed hv =>
      execLoOffsetMove_of_ack hburst hack hcomp hunmoved hcompared hpassed hv,
    fun u s b hburst hreleased => execBurstPathSumStart_of_released hburst hreleased,
    fun u s b v w hburst hair hack hfed hcomplete hv hpaths hw =>
      execBurstAirEnd_of_complete hburst hair hack hfed hcomplete hv hpaths hw,
    fun beam s u b hburst hempty => execTxFifoEmpty_of_air hburst hempty,
    fun p s hp hrun => ⟨execDacQueueUnderflow_of_fed hp hrun, fun hdry hquiet =>
      ⟨execDacQueueRefilled_of_noSamples hp hrun hdry hquiet,
        fun x => execDacQueueRefilled_of_samples hp hrun hdry hquiet⟩⟩,
    fun p s hp hdriven => execBiasCurrentLimitHold_of_driven hp hdriven⟩
  case offStart =>
    have hstep : exec (.paOffStart p) s = _ := execPaOffStart_of_tail htail hv hw
    exact ⟨fun hkept => hstep.trans (by rw [if_pos hkept]),
      fun hfree => hstep.trans (by rw [if_neg (Bool.eq_false_iff.1 hfree)])⟩

end Sys2Proof.Machine
end

section
/-! PROOFS. Chapter 09, the rows of predistortion: an interval of the applier, the captures of the observation receiver, and
the fits of adaptation. Each law takes what its row acts on by hypothesis and gives the one next state. -/

namespace Sys2Proof.Machine

/-! ### Applying coefficients (R312, R313) -/

/-- Where the sets differ, the coefficient at i is replaced whole, and with the last one the set is applied. -/
theorem execDpdApplyStep_of_differs {s u v : State} {p i : Nat} {x : DpdPath} {new : List Word}
    (htarget : (s.dpdOf p).target.isSome = true) (hu : u = (s.elapseTo (s.dpdOf p).nextAt).dpdOpen p)
    (hx : x = u.dpdOf p) (hdiff : firstDiff x.active (x.target.getD x.active) = some i)
    (hnew : new = (x.active.set (2 * i) ((x.target.getD x.active).getD (2 * i) 0)).set (2 * i + 1)
      ((x.target.getD x.active).getD (2 * i + 1) 0))
    (hv : v = (u.setDpd p { x with active := new, steps := x.steps + 1, replaced := x.replaced + 1 }).setFld
      F.DPD_STAT_apply_pos p i) :
    execDpdApplyStep p s =
      .next (if new = x.target.getD x.active then v.dpdApplied p else v.setFld F.DPD_STAT_applying p 1) := by
  subst hu hx hnew hv
  simp only [execDpdApplyStep, if_pos htarget, hdiff]

/-! ### Captures (R317, R320, R321) -/

/-- An adaptation capture that neither the host nor another owner of the receiver stands against, and for which there are
tiles, starts with both taken. -/
theorem execAdaptCaptureStart_of_free {q n p t : Nat} {s v w : State} {b : Burst} {c : OrxCap} (hq : q < 4)
    (hburst : s.burst n = some b) (hpath : s.nextPath q = some p) (hair : b.phase = .air)
    (hdrives : s.drives b q = true) (hpa : s.paState p = pRfOn) (hlong : 56000 ≤ (b.fin - b.air).toNat)
    (hmode : txMode s.modeNo = true) (hnoCap : s.orxCap q = none) (hnoFit : s.orxFit q = none)
    (hv : v = (s.elapseTo (tAdd b.start (20000 - 586))).setChosen q (some p)) (hhost : v.orxHost q = false)
    (howner : v.owner resOrx q = none) (htiles : v.workRun 16 = some t)
    (hw : w = ((List.range 16).foldl (fun s i => s.setOwner resTile (t + i) (some ⟨0, 0, true, 1, 0⟩)) v).setOwner
      resOrx q (some ⟨0, 0, true, 1, 0⟩))
    (hc : c = { path := p, att := w.fld F.ORX_ATT_att p, host := none, tile := t, start := w.now, unit := n,
                before := b.underflow.contains p }) :
    execAdaptCaptureStart q n s = .next (w.startCap q c) := by
  subst hv hw hc
  simp only [execAdaptCaptureStart, hburst, hpath]
  rw [if_pos ⟨hq, hair, hdrives, hpa, hlong, hmode, hnoCap, hnoFit⟩]
  simp only [hhost, howner, htiles, Option.isSome_none, Bool.false_eq_true, if_false]

section
variable {q : Nat} {l w : List Word} {s u v : State} {c : OrxCap} (hcap : s.orxCap q = some c) (hlen : l.length = 8192)
  (hu : u = s.elapseTo (tAdd c.start 33334)) (hw : w = u.capWords c.path l)
  (hv : v = (((u.sealCap c w).setCap q none).setFld F.ORX_STAT_busy q 0).orxRest q)
include hcap hlen hu hw hv

theorem execOrxCaptureEnd_of_host {cmd : Cmd} (hhost : c.host = some cmd) : execOrxCaptureEnd q l s =
    .next ((v.bump F.ORX_CNT_captures q).postAt c.start 0x0507 clsDone (toWord (stOk + 256 * c.path)) (some cmd)) := by
  subst hu hw hv
  simp only [execOrxCaptureEnd, hcap, if_pos hlen, hhost]

theorem execOrxCaptureEnd_of_qualified (hadapt : c.host = none) (hgood : capSkip w (v.capAborted c) = none) :
    execOrxCaptureEnd q l s = .next (((v.setOwner resOrx q none).bump F.ORX_CNT_captures q).setFit q
      (some { path := c.path, tile := c.tile, ended := (v.setOwner resOrx q none).now })) := by
  subst hu hw hv
  simp only [execOrxCaptureEnd, hcap, if_pos hlen, hadapt, hgood]

theorem execOrxCaptureEnd_of_skipped {a : Nat} (hadapt : c.host = none) (hskip : capSkip w (v.capAborted c) = some a) :
    execOrxCaptureEnd q l s = .next (((v.setOwner resOrx q none).freeCap c.tile).dpdSkip q c.path a) := by
  subst hu hw hv
  simp only [execOrxCaptureEnd, hcap, if_pos hlen, hadapt, hskip]

end

/-! ### Fits (R321 to R324) -/

/-- A Skillet that is on, fits no other capture and has load to spare takes the capture whose tiles open. -/
theorem execDpdFitStart_of_opened {q k : Nat} {s : State} {f : OrxFit} (hfit : s.orxFit q = some f) (hk : k < 12)
    (hwaits : f.skillet = none) (hon : s.sklOn k = true) (hidle : s.sklFits k = false)
    (hload : s.sklLoad k none < 64000000) (htime : atOrAfter s.now (f.ended + 50000000) = false)
    (hopen : (s.openTiles f.tile 4 false 16).1 = true) : execDpdFitStart q k s =
      .next ((((List.range 16).foldl (fun s i => s.useTile (f.tile + i)) (s.openTiles f.tile 4 false 16).2).setFit q
        (some { f with skillet := some k })).wakeDomain (dSkl + k)) := by
  simp only [execDpdFitStart, hfit]
  rw [if_pos ⟨hk, hwaits, hon, hidle, hload, htime⟩, if_pos hopen]

theorem execDpdFitStale_of_waiting {q : Nat} {s : State} {f : OrxFit} (hfit : s.orxFit q = some f)
    (hwaits : f.skillet = none) :
    execDpdFitStale q s = .next ((s.elapseTo (f.ended + 50000000)).fitStale q f) := by
  simp only [execDpdFitStale, hfit]
  exact if_pos hwaits

section
variable {q p : Nat} {f : DpdFit} {s v : State} {w : OrxFit} {t : List Word} (hfit : s.orxFit q = some w)
  (hskillet : w.skillet.isSome = true) (hlen : f.est.length = 64) (hkept : w.discard = false) (hp : p = w.path)
  (hv : v = (s.setFit q none).freeCap w.tile) (hsound : v.flag F.TX_PATH_STAT_degraded p = false)
  (hloop : (v.dpdOf p).loopDone = true) (ht : t = blend (v.fld F.DPD_CFG_mu p) (v.dpdOf p).active f.est)
include hfit hskillet hlen hkept hp hv hsound hloop ht

/-- With the loop delay measured before, a blended target within every limit of R323 is staged. -/
theorem execDpdFitDone_of_met (hmet : fitCause (v.dpdOf p).active t f (v.fld F.DPD_CFG_nmse_max_db p) = none) :
    execDpdFitDone q f s = .next ((v.dpdAccept p t f.nmseT).dpdServed q p) := by
  subst hp hv ht
  simp only [execDpdFitDone, hfit]
  rw [if_pos ⟨hskillet, hlen⟩]
  simp only [hkept, hsound, hloop, hmet, Bool.not_true, Bool.false_eq_true, false_and, or_self, if_false]

/-- A blended target is rejected for the first limit of R323 that it breaks. -/
theorem execDpdFitDone_of_broken {c : Nat}
    (hbroken : fitCause (v.dpdOf p).active t f (v.fld F.DPD_CFG_nmse_max_db p) = some c) :
    execDpdFitDone q f s = .next ((v.dpdReject p c).dpdServed q p) := by
  subst hp hv ht
  simp only [execDpdFitDone, hfit]
  rw [if_pos ⟨hskillet, hlen⟩]
  simp only [hkept, hsound, hloop, hbroken, Bool.not_true, Bool.false_eq_true, false_and, or_self, if_false]

end

/-- Settles O33, by the law of each row. When the applier's intervals fall, that a quadrant holds at most one capture and one
fit, and which samples a capture sets side by side, is the model's reading (log entries 103, 104 and 145). -/
theorem adaptationRowsComplete : Obligations.AdaptationRowsComplete := by
  refine ⟨fun p s u i x new htarget hu hx hdiff hnew => ?applyStep,
    fun q n s b p t v w c hq hburst hpath hair hdrives hpa hlong hmode hnoCap hnoFit hv hhost howner htiles hw hc =>
      execAdaptCaptureStart_of_free hq hburst hpath hair hdrives hpa hlong hmode hnoCap hnoFit hv hhost howner htiles hw hc,
    fun q l s c u w v hcap hlen hu hw hv =>
      ⟨fun _ => execOrxCaptureEnd_of_host hcap hlen hu hw hv, execOrxCaptureEnd_of_qualified hcap hlen hu hw hv,
        fun _ => execOrxCaptureEnd_of_skipped hcap hlen hu hw hv⟩,
    fun q k s f hfit hk hwaits hon hidle hload htime hopen =>
      execDpdFitStart_of_opened hfit hk hwaits hon hidle hload htime hopen,
    fun q s f hfit hwaits => execDpdFitStale_of_waiting hfit hwaits,
    fun q f s w p v t hfit hskillet hlen hkept hp hv hsound hloop ht =>
      ⟨execDpdFitDone_of_met hfit hskillet hlen hkept hp hv hsound hloop ht,
        fun _ => execDpdFitDone_of_broken hfit hskillet hlen hkept hp hv hsound hloop ht⟩⟩
  case applyStep =>
    have hstep : exec (.dpdApplyStep p) s = _ := execDpdApplyStep_of_differs htarget hu hx hdiff hnew rfl
    exact ⟨fun hmore => hstep.trans (by rw [if_neg hmore]), fun hlast => hstep.trans (by rw [if_pos hlast])⟩

end Sys2Proof.Machine
end

section
/-! PROOFS. Chapter 10, the rows of the radio states: a synthesiser's lock gained and lost, the coexistence grant, the end of
a side's transition, and Return. Each law takes what its row acts on by hypothesis and gives the one next state. -/

namespace Sys2Proof.Machine

/-! ### A lock gained (R332, R492) -/

theorem side_div_two (q : Nat) (tx : Bool) : (2 * q + if tx then 1 else 0) / 2 = q := by
  cases tx <;> simp only [Bool.false_eq_true, if_true, if_false] <;> omega

theorem State.openPhase_of_network {s : State} (hnet : s.network = true) (k : Nat) :
    s.openPhase k = s.setPhaseValid k (decide (s.servedQuads = [k / 2])) := if_pos hnet

theorem State.openPhase_of_no_network {s : State} (hnet : s.network = false) (k : Nat) : s.openPhase k = s :=
  if_neg (ne_true_of_eq_false hnet)

/-- A side past SLEEP that was without lock gains it, and its phase is open. -/
theorem execLoLock_of_unlocked {q k : Nat} {tx : Bool} {s : State} (hk : k = 2 * q + (if tx then 1 else 0)) (hq : q < 4)
    (hwoken : sStandby ≤ s.sideState k) (hlost : s.locked k = false) :
    execLoLock q tx s = .next ((s.lockGained k).openPhase k) := by
  subst hk
  simp only [execLoLock]
  rw [if_pos ⟨hq, hwoken, .inl hlost⟩]
  simp only [hlost, Bool.not_false, if_true]

/-! ### A lock lost on an RX side (R340, R564) -/

theorem State.thirdLoss_of_fewer {s : State} {k : Nat} {l : List T48}
    (hl : l = s.recent (Store.get (fun _ => []) s.flt.unlocks k) 1000000000) (hfew : l.length < 3) :
    s.thirdLoss k = (false, { s with flt := { s.flt with unlocks := Store.set (fun _ => []) s.flt.unlocks k l } }) := by
  subst hl
  exact if_neg (Nat.not_le.2 hfew)

theorem State.thirdLoss_of_third {s : State} {k : Nat} {l : List T48}
    (hl : l = s.recent (Store.get (fun _ => []) s.flt.unlocks k) 1000000000) (hthird : 3 ≤ l.length) :
    s.thirdLoss k = (true, { s with flt := { s.flt with unlocks := Store.set (fun _ => []) s.flt.unlocks k [] } }) := by
  subst hl
  exact if_pos hthird

/-- A loss settles the quadrant's sampling paths, is counted and posted; what the third within 1 s does more is
`State.thirdLoss`'s to say. -/
theorem execLoLockLoss_of_rx {q : Nat} {s u v : State} {m : Store Nat} (hq : q < 4) (hlock : s.locked (2 * q) = true)
    (hu : u = (s.setLock (2 * q) false).setFld F.RADIO_EVT_lock_lost q 1)
    (hm : m = Store.set (fun _ => 0) u.radio.unlocks (2 * q) (Store.get (fun _ => 0) u.radio.unlocks (2 * q) + 1))
    (hv : v = ((pathsOfQuad q).foldl (fun (s : State) p =>
        if 2 ≤ s.fld F.RX_PATH_STAT_state p then s.settleOpen p else s)
        { u with radio := { u.radio with unlocks := m } }).post 0x0207 clsWarn (toWord q)) :
    execLoLockLoss q false s = .next (if (v.thirdLoss (2 * q)).1 then
      (v.thirdLoss (2 * q)).2.raiseThen 0x0203 (2 * q) 0 fun s => s.relockLo (2 * q) else (v.thirdLoss (2 * q)).2) := by
  subst hu hm hv
  exact if_pos ⟨hq, hlock⟩

/-! ### The coexistence grant (R345) -/

theorem execCoexGntRise_eq {s u : State}
    (hu : u = ({ s with radio := { s.radio with gnt := some (s.radio.gnt.getD s.ns) } } : State).setFld F.COEX_STAT_gnt 0 1) :
    execCoexGntRise s = .next (if u.flag F.COEX_CFG_en then u.tryReleases else u) := by
  subst hu
  rfl

theorem execCoexGntFall_eq {s u : State}
    (hu : u = ({ s with radio := { s.radio with gnt := none } } : State).setFld F.COEX_STAT_gnt 0 0) :
    execCoexGntFall s = if u.flag F.COEX_CFG_en then .next (((u.bursts.filter fun x =>
      decide (x.2.phase = .air) && atOrAfter u.now x.2.start).map (·.1)).foldl State.revoke u) else .next u := by
  subst hu
  rfl

/-! ### An RX side arrives (R332) -/

section
variable {q k st : Nat} {s u : State} (hk : k = 2 * q) (hgoing : (s.side k).going = some st)
  (hu : u = ((s.enterSide k st).setSide k { (s.enterSide k st).side k with want := false }).sideArrived k)
include hk hgoing hu

/-- An RX side rests in the state it arrives in, unless that is SLEEP and a wake or a recovery wants it on. -/
theorem execSideTransitionDone_of_rest (hrest : ¬ (st = sSleep ∧ ((s.side k).want = true ∨ (s.side k).discard = true))) :
    execSideTransitionDone q false s = .next u := by
  subst hk hu
  simp only [execSideTransitionDone, Bool.false_eq_true, if_false, Nat.add_zero, hgoing, false_and, and_false]
  exact if_neg hrest

/-- An RX side wanted on while it went to SLEEP goes on from there to its mode's state. -/
theorem execSideTransitionDone_of_wanted (hsleep : st = sSleep) (hwant : (s.side k).want = true) :
    execSideTransitionDone q false s = .next (u.settleSide k) := by
  subst hk hu
  simp only [execSideTransitionDone, Bool.false_eq_true, if_false, Nat.add_zero, hgoing]
  exact if_pos ⟨hsleep, .inl hwant⟩

end

/-! ### Return (R331, R349) -/

section
variable {q k : Nat} {s u : State} (hk : k = 2 * q + 1) (hu : u = s.elapse (1000 - s.now.toNat % 1000))
  (hstill : (u.side k).going = none) (hcompare : u.compareNear q = false)
  (hbursts : (u.bursts.any fun e => u.drives e.2 q && decide (e.2.phase ≠ .waiting)) = false) (hpa : u.paIdle q = true)
include hk hu hstill hcompare hbursts hpa

/-- A TX side that neither moves nor is in use for a burst evaluates Return by its state. -/
theorem execTxReturnCheck_of_idle : execTxReturnCheck q s =
    if u.sideState k = sRun then .next (u.setSide k { u.side k with going := some (u.targetNow k) })
    else if u.sideState k = sStandby ∧ u.targetNow k = sSleep then .next (u.toward k sSleep) else .next u := by
  subst hk hu
  simp only [execTxReturnCheck, hstill, hcompare, hbursts, hpa, Option.isSome_none, Bool.or_self, Bool.false_eq_true,
    Bool.true_eq_false, or_self, if_false]

theorem execTxReturnCheck_of_run (hrun : u.sideState k = sRun) :
    execTxReturnCheck q s = .next (u.setSide k { u.side k with going := some (u.targetNow k) }) :=
  (execTxReturnCheck_of_idle hk hu hstill hcompare hbursts hpa).trans (if_pos hrun)

theorem execTxReturnCheck_of_standby (hstandby : u.sideState k = sStandby) (htarget : u.targetNow k = sSleep) :
    execTxReturnCheck q s = .next (u.toward k sSleep) := by
  have hnotRun : u.sideState k ≠ sRun := by rw [hstandby]; decide
  rw [execTxReturnCheck_of_idle hk hu hstill hcompare hbursts hpa, if_neg hnotRun, if_pos ⟨hstandby, htarget⟩]

end

/-- Settles O32, by the law of each row. Through which states a side goes is the model's reading (log entry 117); so is that
a third loss within 1 s empties the list of losses, of which the spec says nothing. -/
theorem radioRowsComplete : Obligations.RadioRowsComplete := by
  refine ⟨fun q tx s k hk hq hwoken hlost => ?lockGained,
    fun q s u v l m hq hlock hu hm hv hl => ?lockLost,
    fun s u hu => ?grantRises,
    fun s u hu => ?grantFalls,
    fun q s k st u hk hgoing hu =>
      ⟨fun hst => execSideTransitionDone_of_rest hk hgoing hu fun h => hst h.1,
        execSideTransitionDone_of_wanted hk hgoing hu, fun _ hwant hdiscard =>
          execSideTransitionDone_of_rest hk hgoing hu (by simp [hwant, hdiscard])⟩,
    fun q s k u hk hu hstill hcompare hbursts hpa =>
      ⟨execTxReturnCheck_of_run hk hu hstill hcompare hbursts hpa,
        execTxReturnCheck_of_standby hk hu hstill hcompare hbursts hpa⟩⟩
  case lockGained =>
    have hquad : k / 2 = q := hk ▸ side_div_two q tx
    have hstep : exec (.loLock q tx) s = _ := execLoLock_of_unlocked hk hq hwoken hlost
    exact ⟨fun hnet => hstep.trans (by rw [State.openPhase_of_no_network hnet]),
      fun hnet => hstep.trans (by rw [State.openPhase_of_network hnet, hquad])⟩
  case lockLost =>
    have hstep : exec (.loLockLoss q false) s = _ := execLoLockLoss_of_rx hq hlock hu hm hv
    exact ⟨fun hfew => hstep.trans (by rw [State.thirdLoss_of_fewer hl hfew]; rfl),
      fun hthird => hstep.trans (by rw [State.thirdLoss_of_third hl hthird]; rfl)⟩
  case grantRises =>
    have hstep : exec .coexGntRise s = _ := execCoexGntRise_eq hu
    exact ⟨fun hen => hstep.trans (by rw [if_pos hen]), fun hoff => hstep.trans (by rw [if_neg (ne_true_of_eq_false hoff)])⟩
  case grantFalls =>
    have hstep : exec .coexGntFall s = _ := execCoexGntFall_eq hu
    exact ⟨fun hen => hstep.trans (if_pos hen), fun hoff => hstep.trans (if_neg (ne_true_of_eq_false hoff))⟩

end Sys2Proof.Machine
end

section
/-! PROOFS. Chapter 11, the rows of the link's PHY: the locks of its lanes, training and its time limits, the end of an
attempt, the rows on the wire, and the changes that wait. Each law takes what its row acts on by hypothesis and gives the one
next state. -/

namespace Sys2Proof.Machine

/-! ### Sending rows keeps the training state -/

@[simp] theorem State.linkState_freshRows (s : State) : s.freshRows.linkState = s.linkState := rfl

@[simp] theorem State.linkState_sendLstat (s : State) : s.sendLstat.linkState = s.linkState := rfl

theorem lHello_ne_lUp : lHello ≠ lUp := by decide

/-! ### The locks of a lane (R369, R370, R372, R381, R384) -/

section
variable {n : Nat} {s : State} (hn : n < 8)
include hn

theorem execLaneSignalDetect_of_quiet (hquiet : s.flag F.LNK_LANE_STAT_signal n = false) :
    execLaneSignalDetect n s = .next ((s.setFld F.LNK_LANE_STAT_signal n 1).adapt n).tryDetect :=
  if_pos ⟨hn, hquiet⟩

/-- The moment of the lock is taken when the lane was without it. -/
theorem execBlockLockGain_of_signal {i : Bool} {u : State} (hsignal : s.flag F.LNK_LANE_STAT_signal n = true)
    (hu : u = if s.flag F.LNK_LANE_STAT_block_lock n = true then s else s.setLockAt n (some s.now)) :
    execBlockLockGain n i s =
      .next ((u.setFld F.LNK_LANE_STAT_block_lock n 1).setFlag F.LNK_LANE_STAT_rx_inverted n i) := by
  subst hu
  exact if_pos ⟨hn, hsignal⟩

/-- A lost block lock counts the 16 invalid headers that lost it (log entry 65). -/
theorem execBlockLockLoss_of_locked (hlock : s.flag F.LNK_LANE_STAT_block_lock n = true) : execBlockLockLoss n s =
    .next (((s.freshRows.unlockPair n).bump F.LNK_LANE_ERR_hdr_errs n 16).rxLost n 1 s.lockedMask) :=
  if_pos ⟨hn, hlock⟩

theorem execAmLockLoss_of_missed (hlock : s.flag F.LNK_LANE_STAT_am_lock n = true)
    (hmissed : 3 ≤ perStream s.link.amBad n) : execAmLockLoss n s =
    .next ((((s.freshRows.setAmBad n 0).setFld F.LNK_LANE_STAT_am_lock n 0).setAligned n false).rxLost n 2 s.lockedMask) :=
  if_pos ⟨hn, hlock, hmissed⟩

theorem execLaneRetrainRestart_of_unbonded (hup : s.linkState = lUp) (henabled : s.laneEn.testBit n = true)
    (hout : s.flag F.LNK_LANE_STAT_in_rx_bond n = false) (hunlocked : s.pairLocked n = false) :
    execLaneRetrainRestart n s = .next ((s.unlockPair n).adapt n) :=
  if_pos ⟨hn, hup, henabled, hout, hunlocked⟩

end

theorem execAmRowReceived_eq (l : List LaneAm) (s : State) :
    execAmRowReceived l s = .next (((l.foldl State.takeAm s.freshRows).lstatOnChange s.lockedMask).tryAlign) := rfl

/-! ### Training goes on, falls back and ends (R376, R378) -/

theorem execBlockLockHeld_of_ready {s : State} (hlock : s.linkState = lLock)
    (hready : s.minLanes ≤ s.readyLanes (fun r => s.flag F.LNK_LANE_STAT_block_lock r)) :
    execBlockLockHeld s = .next ((s.elapseTo s.lockHeldAt).freshRows.linkTo lAlign).tryAlign :=
  if_pos ⟨hlock, hready⟩

/-- A time limit ends an attempt with its state's cause, but for a step up in rate, which past DETECT falls back. -/
theorem execTrainingTimeout_of_training {s u : State} (hnotDown : s.linkState ≠ lDown) (hnotUp : s.linkState ≠ lUp)
    (hnoStep : s.linkState = lDetect ∨ u.link.rateStep = false)
    (hu : u = s.elapseTo (s.link.since + BitVec.ofNat 48 (trainTimeout s.linkState).1)) :
    execTrainingTimeout s = .next (u.linkDown (trainTimeout s.linkState).2 true) := by
  have hkeepsRate : ¬ (s.linkState ≠ lDetect ∧ u.link.rateStep = true) := by
    rintro ⟨hpast, hstep⟩
    exact hnoStep.elim hpast fun hnone => Bool.false_ne_true (hnone.symm.trans hstep)
  subst hu
  simp only [execTrainingTimeout]
  rw [if_neg (not_or.2 ⟨hnotDown, hnotUp⟩), if_neg hkeepsRate]

theorem execHelloSilence_of_up {s : State} (hup : s.linkState = lUp) :
    execHelloSilence s = .next ((s.elapseTo (s.link.lastHello + 10000000)).linkDown 7 true) := if_pos hup

theorem execBackoffEnd_of_down {s u : State} (hdown : s.linkState = lDown) (hen : s.flag F.LNK_CFG_en = true)
    (href : s.link.refLost = false)
    (hu : u = s.elapseTo (s.link.since + BitVec.ofNat 48 (msec (s.fld F.LNK_TRAIN_backoff_ms)))) : execBackoffEnd s =
      .next ((((u.setRate (decide (u.fld F.LNK_CFG_rate_mode = 2))).linkTo lDetect).newAttempt.bump
        F.LNK_TRAIN_attempts 0).tryDetect) := by
  subst hu
  exact if_pos ⟨hdown, hen, href⟩

theorem execFallbackExpiry_of_fallback {s u : State} {t : T48} (hend : s.link.fallbackEnd = some t)
    (hu : u = (s.elapseTo t).setFallback false) : execFallbackExpiry s =
      .next { u with link := { u.link with
        retrainHello := decide (u.linkState = lUp) && !u.flag F.LNK_STAT_rate25 } } := by
  subst hu
  simp only [execFallbackExpiry, hend]

theorem execLnkRefclkLoss_eq (s : State) :
    execLnkRefclkLoss s = .next (({ s with link := { s.link with refLost := true } } : State).linkDown 9 false) := rfl

theorem execLnkRefclkRestored_eq (s : State) :
    execLnkRefclkRestored s = .next { s with link := { s.link with refLost := false } } := rfl

/-! ### Rows sent (R366, R368, R371, R373, R374, R384) -/

section
variable {s u : State} (hu : u = s.freshRows.applyFfe.sendAms)
include hu

theorem execAmRowSend_of_training (hnotHello : u.linkState ≠ lHello) (hnotUp : u.linkState ≠ lUp) :
    execAmRowSend s = .next u := by
  subst hu
  simp only [execAmRowSend, if_neg (not_or.2 ⟨hnotHello, hnotUp⟩), if_neg hnotUp]

/-- In HELLO an LSTAT row follows the AM row. -/
theorem execAmRowSend_of_hello (hhello : u.linkState = lHello) : execAmRowSend s = .next u.sendLstat := by
  have hnotUp : u.sendLstat.linkState ≠ lUp := by rw [State.linkState_sendLstat, hhello]; exact lHello_ne_lUp
  subst hu
  simp only [execAmRowSend, if_pos (Or.inl hhello), if_neg hnotUp]

/-- In UP the lanes that may join the transmit bond join it after the LSTAT row. -/
theorem execAmRowSend_of_up (hup : u.linkState = lUp) : execAmRowSend s =
    .next (u.sendLstat.txBond (u.sendLstat.fld F.LNK_STAT_tx_bond ||| u.sendLstat.addable) 2 0) := by
  have hstillUp : u.sendLstat.linkState = lUp := (State.linkState_sendLstat u).trans hup
  subst hu
  simp only [execAmRowSend, if_pos (Or.inr hup), if_pos hstillUp]

end

/-- A HELLO row of training asks for no retrain, and counts as sent once the partner's has come. -/
theorem execHelloSend_of_hello {s u v : State} (hhello : s.linkState = lHello) (hu : u = s.freshRows)
    (hv : v = u.sendRow (helloRow u.laneEn u.rate25Ok u.link.helloGot false (u.fld F.LNK_CFG_node_id) u.link.helloSeq)) :
    execHelloSend s = .next ({ v with link := { v.link with
      helloSeq := (v.link.helloSeq + 1) % 256
      helloSent := v.link.helloSent + if u.link.helloGot then 1 else 0
      retrainHello := false } } : State).tryAgree := by
  have hnotUp : s.freshRows.linkState ≠ lUp := by rw [State.linkState_freshRows, hhello]; exact lHello_ne_lUp
  subst hu hv
  simp only [execHelloSend]
  rw [if_pos (.inl hhello)]
  simp only [decide_eq_false hnotUp, Bool.and_false, Bool.or_false, Bool.false_eq_true, if_false]

theorem execFillerRowSend_eq (s : State) : execFillerRowSend s = .next (s.freshRows.sendRow (rowOf [0x1E])) := rfl

/-! ### Rows received (R367, R373, R374, R376, R381 to R383) -/

section
variable {row : BitVec 64} {s : State}

theorem execHelloRowReceived_of_bad (hbad : helloOk row = false) : execHelloRowReceived row s = .next (s.badRow row) :=
  if_neg fun h => ne_true_of_eq_false hbad h.2

theorem execLstatReceived_of_bad (hbad : complOk 0x55 row = false) : execLstatReceived row s = .next (s.badRow row) :=
  if_neg fun h => ne_true_of_eq_false hbad h.2

theorem execBondRowReceived_of_bad (hbad : complOk 0x66 row = false) : execBondRowReceived row s = .next (s.badRow row) :=
  if_neg fun h => ne_true_of_eq_false hbad h.2

/-- A HELLO row in UP that does not ask for a retrain restarts the silence. -/
theorem execHelloRowReceived_of_up {v u : State} (hup : s.linkState = lUp) (hok : helloOk row = true)
    (hv : v = s.freshRows.setReg .LNK_PARTNER 0 (helloWord row))
    (hu : u = { v with link := { v.link with peerNode := some (rowByte row 4 + 256 * rowByte row 5), heard := true } })
    (hstillUp : u.linkState = lUp) (hstays : (rowByte row 3).testBit 2 = false) :
    execHelloRowReceived row s = .next { u with link := { u.link with lastHello := u.now } } := by
  subst hv hu
  simp only [execHelloRowReceived]
  rw [if_pos ⟨.inr hup, hok⟩, if_pos hstillUp, if_neg (ne_true_of_eq_false hstays)]

/-- An LSTAT row's locks are taken; in UP the transmit bond loses the lanes that the partner has lost. -/
theorem execLstatReceived_of_ok {u v : State} {since : Store (Option T48)}
    (hstate : s.linkState = lHello ∨ s.linkState = lUp) (hok : complOk 0x55 row = true) (hu : u = s.freshRows)
    (hsince : since = (List.range 8).foldl (fun (m : Store (Option T48)) n =>
      if (rowByte row 1).testBit n then
        (if u.link.peerLocked.testBit n then m else Store.set (fun _ => none) m n (some u.now))
      else Store.set (fun _ => none) m n none) u.link.lockedSince)
    (hv : v = (List.range 8).foldl (fun s n => s.setFlag F.LNK_LANE_STAT_partner_locked n ((rowByte row 1).testBit n))
      { u with link := { u.link with peerLocked := rowByte row 1, lockedSince := since } }) :
    execLstatReceived row s =
      .next (if v.linkState = lUp then v.txBond (v.fld F.LNK_STAT_tx_bond &&& rowByte row 1) 1 4 else v) := by
  subst hv hsince hu
  exact if_pos ⟨hstate, hok⟩

/-- A BOND row that leaves lanes enough becomes the receive bond, and the ladder is evaluated. -/
theorem execBondRowReceived_of_enough {u v w : State} (hup : s.linkState = lUp) (hok : complOk 0x66 row = true)
    (hu : u = s.freshRows) (hv : v = (({ u with link := { u.link with discard := false } } : State).staleMarks))
    (hw : w = (v.setBonds (v.fld F.LNK_STAT_tx_bond) (rowByte row 1)).bondEvents false (u.fld F.LNK_STAT_rx_bond)
      (rowByte row 1) (v.setBonds (v.fld F.LNK_STAT_tx_bond) (rowByte row 1)).rxCause)
    (henough : ({ w with link := { w.link with lossCause := [] } } : State).minLanes ≤ popCount 8 (rowByte row 1)) :
    execBondRowReceived row s =
      .next (({ w with link := { w.link with lossCause := [] } } : State).evaluate false) := by
  subst hw hv hu
  simp only [execBondRowReceived]
  rw [if_pos ⟨hup, hok⟩, if_neg (Nat.not_lt.2 henough)]

end

section
variable {n : Nat} {s : State} (hstate : s.linkState = lHello ∨ s.linkState = lUp)
include hstate

theorem execFillerRowReceived_of_full (hfull : 24 < n) :
    execFillerRowReceived n s = .next (s.bump F.LNK_RM_CNT_deleted 0) := by
  rw [execFillerRowReceived, if_pos hstate, if_pos hfull]

theorem execFillerRowReceived_of_empty (hempty : n < 8) :
    execFillerRowReceived n s = .next (s.bump F.LNK_RM_CNT_inserted 0) := by
  have hnotFull : ¬ 24 < n := by omega
  rw [execFillerRowReceived, if_pos hstate, if_neg hnotFull, if_pos hempty]

theorem execFillerRowReceived_of_between (hlow : 8 ≤ n) (hhigh : n ≤ 24) : execFillerRowReceived n s = .next s := by
  rw [execFillerRowReceived, if_pos hstate, if_neg (Nat.not_lt.2 hhigh), if_neg (Nat.not_lt.2 hlow)]

end

/-! ### A change whose time has come (R378, R390) -/

section
variable {s u : State} {c : LinkChange} {t : T48} (hwaits : s.link.deferred = some c) (htime : c.at_ = some t)
  (hu : u = { s.elapseTo t with link := { (s.elapseTo t).link with deferred := none } })
include hwaits htime hu

theorem execDeferredLinkChange_of_cfg {w : Word} (hcfg : c.cfg = some w) :
    execDeferredLinkChange s = .next (u.applyLink w c.lanes c.ffe) := by
  subst hu
  simp only [execDeferredLinkChange, hwaits, htime, hcfg]

/-- A retrain that waited takes the link down, or in LINK_DOWN ends the backoff. -/
theorem execDeferredLinkChange_of_retrain (hcfg : c.cfg = none) :
    execDeferredLinkChange s = .next (if u.linkState = lDown then u.endBackoff else u.linkDown 8 false) := by
  subst hu
  simp only [execDeferredLinkChange, hwaits, htime, hcfg]

end

/-- Settles O36, by the law of each row. That a lost block lock raises hdr_errs by the 16 headers that lost it, and that a
change waits in `link.deferred` until its time, is the model's reading (log entries 65 and 62). -/
theorem linkPhyRowsComplete : Obligations.LinkPhyRowsComplete := by
  refine ⟨fun n s hn hquiet => execLaneSignalDetect_of_quiet hn hquiet,
    fun n i s u hn hsignal hu => execBlockLockGain_of_signal hn hsignal hu,
    fun n s hn hlock => execBlockLockLoss_of_locked hn hlock,
    fun l s => execAmRowReceived_eq l s,
    fun n s hn hlock hmissed => execAmLockLoss_of_missed hn hlock hmissed,
    fun s hlock hready => execBlockLockHeld_of_ready hlock hready,
    fun s u hu => ⟨execAmRowSend_of_training hu, fun hhello _ => execAmRowSend_of_hello hu hhello,
      fun hup _ => execAmRowSend_of_up hu hup⟩,
    fun s u v hhello hu _ hv => execHelloSend_of_hello hhello hu hv,
    fun row s v u hup hok hv hu hstillUp hstays => execHelloRowReceived_of_up hup hok hv hu hstillUp hstays,
    fun row s => ⟨execHelloRowReceived_of_bad, execLstatReceived_of_bad, execBondRowReceived_of_bad⟩,
    fun row s u v since hstate hok hu hsince hv => ?lstat,
    fun row s u v w hup hok hu hv hw henough => execBondRowReceived_of_enough hup hok hu hv hw henough,
    fun n s hstate => ⟨execFillerRowReceived_of_full hstate, execFillerRowReceived_of_empty hstate,
      execFillerRowReceived_of_between hstate⟩,
    fun s => execFillerRowSend_eq s,
    fun s u hnotDown hnotUp hnoStep hu => execTrainingTimeout_of_training hnotDown hnotUp hnoStep hu,
    fun s hup => execHelloSilence_of_up hup,
    fun s u hdown hen href hu => execBackoffEnd_of_down hdown hen href hu,
    fun s t u hend hu => execFallbackExpiry_of_fallback hend hu,
    fun n s hn hup henabled hout hunlocked => execLaneRetrainRestart_of_unbonded hn hup henabled hout hunlocked,
    fun s => execLnkRefclkLoss_eq s,
    fun s => execLnkRefclkRestored_eq s,
    fun s c t u hwaits htime hu => ⟨fun w => execDeferredLinkChange_of_cfg hwaits htime hu, ?retrain⟩⟩
  case lstat =>
    have hstep : exec (.lstatReceived row) s = _ := execLstatReceived_of_ok hstate hok hu hsince hv
    exact ⟨fun hup => hstep.trans (by rw [if_pos hup]), fun hnotUp => hstep.trans (by rw [if_neg hnotUp])⟩
  case retrain =>
    have hstep (hcfg : c.cfg = none) : exec .deferredLinkChange s = _ :=
      execDeferredLinkChange_of_retrain hwaits htime hu hcfg
    exact ⟨fun hcfg hdown => (hstep hcfg).trans (by rw [if_pos hdown]),
      fun hcfg hnotDown => (hstep hcfg).trans (by rw [if_neg hnotDown])⟩

end Sys2Proof.Machine
end

section
/-! PROOFS. Chapter 12, the rows of the framer: which frame starts and what its end does, credit, LINK bursts and their
samples, the event frame that is open, IQ frames, and frames that fail a check. Each law takes what its row acts on by
hypothesis and gives the one next state. -/

namespace Sys2Proof.Machine

/-! ### A frame starts and ends (R404, R420) -/

section
variable {s u : State} (hup : s.linkUp = true) (hidle : s.link.sending = none) (hu : u = s.noteStall)
include hup hidle hu

/-- The frame picked leaves its stream's queue and starts. -/
theorem execFrameStart_of_ready {f : Frame} (hready : u.pickReady = some f) :
    execFrameStart s = .next (({ u with link := { u.link with
      ready := Store.set (fun _ => []) u.link.ready f.stream ((u.readyOf f.stream).erase f) } } : State).startFrame f) := by
  subst hu
  simp only [execFrameStart, if_pos (And.intro hup hidle), hready]

/-- A backlog tile drains only while no frame is ready. -/
theorem execFrameStart_of_drainable {t : BlTile} (hnone : u.pickReady = none) (htile : u.drainable = some t) :
    execFrameStart s = .next (u.startDrain t) := by
  subst hu
  simp only [execFrameStart, if_pos (And.intro hup hidle), hnone, htile]

end

/-- The frame in progress is counted and its END block sent; a backlog tile's frame frees its tile. -/
theorem execFrameSent_of_sending {s u : State} {f : Frame} (hsending : s.link.sending = some f)
    (hu : u = ({ s with link := { s.link with
      sending := none, sentN := State.countStream s.link.sentN f.stream 1 } } : State).freshRows.sendBlocks
        [(true, rowOf [0x87])]) :
    execFrameSent s = .next (if f.stream = 4 then u.drained else u.resynced f) := by
  subst hu
  simp only [execFrameSent, hsending]

/-! ### Credit and the open event frame (R401, R402) -/

/-- The limits of the streams that the CZ6464 sends under credit are taken; entries of other streams are not. -/
theorem execCreditFrame_of_ok {l : List Word} {s u : State} {lim : Store Nat} (hopen : s.rxOpen = true)
    (hok : creditOk l = true) (hu : u = s.received 0 ((4 * l.length + 27) / 8))
    (hlim : lim = ((creditEntries l).filter fun e => creditedTx.contains e.1).foldl
      (fun (m : Store Nat) e => Store.set (fun _ => 0) m e.1 e.2) u.link.limit) :
    execCreditFrame l s = .next ({ u with link := { u.link with limit := lim } } : State).creditRegs := by
  subst hlim hu
  simp only [execCreditFrame, if_pos hopen, if_pos hok]

theorem execCreditGrantTimer_of_up {s : State} (hup : s.linkUp = true) :
    execCreditGrantTimer s = .next s.grantCredit :=
  congrArg Host.Outcome.next (if_pos hup)

theorem execEventFrameClose_of_open {s : State} (hevents : s.link.evtOpen ≠ []) :
    execEventFrameClose s = .next (s.elapseTo (s.link.evtAt + 20000)).closeEvents :=
  if_neg hevents

/-! ### LINK bursts and their samples (R416 to R419) -/

section
variable {beam : Nat} {s : State} (hopen : s.rxOpen = true) (hbeam : beam < 32)
include hopen hbeam

section
variable {l : List Word} {u : State} (hok : burstOk l = true) (hu : u = s.received (0x50 + beam) 5)
include hok hu

theorem execBurstFrame_of_rejected {st : Nat} (hplan : u.burstPlan (u.linkBurst beam l) = .inl st) :
    execBurstFrame beam l s = .next (u.burstReject beam (u.linkBurst beam l).id st) := by
  subst hu
  simp only [execBurstFrame, if_pos (And.intro hopen hbeam), if_pos hok, hplan]

theorem execBurstFrame_of_planned {n : Nat} (hplan : u.burstPlan (u.linkBurst beam l) = .inr n) :
    execBurstFrame beam l s =
      .next ((u.armCmd n (u.linkBurst beam l).compare 3 (.burst beam)).setBurst n (some (u.linkBurst beam l))) := by
  subst hu
  simp only [execBurstFrame, if_pos (And.intro hopen hbeam), if_pos hok, hplan]

end

/-- The samples of a frame go to the burst of its beam and id; those beyond its n_samples are discarded. -/
theorem execBurstSampleFrame_of_burst {id m n u : Nat} {last : Bool} {payload : List Byte} {b : Burst} {l : List Iq}
    (hdecoded : iqDecode m n payload = some l)
    (hburst : (s.bursts.find? fun x => decide (x.2.beam = beam ∧ x.2.ack = false ∧ x.2.id = id)) = some (u, b)) :
    execBurstSampleFrame beam id m last ⟨n, payload⟩ s =
      .next (((s.received (0x50 + beam) ((payload.length + 27) / 8)).feedLine u beam (l.take (b.n - b.got))).setBurst u
        (some { b with got := min b.n (b.got + l.length), gotLast := b.gotLast || last })) := by
  simp only [execBurstSampleFrame, if_pos (And.intro hopen hbeam), hburst, hdecoded]

end

/-! ### IQ frames and the ladder (R410, R413, R415) -/

theorem State.bufferIq_of_fits {s : State} {f : Frame} (hfits : s.iqBuffered + 8 * f.len8 ≤ 2 ^ 20) :
    s.bufferIq f = { s.formFrame f with link := { (s.formFrame f).link with
      gap := Store.set (fun _ => false) (s.formFrame f).link.gap f.stream false
      run := Store.set (fun _ => false) (s.formFrame f).link.run f.stream true } } :=
  if_pos hfits

theorem State.bufferIq_of_full {s : State} {f : Frame} (hfull : 2 ^ 20 < s.iqBuffered + 8 * f.len8) :
    s.bufferIq f = s.dropIq f.stream :=
  if_neg (Nat.not_le.2 hfull)

/-- The frame of a carried stream's blocks is measured, whether or not the buffer then takes it. -/
theorem execIqFrameFormed_of_blocks {stream n q : Nat} {t : T48} {s u : State} {st : Step} {l : List IqBlock} {f : Frame}
    {c : Int} (hup : s.linkUp = true) (hst : st = s.stepNow) (hiq : st.iq = true)
    (hcarried : ((s.iqStreams.take st.count).find? fun x => decide (x.1 = stream)) = some (stream, q)) (hsome : 1 ≤ n)
    (hlimit : n ≤ framesK st.m (s.quadRate q)) (hc : c = s.cycleOf t)
    (hu : u = s.elapseTo (s.cycleTime (c + s.blockCycles stream n))) (hblocks : u.streamBlocks stream c n = some l)
    (hf : f = u.iqFrame st stream (u.cycleTime ((u.timesFrom (u.streamPath stream) c 1).headD c)) l) :
    execIqFrameFormed stream t n s = .next ((u.measureIq f l).bufferIq f) := by
  have hguard : s.linkUp = true ∧ st.iq = true ∧ 1 ≤ n ∧ n ≤ framesK st.m (s.quadRate q) :=
    ⟨hup, hiq, hsome, hlimit⟩
  subst hf hu hc hst
  simp only [execIqFrameFormed, hcarried, if_pos hguard, hblocks]

theorem execDegradeMeasureWindow_of_over {s : State} (hup : s.linkUp = true)
    (hmode : s.modeNo = mRelay ∨ s.modeNo = mMirror) (hprune : s.onPruneStep = true)
    (hover : 98 * s.capacity < 100 * 16384 * s.iqRate) : execDegradeMeasureWindow () s = .next s.nextStep :=
  congrArg Host.Outcome.next (if_pos ⟨hup, hmode, hprune, hover⟩)

/-! ### Frames that fail a check (R398) -/

section
variable {ended : Bool} {l : List Byte} {s : State} {c : Nat} (hc : c = s.frameCheck ended l)
include hc

theorem execFrameDiscard_of_passed (hpass : c = 0) : execFrameDiscard ended l s = .next s := by
  subst hc
  exact congrArg Host.Outcome.next (if_neg fun h => h.2 hpass)

theorem execFrameDiscard_of_failed (hup : s.linkUp = true) (hfail : c ≠ 0) :
    execFrameDiscard ended l s = .next (s.discardFrame c (l.getD 1 0).toNat) := by
  subst hc
  exact congrArg Host.Outcome.next (if_pos ⟨hup, hfail⟩)

end

/-- Settles O35, by the law of each row; an IQ frame splits on whether the buffer holds it, a sent frame on whether it was a
backlog tile's. -/
theorem framingRowsComplete : Obligations.FramingRowsComplete := by
  refine ⟨fun s u hup hidle hu => ⟨fun f => execFrameStart_of_ready hup hidle hu,
      fun t => execFrameStart_of_drainable hup hidle hu⟩,
    fun s f u hsending hu => ?frameSent,
    fun l s u lim hopen hok hu hlim => execCreditFrame_of_ok hopen hok hu hlim,
    fun s hup => execCreditGrantTimer_of_up hup,
    fun beam l s u hopen hbeam hok hu => ⟨fun st => execBurstFrame_of_rejected hopen hbeam hok hu,
      fun n => execBurstFrame_of_planned hopen hbeam hok hu⟩,
    fun beam id m last n payload s u b l hopen hbeam hdecoded hburst =>
      execBurstSampleFrame_of_burst hopen hbeam hdecoded hburst,
    fun s hevents => execEventFrameClose_of_open hevents,
    fun stream t n s u st q l f c v hup hst hiq hcarried hsome hlimit hc hu hblocks hf hv => ?iqFrame,
    fun ended l s c hup hc => ⟨execFrameDiscard_of_passed hc, execFrameDiscard_of_failed hc hup⟩,
    fun s hup hmode hprune hover => execDegradeMeasureWindow_of_over hup hmode hprune hover⟩
  case frameSent =>
    have hstep : exec .frameSent s = _ := execFrameSent_of_sending hsending hu
    exact ⟨fun htile => hstep.trans (by rw [if_pos htile]), fun hother => hstep.trans (by rw [if_neg hother])⟩
  case iqFrame =>
    have hstream : f.stream = stream := by rw [hf]
    have hstep : exec (.iqFrameFormed stream t n) s = .next (v.bufferIq f) := by
      rw [hv]
      exact execIqFrameFormed_of_blocks hup hst hiq hcarried hsome hlimit hc hu hblocks hf
    exact ⟨fun hfits => hstep.trans (by rw [State.bufferIq_of_fits hfits, hstream]),
      fun hfull => hstep.trans (by rw [State.bufferIq_of_full hfull, hstream])⟩

end Sys2Proof.Machine
end

section
/-! PROOFS. How an admitted command is served: its own tests pass, and its effect stands with its response staged (R602); the
tests of the shared forms of a schedule and a region (R604). -/

namespace Sys2Proof.Machine

open Host

section
variable {c : CmdSpec} {q : Req} {s : State} {body : State → State × Rsp} (hadmitted : s.precheck c q = none)
include hadmitted

/-- An admitted command leaves what its body answers, the response staged. -/
theorem served_of_body {t : State} {r r' : Rsp} (hbody : body s = (t, r')) (hrsp : r = { r' with trivet := c.trivet }) :
    (.next (serve c q body s) : Outcome State Fault Refusal) = .next (t.stageRsp q.mbx r) := by
  rw [serve_ok body hadmitted, hbody, hrsp]

/-- An admitted command that none of its own tests refuses leaves its effect. -/
theorem served_of_check {tests : List (Bool × Rsp)} {t : State} {r r' : Rsp} (hbody : body s = s.check tests (t, r'))
    (hrsp : r = { r' with trivet := c.trivet }) (hpass : ∀ x ∈ tests, x.1 = false) :
    (.next (serve c q body s) : Outcome State Fault Refusal) = .next (t.stageRsp q.mbx r) :=
  served_of_body hadmitted (hbody.trans (s.check_pass tests _ hpass)) hrsp

end

/-! ### Schedules and regions (R604) -/

section
variable {s : State} {q : Req} {n lead : Nat} (h : s.canSchedule q n lead)
include h

theorem State.schedNow_pass (nowOk : Bool) : (State.schedNow (schedOf q n) nowOk).1 = false := by
  obtain ⟨hnow, -, -, -⟩ := h
  simp [State.schedNow, hnow]

theorem State.schedHeld_pass : (s.schedHeld q (schedOf q n)).1 = false := by
  obtain ⟨-, hheld, -, -⟩ := h
  simp [State.schedHeld, hheld]

theorem State.schedBusy_pass : (s.schedBusy (schedOf q n)).1 = false := by
  obtain ⟨-, -, hidle, -⟩ := h
  simp [State.schedBusy, hidle]

theorem State.schedLate_pass : (s.schedLate (schedOf q n) lead).1 = false := by
  obtain ⟨-, -, -, hlead⟩ := h
  simp [State.schedLate, hlead]

end

section
variable {s : State} {q : Req} {n : Nat} (hnow : (schedOf q n).now = true)
include hnow

/-- With now = 1 no unit is needed. -/
theorem State.schedHeld_now : (s.schedHeld q (schedOf q n)).1 = false := by
  simp [State.schedHeld, hnow]

theorem State.schedBusy_now : (s.schedBusy (schedOf q n)).1 = false := by
  simp [State.schedBusy, hnow]

theorem State.schedLate_now (lead : Nat) : (s.schedLate (schedOf q n) lead).1 = false := by
  simp [State.schedLate, hnow]

end

theorem bits_lt (w : Word) (hi lo : Nat) : bits w hi lo < 2 ^ (hi + 1 - lo) := Nat.mod_lt _ (Nat.two_pow_pos _)

/-- A region of any length is one of a tile or more. -/
theorem State.regionOk_one {s : State} {q : Req} {n need : Nat} (h : s.regionOk q n need) : s.regionOk q n 1 := by
  obtain ⟨hcount, hrest⟩ := h
  exact ⟨by omega, hrest⟩

theorem rspOk_status_le (l : List Word) : (rspOk l).status ≤ stAccepted := show stOk ≤ stAccepted by decide

theorem maskEmpty_pass {m : Nat} (h : m ≠ 0) : (maskEmpty m).1 = false := decide_eq_false h

theorem not_any_of_forall {α : Type} {l : List α} {p : α → Bool} (h : ∀ a ∈ l, p a = false) : l.any p = false :=
  List.any_eq_false.2 fun a ha => ne_true_of_eq_false (h a ha)

/-! ### Input tiles (R454, R455) -/

/-- Whether a tile opens does not depend on whether it is sealed first. -/
theorem State.openTile_fst (s : State) (k c : Nat) (b b' : Bool) : (s.openTile k c b).1 = (s.openTile k c b').1 := by
  unfold State.openTile
  split
  · rfl
  · rfl
  · split <;> rfl

theorem State.openTiles_one {s u : State} {k c : Nat} {b : Bool} (h : s.openTile k c b = (true, u)) :
    s.openTiles k c b 1 = (true, u) := by
  have hfst : (s.openTile k c false).1 = true := by rw [s.openTile_fst k c false b, h]
  have hbad : s.badTile k c 1 = none := by simp [State.badTile, hfst]
  simp [State.openTiles, hbad, h]

section
variable {c : CmdSpec} {q : Req} {s u : State} {body : State → State × Rsp} (hadmitted : s.precheck c q = none)
include hadmitted

/-- An admitted command whose input tiles open leaves its effect on the state in which they are open. -/
theorem served_of_input {tests : List (Bool × Rsp)} {n tiles : Nat} {effect : State → State × Rsp} {t : State} {r : Rsp}
    (hbody : body s = s.check tests (s.withInput q n tiles effect))
    (hopen : s.openTiles (regionFirst q n) 3 true tiles = (true, u)) (heffect : effect u = (t, r))
    (hstatus : r.status ≤ stAccepted) (hrsp : r.trivet = c.trivet) (hpass : ∀ x ∈ tests, x.1 = false) :
    (.next (serve c q body s) : Outcome State Fault Refusal) = .next (t.stageRsp q.mbx r) := by
  refine served_of_body hadmitted ((hbody.trans (s.check_pass tests _ hpass)).trans ?_) (by rw [← hrsp])
  simp only [State.withInput, hopen, heffect, if_pos hstatus]

end

end Sys2Proof.Machine
end

section
/-! PROOFS. Chapter 13, a host's writes: TC_CTL of a unit that its port holds, and offset samples for the servo. -/

namespace Sys2Proof.Machine

open Host

/-! ### What a register write leaves of the counter -/

/-- The next tick reads the counter, the rate word and TIME_STAT alone. -/
theorem State.cmpPast_setReg (s : State) {r : RegName} (i : Nat) (w : Word) (c : T48) (hrate : r ≠ .TS_RATE)
    (hstat : r ≠ .TIME_STAT) : (s.setReg r i w).cmpPast c = s.cmpPast c := by
  simp only [State.cmpPast, State.nextTick, State.increment, State.flag, State.reg_setReg_ne _ _ _ _ hrate,
    State.fld_setReg_ne _ (g := F.TIME_STAT_on_hosc) _ _ _ hstat, State.setReg_time]
  rfl

theorem State.cmpTime_setReg (s : State) {r : RegName} (i u : Nat) (w : Word) (hns : r ≠ .TC_CMP_NS)
    (hwp : r ≠ .TC_CMP_WP) : (s.setReg r i w).cmpTime u = s.cmpTime u := by
  simp only [State.cmpTime, State.reg_setReg_ne _ _ _ _ hns, State.reg_setReg_ne _ _ _ _ hwp]

/-! ### Writes of TC_CTL (R72, R440, R441, R446) -/

theorem RegName.written_arm (w v : Word) : bitAt (RegName.TC_CTL.written w v) 0 = bitAt v 0 :=
  (fieldTypesGovernEachBit.1 .TC_CTL ⟨0, 1, .rw, 0⟩ 0 w v (by decide) (by decide) (by decide)).1

section
variable {p : Port} {u : Nat} {v : Word} {s : State} (hu : u < 16) (hheld : s.portHolds p resTc u = true)
include hu hheld

theorem execTcCtlWrite_of_cmd_armed (harmed : s.flag F.TC_CTL_cmd_armed u = true) :
    execTcCtlWrite p u v s = .next s := by
  simp [execTcCtlWrite, State.writeTcCtl, hu, hheld, harmed]

/-- Action SKILLET is Tilin's alone. -/
theorem execTcCtlWrite_of_bad_action (hp : p ≠ .tilin) (harm : bitAt v 0 = true) (hout : bits v 7 4 ≠ 1)
    (hdma : bits v 7 4 ≠ 2) : execTcCtlWrite p u v s = .next s := by
  simp [execTcCtlWrite, State.writeTcCtl, hu, hheld, harm, hp, hout, hdma]

variable (hfree : s.flag F.TC_CTL_cmd_armed u = false)
include hfree

theorem execTcCtlWrite_of_disarm (harm : bitAt v 0 = false) :
    execTcCtlWrite p u v s = .next (s.writeTyped .TC_CTL u v) := by
  simp [execTcCtlWrite, State.writeTcCtl, hu, hheld, hfree, harm]

variable (harm : bitAt v 0 = true) (haction : bits v 7 4 = 1 ∨ bits v 7 4 = 2) {w : State}
  (hw : w = s.writeTyped .TC_CTL u v)
include harm haction hw

theorem execTcCtlWrite_of_short_period (hperiodic : bitAt v 1 = true) (hshort : (w.reg .TC_PERIOD u).toNat < 100) :
    execTcCtlWrite p u v s = .next ((w.setFld F.TC_CTL_arm u 0).setFld F.TC_CTL_missed u 1) := by
  subst hw
  have hok : bits v 7 4 = 1 ∨ bits v 7 4 = 2 ∨ (bits v 7 4 = 6 ∧ p = .tilin) := by tauto
  simp only [execTcCtlWrite, State.writeTcCtl, hu, hheld, hfree, harm, if_pos hok, if_pos (And.intro hperiodic hshort)]
  rfl

theorem execTcCtlWrite_of_long_period (hlong : ¬ (bitAt v 1 = true ∧ (w.reg .TC_PERIOD u).toNat < 100)) :
    execTcCtlWrite p u v s = .next (if w.cmpPast (w.cmpTime u) then
      ((w.setFld F.TC_CTL_arm u 0).setFld F.TC_CTL_missed u 1).postLate u 7 (w.cmpTime u) else w.takeC u (w.cmpTime u)) := by
  subst hw
  have hok : bits v 7 4 = 1 ∨ bits v 7 4 = 2 ∨ (bits v 7 4 = 6 ∧ p = .tilin) := by tauto
  simp only [execTcCtlWrite, State.writeTcCtl, hu, hheld, hfree, harm, if_pos hok, if_neg hlong]
  rfl

end

/-- Settles O53: a refused write is the state as it was; what a stored word leaves is the write by field type. -/
theorem tcControlWritesAreGuarded : Obligations.TcControlWritesAreGuarded := by
  refine ⟨fun p u v s hu hp hheld => ⟨execTcCtlWrite_of_cmd_armed hu hheld, execTcCtlWrite_of_bad_action hu hheld hp,
      fun hfree harm => ⟨_, execTcCtlWrite_of_disarm hu hheld hfree harm, ?notArmed, State.reg_setReg_same s _ _ _,
        (RegsBut.refl _ s).setReg List.mem_cons_self _, sameBytes_of_mem rfl⟩⟩,
    fun p u v s w hu hheld hfree harm haction hw => ?arms⟩
  case notArmed =>
    have hbit : bitAt (RegName.TC_CTL.written (s.reg .TC_CTL u) v) 0 = false := (RegName.written_arm _ v).trans harm
    have hfld : (s.writeTyped .TC_CTL u v).fld F.TC_CTL_arm u = 0 := (State.fld_setReg_same s F.TC_CTL_arm u _).trans
      ((bits_single _ 0).trans (by rw [hbit]; rfl))
    rw [State.armed, State.flag, hfld]
    rfl
  case arms =>
    have hperiod : w.reg .TC_PERIOD u = s.reg .TC_PERIOD u := hw ▸ State.reg_setReg_ne s u u _ (by decide)
    have htime : w.cmpTime u = s.cmpTime u := hw ▸ State.cmpTime_setReg s u u _ (by decide) (by decide)
    have hpast : w.cmpPast (s.cmpTime u) = s.cmpPast (s.cmpTime u) := hw ▸ State.cmpPast_setReg s u _ _ (by decide) (by decide)
    refine ⟨fun hperiodic hshort => execTcCtlWrite_of_short_period hu hheld hfree harm haction hw hperiodic (hperiod ▸ hshort),
      fun hlong hlate => ?_⟩
    refine (execTcCtlWrite_of_long_period hu hheld hfree harm haction hw ?_).trans (by rw [htime, hpast, if_pos hlate])
    rw [hperiod]
    rintro ⟨hperiodic, hshort⟩
    exact hlong.elim (fun h => by simp [h] at hperiodic) fun h => by omega

/-! ### The servo (R430, R431, R432) -/

/-- A clamped value is read back from its register. -/
theorem toInt_ofInt_of_rate (x : Int) (hlo : -rateMax ≤ x) (hhi : x ≤ rateMax) : (BitVec.ofInt 32 x).toInt = x := by
  unfold rateMax at hlo hhi
  rw [BitVec.toInt_ofInt]
  exact Int.bmod_eq_of_le (by norm_num; omega) (by norm_num; omega)

section
variable {s : State} {ofs i0 i r0 r : Int} (hi0 : i0 = sgn32 (s.reg .TS_INTEG 0) + servoTerm (s.fld F.TIME_GAIN_ki) ofs)
  (hi : i = clampI (-rateMax) rateMax i0) (hr0 : r0 = i + servoTerm (s.fld F.TIME_GAIN_kp) ofs)
  (hr : r = clampI (-rateMax) rateMax r0)
include hi0 hi hr0 hr

/-- An offset sample moves the integrator and the rate; a clamp that acted shows in servo_sat. -/
theorem State.servo_eq : s.servo ofs =
    if i ≠ i0 ∨ r ≠ r0 then
      ((s.setReg .TS_INTEG 0 (BitVec.ofInt 32 i)).setReg .TS_RATE 0 (BitVec.ofInt 32 r)).setFld F.TIME_STAT_servo_sat 0 1
    else (s.setReg .TS_INTEG 0 (BitVec.ofInt 32 i)).setReg .TS_RATE 0 (BitVec.ofInt 32 r) := by
  subst hr hr0 hi hi0
  rfl

end

/-- A product of the servo, rounded: the nearest integer to x / 256, away from zero halfway. -/
theorem divHalfAway_256_bounds (x : Int) :
    (0 ≤ x → 256 * divHalfAway x 256 - 128 ≤ x ∧ x < 256 * divHalfAway x 256 + 128) ∧
    (x < 0 → 256 * divHalfAway x 256 - 128 < x ∧ x ≤ 256 * divHalfAway x 256 + 128) := by
  unfold divHalfAway
  refine ⟨fun h => ?_, fun h => ?_⟩
  · rw [if_pos h]
    omega
  · rw [if_neg (by omega)]
    omega

theorem execTsOffsetWrite_of_source {p : Port} {v : Word} {s : State}
    (hsrc : s.fld F.TIME_CFG_src = 0 ∨ (s.fld F.TIME_CFG_src = 2 ∧ p = .tilin)) :
    execTsOffsetWrite p v s = .next (s.servo v.toInt) :=
  congrArg Outcome.next (if_pos hsrc)

/-- Settles O54: the two registers hold the clamped sums, and TIME_STAT changes where a clamp acted. -/
theorem servoFollowsOffsets : Obligations.ServoFollowsOffsets := by
  refine ⟨fun p v s i0 i r0 r hsrc hi0 hi hr0 hr => ?_, fun x y hy => hy ▸ divHalfAway_256_bounds x⟩
  have hmax : -rateMax ≤ rateMax := by decide
  have hibound : -rateMax ≤ i ∧ i ≤ rateMax := by unfold rateMax; omega
  have hrbound : -rateMax ≤ r ∧ r ≤ rateMax := by unfold rateMax; omega
  have hservo := State.servo_eq (s := s) (ofs := v.toInt) hi0 (hi.trans (clampI_eq_max_min hmax _).symm) hr0
    (hr.trans (clampI_eq_max_min hmax _).symm)
  have hbut : RegsBut [(.TS_INTEG, 0), (.TS_RATE, 0), (.TIME_STAT, 0)] s
      ((s.setReg .TS_INTEG 0 (BitVec.ofInt 32 i)).setReg .TS_RATE 0 (BitVec.ofInt 32 r)) :=
    ((RegsBut.refl _ s).setReg (by decide) _).setReg (by decide) _
  refine ⟨_, execTsOffsetWrite_of_source hsrc, ?_⟩
  rw [hservo]
  split
  next hacted =>
    refine ⟨?_, ?_, fun _ => State.fld_setFld_same _ _ _ _ (by decide), fun hi hr => ?_, hbut.setFld (by decide) _,
      sameBytes_of_mem rfl, rfl⟩
    · rw [State.reg_setFld_ne _ _ _ _ (by decide), State.reg_setReg_ne _ _ _ _ (by decide), State.reg_setReg_same,
        toInt_ofInt_of_rate _ hibound.1 hibound.2]
    · rw [State.reg_setFld_ne _ _ _ _ (by decide), State.reg_setReg_same, toInt_ofInt_of_rate _ hrbound.1 hrbound.2]
    · exact absurd hacted (by simp [hi, hr])
  next hquiet =>
    refine ⟨?_, ?_, fun hacted => absurd hacted hquiet, fun _ _ => ?_, hbut, sameBytes_of_mem rfl, rfl⟩
    · rw [State.reg_setReg_ne _ _ _ _ (by decide), State.reg_setReg_same, toInt_ofInt_of_rate _ hibound.1 hibound.2]
    · rw [State.reg_setReg_same, toInt_ofInt_of_rate _ hrbound.1 hrbound.2]
    · rw [State.reg_setReg_ne _ _ _ _ (by decide), State.reg_setReg_ne _ _ _ _ (by decide)]

end Sys2Proof.Machine
end

section
/-! PROOFS. Chapter 13, the rows of time: PPS edges and their loss, link time marks, units that fire and preparations that miss
their deadline; and what one step is. Each law takes what its row acts on by hypothesis and gives the one next state. -/

namespace Sys2Proof.Machine

open Host

/-! ### PPS (R432, R434) -/

section
variable {t : T48} {frac : Nat} {s u : State} (hu : u = s.elapseTo t)
include hu

/-- An edge far enough from the one before is captured, and drives the servo with src = PPS. -/
theorem execPpsEdge_of_far {v : State} (hfar : ∀ p, u.time.lastPps = some p → 900000000 ≤ (t - p).toNat)
    (hv : v = ({ ((u.setReg .TS_PPS_NS 0 (toWord t.toNat)).setReg .TS_PPS_WF 0 (pack16 (t.toNat / 2 ^ 32) frac)) with
      time := { u.time with lastPps := some t } } : State).setFld F.TIME_STAT_pps_valid 0 1) :
    execPpsEdge t frac s =
      .next (if v.fld F.TIME_CFG_src = 1 then v.servo (ppsOffset v.time.ppsPhase t) else v) := by
  subst hv hu
  simp only [execPpsEdge]
  cases hlast : (s.elapseTo t).time.lastPps with
  | none => rfl
  | some p => exact if_pos (decide_eq_true (hfar p hlast))

theorem execPpsEdge_of_near {p : T48} (hlast : u.time.lastPps = some p) (hnear : (t - p).toNat < 900000000) :
    execPpsEdge t frac s = .next (u.bump F.TIME_STAT_pps_rejects 0) := by
  subst hu
  simp only [execPpsEdge, hlast]
  exact if_neg (by simpa using hnear)

end

theorem execPpsLossTimeout_of_valid {s : State} {p : T48} (hlast : s.time.lastPps = some p)
    (hvalid : s.flag F.TIME_STAT_pps_valid = true) :
    execPpsLossTimeout s = .next ((((s.elapseTo (p + 1500000000)).setFld F.TIME_STAT_pps_valid 0 0).setFld
      F.TIME_STAT_pps_loss 0 1).post 0x0802 clsWarn 0) := by
  simp only [execPpsLossTimeout, hlast, if_pos hvalid]

/-! ### Link time marks (R435 to R437) -/

section
variable {s : State} (hup : s.linkUp = true)
include hup

theorem execTimeMarkSend_of_up {u v w : State} (hu : u = s.setFld F.TS_MARK_SEQ_tx_seq 0 (s.fld F.TS_MARK_SEQ_tx_seq + 1))
    (hv : v = (u.setReg .TS_MARK_TX_NS 0 u.timeNs).setReg .TS_MARK_TX_WF 0 (pack16 u.timeWraps (u.timeSub.toNat / 65536)))
    (hw : w = { v with time := { v.time with staleTx := false, markInfo := v.markInfo } }) :
    execTimeMarkSend s =
      .next ((w.freshRows.sendRow (markRow (w.fld F.TS_MARK_SEQ_tx_seq))).sendFrame 2 v.markInfo) := by
  subst hw hv hu
  exact if_pos hup

/-- A mark is taken when its complement agrees with its number. -/
theorem execTimeMarkReceived_of_right {seq frac : Nat} {t : T48} (hseq : seq < 65536) {u : State}
    (hu : u = (((s.elapseTo t).setFld F.TS_MARK_SEQ_rx_seq 0 seq).setReg .TS_MARK_RX_NS 0 (toWord t.toNat)).setReg
      .TS_MARK_RX_WF 0 (pack16 (t.toNat / 2 ^ 32) frac)) :
    execTimeMarkReceived seq (65535 - seq) t frac s = .next { u with time := { u.time with staleRx := false } } := by
  subst hu
  exact if_pos ⟨hup, by omega⟩

/-- A partner's MARK_INFO that names the latest mark of each side completes the exchange, and its offset drives the servo
with src = LINK. -/
theorem execMarkInfoReceived_of_exchange {a b c d e f : Word} (hkind : bits a 7 0 = 1)
    (htx : bits d 15 0 = s.fld F.TS_MARK_SEQ_tx_seq) (hrx : bits a 23 8 = s.fld F.TS_MARK_SEQ_rx_seq)
    (hfreshTx : s.time.staleTx = false) (hfreshRx : s.time.staleRx = false) (hsrc : s.fld F.TIME_CFG_src = 2) :
    execMarkInfoReceived [a, b, c, d, e, f] s = .next (s.servo (BitVec.ofInt 32 (markOffset (stamp b c)
      (stamp (s.reg .TS_MARK_RX_NS 0) (s.reg .TS_MARK_RX_WF 0)) (stamp (s.reg .TS_MARK_TX_NS 0) (s.reg .TS_MARK_TX_WF 0))
      (stamp e f))).toInt) :=
  (if_pos ⟨hup, hkind, htx, hrx, hfreshTx, hfreshRx, hsrc⟩).trans (congrArg Outcome.next (if_pos (.inr ⟨hsrc, rfl⟩)))

end

/-! ### Units that fire, and deadlines that pass (R25, R439 to R443) -/

section
variable {n : Nat} {s u : State} (hn : n < 16) (harmed : s.armed n = true)
include hn harmed

theorem execTcFire_of_host (hu : u = (s.elapseTo (s.unitC n)).setFld F.TC_CTL_fired n 1)
    (hhost : u.flag F.TC_CTL_cmd_armed n = false) : execTcFire n s = .next (u.fireHost n) := by
  subst hu
  exact (if_pos ⟨hn, harmed⟩).trans (congrArg Outcome.next (if_neg (ne_true_of_eq_false hhost)))

theorem execTcFire_of_cmd (hu : u = (s.elapseTo (s.unitC n)).setFld F.TC_CTL_fired n 1)
    (hcmd : u.flag F.TC_CTL_cmd_armed n = true) : execTcFire n s = .next (u.fireCmd n) := by
  subst hu
  exact (if_pos ⟨hn, harmed⟩).trans (congrArg Outcome.next (if_pos hcmd))

variable {a : TcAction} (hact : s.actOf n = some a) (hu : u = s.elapseTo (tAdd (s.unitC n) (-(s.prepLead a : Int))))
include hact hu

theorem execPreparationDeadline_of_mode {p : PendMode} (ha : a = .mode) (hpend : u.mode.pend = some p) :
    execPreparationDeadline n s = .next ((u.dropPend p).modeLate p 1) := by
  subst hu ha
  simp only [execPreparationDeadline, if_pos (And.intro hn harmed), hact, hpend]

/-- An action with a preparation that State does not show complete is dropped. -/
theorem execPreparationDeadline_of_incomplete (hcrossing : a.crossing ≠ 0) (hshown : u.prepShown n a = false) :
    execPreparationDeadline n s = .next (u.dropPrepared n a) := by
  have hmode : a ≠ .mode := by
    rintro rfl
    exact hcrossing rfl
  have hguard : ¬ (a.crossing = 0 ∨ u.prepShown n a = true) := by simp [hcrossing, hshown]
  subst hu
  simp only [execPreparationDeadline, if_pos (And.intro hn harmed), hact]
  split
  next => exact absurd rfl hmode
  next => exact absurd rfl hmode
  next => exact if_neg hguard

end

/-- A single unit with action OUT drives its output and disarms. -/
theorem State.fireHost_of_single_out {s : State} {n : Nat} (hout : s.fld F.TC_CTL_action n = 1)
    (hsingle : (s.fireOut n (s.unitC n)).flag F.TC_CTL_periodic n = false) :
    s.fireHost n = (s.fireOut n (s.unitC n)).disarm n := by
  simp only [State.fireHost, hout]
  exact if_neg (ne_true_of_eq_false hsingle)

theorem State.fireCmd_of_prepared {s : State} {n : Nat} {a : TcAction} (hact : s.actOf n = some a)
    (hready : s.unprepared n a = false) : s.fireCmd n = (s.disarm n).takeAction n (s.unitC n) a := by
  simp only [State.fireCmd, hact]
  exact if_neg (ne_true_of_eq_false hready)

/-- Settles O26, by the law of each row. That a preparation's deadline drops its action, and that LATE is posted there, is the
model's choice (log entry 34). -/
theorem timeRowsComplete : Obligations.TimeRowsComplete := by
  refine ⟨fun s => rfl, fun t frac s u v hu hv => ⟨fun hfar hsrc => ?ppsOther, fun hfar hsrc => ?ppsServo,
      fun p hlast hnear => execPpsEdge_of_near hu hlast hnear⟩,
    fun s p hlast hvalid => execPpsLossTimeout_of_valid hlast hvalid,
    fun s u v hup hu hv => ⟨_, rfl, execTimeMarkSend_of_up hup hu hv rfl⟩,
    fun seq t frac s u hup hseq hu => execTimeMarkReceived_of_right hup hseq hu,
    fun a b c d e f s hup hkind htx hrx hfreshTx hfreshRx hsrc =>
      execMarkInfoReceived_of_exchange hup hkind htx hrx hfreshTx hfreshRx hsrc,
    fun n s u hn harmed hu => ⟨fun hhost hout hsingle => ?fireOut, fun a hcmd hact hready => ?fireCmd⟩,
    fun n s u a hn harmed hact hu => ⟨fun p => execPreparationDeadline_of_mode hn harmed hact hu,
      execPreparationDeadline_of_incomplete hn harmed hact hu⟩⟩
  case ppsOther => exact (execPpsEdge_of_far hu hfar hv).trans (by rw [if_neg hsrc])
  case ppsServo => exact (execPpsEdge_of_far hu hfar hv).trans (by rw [if_pos hsrc])
  case fireOut => exact (execTcFire_of_host hn harmed hu hhost).trans (by rw [State.fireHost_of_single_out hout hsingle])
  case fireCmd => exact (execTcFire_of_cmd hn harmed hu hcmd).trans (by rw [State.fireCmd_of_prepared hact hready])

/-! ### A step (R18, R425, R430) -/

theorem step_of_waiting (s : State) (c : Instr) (l : List Instr) :
    step { s with pending := c :: l } = exec c { s with pending := l } := rfl

theorem step_of_idle {s : State} (hidle : s.pending = []) : step s = .next s.tick := by
  simp only [step, hidle]

theorem State.tick_of_stopped {s : State} (hstop : s.time.running = false) : s.tick = s :=
  if_neg (ne_true_of_eq_false hstop)

theorem State.tick_of_running {s : State} (hrun : s.time.running = true) :
    s.tick = (s.pass 1).advanceTo (s.time.ticks + s.increment) :=
  if_pos hrun

theorem State.increment_on_hosc {s : State} (hhosc : s.flag F.TIME_STAT_on_hosc = true) :
    s.increment = 10 * 2 ^ 56 + 10 * 2 ^ 24 * (s.reg .TS_RATE 0).toInt :=
  if_pos hhosc

theorem State.increment_on_refclk {s : State} (href : s.flag F.TIME_STAT_on_hosc = false) :
    s.increment = 879609302220800000 + 204800000 * (s.reg .TS_RATE 0).toInt :=
  if_neg (ne_true_of_eq_false href)

/-- Settles O43. That an empty queue is one advance of the counter is the model's choice for the block's clock (log entry
9). -/
theorem stepRunsTheFrontCommand : Obligations.StepRunsTheFrontCommand := by
  refine ⟨step_of_waiting, fun s hidle hstop => ?_, fun s r hidle hrun hr => ⟨fun hhosc => ?_, fun href => ?_⟩⟩
  · rw [step_of_idle hidle, State.tick_of_stopped hstop]
  · rw [step_of_idle hidle, State.tick_of_running hrun, State.increment_on_hosc hhosc, hr, Int.add_assoc]
  · rw [step_of_idle hidle, State.tick_of_running hrun, State.increment_on_refclk href, hr, Int.add_assoc]

end Sys2Proof.Machine
end

section
/-! PROOFS. Chapter 13, the commands of time. -/

namespace Sys2Proof.Machine

/-! ### TIME_CFG_SET to TC_DISARM (R445, R626) -/

/-- A moved machine keeps its registers; its counter moves by the step. -/
theorem State.stepBy_ticks (s : State) (d : Int) : (s.stepBy d).time.ticks = s.time.ticks + d * 2 ^ 56 := rfl

theorem State.stepBy_regs (s : State) (d : Int) : (s.stepBy d).regs = s.regs := rfl

/-- Settles O18, by the effect of each command where no test refuses it. Which moments move with the counter is the model's
choice (log entry 141). -/
theorem timeCommandsComplete : Obligations.TimeCommandsComplete := by
  refine ⟨fun q s hadmitted hlow hhigh hphase => ?cfgSet, fun q s u hadmitted hsign hidle hu => ?step,
    fun q s hadmitted => served_of_body hadmitted rfl rfl,
    fun q s u c hadmitted hu hc haction hperiod hheld hidle hlate => ?arm,
    fun q s u hadmitted hu hheld hfree => ?disarm⟩
  case cfgSet =>
    refine served_of_check hadmitted rfl rfl ?_
    simp only [List.forall_mem_cons, decide_eq_false_iff_not]
    exact ⟨by omega, by omega, by simp⟩
  case step =>
    subst hu
    refine ⟨State.stepBy_ticks _ _, State.stepBy_regs _ _, served_of_check hadmitted rfl rfl ?_⟩
    simp [hsign, hidle]
  case arm =>
    subst hu hc
    refine served_of_check hadmitted rfl rfl ?_
    have haction' : ¬ (bits (q.arg 2) 7 4 ≠ 1 ∧ bits (q.arg 2) 7 4 ≠ 2) := by omega
    have hperiod' : (bitAt (q.arg 2) 1 && decide ((q.arg 5).toNat < 100)) = false := by
      simpa using hperiod
    simp only [List.forall_mem_cons, decide_eq_false haction', hperiod', hheld, hidle, hlate, Bool.not_true, true_and]
    simp
  case disarm =>
    subst hu
    refine served_of_check hadmitted rfl rfl ?_
    simp [hheld, hfree]

end Sys2Proof.Machine
end

section
/-! PROOFS. Commands that fail a common test, and the commands of chapter 02: queries, Trivet's commands, claims and releases,
the event ring. -/

namespace Sys2Proof.Machine

open Host

/-! ### Common tests (R602, R570) -/

section
variable {s : State} {c : CmdSpec} {q : Req}

theorem State.precheck_of_unserved (h : s.served c = false) : s.precheck c q = some stNotReady :=
  if_pos h

variable (hserved : s.served c = true)
include hserved

theorem State.precheck_of_length (h : q.args.length < c.minLen ∨ c.maxLen < q.args.length) :
    s.precheck c q = some stBadArg := by
  simp [State.precheck, hserved, h]

variable (hmin : c.minLen ≤ q.args.length) (hmax : q.args.length ≤ c.maxLen)
include hmin hmax

theorem State.precheck_of_reserved (h : reservedOk c.masks q.args = false) : s.precheck c q = some stBadArg := by
  simp [State.precheck, hserved, h, Nat.not_lt.2 hmin, Nat.not_lt.2 hmax]

variable (hres : reservedOk c.masks q.args = true)
include hres

theorem State.precheck_of_recovery (hradio : c.radio = true) (hs3 : s.s3Running = true) :
    s.precheck c q = some stFault := by
  simp [State.precheck, hserved, hres, hradio, hs3, Nat.not_lt.2 hmin, Nat.not_lt.2 hmax]

theorem State.precheck_of_unit (h : ∃ u ∈ c.units q, s.underRecovery u.1 u.2 = true) : s.precheck c q = some stFault := by
  have hany : (c.units q).any (fun u => s.underRecovery u.1 u.2) = true := List.any_eq_true.2 h
  simp only [State.precheck, hserved, hres, hany, Nat.not_lt.2 hmin, Nat.not_lt.2 hmax, or_self, Bool.true_eq_false, if_true,
    if_false, ite_self]

end

/-- A command that fails a common test answers with the test's status and no words, and changes nothing else. -/
theorem exec_refused {i : Instr} {c : CmdSpec} {q : Req} {s : State} {st : Nat} (hreq : requestOf i = some (c, q))
    (hfail : s.precheck c q = some st) : exec i s = .next (s.stageRsp q.mbx { status := st, trivet := c.trivet }) := by
  have hserve : ∀ body, (.next (serve c q body s) : Outcome State Fault Refusal) =
      .next (s.stageRsp q.mbx { status := st, trivet := c.trivet }) := fun body =>
    congrArg Outcome.next (serve_refused body hfail)
  cases i with
  | rffeXfer q =>
    cases hreq
    exact congrArg Outcome.next (by simp only [runRffeXfer, hfail]; rfl)
  | calRestore q =>
    cases hreq
    change execCalRestore q s = _
    simp only [execCalRestore, hfail]
    rfl
  | pwrDomainSet q =>
    cases hreq
    change execPwrDomainSet q s = _
    simp only [execPwrDomainSet, hfail]
    rfl
  | _ =>
    cases hreq
    all_goals exact hserve _

/-- Settles O57. Which commands name a unit, and that the tests of R570 stand after those of R602, is the model's reading (log
entries 129 and 12). -/
theorem refusedCommandsChangeNothing : Obligations.RefusedCommandsChangeNothing := by
  intro i c q s e hreq
  refine ⟨fun hserved he => ?_, fun hserved hlen he => ?_, fun hserved hmin hmax hres he => ?_,
    fun hserved hmin hmax hres hradio hs3 he => ?_, fun hserved hmin hmax hres hunit he => ?_⟩ <;> subst he
  · exact exec_refused hreq (State.precheck_of_unserved hserved)
  · exact exec_refused hreq (State.precheck_of_length hserved hlen)
  · exact exec_refused hreq (State.precheck_of_reserved hserved hmin hmax hres)
  · exact exec_refused hreq (State.precheck_of_recovery hserved hmin hmax hres hradio hs3)
  · exact exec_refused hreq (State.precheck_of_unit hserved hmin hmax hres hunit)

/-! ### Queries (R607, R611) -/

/-- Settles O1: each query answers its words over the state as it was. -/
theorem systemQueriesAnswer : Obligations.SystemQueriesAnswer := by
  refine ⟨fun q s hadmitted => served_of_body hadmitted rfl rfl, fun q s hadmitted => served_of_body hadmitted rfl rfl,
    fun q s hadmitted hbad hlen => served_of_check hadmitted rfl rfl ?_,
    fun q s hadmitted => served_of_body hadmitted rfl rfl,
    fun q s hadmitted hcount => served_of_check hadmitted rfl rfl ?_⟩
  · simp [hbad, hlen]
  · simpa using hcount

/-! ### Trivet's commands (R573, R611) -/

/-- TRV_BOOT_EXEC of an image that lies in the staging range. -/
theorem execTrvBootExec_of_ok {q : Req} {s : State} (hadmitted : s.precheck specTrvBootExec q = none)
    (hok : s.bootExecOk = true) (hzero : bits (q.arg 2) 7 0 = 0) (halign : (q.arg 1).toNat % 64 = 0)
    (hlo : s.staging.1 ≤ (q.arg 1).toNat) (hhi : (q.arg 1).toNat < s.staging.2) {u : State}
    (hu : u = { s with sys := { s.sys with
      imageFrom := 2, imageAddr := (q.arg 1).toNat, reload := if s.stage = 9 then 2 else 0 } }) :
    execTrvBootExec q s = .next ((if u.stage = 9 then u else u.setFld F.SYS_STATE_stage 0 4).stageRsp q.mbx
      { rspAccepted with trivet := true }) := by
  subst hu
  refine served_of_check hadmitted rfl rfl ?_
  have hrange : ¬ (bits (q.arg 2) 7 0 ≠ 0 ∨ (q.arg 1).toNat % 64 ≠ 0 ∨ (q.arg 1).toNat < s.staging.1 ∨
    s.staging.2 ≤ (q.arg 1).toNat) := by omega
  simp [hok, decide_eq_false hrange]

/-- Settles O2. That the stage stays MGMT_DOWN during the reload's check is the model's reading (log entry 80). -/
theorem trivetResetsAreDeferred : Obligations.TrivetResetsAreDeferred := by
  refine ⟨fun q s hadmitted => served_of_body hadmitted rfl rfl, fun q s hadmitted => served_of_body hadmitted rfl rfl,
    fun q s hadmitted hok hzero halign hlo hhi => ?_⟩
  have hstep : exec (.trvBootExec q) s = _ := execTrvBootExec_of_ok hadmitted hok hzero halign hlo hhi rfl
  refine ⟨fun hboot => ?_, fun hreload => ?_⟩
  · rw [if_neg hboot] at hstep
    exact hstep.trans (congrArg (fun u : State => Outcome.next (u.stageRsp q.mbx _)) (if_neg hboot))
  · rw [if_pos hreload] at hstep
    exact hstep.trans (congrArg (fun u : State => Outcome.next (u.stageRsp q.mbx _)) (if_pos hreload))

end Sys2Proof.Machine
end

section
/-! PROOFS. Chapter 02, claims, releases and the event ring; chapter 01, the commands of modes. -/

namespace Sys2Proof.Machine

open Host

/-! ### Owners (R91 to R97) -/

theorem claimKey_inj {ty ty' i i' : Nat} (hi : i < 8192) (hi' : i' < 8192) :
    claimKey ty i = claimKey ty' i' ↔ ty = ty' ∧ i = i' := by
  unfold claimKey
  omega

/-- Owners after one type's indices have taken one owner each. -/
theorem State.owner_foldl_setOwner (ty : Nat) (c : Option Claim) {l : List Nat} (hl : ∀ i ∈ l, i < 8192) {ty' i' : Nat}
    (hi' : i' < 8192) (s : State) :
    (l.foldl (fun s i => s.setOwner ty i c) s).owner ty' i' = if ty = ty' ∧ i' ∈ l then c else s.owner ty' i' := by
  induction l generalizing s with
  | nil => simp
  | cons k l ih =>
    have hk : k < 8192 := hl k List.mem_cons_self
    rw [List.foldl_cons, ih (fun i hi => hl i (List.mem_cons_of_mem _ hi)), State.owner_setOwner]
    simp only [claimKey_inj hk hi', List.mem_cons, eq_comm (a := k)]
    by_cases hmem : i' ∈ l
    · simp only [hmem, or_true, and_true]
      by_cases hty : ty = ty' <;> simp [hty]
    · simp only [hmem, or_false, and_false, if_false]

theorem State.foldl_setOwner_frame (ty : Nat) (c : Option Claim) (l : List Nat) (s : State) :
    l.foldl (fun s i => s.setOwner ty i c) s = { s with sys := (l.foldl (fun s i => s.setOwner ty i c) s).sys } := by
  induction l generalizing s with
  | nil => rfl
  | cons k l ih =>
    rw [List.foldl_cons, ih]
    rfl

theorem resCount_lt (ty : Nat) : resCount ty < 8192 := by
  unfold resCount
  split <;> decide

theorem resIdx_lt {q : Req} (hbad : resBad q = false) : ∀ i ∈ resIdx q, i < 8192 := by
  have hcount := resCount_lt (resType q)
  simp only [resBad, decide_eq_false_iff_not, not_or] at hbad
  obtain ⟨-, -, -, -, hlast⟩ := hbad
  simp only [resIdx, List.mem_map, List.mem_range]
  rintro i ⟨k, hk, rfl⟩
  omega

/-- The state after a claim: the indices that nobody held are the mailbox's. -/
def State.claimed (s : State) (q : Req) : State :=
  let c : Claim := ⟨q.mbx, s.fld F.SYS_MBX_STAT_port q.mbx, false, 0, s.sys.claimSeq⟩
  let s := ((resIdx q).filter fun i => (s.owner (resType q) i).isNone).foldl (fun s i => s.setOwner (resType q) i (some c)) s
  { s with sys := { s.sys with claimSeq := s.sys.claimSeq + 1 } }

theorem State.claimed_frame (s : State) (q : Req) : s.claimed q = { s with sys := (s.claimed q).sys } := by
  unfold State.claimed
  dsimp only
  rw [State.foldl_setOwner_frame]

section
variable {s : State} {q : Req} (hbad : resBad q = false)
include hbad

theorem State.owner_claimed {ty i : Nat} (hi : i < 8192) :
    (s.claimed q).owner ty i = if resType q = ty ∧ i ∈ resIdx q ∧ s.owner (resType q) i = none then
      some ⟨q.mbx, s.fld F.SYS_MBX_STAT_port q.mbx, false, 0, s.sys.claimSeq⟩ else s.owner ty i := by
  have hlt : ∀ i ∈ (resIdx q).filter fun i => (s.owner (resType q) i).isNone, i < 8192 := fun i hi =>
    resIdx_lt hbad i (List.mem_filter.1 hi).1
  refine (State.owner_foldl_setOwner (resType q) _ hlt hi s).trans ?_
  simp only [List.mem_filter, Option.isNone_iff_eq_none]

theorem State.owner_claimed_of_other {ty i : Nat} (hi : i < 8192) (hother : ¬ (ty = resType q ∧ i ∈ resIdx q)) :
    (s.claimed q).owner ty i = s.owner ty i := by
  rw [State.owner_claimed hbad hi, if_neg]
  rintro ⟨rfl, hmem, -⟩
  exact hother ⟨rfl, hmem⟩

/-- With nobody else holding one, the mailbox holds every index it names. -/
theorem State.holds_claimed {i : Nat} (hi : i ∈ resIdx q) (hmine : s.otherHolds q.mbx (resType q) i = false) :
    (s.claimed q).holds q.mbx (resType q) i = true := by
  cases howner : s.owner (resType q) i with
  | none => simp [State.holds, State.owner_claimed hbad (resIdx_lt hbad i hi), hi, howner]
  | some c =>
    have hheld : s.holds q.mbx (resType q) i = true := by simpa [State.otherHolds, howner] using hmine
    simpa [State.holds, State.owner_claimed hbad (resIdx_lt hbad i hi), howner] using hheld

end

/-- A claim that meets nobody, of tiles in powered banks that are not QUARANTINED, takes what is free. -/
theorem svcResClaim_of_free {q : Req} {s : State} (hbad : resBad q = false)
    (hmeets : ∀ i ∈ claimMeets (resType q) (resIdx q), s.otherHolds q.mbx (resType q) i = false)
    (htiles : resType q = resTile → ∀ t ∈ resIdx q,
      s.fld F.PWR_DOM_state (dLar + bankOf t) = 0 ∧ (s.tile t).state ≠ .quarantined) :
    svcResClaim q s = (if (resIdx q).all (fun i => s.holds q.mbx (resType q) i) then s else s.claimed q, rspOk) := by
  have hfree : (claimMeets (resType q) (resIdx q)).find? (fun i => s.otherHolds q.mbx (resType q) i) = none :=
    List.find?_eq_none.2 fun i hi => ne_true_of_eq_false (hmeets i hi)
  have hpower : ¬ (resType q = resTile ∧
      ((resIdx q).any fun t => decide (s.fld F.PWR_DOM_state (dLar + bankOf t) ≠ 0)) = true) := by
    rintro ⟨hty, hany⟩
    obtain ⟨t, ht, hoff⟩ := List.any_eq_true.1 hany
    exact absurd (htiles hty t ht).1 (by simpa using hoff)
  have hgood : ¬ (resType q = resTile ∧ ((resIdx q).any fun t => decide ((s.tile t).state = .quarantined)) = true) := by
    rintro ⟨hty, hany⟩
    obtain ⟨t, ht, hquar⟩ := List.any_eq_true.1 hany
    exact (htiles hty t ht).2 (by simpa using hquar)
  simp only [svcResClaim, hbad, hfree, if_neg hpower, if_neg hgood, Bool.false_eq_true, if_false]
  by_cases hall : (resIdx q).all (fun i => s.holds q.mbx (resType q) i) = true
  · rw [if_pos hall, if_pos hall]
  · rw [if_neg hall, if_neg hall]
    rfl

/-- Settles O3, by what the claim leaves of the owners, or with every index held already by the state as it was. -/
theorem claimTakesEveryIndex : Obligations.ClaimTakesEveryIndex := by
  intro q s hadmitted hbad hmeets hmine htiles
  have hbody := svcResClaim_of_free hbad hmeets htiles
  refine ⟨_, served_of_body hadmitted hbody rfl, State.staged_stageRsp _ _ _, ?_⟩
  split
  next hall =>
    exact ⟨fun i hi => List.all_eq_true.1 hall i hi, fun _ _ _ _ => rfl, rfl⟩
  next =>
    refine ⟨fun i hi => State.holds_claimed hbad hi (hmine i hi),
      fun ty i hi hother => State.owner_claimed_of_other hbad hi hother, ?_⟩
    exact congrArg (State.stageRsp · q.mbx rspOk) (State.claimed_frame s q)

/-- READY, with mailbox 1 holding the auxiliary sequencer, whose ring of 512 entries in tile 200 runs: the last use of that tile
in a bank with 32 tiles quarantined, and C_lim not as the tiles make it. -/
def auxInQuarantinedBank : State :=
  (((({ State.reset with
    sys := { State.reset.sys with claims := [(claimKey resAux 0, some ⟨1, 0, false, 0, 0⟩)], ringMade := true }
    mem := { State.reset.mem with
      tiles := (200, { uses := 1 }) :: (List.range 32).map fun i => (300 + i, { state := .quarantined }) }
    rxb := { State.reset.rxb with cLim := 0 } } : State).setFld F.SYS_STATE_stage 0 7).setFld F.AUX_SEQ_CTL_run 0 1).setReg
      .AUX_BUF_BASE 0 (toWord (tileAddr 200))).setFld F.AUX_BUF_CTL_size_log2 0 9

/-- Mailbox 1 releases the auxiliary sequencer. -/
def releaseAux : Req := ⟨1, 5, [0x00010006]⟩

/-- Refutes O4: the release stops the sequencer, whose ring's tile is quarantined as its use ends, and the CTX_LIMIT event that
follows is written into the event ring. -/
theorem not_releaseFreesEveryIndex : ¬ Obligations.ReleaseFreesEveryIndex := by
  intro h
  obtain ⟨t, hstep, -, -, -, -, hbytes, -⟩ := h releaseAux auxInQuarantinedBank (by decide +kernel) (by decide +kernel)
    (by decide +kernel) (by decide +kernel)
  cases hstep
  exact absurd (hbytes 0) (by decide +kernel)

/-! ### The event ring (R101, R450, R609) -/

/-- READY, with the event ring in tile 0, which a Ladle descriptor reads. -/
def ringTileInUse : State :=
  ({ State.reset with
    sys := { State.reset.sys with ringMade := true, ringTiles := 1 }
    mem := { State.reset.mem with tiles := [(0, { uses := 1 })] } } : State).setFld F.SYS_STATE_stage 0 7

/-- Refutes O5: the ring's leaving its tiles ends a use of each, so the tiles' records change where another consumer has one
open. -/
theorem not_eventRingIsReplaced : ¬ Obligations.EventRingIsReplaced := by
  intro h
  obtain ⟨u, hstep, -, -, -, -, -, -, -, -, hmem, -⟩ := h ⟨1, 5, [8]⟩ ringTileInUse 0 (by decide +kernel) (by decide +kernel)
    (by decide +kernel) (by decide +kernel)
  cases hstep
  exact absurd (congrArg (fun m : MemSt => (Store.get (fun _ => {}) m.tiles 0).uses) hmem) (by decide +kernel)

end Sys2Proof.Machine
end

section
/-! PROOFS. The commands of modes, radio states, receive paths, the Sieve and clocks (chapters 01, 10, 03, 04, 16): each in a
state in which none of its tests refuses it. -/

namespace Sys2Proof.Machine

open Host

/-! ### Modes (R49, R50, R608) -/

/-- Settles O6: a schedule that its tests let through, the end of a pending change, and the two stored values. -/
theorem modeCommandsSchedule : Obligations.ModeCommandsSchedule := by
  refine ⟨fun q s hadmitted hlen hready hsched hpreset hbeams hinc hload hpaths hnone hpantry => ?set,
    fun q s p hadmitted hpend hmine htime => ⟨_, rfl, ?cancel⟩,
    fun q s hadmitted hleadLo hleadHi hdwellLo hdwellHi hnone => ?cfgSet⟩
  case set =>
    refine served_of_check hadmitted rfl rfl ?_
    have hhosc : (decide (bits (q.arg 1) 2 0 ≠ mHold) && s.onHosc) = false := by
      simpa using fun h => (hready h).1
    have hcool : (decide (bits (q.arg 1) 2 0 ≠ mHold) && s.flag F.FLT_STAT_therm_hold) = false := by
      simpa using fun h => (hready h).2
    have hfixed : ((fixedPreset (bits (q.arg 1) 2 0)).any fun p => decide (p ≠ bits (q.arg 1) 5 4)) = false := by
      cases hp : fixedPreset (bits (q.arg 1) 2 0) with
      | none => rfl
      | some p => simpa using hpreset p hp
    have hrs : (bitAt (q.arg 1) 6 && decide ((q.arg 2).toNat < 2 ^ 31)) = false := by simpa using hinc
    have hnamed : (pathMode (bits (q.arg 1) 2 0) && decide (pathsOf q 6 = 0)) = false := by simpa using hpaths
    have hfitted : (decide (bits (q.arg 1) 2 0 = mSurvey) && !s.panFitted) = false := by simpa using hpantry
    simp only [List.forall_mem_cons, hhosc, hcool, State.schedHeld_pass hsched, State.schedNow_pass hsched,
      State.schedBusy_pass hsched, State.schedLate_pass hsched, hfixed, hbeams, hrs, hload, hnamed, hnone, hfitted]
    simp [hlen]
  case cancel =>
    refine served_of_check (r' := rspOk) (tests := [(decide (p.cmd.mbx ≠ q.mbx), s.rspHeld resTc p.unit),
      (!atOrAfter p.at_ (tAdd s.now (msec p.lead)), rspErr stLate)]) hadmitted ?_ rfl (by simp [hmine, htime])
    simp only [svcModeCancel, hpend]
    rfl
  case cfgSet =>
    have hrange : ¬ (bits (q.arg 1) 7 0 < 2 ∨ 100 < bits (q.arg 1) 7 0 ∨ bits (q.arg 1) 29 16 < 10 ∨
      10000 < bits (q.arg 1) 29 16) := by omega
    exact served_of_check hadmitted rfl rfl (by simp only [List.forall_mem_cons, decide_eq_false hrange, hnone]; simp)

/-! ### Radio states (R331 to R352, R612) -/

/-- A side may stop that the mode in force does not need. -/
theorem not_stop_needed {s : State} {enable : Bool} {l : List Nat} (h : enable = false → ∀ sd ∈ l, s.modeNeeds sd = false) :
    (!enable && l.any s.modeNeeds) = false := by
  cases enable with
  | true => rfl
  | false => exact not_any_of_forall (h rfl)

/-- Settles O7, by the effect of each command where no test refuses it. -/
theorem radioCommandsComplete : Obligations.RadioCommandsComplete := by
  refine ⟨fun q s hadmitted href hsched hmask hlo hrx hidle htx => ?tune, fun q s hadmitted hmask htol hrx => ?cfgSet,
    fun q s hadmitted => served_of_body hadmitted rfl rfl,
    fun q s hadmitted hmask hneed => ⟨fun hnow => ?sideNow, fun hsched => ?side⟩,
    fun q s hadmitted hlo hhi hlead hquiet => ?coex, fun q s hadmitted => served_of_body hadmitted rfl rfl⟩
  case tune =>
    refine served_of_check hadmitted rfl rfl ?_
    have hopens : (!bitAt (q.arg 1) 8 && s.opensNow) = false := by simpa using fun h => (hrx h).1
    have hsplit : (!bitAt (q.arg 1) 8 && s.rxSplit (bits (q.arg 1) 3 0) (q.arg 2).toNat) = false := by
      simpa using fun h => (hrx h).2
    have hmeets : (bitAt (q.arg 1) 8 && (maskList 4 (bits (q.arg 1) 3 0)).any fun a => s.tuneMeets a (schedOf q 3).t) = false := by
      cases htxBit : bitAt (q.arg 1) 8 with
      | false => rfl
      | true => exact not_any_of_forall (htx htxBit)
    simp only [List.forall_mem_cons, href, State.schedHeld_pass hsched, State.schedNow_pass hsched, maskEmpty_pass hmask,
      hlo, hopens, hsplit, not_any_of_forall hidle, hmeets, State.schedBusy_pass hsched, State.schedLate_pass hsched]
    simp
  case cfgSet =>
    refine served_of_check hadmitted rfl rfl ?_
    have hzero : (!bitAt (q.arg 1) 8 && decide (bits (q.arg 1) 31 16 ≠ 0 ∨ bits (q.arg 2) 9 0 ≠ 0)) = false := by
      simpa using fun h => ⟨(hrx h).1, (hrx h).2.1⟩
    have hreturn : (!bitAt (q.arg 1) 8 && decide (bits (q.arg 1) 9 9 = 1) && s.sentinelNow) = false := by
      simpa using fun h => (hrx h).2.2
    simp only [List.forall_mem_cons, maskEmpty_pass hmask, decide_eq_false (Nat.not_lt.2 htol), hzero, hreturn]
    simp
  case sideNow =>
    refine (served_of_check hadmitted rfl rfl ?_).trans
      (congrArg (fun u : State => Outcome.next (u.stageRsp q.mbx rspAccepted)) (if_pos hnow))
    simp only [List.forall_mem_cons, maskEmpty_pass hmask, State.schedHeld_now hnow, not_stop_needed hneed,
      State.schedBusy_now hnow, State.schedLate_now hnow]
    simp
  case side =>
    refine (served_of_check hadmitted rfl rfl ?_).trans
      (congrArg (fun u : State => Outcome.next (u.stageRsp q.mbx rspAccepted)) (if_neg (ne_true_of_eq_false hsched.1)))
    simp only [List.forall_mem_cons, maskEmpty_pass hmask, State.schedHeld_pass hsched, not_stop_needed hneed,
      State.schedBusy_pass hsched, State.schedLate_pass hsched]
    simp
  case coex =>
    have hrange : ¬ (bits (q.arg 1) 15 6 < 1 ∨ 1000 < bits (q.arg 1) 15 6 ∨ 10000 < bits (q.arg 1) 29 16) := by omega
    exact served_of_check hadmitted rfl rfl (by simp only [List.forall_mem_cons, decide_eq_false hrange, hquiet]; simp)

end Sys2Proof.Machine
end

section
/-! PROOFS. The commands of the receive paths, the Sieve and the clocks (chapters 03, 04, 16), each in a state in which none of
its tests refuses it. -/

namespace Sys2Proof.Machine

open Host

/-! ### Receive paths (R112 to R140, R614) -/

/-- A sequence of a quadrant is loaded or armed only while it does not run. -/
theorem State.not_running {s : State} {qd n : Nat} (h : ∀ i, s.rffeRunning qd ≠ some (n, i)) :
    (match s.rffeRunning qd with
      | some (r, _) => decide (r = n)
      | none => false) = false := by
  split
  next r i hr => exact decide_eq_false fun hn => h i (hn ▸ hr)
  next => rfl

/-- Settles O8: RX_GAIN_SET and the sequences pass their tests, and RFFE_XFER starts or is held. -/
theorem receiveCommandsComplete : Obligations.ReceiveCommandsComplete := by
  refine ⟨fun q s hadmitted href hsched hmask hgain hpaths => ?gain, fun q s x hadmitted hgood hx => ?xfer,
    fun q s hadmitted hlo hhi hlen hwords hrun harmed hroom => ?load, fun q s hadmitted hsched hset hrun harmed => ?arm⟩
  case gain =>
    refine served_of_check hadmitted rfl rfl ?_
    simp only [List.forall_mem_cons, href, State.schedHeld_pass hsched, State.schedNow_pass hsched, maskEmpty_pass hmask,
      decide_eq_false (Nat.not_lt.2 hgain), not_any_of_forall fun p hp => (hpaths p hp).1,
      not_any_of_forall fun p hp => (hpaths p hp).2, State.schedBusy_pass hsched, State.schedLate_pass hsched]
    simp
  case xfer =>
    subst hx
    have hrun : exec (.rffeXfer q) s = .next (s.offerXfer (bits (q.arg 1) 1 0) ⟨q.mbx, q.arg 1, q.args.drop 1, false⟩) := by
      change execRffeXfer q s = _
      simp only [execRffeXfer, runRffeXfer, hadmitted, hgood]
      rfl
    exact ⟨fun h => hrun.trans (congrArg _ (if_pos h)), fun h => hrun.trans (congrArg _ (if_neg h))⟩
  case load =>
    refine served_of_check hadmitted rfl rfl ?_
    have hcount : ¬ (bits (q.arg 1) 13 8 < 1 ∨ 62 < bits (q.arg 1) 13 8 ∨ q.args.length ≠ 1 + bits (q.arg 1) 13 8) := by omega
    simp only [List.forall_mem_cons, decide_eq_false hcount, not_any_of_forall hwords, harmed,
      decide_eq_false (Nat.not_lt.2 hroom)]
    simp
    exact State.not_running hrun
  case arm =>
    refine served_of_check hadmitted rfl rfl ?_
    simp only [List.forall_mem_cons, State.schedNow_pass hsched, decide_eq_false hset, State.schedHeld_pass hsched,
      harmed, State.schedBusy_pass hsched, State.schedLate_pass hsched]
    simp
    exact State.not_running hrun

/-! ### The Sieve (R162 to R171, R613) -/

/-- What a command does with its input tiles, once they open. -/
theorem State.withInput_of_open {s u t : State} {q : Req} {n tiles : Nat} {effect : State → State × Rsp} {r : Rsp}
    (hopen : s.openTiles (regionFirst q n) 3 true tiles = (true, u)) (heffect : effect u = (t, r))
    (hstatus : r.status ≤ stAccepted) : s.withInput q n tiles effect = (t, r) := by
  simp only [State.withInput, hopen, heffect, if_pos hstatus]

/-- What SIEVE_FIR_LOAD does once its tile opens (R164). -/
def firLoad (q : Req) (s u : State) : State × Rsp :=
  let qd := bits (q.arg 1) 1 0
  let preset := bits (q.arg 1) 5 4
  let cur := decide (s.fld F.SIEVE_CFG_preset qd = preset)
  let l := u.tileWords (regionFirst q 2) (firTaps preset)
  u.check [(!l.all coefOk, rspErr stBadArg), (cur && (u.swapPending qd || (u.fade qd).isSome), rspErr stBusy)]
    (if cur then (u.setBank qd (1 - u.fld F.SIEVE_CFG_active_bank qd) l).setFld F.SIEVE_CFG_shadow_valid qd 1
     else u.setStored qd preset l, rspOk)

/-- A load that succeeds sets no load fault. -/
theorem execSieveFirLoad_of_open {q : Req} {s u t : State} (hadmitted : s.precheck specSieveFirLoad q = none)
    (hregion : s.regionOk q 2 1) (hopen : s.openTile (regionFirst q 2) 3 true = (true, u)) (hload : firLoad q s u = (t, rspOk)) :
    exec (.sieveFirLoad q) s = .next (t.stageRsp q.mbx rspOk) := by
  refine served_of_body (body := svcSieveFirLoad q) (r' := rspOk) hadmitted ?_ rfl
  have hinput : s.withInput q 2 1 (firLoad q s) = (t, rspOk) :=
    State.withInput_of_open (State.openTiles_one hopen) hload (by decide)
  refine (s.check_pass _ _ (by simp [s.regionBad_ok q 2 1 hregion, s.regionHeld_ok q 2 1 hregion])).trans ?_
  change (fun r : State × Rsp => (if decide ((s.tile (regionFirst q 2)).state = .sealed) = true ∧ r.2.status = stFault
    then r.1.setFld F.SIEVE_STAT_load_fault (bits (q.arg 1) 1 0) 1 else r.1, r.2)) (s.withInput q 2 1 (firLoad q s)) = (t, rspOk)
  rw [hinput]
  exact congrArg (·, rspOk) (if_neg fun h => absurd h.2 (show ¬ stOk = stFault by decide))

/-- Settles O9: each command passes its tests; coefficients go to the shadow bank or to the preset's stored set. -/
theorem sieveCommandsComplete : Obligations.SieveCommandsComplete := by
  refine ⟨fun q s n r hadmitted hn hr hmode hpend hsched hmask hinc huniform hrates hidle => ?cfg,
    fun q s u l hadmitted hregion hopen hl hcoef => ?load, fun q s hadmitted hsched hmask hlo hhi hready => ?swap,
    fun q s r hadmitted hregion hr => ?read⟩
  case cfg =>
    subst hn hr
    refine served_of_check hadmitted rfl rfl ?_
    have htarget : (match s.mode.pend with
        | some p => perQuadMode p.target
        | none => true) = true := by
      split
      next p hp => exact hpend p hp
      next => rfl
    have hbeams : s.enabledBeams.all (fun b => uniformMask (fun x => if (bits (q.arg 1) 3 0).testBit x then
        Rate.mk (bits (q.arg 1) 5 4) (bitAt (q.arg 1) 8) (q.arg 2).toNat else s.quadRate x)
        (s.fld F.BEAM_RX_CFG_qmask b)) = true := List.all_eq_true.2 huniform
    have hquiet : ∀ x ∈ maskList 4 (bits (q.arg 1) 3 0), (s.swapPending x || s.presetPending x) = false := fun x hx => by
      simp [hidle x hx]
    simp only [List.forall_mem_cons, hmode, State.schedHeld_pass hsched, State.schedNow_pass hsched,
      maskEmpty_pass hmask, decide_eq_false (Nat.not_lt.2 hinc), hbeams, hrates, not_any_of_forall hquiet,
      State.schedBusy_pass hsched, State.schedLate_pass hsched]
    simp
    exact htarget
  case load =>
    subst hl
    constructor
    · intro hcur hswap hfade
      exact execSieveFirLoad_of_open hadmitted hregion hopen
        ((u.check_pass _ _ (by simp [hcoef, hswap, hfade])).trans (by simp [hcur]))
    · intro hother
      exact execSieveFirLoad_of_open hadmitted hregion hopen ((u.check_pass _ _ (by simp [hcoef, hother])).trans (by simp [hother]))
  case swap =>
    refine served_of_check hadmitted rfl rfl ?_
    have hfade : ¬ (bits (q.arg 1) 7 4 < 4 ∨ 10 < bits (q.arg 1) 7 4) := by omega
    have hvalid : ∀ x ∈ maskList 4 (bits (q.arg 1) 3 0), (!s.flag F.SIEVE_CFG_shadow_valid x) = false := fun x hx => by
      simp [hready x hx]
    have hquiet : ∀ x ∈ maskList 4 (bits (q.arg 1) 3 0), (s.swapPending x || (s.fade x).isSome) = false := fun x hx => by
      simp [hready x hx]
    simp only [List.forall_mem_cons, State.schedHeld_pass hsched, State.schedNow_pass hsched, maskEmpty_pass hmask,
      decide_eq_false hfade, not_any_of_forall hvalid, not_any_of_forall hquiet, State.schedBusy_pass hsched,
      State.schedLate_pass hsched]
    simp
  case read =>
    subst hr
    exact served_of_check hadmitted rfl rfl (by simp [s.regionBad_ok q 2 1 hregion, s.regionHeld_ok q 2 1 hregion])

/-! ### Clocks (R511 to R535, R613) -/

/-- When auto_resume starts a resume, as the command tests it and as R525 says it. -/
theorem resumes_iff {auto ref hosc resuming : Bool} {stage : Nat} :
    (auto && ref && hosc && !resuming && decide (stage = 7)) = true ↔
      auto = true ∧ ref = true ∧ hosc = true ∧ resuming = false ∧ stage = 7 := by
  simp [and_assoc]

/-- Settles O10: the stored choices, with a resume where auto_resume finds REFCLK valid; the clock's words; a resume. -/
theorem clockCommandsComplete : Obligations.ClockCommandsComplete := by
  refine ⟨fun q s u hadmitted hmode hseed hu => ?cfg, fun q s hadmitted => served_of_body hadmitted rfl rfl,
    fun q s hadmitted hosc hfree href => served_of_check hadmitted rfl rfl (by simp [hosc, hfree, href])⟩
  case cfg =>
    subst hu
    have hpass : ∀ x ∈ [(decide (bits (q.arg 1) 17 16 = 3), rspErr stBadArg),
        (decide (maskList 8 (bits (q.arg 1) 15 8) ≠ [] ∧ q.arg 2 = 0), rspErr stBadArg)], x.1 = false := by
      have hnone : ¬ (maskList 8 (bits (q.arg 1) 15 8) ≠ [] ∧ q.arg 2 = 0) := fun h => hseed.resolve_left h.1 h.2
      simp only [List.forall_mem_cons, decide_eq_false hmode, decide_eq_false hnone]
      simp
    exact ⟨fun hgo => (served_of_check hadmitted rfl rfl hpass).trans
        (congrArg (fun u : State => Outcome.next (u.stageRsp q.mbx rspOk)) (if_pos (resumes_iff.2 hgo))),
      fun hstay => (served_of_check hadmitted rfl rfl hpass).trans
        (congrArg (fun u : State => Outcome.next (u.stageRsp q.mbx rspOk)) (if_neg (mt resumes_iff.1 hstay)))⟩

end Sys2Proof.Machine
end

section
/-! PROOFS. The commands of beams, profiles and placement (chapters 05, 06, 07), each in a state in which none of its tests
refuses it. -/

namespace Sys2Proof.Machine

open Host

/-! ### Beams (R183 to R200, R615) -/

/-- Settles O11: each command passes its tests. That a rate_k of 0 stands for 8 is log entry 50's reading. -/
theorem beamCommandsComplete : Obligations.BeamCommandsComplete := by
  refine ⟨fun q s r l f hadmitted hr hl hf hplain hsched hmask hqm hshift huniform hrates hidle => ?cfg,
    fun q s p l c hadmitted hl hwith hpend hmask hqm hshift hrates hidle htime hc => ?cfgMode,
    fun q s u first n tx hadmitted hfirst hn htx hrange hregion hopen hidle => ?load,
    fun q s l tx hadmitted hl htx hsched hmask hhigh hready => ?swap,
    fun q s beam bank hadmitted hregion htx hbeam hbank => ?read,
    fun q s l w k hadmitted hl hw hsched hmask hsrc hk hlo hpow hsf hidle => ?txb,
    fun q s hadmitted hlo hhi hrange hheld hquiet => ?linkTc⟩
  case cfg =>
    subst hr hl hf
    have hbody : svcBeamCfgSet q s = s.beamCfgPlain q (maskList 64 (pathsOf q 1)) (bits (q.arg 3) 3 0) (bits (q.arg 3) 10 8)
        (bitAt (q.arg 3) 12) := if_neg (ne_true_of_eq_false hplain)
    have hbad : ¬ (bits (q.arg 3) 3 0 = 0 ∨ 6 < bits (q.arg 3) 10 8) := by omega
    refine served_of_check hadmitted hbody rfl ?_
    simp only [List.forall_mem_cons, State.schedHeld_pass hsched, State.schedNow_pass hsched, maskEmpty_pass hmask,
      decide_eq_false hbad, huniform, hrates, not_any_of_forall hidle, State.schedBusy_pass hsched, State.schedLate_pass hsched]
    simp
  case cfgMode =>
    subst hl hc
    have hbad : ¬ (bits (q.arg 3) 3 0 = 0 ∨ 6 < bits (q.arg 3) 10 8) := by omega
    refine served_of_body (body := svcBeamCfgSet q) (r' := rspAccepted) hadmitted ((if_pos hwith).trans ?_) rfl
    simp only [State.beamCfgWithMode, hpend]
    refine s.check_pass _ _ ?_
    simp only [List.forall_mem_cons, maskEmpty_pass hmask, decide_eq_false hbad, hrates, not_any_of_forall hidle, htime]
    simp
  case load =>
    subst hfirst hn htx
    have hbad : ¬ ((if bitAt (q.arg 1) 15 then 32 else 64) < bits (q.arg 1) 5 0 + (bits (q.arg 1) 13 8 + 1)) := by omega
    have hfree : ∀ b ∈ (List.range (bits (q.arg 1) 13 8 + 1)).map (bits (q.arg 1) 5 0 + ·),
        u.beamPending (bitAt (q.arg 1) 15) b = false := by
      simpa using hidle
    refine served_of_input hadmitted rfl hopen (u.check_pass _ _ ?_) (by decide) rfl ?_
    · simp only [List.forall_mem_cons, not_any_of_forall hfree]
      simp
    · simp only [List.forall_mem_cons, s.regionBad_ok q 2 1 (State.regionOk_one hregion), s.regionHeld_ok q 2 _ hregion,
        decide_eq_false hbad, s.regionBad_ok q 2 _ hregion]
      simp
  case swap =>
    subst hl
    have hhighBad : (bitAt (q.arg 3) 0 && decide (q.arg 2 ≠ 0)) = false := by
      subst htx; simpa using hhigh
    have hvalid : ∀ b ∈ maskList 64 (pathsOf q 1), (!s.shadowValid (bitAt (q.arg 3) 0) b) = false := fun b hb => by
      subst htx; simp [hready b hb]
    have hfree : ∀ b ∈ maskList 64 (pathsOf q 1), s.beamPending (bitAt (q.arg 3) 0) b = false := fun b hb => by
      subst htx; exact (hready b hb).2
    have hstep : exec (.beamSwap q) s = .next ((if tx then
          (s.armCmd (schedOf q 4).unit (schedOf q 4).t 5 (.beamSwap tx (pathsOf q 1) q.cmd)).pendTx (maskList 64 (pathsOf q 1))
        else (s.armCmd (schedOf q 4).unit (schedOf q 4).t 5 (.beamSwap tx (pathsOf q 1) q.cmd)).pendRx
          (maskList 64 (pathsOf q 1))).stageRsp q.mbx rspAccepted) := by
      subst htx
      refine served_of_check hadmitted rfl rfl ?_
      simp only [List.forall_mem_cons, State.schedHeld_pass hsched, State.schedNow_pass hsched, maskEmpty_pass hmask,
        hhighBad, not_any_of_forall hvalid, not_any_of_forall hfree, State.schedBusy_pass hsched, State.schedLate_pass hsched]
      simp
    exact ⟨fun h => by subst h; exact hstep, fun h => by subst h; exact hstep⟩
  case read =>
    subst hbeam hbank
    have hbad : (bitAt (q.arg 1) 7 && decide (31 < bits (q.arg 1) 5 0)) = false := by
      simpa using fun h => Nat.le_of_lt_succ (htx h)
    refine served_of_check hadmitted rfl rfl ?_
    simp only [List.forall_mem_cons, s.regionBad_ok q 2 1 hregion, s.regionHeld_ok q 2 1 hregion, hbad]
    simp
  case txb =>
    subst hl hw hk
    have hrate : bits (q.arg 2) 6 4 < 8 := bits_lt _ 6 4
    have hbad : ¬ (bits (q.arg 2) 1 0 = 3 ∨ (if bits (q.arg 2) 6 4 = 0 then 8 else bits (q.arg 2) 6 4) < 3 ∨
        8 < (if bits (q.arg 2) 6 4 = 0 then 8 else bits (q.arg 2) 6 4) ∨ bits (q.arg 2) 19 16 = 0 ∨ 5 < bits (q.arg 2) 26 24) := by
      split at hlo <;> split <;> omega
    have hfree : ∀ b ∈ maskList 32 (q.arg 1).toNat, s.flag F.TXB_STAT_pending b = false := fun b hb => (hidle b hb).1
    have hsame : ∀ b ∈ maskList 32 (q.arg 1).toNat, (s.flag F.TXB_STAT_busy b && decide (s.fld F.TXB_STAT_source b ≠
        bits (q.arg 2) 1 0 ∨ s.rateCode b ≠ if bits (q.arg 2) 6 4 = 0 then 8 else bits (q.arg 2) 6 4)) = false := by
      intro b hb
      cases hbusy : s.flag F.TXB_STAT_busy b with
      | false => rfl
      | true => simpa using (hidle b hb).2 hbusy
    refine served_of_check hadmitted rfl rfl ?_
    simp only [List.forall_mem_cons, State.schedHeld_pass hsched, State.schedNow_pass hsched, maskEmpty_pass hmask,
      decide_eq_false hbad, not_any_of_forall hfree, not_any_of_forall hsame, State.schedBusy_pass hsched,
      State.schedLate_pass hsched]
    simp
  case linkTc =>
    have hbad : ¬ (bits (q.arg 1) 7 4 < 1 ∨ 8 < bits (q.arg 1) 7 4 ∨ 16 < bits (q.arg 1) 3 0 + bits (q.arg 1) 7 4) := by omega
    have hacks : ∀ x ∈ s.bursts, (!x.2.ack) = false := fun x hx => by simp [hquiet x hx]
    refine served_of_check hadmitted rfl rfl ?_
    simp only [List.forall_mem_cons, decide_eq_false hbad, s.firstUnheld_none _ _ _ _ hheld, not_any_of_forall hacks]
    simp

/-! ### Profiles, detection and the decoder (R213 to R246, R604) -/

/-- Settles O12: each command passes its tests, and its table opens. -/
theorem profileCommandsComplete : Obligations.ProfileCommandsComplete := by
  refine ⟨fun q s u l p n hadmitted hregion hopen hn hl hp hreserved hvalid hmask hused => ?profile,
    fun q s u p slot k hadmitted hregion hopen hslot hp hpu hmask hk => ?code, fun q s hadmitted hsched hready hfree => ?enable,
    fun q s hadmitted hlo hhi => ?threshold, fun q s u l n hadmitted hregion hopen hn hl hvalid hnamed hused => ?graph,
    fun q s hadmitted hlo hhi halo hahi => ?decoder⟩
  case profile =>
    subst hn hp hl
    refine served_of_input hadmitted rfl (State.openTiles_one hopen) (u.check_pass _ _ ?_) (rspOk_status_le _) rfl ?_
    · simp only [List.forall_mem_cons, hreserved, hvalid, hmask, hused]
      simp
    · simp [s.regionBad_ok q 2 1 hregion, s.regionHeld_ok q 2 1 hregion]
  case code =>
    subst hslot hk
    refine served_of_input hadmitted rfl (State.openTiles_one hopen) ?_ (by decide) rfl ?_
    · simp only [hpu]
    · simp [s.regionBad_ok q 2 1 hregion, s.regionHeld_ok q 2 1 hregion, hp, hmask]
  case enable =>
    refine served_of_check hadmitted rfl rfl ?_
    simp only [List.forall_mem_cons, State.schedHeld_pass hsched, State.schedNow_pass hsched, hready, hfree,
      State.schedBusy_pass hsched, State.schedLate_pass hsched]
    simp
  case threshold =>
    have hbad : ¬ (bits (q.arg 1) 23 16 < 4 ∨ 160 < bits (q.arg 1) 23 16) := by omega
    exact served_of_check hadmitted rfl rfl (by simp only [List.forall_mem_cons, decide_eq_false hbad]; simp)
  case graph =>
    subst hn
    refine served_of_input hadmitted rfl (State.openTiles_one hopen) ?_ (rspOk_status_le []) rfl ?_
    · simp only [← hl]
      refine u.check_pass _ _ ?_
      simp only [List.forall_mem_cons, hvalid, hnamed, hused]
      simp
    · simp [s.regionBad_ok q 2 1 hregion, s.regionHeld_ok q 2 1 hregion]
  case decoder =>
    have hbad : ¬ (bits (q.arg 1) 5 0 < 1 ∨ 50 < bits (q.arg 1) 5 0 ∨ bits (q.arg 1) 12 8 < 8 ∨ 16 < bits (q.arg 1) 12 8) := by
      omega
    exact served_of_check hadmitted rfl rfl (by simp only [List.forall_mem_cons, decide_eq_false hbad]; simp)

/-! ### Placement and the backlog (R250 to R275, R617, R618) -/

/-- Settles O13: each command passes its tests; with no record held the oldest number is a free value (log entry 3). -/
theorem placementCommandsComplete : Obligations.PlacementCommandsComplete := by
  refine ⟨fun q s m p hadmitted hm hp hmode hreach hvalid hret => ?policySet, fun q s hadmitted hmode => ?policyGet,
    fun q s hadmitted => ⟨fun hzero => ?logStop, fun hmax hregion => ?logStart⟩, fun q s x hadmitted hx => ?ctxRead,
    fun q s hadmitted => ⟨_, served_of_body hadmitted rfl rfl, rfl, rfl, rfl, ?summary, rfl⟩,
    fun q s hadmitted hfitted hroom hsame => ?backlogSet, fun q s hadmitted => ?backlogStat⟩
  case policySet =>
    subst hm hp
    have hnoLimit : (decide (bits (q.arg 1) 2 0 = mReach) && bitAt (q.arg 1) 22) = false := by simpa using hreach
    have hroom : (bitAt (q.arg 1) 23 && decide (((s.policyOf (bits (q.arg 1) 2 0)).merge q).retTiles ≠ 0 ∧
        (s.panFitted = false ∨ s.fld F.MEM_PAN_USABLE_tiles <
          s.blTiles + ((s.policyOf (bits (q.arg 1) 2 0)).merge q).retTiles))) = false := by
      cases hset : bitAt (q.arg 1) 23 with
      | false => rfl
      | true =>
        refine decide_eq_false ?_
        rintro ⟨hne, hlack⟩
        obtain ⟨hfit, hle⟩ := (hret hset).resolve_left hne
        exact hlack.elim (fun h => absurd hfit (ne_true_of_eq_false h)) (Nat.not_lt.2 hle)
    have hpass : ∀ x ∈ [(!policyModes.contains (bits (q.arg 1) 2 0), rspErr stBadArg),
        (decide (bits (q.arg 1) 2 0 = mReach) && bitAt (q.arg 1) 22, rspErr stBadArg),
        (!((s.policyOf (bits (q.arg 1) 2 0)).merge q).valid, rspErr stBadArg),
        (bitAt (q.arg 1) 23 && decide (((s.policyOf (bits (q.arg 1) 2 0)).merge q).retTiles ≠ 0 ∧
          (s.panFitted = false ∨ s.fld F.MEM_PAN_USABLE_tiles <
            s.blTiles + ((s.policyOf (bits (q.arg 1) 2 0)).merge q).retTiles)), rspErr stNoMem)], x.1 = false := by
      simp only [List.forall_mem_cons, List.contains_iff_mem.2 hmode, hnoLimit, hvalid, hroom]
      simp
    exact ⟨fun h => (served_of_check hadmitted rfl rfl hpass).trans
        (congrArg (fun u : State => Outcome.next (u.stageRsp q.mbx rspOk)) (if_pos h)),
      fun h => (served_of_check hadmitted rfl rfl hpass).trans
        (congrArg (fun u : State => Outcome.next (u.stageRsp q.mbx rspOk)) (if_neg h))⟩
  case policyGet =>
    refine served_of_check hadmitted rfl rfl ?_
    simp only [List.forall_mem_cons, List.contains_iff_mem.2 hmode]
    simp
  case logStop => exact served_of_body (body := svcPlaceLogSet q) (r' := rspOk) hadmitted (if_pos hzero) rfl
  case logStart =>
    have hsome : regionCount q 1 ≠ 0 := fun h => absurd hregion.1 (by omega)
    refine served_of_check hadmitted (if_neg hsome) rfl ?_
    simp only [List.forall_mem_cons, decide_eq_false (Nat.not_lt.2 hmax), s.regionBad_ok q 1 1 hregion,
      s.regionHeld_ok q 1 1 hregion]
    simp
  case ctxRead =>
    subst hx
    exact ⟨_, served_of_body hadmitted rfl rfl, rfl, rfl, rfl, rfl, rfl⟩
  case summary =>
    intro i hi
    interval_cases i <;> rfl
  case backlogSet =>
    have hlack : (decide (bits (q.arg 1) 21 0 ≠ 0) && !s.panFitted ||
        decide (s.fld F.MEM_PAN_USABLE_tiles < bits (q.arg 1) 21 0 + s.maxRet)) = false := by
      simpa [Nat.not_lt.2 hroom] using hfitted
    have hbusy : ¬ (bits (q.arg 1) 21 0 ≠ s.blTiles ∧ s.blRecords ≠ []) := fun h => hsame.elim h.1 h.2
    refine served_of_check hadmitted rfl rfl ?_
    simp only [List.forall_mem_cons, hlack, decide_eq_false hbusy]
    simp
  case backlogStat =>
    cases hrecs : s.blRecords with
    | nil =>
      refine ⟨_, _, served_of_body (body := svcBacklogStat q) hadmitted rfl rfl, rfl, Or.inr ?_,
        congrArg (fun l => toWord (List.length l)) hrecs, nofun, rfl, rfl, rfl⟩
      simp [hrecs, State.takeFree]
    | cons r l =>
      refine ⟨_, _, served_of_body (body := svcBacklogStat q) hadmitted rfl rfl, rfl, Or.inl ?_,
        congrArg (fun l => toWord (List.length l)) hrecs, ?_, rfl, rfl, rfl⟩
      · simp [hrecs]
      · rintro r' l' ⟨rfl, rfl⟩
        exact ⟨by simp [hrecs], by simp [hrecs, rspOk]⟩

end Sys2Proof.Machine
end

section
/-! PROOFS. The commands of transmit, predistortion, calibration and the link (chapters 08, 09, 15, 11, 12), each in a state in
which none of its tests refuses it. -/

namespace Sys2Proof.Machine

open Host

/-! ### Transmit and acknowledgements (R282 to R300, R619) -/

/-- Settles O14: each command passes its tests; a strobe fires at the next tick or by its unit. -/
theorem transmitCommandsComplete : Obligations.TransmitCommandsComplete := by
  refine ⟨fun q s l hadmitted hl hmask hdel hdel' hdel'' hstep htick htick' hlead hidle => ?paCfg,
    fun q s l off hadmitted hl hoff hmask hsched hready => ?paSeq,
    fun q s n hadmitted hn hmax hheld => ⟨fun hnow => ?now, fun hsched => ?timed⟩,
    fun q s c hadmitted hpreLo hpreHi hdlyLo hdlyHi hunits hrange hheld hquiet hc => ?ackCfg,
    fun q s hadmitted => served_of_body hadmitted rfl rfl⟩
  case paCfg =>
    subst hl
    have hdelay : ¬ (1000 < bits (q.arg 3) 9 0 ∨ 1000 < bits (q.arg 3) 19 10 ∨ 1000 < bits (q.arg 3) 29 20) := by omega
    have hslew : ¬ (bits (q.arg 4) 7 0 < 1 ∨ bits (q.arg 4) 17 8 < 1 ∨ 1000 < bits (q.arg 4) 17 8) := by omega
    have hoff : ∀ p ∈ maskList 64 (pathsOf q 1), decide (1 < s.paState p) = false := fun p hp =>
      decide_eq_false (Nat.not_lt.2 (hidle p hp).1)
    refine served_of_check hadmitted rfl rfl ?_
    simp only [List.forall_mem_cons, maskEmpty_pass hmask, decide_eq_false hdelay, decide_eq_false hslew,
      decide_eq_false (Nat.not_lt.2 hlead), not_any_of_forall hoff, not_any_of_forall fun p hp => (hidle p hp).2]
    simp
  case paSeq =>
    subst hl hoff
    have hstatic : ∀ p ∈ maskList 64 (pathsOf q 1), (!s.paStatic p) = false := fun p hp => by simp [(hready p hp).1]
    have hsound : ∀ p ∈ maskList 64 (pathsOf q 1), (s.flag F.TX_EVT_bias_sc p || s.flag F.TX_PATH_STAT_degraded p) = false := by
      intro p hp
      obtain ⟨-, hbias, hdegraded, -⟩ := hready p hp
      simp [hbias, hdegraded]
    have hstate : ∀ p ∈ maskList 64 (pathsOf q 1), decide (s.paState p ≠ if bitAt (q.arg 3) 0 then pRfOn else pOff) = false :=
      fun p hp => decide_eq_false (not_not_intro (hready p hp).2.2.2)
    refine served_of_check hadmitted rfl rfl ?_
    simp only [List.forall_mem_cons, maskEmpty_pass hmask, State.schedNow_pass hsched, State.schedHeld_pass hsched,
      not_any_of_forall hstatic, not_any_of_forall hsound, not_any_of_forall hstate, State.schedBusy_pass hsched,
      State.schedLate_pass hsched]
    simp
  case now =>
    subst hn
    refine (served_of_check hadmitted rfl rfl ?_).trans
      (congrArg (fun u : State => Outcome.next (u.stageRsp q.mbx rspAccepted)) (if_pos hnow))
    simp only [List.forall_mem_cons, decide_eq_false (Nat.not_lt.2 hmax), hheld, State.schedHeld_now hnow,
      State.schedBusy_now hnow, State.schedLate_now hnow]
    simp
  case timed =>
    subst hn
    refine (served_of_check hadmitted rfl rfl ?_).trans
      (congrArg (fun u : State => Outcome.next (u.stageRsp q.mbx rspAccepted)) (if_neg (ne_true_of_eq_false hsched.1)))
    simp only [List.forall_mem_cons, decide_eq_false (Nat.not_lt.2 hmax), hheld, State.schedHeld_pass hsched,
      State.schedBusy_pass hsched, State.schedLate_pass hsched]
    simp
  case ackCfg =>
    subst hc
    have hbad : ¬ (bits (q.arg 1) 26 16 < 16 ∨ 1024 < bits (q.arg 1) 26 16 ∨ bits (q.arg 2) 23 0 < 500 ∨
        10000000 < bits (q.arg 2) 23 0 ∨ 4 < bits (q.arg 4) 6 4 ∨ 16 < bits (q.arg 4) 3 0 + bits (q.arg 4) 6 4) := by omega
    have hfree : ∀ x ∈ s.bursts, (x.2.ack && decide (x.2.profile = bits (q.arg 1) 2 0)) = false := fun x hx => by
      simpa using hquiet x hx
    refine served_of_check hadmitted rfl rfl ?_
    simp only [List.forall_mem_cons, decide_eq_false hbad, s.firstUnheld_none _ _ _ _ hheld, not_any_of_forall hfree]
    simp

/-! ### Predistortion (R301 to R326, R620) -/

/-- Settles O15: each command passes its tests, and a loaded set is legal. -/
theorem predistortionCommandsComplete : Obligations.PredistortionCommandsComplete := by
  refine ⟨fun q s l hadmitted hl hmask hperLo hperHi hnLo hnHi hidle => ?cfg,
    fun q s u set p hadmitted hp hregion hsound hopen hset hok => ?load,
    fun q s x n hadmitted hx hn hregion hbank htarget => ?read, fun q s l hadmitted hl hmask hsound => ?reset,
    fun q s p hadmitted hp href hregion horx hsched hfree hon => ?capture,
    fun q s p x r k hadmitted hp hx hr hk => by subst hp hx hr hk; exact served_of_body hadmitted rfl rfl⟩
  case cfg =>
    subst hl
    have hbad : ¬ (bits (q.arg 3) 29 16 < 1 ∨ 10000 < bits (q.arg 3) 29 16 ∨ bits (q.arg 3) 13 8 < 10 ∨
        50 < bits (q.arg 3) 13 8) := by omega
    have hquiet : ∀ p ∈ maskList 64 (pathsOf q 1),
        decide (s.flag F.DPD_CFG_bypass p ≠ bitAt (q.arg 3) 0 ∧ pOff < s.paState p) = false := fun p hp =>
      decide_eq_false fun ⟨hne, hlt⟩ => (hidle p hp).1.elim hne (Nat.not_le.2 hlt)
    refine served_of_check hadmitted rfl rfl ?_
    simp only [List.forall_mem_cons, maskEmpty_pass hmask, decide_eq_false hbad, not_any_of_forall hquiet,
      not_any_of_forall fun p hp => (hidle p hp).2]
    simp
  case load =>
    subst hp hset
    refine served_of_input hadmitted rfl (State.openTiles_one hopen) (u.check_pass _ _ (by simp [hok])) (by decide) rfl ?_
    simp [s.regionBad_ok q 2 1 hregion, s.regionHeld_ok q 2 1 hregion, hsound]
  case read =>
    subst hx hn
    have hnone : (decide (bits (q.arg 1) 9 8 = 1) && (s.dpdOf (bits (q.arg 1) 5 0)).target.isNone) = false := by
      simpa [Option.isSome_iff_ne_none] using htarget
    refine served_of_check hadmitted rfl rfl ?_
    simp only [List.forall_mem_cons, s.regionBad_ok q 2 1 hregion, s.regionHeld_ok q 2 1 hregion, decide_eq_false hbank, hnone]
    simp
  case reset =>
    subst hl
    refine served_of_check hadmitted rfl rfl ?_
    simp only [List.forall_mem_cons, maskEmpty_pass hmask, not_any_of_forall hsound]
    simp
  case capture =>
    subst hp
    have hone : s.regionOk q 2 1 := State.regionOk_one hregion
    refine served_of_check hadmitted rfl rfl ?_
    simp only [List.forall_mem_cons, href, State.schedNow_pass hsched, s.regionBad_ok q 2 1 hone, horx,
      State.schedHeld_pass hsched, s.regionHeld_ok q 2 1 hone, s.regionBad_ok q 2 16 hregion, hfree,
      State.schedBusy_pass hsched, hon, State.schedLate_pass hsched]
    simp

/-! ### Calibration (R480 to R502, R621) -/

/-- Settles O16: each command passes its tests; a run begins at once or by its unit. -/
theorem calibrationCommandsComplete : Obligations.CalibrationCommandsComplete := by
  refine ⟨fun q s qm m sides r hadmitted href hcals hqm hquads hm huse hsides horx hon hsound hmode hfree hr => ?run,
    fun q s hadmitted h1 h2 h3 h4 h5 h6 h7 h8 => ?cfg,
    fun q s a hadmitted ha => by subst ha; exact served_of_body hadmitted rfl rfl,
    fun q s p tx r hadmitted hp htx hdegraded hfree hr => ?restore, fun q s u hadmitted hregion hidle hopen => ?net,
    fun q s u hadmitted hregion hu hroom => ?read⟩
  case run =>
    subst hqm hm hsides hr
    have huseBad : ¬ (if bitAt (q.arg 1) 24 then pathsOf q 2 = 0 else pathsOf q 2 ≠ 0) := by
      cases h : bitAt (q.arg 1) 24 <;> simp [huse, h]
    have hnoOrx : ((((s.runSides (bits (q.arg 1) 11 0) (bits (q.arg 1) 19 16)).filter fun k => decide (k % 2 = 1)).map
        (· / 2)).filter fun a => usesOrx (bits (q.arg 1) 11 0) && s.holds q.mbx resOrx a) = [] := by
      simp only [List.filter_eq_nil_iff, List.mem_map, List.mem_filter, decide_eq_true_eq]
      rintro _ ⟨k, ⟨hk, hodd⟩, rfl⟩ h
      obtain ⟨huses, hheld⟩ := Bool.and_eq_true_iff.1 h
      exact ne_true_of_eq_false (horx huses k hk hodd) hheld
    have hup : ∀ k ∈ s.runSides (bits (q.arg 1) 11 0) (bits (q.arg 1) 19 16), decide (s.sideState k = sOff) = false :=
      fun k hk => decide_eq_false (hon k hk)
    have hsoundPaths : ∀ p ∈ (maskList 64 (pathsOf q 2)).filter (fun p => (bits (q.arg 1) 19 16).testBit (quadOf p)),
        ((s.runSides (bits (q.arg 1) 11 0) (bits (q.arg 1) 19 16)).contains (2 * quadOf p) && s.degraded p false ||
          (s.runSides (bits (q.arg 1) 11 0) (bits (q.arg 1) 19 16)).contains (2 * quadOf p + 1) && s.degraded p true) = false := by
      intro p hp
      obtain ⟨hp, hq⟩ := List.mem_filter.1 hp
      obtain ⟨hrx, htx⟩ := hsound p hp hq
      simpa using ⟨hrx, htx⟩
    have hruns : ∀ a ∈ maskList 4 (bits (q.arg 1) 19 16), (s.runOn a).isSome = false := fun a ha => by simp [hfree a ha]
    constructor
    · intro hnow
      refine (served_of_check hadmitted rfl rfl ?_).trans
        (congrArg (fun u : State => Outcome.next (u.stageRsp q.mbx rspAccepted)) (if_pos hnow))
      simp only [List.forall_mem_cons, href, hcals, maskEmpty_pass hquads, decide_eq_false huseBad, State.schedHeld_now hnow,
        hnoOrx, not_any_of_forall hup, not_any_of_forall hsoundPaths, hmode, not_any_of_forall hruns,
        State.schedBusy_now hnow, State.schedLate_now hnow]
      simp
    · intro hsched
      refine (served_of_check hadmitted rfl rfl ?_).trans
        (congrArg (fun u : State => Outcome.next (u.stageRsp q.mbx rspAccepted)) (if_neg (ne_true_of_eq_false hsched.1)))
      simp only [List.forall_mem_cons, href, hcals, maskEmpty_pass hquads, decide_eq_false huseBad,
        State.schedHeld_pass hsched, hnoOrx, not_any_of_forall hup, not_any_of_forall hsoundPaths, hmode,
        not_any_of_forall hruns, State.schedBusy_pass hsched, State.schedLate_pass hsched]
      simp
  case cfg =>
    refine served_of_check hadmitted rfl rfl ?_
    simp [*]
  case restore =>
    subst hp htx hr
    change execCalRestore q s = _
    simp only [execCalRestore, hadmitted, hdegraded, hfree]
    rfl
  case net =>
    have hbegun : ∀ r ∈ s.cal.runs, r.begun = false := hidle
    refine served_of_input hadmitted rfl (State.openTiles_one hopen) rfl (by decide) rfl ?_
    simp only [List.forall_mem_cons, s.regionBad_ok q 1 1 hregion, s.regionHeld_ok q 1 1 hregion, not_any_of_forall hbegun]
    simp
  case read =>
    subst hu
    refine served_of_check hadmitted rfl rfl ?_
    simp only [List.forall_mem_cons, s.regionBad_ok q 2 1 hregion, s.regionHeld_ok q 2 1 hregion,
      decide_eq_false (Nat.not_lt.2 hroom)]
    simp

/-! ### The link (R360 to R420, R624, R625) -/

/-- Settles O17: each command passes its tests; a change that takes the link down waits for the response. -/
theorem linkCommandsComplete : Obligations.LinkCommandsComplete := by
  refine ⟨fun q s hadmitted hlanes hffe => ?cfg, fun q s hadmitted => served_of_body hadmitted rfl rfl,
    fun q s hadmitted hen => ?retrain, fun q s u hadmitted hen hlanes hu => ?loop,
    fun q s m0 mMin u hadmitted hm0 hmMin hmode hle hpctLo hpctHi hu => ?content,
    fun q s k lim sent hadmitted hk hcredit => ?stat⟩
  case cfg =>
    have hpass : ∀ x ∈ [(decide (popCount 8 (bits (q.arg 1) 15 8) < bits (q.arg 1) 6 4 + 1), rspErr stBadArg),
        (decide (bits (q.arg 2) 7 0 ≠ 0) && !ffeOk (q.arg 3), rspErr stBadArg)], x.1 = false := by
      have htaps : (decide (bits (q.arg 2) 7 0 ≠ 0) && !ffeOk (q.arg 3)) = false := by simpa using hffe
      simp only [List.forall_mem_cons, decide_eq_false (Nat.not_lt.2 hlanes), htaps]
      simp
    exact ⟨fun h => served_of_body (body := svcLinkCfgSet q) hadmitted ((s.check_pass _ _ hpass).trans (if_pos h)) rfl,
      fun h => served_of_body (body := svcLinkCfgSet q) hadmitted
        ((s.check_pass _ _ hpass).trans (if_neg (ne_true_of_eq_false h))) rfl⟩
  case retrain =>
    have hpass : ∀ x ∈ [(!s.flag F.LNK_CFG_en, rspErr stBusy)], x.1 = false := by simp [hen]
    exact ⟨fun h => served_of_body (body := svcLinkRetrain q) hadmitted ((s.check_pass _ _ hpass).trans (if_pos h)) rfl,
      fun h => served_of_body (body := svcLinkRetrain q) hadmitted ((s.check_pass _ _ hpass).trans (if_neg h)) rfl⟩
  case loop =>
    subst hu
    exact served_of_check hadmitted rfl rfl (by simp [hen, hlanes])
  case content =>
    have hbadMode : ¬ (bits (q.arg 1) 2 0 ≠ mRelay ∧ bits (q.arg 1) 2 0 ≠ mMirror) := fun h => hmode.elim h.1 h.2
    have hbad : ¬ (m0 < mMin ∨ bits (q.arg 1) 22 16 < 1 ∨ 100 < bits (q.arg 1) 22 16) := by omega
    have hno : u.modeNo = s.modeNo := by
      subst hu
      exact State.fld_setFld_apart _ _ _ _ _ _ (by decide)
    have hbody : svcFrameContentSet q s =
        (if u.modeNo = bits (q.arg 1) 2 0 then u.newRuns.evaluate false else u, rspOk) := by
      subst hu
      simp only [svcFrameContentSet, hm0, hmMin]
      refine s.check_pass _ _ ?_
      simp only [List.forall_mem_cons, decide_eq_false hbadMode, decide_eq_false hbad]
      simp
    rw [hno] at hbody
    exact ⟨fun h => served_of_body hadmitted (hbody.trans (by rw [if_pos h])) rfl,
      fun h => served_of_body hadmitted (hbody.trans (by rw [if_neg h])) rfl⟩
  case stat =>
    subst hk
    refine served_of_body (body := svcFrameStatGet q) (r' := rspOk [toWord (perStream s.link.sentN (bits (q.arg 1) 7 0)),
      toWord (perStream s.link.recvN (bits (q.arg 1) 7 0)), toWord lim, toWord sent,
      pack16 (satN 16 (perStream s.link.errs (bits (q.arg 1) 7 0))) (satN 16 (perStream s.link.drops (bits (q.arg 1) 7 0)))])
      hadmitted ?_ rfl
    simp only [svcFrameStatGet, ← hcredit]

end Sys2Proof.Machine
end

section
/-! PROOFS. The commands of memory, power and faults (chapters 14, 17, 18), each in a state in which none of its tests refuses
it. -/

namespace Sys2Proof.Machine

open Host

/-! ### Tiles (R452 to R460, R627) -/

/-- Settles O19: each command passes its tests; whether a tile passes its march test is the silicon's (log entry 3). -/
theorem memoryCommandsComplete : Obligations.MemoryCommandsComplete := by
  have hpass : ∀ (q : Req) (s : State), s.regionOk q 1 1 → ∀ x ∈ [regionBad q 1 1, s.regionHeld q 1], x.1 = false := by
    intro q s h
    simp [s.regionBad_ok q 1 1 h, s.regionHeld_ok q 1 1 h]
  refine ⟨fun q s l hadmitted hregion hl => ?sealed, fun q s l hadmitted hregion hl => ?reopen,
    fun q s hadmitted hregion => ?verify,
    fun q s hadmitted => served_of_body hadmitted rfl rfl, fun q s lar pan hadmitted hregion hlar hpan hroom => ?list,
    fun q s l hadmitted hlo hhi hl hinternal => ?retest, fun q s hadmitted hsome hidle => ?dma⟩
  case sealed => subst hl; exact served_of_check hadmitted rfl rfl (hpass q s hregion)
  case reopen => subst hl; exact served_of_check hadmitted rfl rfl (hpass q s hregion)
  case verify =>
    constructor
    · intro hgood
      have hnone : (regionTiles q 1).find? s.tileFails = none :=
        List.find?_eq_none.2 fun t ht => ne_true_of_eq_false (hgood t ht)
      refine served_of_body (body := svcTileVerify q) (r' := rspOk [0]) hadmitted
        ((s.check_pass _ _ (hpass q s hregion)).trans ?_) rfl
      rw [hnone]
    · intro t hfails
      refine served_of_body (body := svcTileVerify q) (r' := { status := stFault, words := [toWord (t + 2 ^ 31)] }) hadmitted
        ((s.check_pass _ _ (hpass q s hregion)).trans ?_) rfl
      rw [hfails]
  case list =>
    subst hlar hpan
    refine served_of_check hadmitted rfl rfl ?_
    simp only [List.forall_mem_cons, s.regionBad_ok q 1 1 hregion, s.regionHeld_ok q 1 1 hregion,
      decide_eq_false (Nat.not_lt.2 hroom)]
    simp
  case retest =>
    subst hl
    have hbad : ¬ (regionCount q 1 < max 1 1 ∨ 6144 < regionFirst q 1 + regionCount q 1) := by omega
    have hnone : ((regionTiles q 1).filter fun t => (s.tile t).state = .quarantined).find? (fun t =>
        match s.owner resTile t with
        | some c => !c.internal
        | none => false) = none := by
      refine List.find?_eq_none.2 fun t ht => ?_
      cases howner : s.owner resTile t with
      | none => simp
      | some c => simp [hinternal t ht c howner]
    refine served_of_check hadmitted rfl rfl ?_
    simp only [List.forall_mem_cons]
    refine ⟨decide_eq_false hbad, ?_, nofun⟩
    split
    next t ht => exact absurd (hnone.symm.trans ht) nofun
    next => rfl
  case dma => exact served_of_check hadmitted rfl rfl (by simp [hsome, hidle])

/-! ### Power (R546 to R557, R630) -/

theorem State.pwr_refreshDom (s : State) (d : Nat) : (s.refreshDom d).pwr = s.pwr := by
  unfold State.refreshDom
  cases s.followed d <;> dsimp only <;> split <;> rfl

/-- Settles O20, by the cases of a group whose domains are at rest, and the commands that keep no block waiting. -/
theorem powerCommandsComplete : Obligations.PowerCommandsComplete := by
  refine ⟨fun q s r hadmitted hr hallowed => ?domain, fun q s u hadmitted hu => ?op, fun q s d hadmitted hd hdom => ?stat,
    fun q s hadmitted hmask h1 h2 h3 h4 h5 => ?vmon⟩
  case domain =>
    have hrun : exec (.pwrDomainSet q) s = .next (s.takePower r) := by
      subst hr
      change execPwrDomainSet q s = _
      simp only [execPwrDomainSet, hadmitted]
    have hmbx : r.cmd.mbx = q.mbx := by rw [hr]; rfl
    have htake : s.takePower r = (if r.group.any s.domBusy then { s with pwr := { s.pwr with waiting := s.pwr.waiting ++ [r] } }
        else if r.target = 0 then s.powerOn r
        else if r.group.all (fun d => decide (s.domState d = r.target)) then (s.hostReq r.target r.group).stageRsp q.mbx rspOk
        else s.askGroup (some q.cmd) r.target r.group) := by
      simp only [State.takePower, hallowed, ← hmbx, show q.cmd = r.cmd by rw [hr]]
    rw [hrun, htake]
    refine ⟨fun hbusy => ?_, fun hrest => ?_⟩
    · rw [if_pos (List.any_eq_true.2 hbusy)]
    · rw [if_neg (ne_true_of_eq_false (not_any_of_forall hrest))]
      refine ⟨fun hon => by rw [if_pos hon], fun hoff hall => ?_, fun hoff hsome => ?_⟩
      · rw [if_neg hoff, if_pos (by simpa using hall)]
      · rw [if_neg hoff, if_neg (by simpa using hsome)]
  case op => subst hu; exact served_of_body hadmitted rfl rfl
  case stat =>
    subst hd
    have hpwr : (s.refreshDom (bits (q.arg 1) 5 0)).pwr = s.pwr := State.pwr_refreshDom s _
    refine served_of_check hadmitted rfl ?_ (by simp [hdom])
    simp only [hpwr]
    rfl
  case vmon =>
    have hrange : 4 ≤ bits (q.arg 2) 4 0 ∧ bits (q.arg 2) 4 0 ≤ 16 ∧ 12 ≤ bits (q.arg 2) 12 8 ∧ bits (q.arg 2) 12 8 ≤ 24 ∧
        bits (q.arg 2) 4 0 + 4 ≤ bits (q.arg 2) 12 8 := ⟨h1, h2, h3, h4, h5⟩
    refine served_of_check hadmitted rfl rfl ?_
    simp only [List.forall_mem_cons, maskEmpty_pass hmask, decide_eq_true hrange]
    simp

/-! ### Faults (R571, R633) -/

/-- Settles O21: the counts as they stand, and a fault raised as if it had occurred. -/
theorem faultCommandsComplete : Obligations.FaultCommandsComplete := by
  refine ⟨fun q s hadmitted => served_of_body hadmitted rfl rfl, fun q s hadmitted hmode hcode hcore hosc => ?_⟩
  have hlisted : (!faultCodes.contains (bits (q.arg 1) 15 0) ||
      decide (bits (q.arg 1) 15 0 = 0x0102 ∨ bits (q.arg 1) 15 0 = 0x0205)) = false := by
    rw [List.contains_iff_mem.2 hcode, decide_eq_false (by omega)]
    rfl
  refine served_of_check hadmitted rfl rfl ?_
  simp only [List.forall_mem_cons, hmode, hlisted]
  simp

end Sys2Proof.Machine
end

section
/-! PROOFS. Sealed tiles (R452 to R455): what an event, a fault and a placement log leave of the tiles, and that a quarantined
tile stays quarantined through what quarantining it brings about. -/

namespace Sys2Proof.Machine

open Host

/-! ### What leaves every tile's state -/

section
variable (s : State)

@[simp] theorem State.tiles_setMemWord (a : Nat) (w : Word) : (s.setMemWord a w).mem.tiles = s.mem.tiles := rfl

@[simp] theorem State.tiles_setMemWords (a : Nat) (l : List Word) : (s.setMemWords a l).mem.tiles = s.mem.tiles := by
  induction l generalizing s a with
  | nil => rfl
  | cons w l ih => exact (ih _ _).trans (s.tiles_setMemWord a w)

@[simp] theorem State.tiles_sendFrame (k : Nat) (ws : List Word) : (s.sendFrame k ws).mem.tiles = s.mem.tiles := by
  unfold State.sendFrame State.formFrame
  split <;> rfl

@[simp] theorem State.tiles_closeEvents : s.closeEvents.mem.tiles = s.mem.tiles := by
  unfold State.closeEvents
  dsimp only
  split
  · rfl
  · exact State.tiles_sendFrame _ _ _

@[simp] theorem State.tiles_evtToLink (e : EvtRec) : (s.evtToLink e).mem.tiles = s.mem.tiles := by
  unfold State.evtToLink
  dsimp only
  split
  · split
    · exact State.tiles_closeEvents _
    · rfl
  · split <;> rfl

@[simp] theorem State.tiles_ringWrite (e : EvtRec) : (s.ringWrite e).mem.tiles = s.mem.tiles := by
  unfold State.ringWrite
  dsimp only
  split <;> simp

@[simp] theorem State.tiles_holdEvt (e : EvtRec) : (s.holdEvt e).mem.tiles = s.mem.tiles := by
  unfold State.holdEvt
  split <;> rfl

@[simp] theorem State.tiles_postAt (t : T48) (code cls : Nat) (arg : Word) (cmd : Option Cmd) (sw : Bool) :
    (s.postAt t code cls arg cmd sw).mem.tiles = s.mem.tiles := by
  unfold State.postAt
  dsimp only
  rw [State.tiles_evtToLink]
  split <;> simp

@[simp] theorem State.tiles_post (code cls : Nat) (arg : Word) (cmd : Option Cmd) :
    (s.post code cls arg cmd).mem.tiles = s.mem.tiles := s.tiles_postAt _ _ _ _ _ _

@[simp] theorem State.tiles_setWindow (code scope : Nat) (w : Option RlWin) :
    (s.setWindow code scope w).mem.tiles = s.mem.tiles := rfl

@[simp] theorem State.tiles_closeWindow (code scope : Nat) (t : T48) : (s.closeWindow code scope t).mem.tiles = s.mem.tiles := by
  unfold State.closeWindow
  split
  · rfl
  · split <;> simp

@[simp] theorem State.tiles_postLimited (code scope : Nat) (arg : Word) (t : T48) (n : Nat) :
    (s.postLimited code scope arg t n).mem.tiles = s.mem.tiles := by
  unfold State.postLimited
  dsimp only
  split
  · simp
  · split
    · split
      · simp
      · split
        · split <;> simp
        · simp
    · simp

/-! ### Faults (R561 to R575) -/

@[simp] theorem State.tiles_logFault (code sev unit outcome : Nat) (queued dropped merged : Bool) (arg : Word) :
    (s.logFault code sev unit outcome queued dropped merged arg).mem.tiles = s.mem.tiles := rfl

@[simp] theorem State.tiles_postFault (code sev unit : Nat) (queued preempted : Bool) :
    (s.postFault code sev unit queued preempted).mem.tiles = s.mem.tiles := s.tiles_postAt _ _ _ _ _ _

@[simp] theorem State.tiles_postRecovery (e : FaultEnt) (outcome : Nat) : (s.postRecovery e outcome).mem.tiles = s.mem.tiles :=
  (State.tiles_post _ _ _ _ _).trans rfl

@[simp] theorem State.tiles_displace : s.displace.mem.tiles = s.mem.tiles := (State.tiles_postLimited _ _ _ _ _ _).trans rfl

@[simp] theorem State.tiles_faultRegs : s.faultRegs.mem.tiles = s.mem.tiles := by
  unfold State.faultRegs
  dsimp only
  split <;> rfl

/-- A fault sets at most one bit of FLT_NMI. -/
theorem State.nmi_eq (code : Nat) : s.nmi code = s ∨ ∃ f, s.nmi code = s.setFld f 0 1 := by
  unfold State.nmi
  split
  case h_9 => exact .inl rfl
  all_goals exact .inr ⟨_, rfl⟩

@[simp] theorem State.tiles_nmi (code : Nat) : (s.nmi code).mem.tiles = s.mem.tiles := by
  obtain h | ⟨f, h⟩ := s.nmi_eq code <;> rw [h]
  rfl

@[simp] theorem State.tiles_recoverOrQueue (code sev unit : Nat) (arg : Word) :
    (s.recoverOrQueue code sev unit arg).mem.tiles = s.mem.tiles := by
  unfold State.recoverOrQueue
  dsimp only
  split
  · rw [State.tiles_postFault]
    dsimp only
    rw [State.tiles_logFault]
  · split
    · rw [State.tiles_postFault]
      dsimp only
      rw [State.tiles_logFault]
    · split
      · dsimp only
        rw [State.tiles_postRecovery, State.tiles_postFault, State.tiles_logFault]
      · split
        · rw [State.tiles_postFault]
          dsimp only
          rw [State.tiles_logFault]
        · split
          · rw [State.tiles_displace, State.tiles_postFault, State.setReg_mem, State.tiles_logFault]
          · rw [State.tiles_displace, State.tiles_postFault, State.tiles_logFault]

@[simp] theorem State.tiles_raiseFault (code unit : Nat) (arg : Word) : (s.raiseFault code unit arg).mem.tiles = s.mem.tiles := by
  unfold State.raiseFault
  dsimp only
  split
  · rfl
  · split <;> simp [State.bump]

/-! ### The placement log and the context limit (R250, R458) -/

@[simp] theorem State.tiles_logPlace (kind ctx : Nat) (t : T48) (a b : Nat) :
    (s.logPlace kind ctx t a b).mem.tiles = s.mem.tiles := by
  unfold State.logPlace
  split
  · rfl
  · simp

@[simp] theorem State.tiles_updateLimit (tiles : Bool) : (s.updateLimit tiles).mem.tiles = s.mem.tiles := by
  unfold State.updateLimit
  split
  · rfl
  · simp

@[simp] theorem State.tiles_ownRun (first n : Nat) (c : Option Claim) : (s.ownRun first n c).mem.tiles = s.mem.tiles := by
  unfold State.ownRun
  induction List.range n generalizing s with
  | nil => rfl
  | cons i l ih => exact ih _

end

/-! ### A quarantined tile stays quarantined -/

/-- Tile k is QUARANTINED. -/
def State.quarAt (s : State) (k : Nat) : Prop := (s.tile k).state = .quarantined

section
variable {s : State} {k : Nat}

theorem State.quarAt_of_tiles {t : State} (htiles : t.mem.tiles = s.mem.tiles) : t.quarAt k ↔ s.quarAt k := by
  simp only [State.quarAt, State.tile, htiles]

variable (h : s.quarAt k)
include h

/-- A write of another tile's record, or of this one with its state. -/
theorem State.quarAt_setTile {j : Nat} {t : Tile} (ht : j = k → t.state = .quarantined) : (s.setTile j t).quarAt k := by
  unfold State.quarAt
  rw [State.tile_setTile]
  split
  next hj => exact ht hj
  next => exact h

theorem State.quarAt_endUse (j : Nat) : (s.endUse j (s.tile j)).quarAt k := by
  have hsame : j = k → (s.tile j).state = .quarantined := fun hj => hj ▸ h
  unfold State.endUse
  dsimp only
  split
  · exact (State.quarAt_of_tiles (State.tiles_updateLimit _ _)).2 (State.quarAt_setTile h fun _ => rfl)
  · exact State.quarAt_setTile h hsame

theorem State.quarAt_foldl {f : State → Nat → State} (hf : ∀ s i, s.quarAt k → (f s i).quarAt k) (l : List Nat) :
    (l.foldl f s).quarAt k := by
  induction l generalizing s with
  | nil => exact h
  | cons i l ih => exact ih (hf s i h)

theorem State.quarAt_leaveRing : s.leaveRing.quarAt k := by
  unfold State.leaveRing
  split
  · exact State.quarAt_foldl h (fun _ _ h => State.quarAt_endUse h _) _
  · exact h

theorem State.quarAt_quarIdle (b : Nat) : (s.quarIdle b).quarAt k := by
  unfold State.quarIdle
  refine State.quarAt_foldl h (fun s i h => ?_) _
  dsimp only
  split
  · exact State.quarAt_setTile h fun _ => rfl
  · exact h

theorem State.quarAt_placeRing (n : Nat) : ((s.placeRing n).getD s).quarAt k := by
  unfold State.placeRing
  dsimp only
  split
  · exact h
  · refine (State.quarAt_of_tiles ?_).2 (State.quarAt_leaveRing h)
    dsimp only [Option.getD_some]
    split <;> split <;> split <;> simp

theorem State.quarAt_bankMoved (b : Nat) : (s.bankMoved b).quarAt k := by
  unfold State.bankMoved
  split
  · exact State.quarAt_placeRing h _
  · exact h

theorem State.quarAt_raiseFault (code unit : Nat) (arg : Word) : (s.raiseFault code unit arg).quarAt k :=
  (State.quarAt_of_tiles (State.tiles_raiseFault _ _ _ _)).2 h

theorem State.quarAt_setReg (r : RegName) (i : Nat) (w : Word) : (s.setReg r i w).quarAt k := h

theorem State.quarAt_quarRegs : s.quarRegs.quarAt k := h

theorem State.quarAt_post (code cls : Nat) (arg : Word) (cmd : Option Cmd) : (s.post code cls arg cmd).quarAt k :=
  (State.quarAt_of_tiles (State.tiles_post _ _ _ _ _)).2 h

theorem State.quarAt_raiseThen (code unit : Nat) (arg : Word) {start : State → State}
    (hstart : ∀ u : State, u.quarAt k → (start u).quarAt k) : (s.raiseThen code unit arg start).quarAt k := by
  unfold State.raiseThen
  dsimp only
  split
  · exact hstart _ (State.quarAt_raiseFault h _ _ _)
  · exact State.quarAt_raiseFault h _ _ _

end

/-- A Larder tile that is quarantined is QUARANTINED afterwards. -/
theorem State.quarAt_quarantine (s : State) {k : Nat} (c : Nat) (hk : k < 6144) : (s.quarantine k c).quarAt k := by
  have hset : (s.setTile k { s.tile k with state := .quarantined }).quarAt k := by
    unfold State.quarAt
    rw [State.tile_setTile, if_pos rfl]
  have hlarder : ¬ (decide (0x400000 ≤ k) = true) := by simpa using by omega
  unfold State.quarantine
  dsimp only
  with_reducible refine (State.quarAt_of_tiles (State.tiles_updateLimit ..)).2 ?_
  rw [if_neg fun h => hlarder h.1]
  split
  · with_reducible exact State.quarAt_raiseThen (State.quarAt_quarRegs (State.quarAt_quarIdle (State.quarAt_raiseFault
      (State.quarAt_post (State.quarAt_setReg (State.quarAt_quarRegs hset) ..) ..) ..) _)) _ _ _ fun u hu =>
        State.quarAt_bankMoved hu _
  · with_reducible exact State.quarAt_raiseFault (State.quarAt_post (State.quarAt_setReg (State.quarAt_quarRegs hset) ..) ..) ..

/-! ### Sealing and opening (R452, R454, R455) -/

/-- Settles O55: an OPEN tile takes its sum with it, and a SEALED one that no longer meets it is quarantined. -/
theorem sealedTilesAreVerified : Obligations.SealedTilesAreVerified := by
  refine ⟨by decide +kernel, fun s u k hopen hu => ?_, fun s k c b hk hsealed hsum => ?_, fun s k c b hquar => ?_⟩
  · have hseal : u = s.setTile k { s.tile k with state := .sealed, sum := s.tileSum k } := by
      rw [hu, State.sealTile]
      exact if_pos hopen
    have htile : u.tile k = { s.tile k with state := .sealed, sum := s.tileSum k } := by
      rw [hseal, State.tile_setTile, if_pos rfl]
    have hbytes : u.tileSum k = s.tileSum k := by rw [hseal]; rfl
    refine ⟨by rw [htile], by rw [htile]; rfl, fun j hj => by rw [hseal, State.tile_setTile, if_neg (Ne.symm hj)],
      fun a => by rw [hseal]; rfl, by rw [hseal]; rfl, fun c b => ?_⟩
    simp only [State.openTile, htile, hbytes, if_true]
  · have hopened : s.openTile k c b = (false, s.quarantine k c) := by
      simp only [State.openTile, hsealed]
      exact if_neg hsum
    exact hopened ▸ ⟨rfl, s.quarAt_quarantine c hk⟩
  · simp only [State.openTile, hquar]

end Sys2Proof.Machine
end

section
/-! PROOFS. Chapter 18, resets: what stays of the registers, and what a device reset logs (R579, R580, R582, R595). -/

namespace Sys2Proof.Machine

open Host

/-! ### The registers that a reset keeps -/

theorem Store.get_filter_of_mem {α : Type} (d : Nat → α) {p : Nat × α → Bool} {k : Nat} (hp : ∀ v, p (k, v) = true)
    (m : List (Nat × α)) : Store.get d (m.filter p) k = Store.get d m k := by
  induction m with
  | nil => rfl
  | cons e m ih =>
    obtain ⟨j, v⟩ := e
    by_cases hj : j = k
    · subst hj
      simp [Store.get, hp]
    · cases hv : p (j, v) <;> simp [Store.get, hv, hj, ih]

theorem Store.get_filter_of_not_mem {α : Type} (d : Nat → α) {p : Nat × α → Bool} {k : Nat} (hp : ∀ v, p (k, v) = false)
    (m : List (Nat × α)) : Store.get d (m.filter p) k = d k := by
  induction m with
  | nil => rfl
  | cons e m ih =>
    obtain ⟨j, v⟩ := e
    cases hv : p (j, v) with
    | false => simp [hv, ih]
    | true =>
      have hj : j ≠ k := fun hj => absurd (hj ▸ hv) (by rw [hp]; decide)
      simp [Store.get, hv, hj, ih]

/-- The registers of AON that keep their contents (R580). -/
def RegName.kept (r : RegName) : Bool := keptRegs.contains r.idx

theorem regKey_mod (r : RegName) (i : Nat) : regKey r i % 256 = r.idx := by
  have := r.idx_lt
  unfold regKey
  omega

theorem State.reg_internalReset_kept (s : State) {r : RegName} (i : Nat) (h : r.kept = true) :
    s.internalReset.reg r i = s.reg r i :=
  Store.get_filter_of_mem regDefault (fun _ => by rw [regKey_mod]; exact h) s.regs

theorem State.reg_internalReset_reset (s : State) {r : RegName} (i : Nat) (h : r.kept = false) :
    s.internalReset.reg r i = r.resetValue i :=
  (Store.get_filter_of_not_mem regDefault (fun _ => by rw [regKey_mod]; exact h) s.regs).trans (State.reg_reset r i)

theorem State.fld_internalReset_kept (s : State) (f : Fld) (h : f.reg.kept = true) : s.internalReset.fld f = s.fld f := by
  unfold State.fld
  rw [State.reg_internalReset_kept s 0 h]

theorem RegName.kept_of_ne {r : RegName} (h1 : r ≠ .FLT_LOG) (h2 : r ≠ .FLT_LOG_WR) (h3 : r ≠ .FLT_RESET)
    (h4 : r ≠ .FLT_CNT) : r.kept = false := by
  simp only [RegName.kept, keptRegs, List.contains_eq_mem, List.mem_cons, List.not_mem_nil, or_false, decide_eq_false_iff_not,
    not_or]
  exact ⟨mt RegName.idx_inj h1, mt RegName.idx_inj h2, mt RegName.idx_inj h3, mt RegName.idx_inj h4⟩

/-! ### FLT_RESET and the log entry of a reset (R582, R575) -/

section
variable (s : State) (code unit : Nat) (pin : Bool)

theorem State.noteReset_reg {r : RegName} (i : Nat) (h : r ≠ .FLT_RESET) : (s.noteReset code unit pin).reg r i = s.reg r i := by
  unfold State.noteReset State.setFlag
  exact (State.reg_setFld_ne _ _ _ _ (Ne.symm h)).trans
    ((State.reg_setFld_ne _ _ _ _ (Ne.symm h)).trans (State.reg_setFld_ne _ _ _ _ (Ne.symm h)))

theorem State.noteReset_boots : (s.noteReset code unit pin).fld F.FLT_RESET_boots = (s.fld F.FLT_RESET_boots + 1) % 256 := by
  have hset := State.fld_setFld_same s F.FLT_RESET_boots 0 ((s.fld F.FLT_RESET_boots + 1) % 256) (by decide)
  refine ((State.fld_setFld_apart _ _ _ _ _ _ (by decide)).trans
    ((State.fld_setFld_apart _ _ _ _ _ _ (by decide)).trans hset)).trans ?_
  exact Nat.mod_mod _ _

theorem State.noteReset_by_pin : (s.noteReset code unit pin).fld F.FLT_RESET_by_pin = if pin then 1 else 0 := by
  refine ((State.fld_setFld_apart _ _ _ _ _ _ (by decide)).trans (State.fld_setFld_same _ _ _ _ (by decide))).trans ?_
  cases pin <;> rfl

theorem State.noteReset_pending : (s.noteReset code unit pin).pending = s.pending := rfl

theorem State.noteReset_code : (s.noteReset code unit pin).fld F.FLT_RESET_code = code % 65536 :=
  State.fld_setFld_same _ _ _ _ (by decide)

end

section
variable (s : State) (code sev unit outcome : Nat) (queued dropped merged : Bool) (arg : Word)

theorem State.logFault_wr : (s.logFault code sev unit outcome queued dropped merged arg).fld F.FLT_LOG_WR_wr =
    (s.fld F.FLT_LOG_WR_wr + 1) % 64 :=
  (State.fld_setFld_same _ F.FLT_LOG_WR_wr 0 _ (by decide)).trans (Nat.mod_mod _ _)

theorem State.logFault_reg {r : RegName} (i : Nat) (hlog : r ≠ .FLT_LOG) (hwr : r ≠ .FLT_LOG_WR) :
    (s.logFault code sev unit outcome queued dropped merged arg).reg r i = s.reg r i := by
  unfold State.logFault
  dsimp only
  rw [State.reg_setFld_ne _ _ _ _ (Ne.symm hwr), State.reg_setReg_ne _ _ _ _ (Ne.symm hlog),
    State.reg_setReg_ne _ _ _ _ (Ne.symm hlog), State.reg_setReg_ne _ _ _ _ (Ne.symm hlog),
    State.reg_setReg_ne _ _ _ _ (Ne.symm hlog)]

theorem State.logFault_pending : (s.logFault code sev unit outcome queued dropped merged arg).pending = s.pending := rfl

/-- The entry's first word. -/
theorem State.logFault_word : (s.logFault code sev unit outcome queued dropped merged arg).reg .FLT_LOG
    (4 * s.fld F.FLT_LOG_WR_wr) = faultWord code sev unit := by
  unfold State.logFault
  dsimp only
  rw [State.reg_setFld_ne _ _ _ _ (by decide), State.reg_setReg_idx _ _ _ _ (by omega), State.reg_setReg_idx _ _ _ _ (by omega),
    State.reg_setReg_idx _ _ _ _ (by omega), State.reg_setReg_same]

/-- The other entries. -/
theorem State.logFault_others {i : Nat} (h : i < 4 * s.fld F.FLT_LOG_WR_wr ∨ 4 * s.fld F.FLT_LOG_WR_wr + 4 ≤ i) :
    (s.logFault code sev unit outcome queued dropped merged arg).reg .FLT_LOG i = s.reg .FLT_LOG i := by
  unfold State.logFault
  dsimp only
  rw [State.reg_setFld_ne _ _ _ _ (by decide), State.reg_setReg_idx _ _ _ _ (by omega), State.reg_setReg_idx _ _ _ _ (by omega),
    State.reg_setReg_idx _ _ _ _ (by omega), State.reg_setReg_idx _ _ _ _ (by omega)]

end

/-- What a device reset counts and logs before everything else takes its reset value (R579). -/
def State.logReset (s : State) (code unit : Nat) (arg : Word) : State :=
  (s.bump F.FLT_CNT_faults 0).logFault code 4 unit outDone false false false arg

theorem State.deviceReset_of_up {s : State} (hreset : s.sys.resetN = true) (hheld : s.sys.held = false)
    (code unit : Nat) (arg : Word) : ∃ sys, s.deviceReset code unit arg =
      { ((s.logReset code unit arg).noteReset code unit false).internalReset with sys := sys } :=
  ⟨_, if_neg (by simp [hreset, hheld])⟩

section
variable (s : State) (code unit : Nat) (arg : Word)

theorem State.logReset_reg {r : RegName} (i : Nat) (hlog : r ≠ .FLT_LOG) (hwr : r ≠ .FLT_LOG_WR) (hcnt : r ≠ .FLT_CNT) :
    (s.logReset code unit arg).reg r i = s.reg r i :=
  (State.logFault_reg _ _ _ _ _ _ _ _ _ _ hlog hwr).trans (State.reg_setFld_ne _ _ _ _ (Ne.symm hcnt))

theorem State.logReset_faults : (s.logReset code unit arg).fld F.FLT_CNT_faults = min 65535 (s.fld F.FLT_CNT_faults + 1) := by
  refine Eq.trans ?_ (State.fld_bump_same s F.FLT_CNT_faults 0 (by decide))
  exact congrArg (bits · 15 0) (State.logFault_reg _ _ _ _ _ _ _ _ _ _ (by decide) (by decide))

/-- The counting leaves the log's index. -/
theorem State.fld_bump_wr : (s.bump F.FLT_CNT_faults 0).fld F.FLT_LOG_WR_wr = s.fld F.FLT_LOG_WR_wr :=
  State.fld_setFld_apart _ _ _ _ _ _ (by decide)

theorem State.logReset_wr : (s.logReset code unit arg).fld F.FLT_LOG_WR_wr = (s.fld F.FLT_LOG_WR_wr + 1) % 64 := by
  rw [State.logReset, State.logFault_wr, State.fld_bump_wr]

theorem State.logReset_word : (s.logReset code unit arg).reg .FLT_LOG (4 * s.fld F.FLT_LOG_WR_wr) = faultWord code 4 unit := by
  rw [State.logReset, ← State.fld_bump_wr]
  exact State.logFault_word ..

theorem State.logReset_others {i : Nat} (h : i < 4 * s.fld F.FLT_LOG_WR_wr ∨ 4 * s.fld F.FLT_LOG_WR_wr + 4 ≤ i) :
    (s.logReset code unit arg).reg .FLT_LOG i = s.reg .FLT_LOG i := by
  rw [← State.fld_bump_wr] at h
  exact (State.logFault_others _ _ _ _ _ _ _ _ _ h).trans (State.reg_setFld_ne _ _ _ _ (by decide))

theorem State.logReset_pending : (s.logReset code unit arg).pending = s.pending := by
  rw [State.logReset, State.logFault_pending]
  rfl

end

theorem State.reg_setSys (s : State) (sys : SysSt) (r : RegName) (i : Nat) :
    ({ s with sys := sys } : State).reg r i = s.reg r i := rfl

theorem State.pending_setSys (s : State) (sys : SysSt) : ({ s with sys := sys } : State).pending = s.pending := rfl

theorem State.internalReset_pending (s : State) : s.internalReset.pending = s.pending := rfl

/-- A register that stays through a reset, but FLT_RESET. -/
theorem State.reg_reset_kept (s : State) (code unit : Nat) (pin : Bool) {r : RegName} (i : Nat) (h : r.kept = true)
    (hne : r ≠ .FLT_RESET) : (s.noteReset code unit pin).internalReset.reg r i = s.reg r i := by
  rw [State.reg_internalReset_kept _ _ h, State.noteReset_reg _ _ _ _ _ hne]

/-- The state after a device reset, in its registers. -/
theorem State.regs_deviceReset {s t : State} (hreset : s.sys.resetN = true) (hheld : s.sys.held = false)
    {code unit : Nat} {arg : Word} (ht : t = s.deviceReset code unit arg) :
    t.pending = s.pending ∧ ∀ r i, t.reg r i = ((s.logReset code unit arg).noteReset code unit false).internalReset.reg r i := by
  obtain ⟨sys, hsys⟩ := State.deviceReset_of_up hreset hheld code unit arg
  rw [ht, hsys]
  generalize hu : s.logReset code unit arg = u
  have hpending : u.pending = s.pending := by rw [← hu, State.logReset_pending]
  exact ⟨(State.pending_setSys (u.noteReset code unit false).internalReset sys).trans
      ((State.internalReset_pending (u.noteReset code unit false)).trans
        ((State.noteReset_pending u code unit false).trans hpending)),
    fun _ _ => State.reg_setSys _ _ _ _⟩

/-- Settles O58. That the waiting commands stay is log entries 79 and 24, and what counts as a boot log entry 15. -/
theorem resetsKeepTheFaultLog : Obligations.ResetsKeepTheFaultLog := by
  refine ⟨fun s hreset => ⟨(s.noteReset 0 0 true).internalReset, if_pos hreset, ?_, ?_, ?_, fun i => ⟨?_, ?_, ?_⟩,
    fun r i h1 h2 h3 h4 => ?_, rfl⟩, fun s n hreset hheld hn => ⟨_, rfl, ?_⟩⟩
  · rw [State.fld_internalReset_kept _ _ rfl, State.noteReset_boots]
  · rw [State.fld_internalReset_kept _ _ rfl, State.noteReset_by_pin]
    rfl
  · rw [State.fld_internalReset_kept _ _ rfl, State.noteReset_code]
  · exact State.reg_reset_kept _ _ _ _ _ rfl (by decide)
  · exact State.reg_reset_kept _ _ _ _ _ rfl (by decide)
  · exact State.reg_reset_kept _ _ _ _ _ rfl (by decide)
  · exact State.reg_internalReset_reset _ i (RegName.kept_of_ne h1 h2 h3 h4)
  · subst hn
    obtain ⟨hpending, hreg⟩ := State.regs_deviceReset hreset hheld (rfl : s.deviceReset 0x0205 0 0 = s.deviceReset 0x0205 0 0)
    generalize s.deviceReset 0x0205 0 0 = t at hpending hreg
    have hfld : ∀ f : Fld, f.reg.kept = true → t.fld f = ((s.logReset 0x0205 0 0).noteReset 0x0205 0 false).fld f := fun f hf => by
      unfold State.fld
      rw [hreg, State.reg_internalReset_kept _ _ hf]
    have hlog : ∀ i, t.reg .FLT_LOG i = (s.logReset 0x0205 0 0).reg .FLT_LOG i := fun i => by
      rw [hreg, State.reg_reset_kept _ _ _ _ _ rfl (by decide)]
    refine ⟨?_, ?_, ?_, ?_, ?_, ?_, fun i hi => ?_, fun r i h1 h2 h3 h4 => ?_, hpending⟩
    · rw [hfld _ rfl, State.noteReset_boots]
      exact congrArg (fun w => (bits w 31 24 + 1) % 256) (State.logReset_reg _ _ _ _ _ (by decide) (by decide) (by decide))
    · rw [hfld _ rfl, State.noteReset_by_pin]
      rfl
    · rw [hfld _ rfl, State.noteReset_code]
    · rw [hfld _ rfl, ← State.logReset_faults s 0x0205 0 0]
      exact congrArg (bits · 15 0) (State.noteReset_reg _ _ _ _ _ (by decide))
    · rw [hfld _ rfl, ← State.logReset_wr s 0x0205 0 0]
      exact congrArg (bits · 5 0) (State.noteReset_reg _ _ _ _ _ (by decide))
    · rw [hlog, State.logReset_word]
    · rw [hlog, State.logReset_others _ _ _ _ hi]
    · rw [hreg, State.reg_internalReset_reset _ i (RegName.kept_of_ne h1 h2 h3 h4)]

end Sys2Proof.Machine
end

section
/-! PROOFS. Tiles through the ports (R61 to R68, R456): what one word written or read does, and what one frame of it leaves. -/

namespace Sys2Proof.Machine

open Host

/-! ### A word of memory through a port (R456) -/

/-- No address of memory is one of the direct registers. -/
theorem State.target_high {s : State} {a : Nat} {x : Target} (h : s.target a = x) (hx : ∀ b, x ≠ .direct b) : ¬ a < 0x10000 :=
  fun ha => hx a (h.symm.trans (if_pos ha))

section
variable {s : State} {a t : Nat}

/-- No bypass while a management core has run. -/
theorem State.bypass_of_run (hlo : 5 ≤ s.stage) (hhi : s.stage < 8) (a : Nat) : s.bypass a = false :=
  decide_eq_false fun h => by omega

theorem State.writeMem_larder (p : Port) (v : Word) (htarget : s.target a = .larder t)
    (hon : s.fld F.PWR_DOM_state (dLar + bankOf t) = 0) (hrun : s.bypass a = false)
    (h : (s.tile t).state = .open ∧ s.portHolds p resTile t = true) : s.writeMem p a v = (0, s.setMemWord a v) := by
  obtain ⟨hopen, hheld⟩ := h
  simp [State.writeMem, htarget, hon, hrun, hopen, hheld]

theorem State.writeMem_larder_refused (p : Port) (v : Word) (htarget : s.target a = .larder t)
    (hon : s.fld F.PWR_DOM_state (dLar + bankOf t) = 0) (hrun : s.bypass a = false)
    (h : ¬ ((s.tile t).state = .open ∧ s.portHolds p resTile t = true)) :
    (s.writeMem p a v).2 = s.accErr p a (if (s.tile t).state ≠ .open then errTile else errClaim) := by
  by_cases hopen : (s.tile t).state = .open
  · have hheld : s.portHolds p resTile t = false := by simpa using fun hp => h ⟨hopen, hp⟩
    simp [State.writeMem, htarget, hon, hrun, hopen, hheld]
  · simp [State.writeMem, htarget, hon, hrun, hopen]

theorem State.writeMem_pantry (p : Port) (v : Word) (htarget : s.target a = .pantry t) :
    (s.writeMem p a v).2 = s.accErr p a (if (s.tile (panKey t)).state = .quarantined then errTile else errClaim) := by
  simp only [State.writeMem, htarget]
  split <;> rfl

theorem State.writeMem_remote (p : Port) (v : Word) (htarget : s.target a = .remote) :
    (s.writeMem p a v).2 = s.accErr p a errWin := by
  simp only [State.writeMem, htarget]

/-- Address a is in tile k: a Larder tile whose bank is ON, or a usable Pantry tile. -/
def State.inTile (s : State) (a k : Nat) : Prop :=
  (s.target a = .larder k ∧ s.fld F.PWR_DOM_state (dLar + bankOf k) = 0) ∨ ∃ t, s.target a = .pantry t ∧ k = panKey t

theorem State.readMem_tile {k : Nat} (p : Port) (h : s.inTile a k) (hgood : (s.tile k).state ≠ .quarantined) :
    s.readMem p a = (s.memWord a, 0, s) := by
  obtain ⟨htarget, hon⟩ | ⟨t, htarget, rfl⟩ := h
  · simp [State.readMem, htarget, hon, hgood]
  · simp [State.readMem, htarget, hgood]

theorem State.readMem_quarantined {k : Nat} (p : Port) (h : s.inTile a k) (hrun : s.bypass a = false)
    (hquar : (s.tile k).state = .quarantined) : s.readMem p a = (0, errTile, s.accErr p a errTile) := by
  obtain ⟨htarget, hon⟩ | ⟨t, htarget, rfl⟩ := h
  · simp [State.readMem, htarget, hon, hquar, hrun]
  · simp [State.readMem, htarget, hquar]

theorem State.readMem_remote (p : Port) (htarget : s.target a = .remote) : s.readMem p a = (0, errWin, s.accErr p a errWin) := by
  simp only [State.readMem, htarget]

end

/-! ### One word by CSPI's window (R61 to R65) -/

section
variable {s : State} {addr a : Nat} (hup : s.cspiUp = true) (hwin : 0x800000 ≤ addr) (hmax : addr < 2 ^ 24)
  (ha : a = s.winByte addr) (hhigh : ¬ a < 0x10000)
include hup hwin hmax ha hhigh

theorem execCspiWrite_window (v : Word) : exec (.cspiWrite addr 32 [v]) s = .next ((s.writeMem .cspi a v).2.setMiso []) := by
  have hput : s.cspiPut (addr % 2 ^ 24) v = (s.writeMem .cspi a v).2 := by
    rw [Nat.mod_eq_of_lt hmax, State.cspiPut, if_neg (by omega), if_neg (by omega)]
    exact (if_neg (ha ▸ hhigh)).trans (by rw [← ha])
  change execCspiWrite addr 32 [v] s = _
  simp only [execCspiWrite, hup]
  exact congrArg (fun u : State => Outcome.next (u.setMiso [])) hput

theorem execCspiRead_window {x : Word × Nat × State} (hread : s.readMem .cspi a = x) :
    exec (.cspiRead addr 1 none) s = .next (x.2.2.setMiso [x.1]) := by
  have hget : s.cspiGet (addr % 2 ^ 24) = wordState x := by
    rw [Nat.mod_eq_of_lt hmax, State.cspiGet, if_neg (by omega), if_neg (by omega), if_neg (ha ▸ hhigh), ← ha, hread]
  change execCspiRead addr 1 none s = _
  simp only [execCspiRead, hup, State.cspiReads, hget]
  rfl

end

/-! ### One word by the link (R67 to R70) -/

section
variable {s u : State} {a : Nat} (hopen : s.rxOpen = true) (halign : a % 4 = 0) (hmax : a < 2 ^ 40) (hhigh : ¬ a < 0x10000)
include hopen halign hmax hhigh

theorem execRegWr_memory (v : Word) (hu : u = s.received 0 (len8Of 4)) :
    exec (.regWr a 1 [v]) s = .next (u.writeMem .link a v).2 := by
  have haddr : a % 2 ^ 40 / 4 * 4 = a := by rw [Nat.mod_eq_of_lt hmax]; omega
  change execRegWr a 1 [v] s = _
  simp only [execRegWr, hopen, haddr, ← hu, State.linkWords, State.writeAt, if_neg hhigh]
  simp

theorem execRegRd_memory {x : Word × Nat × State} (hu : u = s.received 0 (len8Of 3)) (hread : u.readMem .link a = x) :
    exec (.regRd a 1) s = .next (x.2.2.sendFrame 0
      ([toWord (0x12 + 65536 * (a / 2 ^ 32)), toWord a, toWord 1, toWord x.2.1] ++ [x.1])) := by
  have haddr : a % 2 ^ 40 / 4 * 4 = a := by rw [Nat.mod_eq_of_lt hmax]; omega
  have hat : u.readAt .link a = x := (if_neg hhigh).trans hread
  have hcause : (if x.2.1 = 0 then 0 else x.2.1) = x.2.1 := by
    split
    next h => exact h.symm
    next => rfl
  change execRegRd a 1 s = _
  simp only [execRegRd, hopen, haddr, ← hu, State.linkReads, hat, hcause]
  simp

end

/-- Settles O56, by what the word's tile, claim and port say of it. -/
theorem hostMemoryAccessFollowsTheTile : Obligations.HostMemoryAccessFollowsTheTile := by
  refine ⟨fun addr v s a e hup hlo hhi hwin hmax ha => ?cspi, fun a v s u e hopen hu hlo hhi halign hmax => ?regWr,
    fun a s u h hopen hu hlo hhi halign hmax hh => ?regRd⟩
  case cspi =>
    have hrun := State.bypass_of_run hlo hhi a
    have hwrite : ¬ a < 0x10000 → exec (.cspiWrite addr 32 [v]) s = .next ((s.writeMem .cspi a v).2.setMiso []) :=
      fun hhigh => execCspiWrite_window hup hwin hmax ha hhigh v
    have hread : ∀ x : Word × Nat × State, ¬ a < 0x10000 → s.readMem .cspi a = x →
        exec (.cspiRead addr 1 none) s = .next (x.2.2.setMiso [x.1]) := fun _ hhigh hx =>
      execCspiRead_window hup hwin hmax ha hhigh hx
    refine ⟨fun t htarget hon he => ?_, fun t htarget he => ?_, fun htarget => ?_⟩
    · subst he
      have hhigh := State.target_high htarget nofun
      have hin : s.inTile a t := .inl ⟨htarget, hon⟩
      exact ⟨fun h => by rw [hwrite hhigh, State.writeMem_larder _ _ htarget hon hrun h],
        fun h => by rw [hwrite hhigh, State.writeMem_larder_refused _ _ htarget hon hrun h],
        fun h => hread (s.memWord a, 0, s) hhigh (State.readMem_tile _ hin h),
        fun h => hread (0, errTile, s.accErr .cspi a errTile) hhigh
          (State.readMem_quarantined _ hin hrun h)⟩
    · subst he
      have hhigh := State.target_high htarget nofun
      have hin : s.inTile a (panKey t) := .inr ⟨t, htarget, rfl⟩
      exact ⟨by rw [hwrite hhigh, State.writeMem_pantry _ _ htarget],
        fun h => hread (s.memWord a, 0, s) hhigh (State.readMem_tile _ hin h),
        fun h => hread (0, errTile, s.accErr .cspi a errTile) hhigh
          (State.readMem_quarantined _ hin hrun h)⟩
    · have hhigh := State.target_high htarget nofun
      exact ⟨by rw [hwrite hhigh, State.writeMem_remote _ _ htarget],
        hread (0, errWin, s.accErr .cspi a errWin) hhigh (State.readMem_remote _ htarget)⟩
  case regWr =>
    have hrun := State.bypass_of_run hlo hhi a
    have hwrite : ¬ a < 0x10000 → exec (.regWr a 1 [v]) s = .next (u.writeMem .link a v).2 := fun hhigh =>
      execRegWr_memory hopen halign hmax hhigh v hu
    refine ⟨fun t htarget hon he => ?_, fun t htarget he => ?_, fun htarget => ?_⟩
    · subst he
      have hhigh := State.target_high htarget nofun
      exact ⟨fun h => by rw [hwrite hhigh, State.writeMem_larder _ _ htarget hon hrun h],
        fun h => by rw [hwrite hhigh, State.writeMem_larder_refused _ _ htarget hon hrun h]⟩
    · rw [hwrite (State.target_high htarget nofun), State.writeMem_pantry _ _ htarget, he]
    · rw [hwrite (State.target_high htarget nofun), State.writeMem_remote _ _ htarget]
  case regRd =>
    subst hh
    have hrun := State.bypass_of_run hlo hhi a
    have hread : ∀ x : Word × Nat × State, ¬ a < 0x10000 → u.readMem .link a = x → exec (.regRd a 1) s = .next (x.2.2.sendFrame 0
        ([toWord (0x12 + 65536 * (a / 2 ^ 32)), toWord a, toWord 1, toWord x.2.1] ++ [x.1])) := fun _ hhigh hx =>
      execRegRd_memory hopen halign hmax hhigh hu hx
    refine ⟨fun t k hk => ?_, fun htarget => hread (0, errWin, u.accErr .link a errWin)
      (State.target_high htarget nofun) (State.readMem_remote _ htarget)⟩
    have hin : u.inTile a k := by
      obtain ⟨htarget, rfl, hon⟩ | ⟨htarget, rfl⟩ := hk
      · exact .inl ⟨htarget, hon⟩
      · exact .inr ⟨t, htarget, rfl⟩
    have hhigh : ¬ a < 0x10000 := by
      obtain ⟨htarget, -⟩ | ⟨htarget, -⟩ := hk
      · exact State.target_high htarget nofun
      · exact State.target_high htarget nofun
    exact ⟨fun h => hread (u.memWord a, 0, u) hhigh (State.readMem_tile _ hin h),
        fun h => hread (0, errTile, u.accErr .link a errTile) hhigh
        (State.readMem_quarantined _ hin hrun h)⟩

end Sys2Proof.Machine
end

section
/-! PROOFS. Chapter 14, the rows of memory: a descriptor in a tile that is QUARANTINED (R454, R466). -/

namespace Sys2Proof.Machine

open Host

/-- Ladle channel 0 fetches from Larder tile 0, which is QUARANTINED, in a bank that is ON; its hops are used up. -/
def descriptorInQuarantine : State :=
  ((((State.reset.setFld F.DMA_CH_STAT_state 0 dFetch).setReg .DMA_CH_NEXT_LO 0 (toWord larBase)).setFld F.DMA_CFG_hop_max 0
    0).setFld F.PWR_DOM_state dLar 0).setTile 0 { state := .quarantined }

/-- DMA_CH_STAT.cause after a step. -/
def haltCause (ch : Nat) : Outcome State Fault Refusal → Option Nat
  | .next t => some (t.fld F.DMA_CH_STAT_cause ch)
  | _ => none

/-- Refutes O37: a descriptor in a QUARANTINED tile is refused before its hops are counted, so the channel halts with cause 3
where the statement has HOP (1). That a whole move is done at its completion is log entry 94. -/
theorem not_memoryRowsComplete : ¬ Obligations.MemoryRowsComplete := by
  intro h
  obtain ⟨-, -, hfetch, -⟩ := h
  obtain ⟨hhop, -⟩ := hfetch 0 descriptorInQuarantine larBase 0
    (descriptorInQuarantine.setDma 0 { descriptorInQuarantine.dma 0 with desc := descriptorInQuarantine.memWords larBase 8 })
    (descOf (descriptorInQuarantine.memWords larBase 8)) State.reset (by decide) (by decide +kernel) (by decide +kernel)
    (by decide +kernel) rfl rfl (by decide +kernel)
  have hstep := hhop (by decide +kernel)
  exact absurd (congrArg (haltCause 0) hstep) (by decide +kernel)

end Sys2Proof.Machine
end

section
/-! PROOFS. Chapter 15, the rows of calibration: a side's entry, the end of a run, Kettle's check and set, a tracking round, an
interval of corrections. -/

namespace Sys2Proof.Machine

open Host

/-! ### Runs (R485, R486) -/

section
variable {s : State} {q : Nat} {r : CalRun} (hrun : s.runOn q = some r) (hbegun : r.begun = true)
include hrun hbegun

theorem execCalEntry_of_ready {tx : Bool} {k : Nat} (hk : k = 2 * q + if tx then 1 else 0) (hside : r.sides.contains k = true)
    (hnew : r.entered.contains k = false) (hready : s.calReady k = true)
    (hentry : tx = false ∨ s.txEntryOk q (s.runNs r) (usesOrx r.cals) (s.radiates r) = true) :
    exec (.calEntry q tx) s = .next (s.takeSide r k) := by
  subst hk
  change execCalEntry q tx s = _
  simp only [execCalEntry, hrun]
  exact if_pos ⟨hbegun, hside, hnew, hready, hentry⟩

variable (hkind : r.kind = 0)
include hkind

theorem execCalEntryTimeout_of_open (hopen : r.sides.any (fun k => decide (k % 2 = 1) && !r.entered.contains k) = true) :
    exec (.calEntryTimeout q) s = .next (((s.elapseTo (r.start + 1000000000)).endRun r).calDone r stTimeout 0) := by
  change execCalEntryTimeout q s = _
  simp only [execCalEntryTimeout, hrun]
  exact if_pos ⟨hbegun, hkind, hopen⟩

/-- The end of a run on request, its results found by the first that was rejected. -/
theorem execCalRunEnd_of_request {rs : List CalResult} {v : State} {bad : Option CalResult}
    (hall : r.sides.all (fun k => r.entered.contains k) = true)
    (hv : v = ((s.runResults r rs).filter fun x => x.quad && decide (x.cause = 0 ∧ x.unit < 4)).foldl
      (fun s x => s.unmarkQuad (2 * x.unit + if x.tx then 1 else 0) x.cal)
      ((setsOf r).foldl (fun s k => s.setRun k (r.temp (k / 2)) r.start) (s.runApply (s.runResults r rs))))
    (hbad : ((s.runResults r rs).find? fun x => decide (x.cause ≠ 0)) = bad) :
    exec (.calRunEnd q rs) s = .next (bad.elim ((v.endRun r).calDone r stOk 0)
      fun x => (v.endRun r).calDone r stCalReject x.cal) := by
  subst hv
  change execCalRunEnd q rs s = _
  simp only [execCalRunEnd, hrun]
  rw [if_pos ⟨hbegun, by omega, hall⟩, if_neg (by omega), if_neg (by omega)]
  simp only [hkind, if_true, hbad]
  cases bad <;> rfl

end

/-! ### Kettle (R487, R488) -/

theorem execKettleCheck_of_ready {s : State} {l : List Int} (hstage : s.stage = 7) (hlen : l.length = 4) (href : s.onHosc = false) :
    exec (.kettleCheck l) s = .next ((List.range 4).foldl (fun s q => (s.kettleRx q l).kettleTx q l)
      (if s.flag F.CAL_CFG_kettle_en then (List.range 8).foldl (fun s k =>
        if s.kettlePend k = false ∧ s.kettleDue k (l.getD (k / 2) 0) = true ∧ sSleep ≤ s.sideState k then
          (s.setKettle k true).kettleEvent k false (l.getD (k / 2) 0 - Store.get (fun _ => 0) s.cal.tLast k)
        else s) s else s)) :=
  if_pos ⟨hstage, hlen, href⟩

theorem execKettleSetEnd_of_run {s u : State} {q k : Nat} {tx : Bool} {rs : List CalResult} {r : CalRun}
    (hk : k = 2 * q + if tx then 1 else 0) (hrun : s.runOn q = some r) (hkind : r.kind = 1) (hsides : r.sides = [k])
    (hu : u = (s.runResults r rs).foldl (fun s x => s.calResult x false) s) :
    exec (.kettleSetEnd q tx rs) s = .next ((((u.setRun k (r.temp q) r.start).setKettle k false).endRun r).startSteps k) := by
  subst hk hu
  change execKettleSetEnd q tx rs s = _
  simp only [execKettleSetEnd, hrun]
  exact if_pos ⟨hkind, hsides⟩

/-! ### Tracking and corrections (R491, R502) -/

section
variable {s u v : State} {rs : List CalResult} {drive : Int} (hstage : s.stage = 7) (hen : s.flag F.CAL_CFG_track_en = true)
  (hnet : s.network = true) (href : s.onHosc = false)
  (hu : u = s.elapseTo (s.cal.trackAt + BitVec.ofNat 48 (msec (s.fld F.CAL_CFG_track_ms))))
  (hv : v = { u with cal := { u.cal with trackAt := u.now } })
include hstage hen hnet href hu hv

theorem execPhaseTrackingRound_of_one {q : Nat} (hone : v.servedQuads = [q]) :
    exec (.phaseTrackingRound rs drive) s = .next ((v.setPhaseValid (2 * q) true).setPhaseValid (2 * q + 1) true) := by
  subst hv hu
  change execPhaseTrackingRound rs drive s = _
  simp only [execPhaseTrackingRound]
  rw [if_pos ⟨hstage, hen, hnet, href⟩, hone]

theorem execPhaseTrackingRound_of_more {a b : Nat} {m : List Nat} (hmore : v.servedQuads = a :: b :: m)
    {ks : List Nat} {w z : State} {l : List CalResult} (hks : ks = (List.range 8).filter (fun k => v.mayWake k)) (hw : w = ks.foldl State.wakeFor v)
    (hl : l = (rs.filter (w.roundTakes v.pilotSource)).map (w.judge true))
    (hz : z = { w with cal := { w.cal with drive := Store.set (fun _ => 0) w.cal.drive v.pilotSource drive } }) :
    exec (.phaseTrackingRound rs drive) s = .next (ks.foldl State.restSide (((z.roundSpan l).roundSide v.pilotSource false
      l).roundSide v.pilotSource true l)).pilotRegs := by
  subst hz hl hw hks hv hu
  change execPhaseTrackingRound rs drive s = _
  simp only [execPhaseTrackingRound]
  rw [if_pos ⟨hstage, hen, hnet, href⟩, hmore]

end

theorem execCorrectionStep_of_due {s u : State} {q k : Nat} {tx : Bool} {t : T48} (hk : k = 2 * q + if tx then 1 else 0)
    (hdue : Store.get (fun _ => none) s.cal.stepAt k = some t) (hu : u = (s.elapseTo t).stepSide k) :
    exec (.correctionStep q tx) s = .next (u.setStepAt k (if u.sideMoves k then some (tAdd t (u.stepNs k)) else none)) := by
  subst hk hu
  change execCorrectionStep q tx s = _
  simp only [execCorrectionStep, hdue]

/-- Settles O38, row by row. -/
theorem calibrationRowsComplete : Obligations.CalibrationRowsComplete := by
  refine ⟨fun q tx s r k hrun hk hbegun hside hnew hready hentry =>
      execCalEntry_of_ready hrun hbegun hk hside hnew hready hentry,
    fun q s r hrun hbegun hkind hopen => execCalEntryTimeout_of_open hrun hbegun hkind hopen,
    fun q rs s r u v hrun hbegun hkind hall hu hv => ?runEnd, fun l s hstage hlen href => ?check,
    fun q tx rs s r k u hk hrun hkind hsides hu => execKettleSetEnd_of_run hk hrun hkind hsides hu,
    fun rs drive s u v hstage hen hnet href hu hv => ⟨fun q hone => execPhaseTrackingRound_of_one hstage hen hnet href hu hv hone,
      fun a b m ks w l z hmore hks hw hl hz => execPhaseTrackingRound_of_more hstage hen hnet href hu hv hmore hks hw hl hz⟩,
    fun q tx s t k u hk hdue hu => execCorrectionStep_of_due hk hdue hu⟩
  case runEnd =>
    subst hu
    exact ⟨fun hgood => execCalRunEnd_of_request hrun hbegun hkind hall hv
        (List.find?_eq_none.2 fun x hx => by simpa using hgood x hx),
      fun x hbad => execCalRunEnd_of_request hrun hbegun hkind hall hv hbad⟩
  case check =>
    rw [execKettleCheck_of_ready hstage hlen href]
    exact ⟨fun h => by rw [h]; rfl, fun h => by rw [h]; rfl⟩

end Sys2Proof.Machine
end

section
/-! PROOFS. Chapter 16, the rows of clocks: REFCLK's loss and return, the monitor's windows, the end of a resume, a quadrant's
sample clock, the pace and a gate that does not answer. -/

namespace Sys2Proof.Machine

open Host

/-! ### REFCLK (R523 to R530) -/

section
variable {s u : State} {ref lnk : Nat} (hready : s.flag F.CLK_STAT_hosc_ready = true)
  (hu : u = (s.setFld F.CLK_MON_ref_count 0 ref).setFld F.CLK_MON_lnk_count 0 lnk)
include hready hu

theorem execClockMonitorWindow_of_first (hfirst : u.clk.firstWin = true) (hrate : refRateOf ref ≠ 0) :
    exec (.clockMonitorWindow ref lnk) s = .next (((({ u with clk := { u.clk with firstWin := false } } : State).setFld
      F.CLK_STAT_ref_rate 0 (refRateOf ref)).setFld F.CLK_STAT_ref_ok 0 1).setFld F.CLK_SRC_rdy_ref 0 1) := by
  subst hu
  exact (if_neg (by simp [hready])).trans ((if_pos hfirst).trans (if_neg hrate))

theorem execClockMonitorWindow_of_good (hfirst : u.clk.firstWin = false) (hok : u.flag F.CLK_STAT_ref_ok = true)
    (hrate : refRateOf ref = u.fld F.CLK_STAT_ref_rate) : exec (.clockMonitorWindow ref lnk) s = .next u := by
  subst hu
  exact (if_neg (by simp [hready])).trans ((if_neg (ne_true_of_eq_false hfirst)).trans ((if_pos hok).trans (if_pos hrate)))

theorem execClockMonitorWindow_of_pass (hfirst : u.clk.firstWin = false) (hok : u.flag F.CLK_STAT_ref_ok = false)
    (hsome : refRateOf ref ≠ 0) (hrate : refRateOf ref = u.clk.passRate) : exec (.clockMonitorWindow ref lnk) s =
      .next { u with clk := { u.clk with passes := u.clk.passes + 1, passRate := refRateOf ref } } := by
  subst hu
  refine (if_neg (by simp [hready])).trans ((if_neg (ne_true_of_eq_false hfirst)).trans
    ((if_neg (ne_true_of_eq_false hok)).trans ?_))
  rw [if_neg hsome, if_pos hrate]

end

/-- REFCLK passes again in READY: a resume starts where auto_resume asks for one. -/
theorem execRefOkRestored_of_ready {s u : State} (hlost : s.flag F.CLK_STAT_ref_ok = false) (hpasses : 100 ≤ s.clk.passes)
    (hu : u = ((s.setFld F.CLK_STAT_ref_rate 0 s.clk.passRate).setFld F.CLK_STAT_ref_ok 0 1).setFld F.CLK_SRC_rdy_ref 0 1)
    (hstage : u.stage = 7) : exec .refOkRestored s =
      if u.stage = 7 ∧ u.onHosc = true ∧ u.flag F.CLK_CFG_auto_resume = true ∧ u.flag F.CLK_STAT_resuming = false then
        .next (({ u with clk := { u.clk with passes := 0, noRef := 0 } } : State).startResume none)
      else .next { u with clk := { u.clk with passes := 0, noRef := 0 } } := by
  have h6 : ¬ ({ u with clk := { u.clk with passes := 0, noRef := 0 } } : State).stage = 6 := fun h =>
    absurd (hstage.symm.trans h) (by decide)
  subst hu
  refine (if_pos ⟨hlost, hpasses⟩).trans ?_
  dsimp only
  rw [if_neg h6]
  rfl

theorem execClockResumeDone_of_ref {s w u v : State} (hresuming : s.flag F.CLK_STAT_resuming = true)
    (hok : s.flag F.CLK_STAT_ref_ok = true) (hw : w = ((List.range 8).foldl State.resumeSide s.spllsUp))
    (hu : u = w.runApply (w.clk.found.map (w.judge false)))
    (hv : v = ((u.elapseTo (nextMs u.now)).setFld F.CLK_STAT_resuming 0 0).offHosc) :
    exec .clockResumeDone s = .next (((List.range 8).foldl State.settleSide
      { v with clk := { v.clk with resume := none, found := [] } }).postResumed s.clk.resume) := by
  subst hv hu hw
  exact if_pos ⟨hresuming, hok⟩

theorem execClkNoRefTick_of_lost {s u : State} (hstage : s.stage = 6) (hlost : s.flag F.CLK_STAT_ref_ok = false)
    (hu : u = s.elapseTo (s.clk.noRefAt + 1000000000)) : exec .clkNoRefTick s = .next (({ u with
      clk := { u.clk with noRef := u.clk.noRef + 1, noRefAt := u.clk.noRefAt + 1000000000 } } : State).post 0x0210 clsWarn
        (pack16 (satN 16 (u.clk.noRef + 1)) (u.fld F.CLK_MON_ref_count))) := by
  subst hu
  exact if_pos ⟨hstage, hlost⟩

/-! ### Sample-clock PLLs, the pace and gates (R511 to R513, R531 to R537) -/

/-- A PLL that is not the master's unlocks: its quadrant is parked and muted, and the third loss within 1 s raises a fault. -/
theorem execSpllLockLoss_of_other {s u : State} {q : Nat} {l : List T48} (hq : q < 4)
    (hlock : (s.fld F.CLK_STAT_spll_lock).testBit q = true) (hother : s.fld F.CLK_STAT_master_cur ≠ q)
    (hu : u = ((((((s.setSpll q false).setFld F.CLK_EVT_spll_unlock 0 1).bump F.SPLL_STAT_unlocks q).parkQuad q).quadMute q).post 0x020D
      clsWarn (toWord q)).tickReady)
    (hl : l = u.recent (Store.get (fun _ => []) u.flt.unlocks (8 + q)) 1000000000) : exec (.spllLockLoss q) s =
      if 3 ≤ l.length then
        .next (({ u with flt := { u.flt with unlocks := Store.set (fun _ => []) u.flt.unlocks (8 + q) [] } } : State).raiseThen
          0x0202 q 0 fun s => s.spllRepeat q)
      else .next { u with flt := { u.flt with unlocks := Store.set (fun _ => []) u.flt.unlocks (8 + q) l } } := by
  have hstep : exec (.spllLockLoss q) s = .next (if (u.thirdLoss (8 + q)).1 then
      (u.thirdLoss (8 + q)).2.raiseThen 0x0202 q 0 (fun s => s.spllRepeat q) else (u.thirdLoss (8 + q)).2) := by
    subst hu
    refine (if_pos ⟨hq, hlock⟩).trans ?_
    simp only [hother, decide_false, Bool.false_eq_true, false_and, if_false, Nat.add_zero]
  rw [hstep, State.thirdLoss, ← hl]
  dsimp only
  split <;> rfl

theorem execSpllRelock_of_ref {s : State} {q : Nat} (hq : q < 4) (hok : s.flag F.CLK_STAT_ref_ok = true)
    (hlock : (s.fld F.CLK_STAT_spll_lock).testBit q = false) : exec (.spllRelock q) s =
      .next (((pathsOfQuad q).foldl State.settleClose (s.setSpll q true)).tickReady.returnRun q) :=
  if_pos ⟨hq, hok, hlock⟩

theorem execPaceMonitorRefresh_of_good {s u : State} {n : Nat} (hn : 1024 ≤ n) (hu : u = s.setFld F.CLK_PACE_index 0 n) :
    exec (.paceMonitorRefresh n) s = .next { u.setFld F.CLK_PACE_min 0 (min (u.fld F.CLK_PACE_min) (u.fld F.CLK_PACE_index)) with
      clk := { u.clk with paceSince := none, paceTold := false } } := by
  subst hu
  exact if_pos hn

/-- A gate that does not answer is forced; a block of an entry under way counts as one that agrees. -/
theorem execGateHandshakeTimeout_of_domain {s u : State} {d b : Nat} {w : Initiator} {e : Option PwrEntry} (hd : isDomain d = true)
    (hu : u = ((((s.bump F.CLK_GATE_CNT_forced 0).setFld F.CLK_EVT_gate_forced 0 1).post 0x0212 clsWarn (toWord d)).raiseFault 0x0207
      d).gateError w)
    (he : (u.pwr.entries.find? fun e => e.left.contains (d, b)) = e) : exec (.gateHandshakeTimeout d b w) s =
      .next (e.elim u fun e => ({ u.setFld F.PWR_DOM_forced_gate d 1 with
        pwr := { u.pwr with
          forced := Store.set (fun _ => 0) u.pwr.forced d (Store.get (fun _ => 0) u.pwr.forced d + 1) } } : State).agreed e d b) := by
  subst hu
  refine (if_pos hd).trans ?_
  simp only [he]
  cases e <;> rfl

/-- Settles O28, row by row. That a resume's run leaves its 0x9 and 0xA results for the completion to take in order is log
entry 149. -/
theorem clockRowsComplete : Obligations.ClockRowsComplete := by
  refine ⟨fun s hstage hready => (if_neg hstage).trans (if_pos hready),
    fun s hstage hready => (if_neg hstage).trans (if_neg (ne_true_of_eq_false hready)),
    fun ref lnk s u hready hu => ⟨execClockMonitorWindow_of_first hready hu, execClockMonitorWindow_of_good hready hu,
      execClockMonitorWindow_of_pass hready hu⟩,
    fun s u hlost hpasses hstage hu => ?restored,
    fun s w u v hresuming hok hw hu hv => execClockResumeDone_of_ref hresuming hok hw hu hv,
    fun s u hstage hlost hu => execClkNoRefTick_of_lost hstage hlost hu, fun q s u l hq hlock hother hu hl => ?lockLoss,
    fun q s hq hok hlock => execSpllRelock_of_ref hq hok hlock, fun n s u hn hu => execPaceMonitorRefresh_of_good hn hu,
    fun d b w s u hd hu => ?gate, fun q rs s hnone hresuming hok => ?found⟩
  case restored =>
    exact ⟨fun h7 hosc hauto hfree => (execRefOkRestored_of_ready hlost hpasses hu h7).trans (if_pos ⟨h7, hosc, hauto, hfree⟩),
      fun h7 hauto => (execRefOkRestored_of_ready hlost hpasses hu h7).trans (if_neg fun h => by simp [hauto] at h)⟩
  case lockLoss =>
    rw [execSpllLockLoss_of_other hq hlock hother hu hl]
    exact ⟨fun h => if_neg (Nat.not_le.2 h), fun h => if_pos h⟩
  case gate =>
    exact ⟨fun h => execGateHandshakeTimeout_of_domain hd hu (List.find?_eq_none.2 fun e he => ne_true_of_eq_false (h e he)),
      fun e he => execGateHandshakeTimeout_of_domain hd hu he⟩
  case found =>
    change execCalRunEnd q rs s = _
    simp only [execCalRunEnd, hnone]
    exact congrArg Outcome.next (if_pos ⟨hresuming, hok⟩)

end Sys2Proof.Machine
end

section
/-! PROOFS. Chapter 17, the rows of power: blocks that answer, transitions, waits, operating points, supply warnings. -/

namespace Sys2Proof.Machine

open Host

/-! ### Entries and transitions (R546 to R549) -/

section
variable {s : State} {d b : Nat} {e : PwrEntry} (he : (s.pwr.entries.find? fun e => e.left.contains (d, b)) = some e)
include he

theorem execDomainBlockAnswer_of_agrees (h : s.blockRefuses d b = none) :
    exec (.domainBlockAnswer d b) s = .next (s.agreed e d b) := by
  change execDomainBlockAnswer d b s = _
  simp only [execDomainBlockAnswer, he, h]

theorem execDomainBlockAnswer_of_refuses {c : Nat} (h : s.blockRefuses d b = some c) :
    exec (.domainBlockAnswer d b) s = .next (s.rollback e d b c) := by
  change execDomainBlockAnswer d b s = _
  simp only [execDomainBlockAnswer, he, h]

end

theorem execDomainAnswerTimeout_of_left {s : State} {e : PwrEntry} {l : List PwrEntry} {d b : Nat} {m : List (Nat × Nat)}
    (hentries : s.pwr.entries = e :: l) (hleft : e.left = (d, b) :: m) :
    exec .domainAnswerTimeout s = .next ((s.elapseTo (e.start + 20000)).rollback e d b 3) := by
  change execDomainAnswerTimeout s = _
  simp only [execDomainAnswerTimeout, hentries, hleft]

/-- A domain arrives: a wake that came meanwhile turns it round, unless it arrived ON. -/
theorem execDomainTransitionDone_of_trans {s w u : State} {d t : Nat} (htrans : s.trans d = some t)
    (hw : w = (((s.setTrans d none).setFld F.PWR_DOM_state d t).domArrives d (s.fld F.PWR_DOM_state d) t).jobArrived d)
    (hu : u = if t = 0 then w.opAtExit d else w) : exec (.domainTransitionDone d) s =
      .next (if t ≠ 0 ∧ Store.get (fun _ => false) u.pwr.wake d = true then
        ((u.setWake d false).setFld F.PWR_DOM_wake_race d 1).setTrans d (some 0)
      else u.setWake d false).evalWaiting := by
  subst hu hw
  change execDomainTransitionDone d s = _
  simp only [execDomainTransitionDone, htrans]

/-! ### Waits (R550, R551) -/

section
variable {s u : State} (hstage : 5 ≤ s.stage) (hrest : s.domBusy dMgmt = false) (hon : s.domState dMgmt = 0)
  (hruns : s.pwr.stalled = false)
include hstage hrest hon hruns

theorem execMgmtWait_of_raced : exec (.mgmtWait true) s = .next (s.setFld F.PWR_DOM_wake_race dMgmt 1) :=
  if_pos ⟨hstage, hrest, hon, hruns⟩

theorem execMgmtWait_of_idle (hu : u = { s with pwr := { s.pwr with stalled := true } }) : exec (.mgmtWait false) s =
    if u.fld F.PWR_MODE_mode = 0 ∨ u.needOf dMgmt = 2 then .next u else .next (u.askGroup none 1 [dMgmt]) := by
  subst hu
  exact if_pos ⟨hstage, hrest, hon, hruns⟩

end

section
variable {s : State} {k : Nat} (hk : k < 12) (hrest : s.domBusy (dSkl + k) = false) (hon : s.domState (dSkl + k) = 0)
  (hplaced : s.sklPlaced k = false) (hfits : s.sklFits k = false) (hassist : s.assistOf k = none)
include hk hrest hon hplaced hfits hassist

theorem execSkilletWait_of_idle (raced : Bool) : exec (.skilletWait k raced) s =
    if raced then .next (s.setFld F.PWR_DOM_wake_race (dSkl + k) 1) else .next (s.askGroup none 1 [dSkl + k]) :=
  if_pos ⟨hk, hrest, hon, hplaced, hfits, hassist⟩

end

/-! ### Operating points (R552 to R557) -/

section
variable {s : State} {d : Nat} (hd : opDomain d = true) (href : s.onHosc = false)
include hd href

theorem execOperatingPointStep_of_change {c : OpChange} (hc : s.opChange d = some c) : exec (.operatingPointStep d) s =
    if c.toF = c.second then (if d = dCol then .next s else .next (s.dividerMoved d c).evalWaiting)
    else .next (s.supplyMoved d c) := by
  have hrun : ¬ (opDomain d = false ∨ s.onHosc = true) := by simp [hd, href]
  change execOperatingPointStep d s = _
  simp only [execOperatingPointStep, if_neg hrun, hc]

theorem execOperatingPointStep_of_low (hnone : s.opChange d = none) (hlow : s.flag F.PWR_DOM_oph d = false)
    (hfree : s.opFixed d = false) (hok : s.ophOk d = true) (hquiet : s.opPending = false) (hon : s.domState d = 0)
    (hrest : s.domBusy d = false) : exec (.operatingPointStep d) s = .next (s.setOp d (some { toF := false })) := by
  have hrun : ¬ (opDomain d = false ∨ s.onHosc = true) := by simp [hd, href]
  change execOperatingPointStep d s = _
  simp only [execOperatingPointStep, if_neg hrun, hnone]
  exact if_pos ⟨hlow, hfree, hok, hquiet, hon, hrest⟩

end

theorem execColDividerRampStep_of_change {s u : State} {c : OpChange} (hc : s.opChange dCol = some c) (hdiv : c.toF = c.second)
    (href : s.onHosc = false) (hu : u = s.elapse 1000) : exec .colDividerRampStep s =
      if c.ramp + 1 < 8 then .next (u.setOp dCol (some { c with ramp := c.ramp + 1 }))
      else .next (u.dividerMoved dCol c).evalWaiting := by
  subst hu
  change execColDividerRampStep s = _
  simp only [execColDividerRampStep, hc]
  exact if_pos ⟨hdiv, href⟩

theorem execTxbOpfRaise_of_compare {s : State} {x : Nat × Burst} (hx : s.nextCompare = some x) :
    exec .txbOpfRaise s = .next ((s.elapseTo (tAdd x.2.compare (-100000))).raiseOp dTxb) := by
  change execTxbOpfRaise s = _
  simp only [execTxbOpfRaise, hx]

/-! ### Supply warnings (R575) -/

section
variable {s u : State} {r c : Nat} (hr : r < 8)
include hr

theorem execVmonWarnCrossing_of_high (hwarn : (s.fld F.VMON_STAT_warn).testBit r = false)
    (hu : u = s.setFld F.VMON_STAT_warn 0 (s.fld F.VMON_STAT_warn + 2 ^ r)) : exec (.vmonWarnCrossing r c) s =
      .next ((({ u.setFld F.VMON_STAT_warn_seen 0 (u.fld F.VMON_STAT_warn_seen ||| 2 ^ r) with
        pwr := { u.pwr with warnLow := true } } : State).post 0x0A02 clsWarn (toWord r)).raiseFault 0x0101 r (toWord c)) := by
  have hseen : u.fld F.VMON_STAT_warn_seen = s.fld F.VMON_STAT_warn_seen := by
    rw [hu]
    exact State.fld_setFld_apart _ _ _ _ _ _ (by decide)
  rw [hseen]
  subst hu
  exact if_pos ⟨hr, hwarn⟩

theorem execVmonWarnRecovery_of_low (hwarn : (s.fld F.VMON_STAT_warn).testBit r = true)
    (hu : u = s.setFld F.VMON_STAT_warn 0 (s.fld F.VMON_STAT_warn - 2 ^ r)) : exec (.vmonWarnRecovery r c) s =
      .next ((({ u with pwr := { u.pwr with warnLow := decide (u.fld F.VMON_STAT_warn ≠ 0) } } : State).logFault 0x0101 1 r 0
        false false false (toWord c)).post 0x0A02 clsWarn (toWord (r + 8))) := by
  subst hu
  exact if_pos ⟨hr, hwarn⟩

end

/-- Settles O29, row by row. What the log entry of a rail's recovery holds is log entry 21. -/
theorem powerRowsComplete : Obligations.PowerRowsComplete := by
  refine ⟨fun d b s e he => ⟨execDomainBlockAnswer_of_agrees he, fun c h => execDomainBlockAnswer_of_refuses he h⟩,
    fun s e l d b m hentries hleft => execDomainAnswerTimeout_of_left hentries hleft,
    fun d s t w u htrans hw hu => ?done, fun s u hstage hrest hon hruns hu => ?mgmt,
    fun k s hk hrest hon hplaced hfits hassist => ?skillet, fun d s hd href => ?step,
    fun s c u hc hdiv href hu => ?ramp, fun s x hx => execTxbOpfRaise_of_compare hx,
    fun r c s u hr hwarn hu => execVmonWarnCrossing_of_high hr hwarn hu,
    fun r c s u hr hwarn hu => execVmonWarnRecovery_of_low hr hwarn hu⟩
  case done =>
    rw [execDomainTransitionDone_of_trans htrans hw hu]
    refine ⟨fun h => ?_, fun hne hwake => by rw [if_pos ⟨hne, hwake⟩]⟩
    rw [if_neg fun hturn => h.elim hturn.1 fun hw => ne_true_of_eq_false hw hturn.2]
  case mgmt =>
    have hidle := execMgmtWait_of_idle hstage hrest hon hruns hu
    exact ⟨execMgmtWait_of_raced hstage hrest hon hruns, fun h => hidle.trans (if_pos h),
      fun h h' => hidle.trans (if_neg fun hor => hor.elim h h')⟩
  case skillet =>
    have hidle := execSkilletWait_of_idle hk hrest hon hplaced hfits hassist
    exact ⟨hidle true, hidle false⟩
  case step =>
    exact ⟨fun c hc hdiv hcol => (execOperatingPointStep_of_change hd href hc).trans ((if_pos hdiv).trans (if_neg hcol)),
      fun c hc hsup => (execOperatingPointStep_of_change hd href hc).trans (if_neg hsup),
      execOperatingPointStep_of_low hd href⟩
  case ramp =>
    rw [execColDividerRampStep_of_change hc hdiv href hu]
    exact ⟨fun h => if_pos (by omega), fun h => if_neg (by omega)⟩

end Sys2Proof.Machine
end

section
/-! PROOFS. Chapter 02 and the ports of chapters 13 and 14: registers, rings, the channel and sweep controls, the watchdog,
Tilin's taking and finishing of commands, and the end of a posting window. -/

namespace Sys2Proof.Machine

open Host

/-! ### The Ladle's and the auxiliary ADC's controls (R465, R474) -/

section
variable {p : Port} {n : Nat} {v : Word} {s t : State} (hn : n < 32) (hheld : s.portHolds p resDma n = true)
  (hen : s.flag F.DMA_CH_CTL_en n = false) (ht : t = s.writeTyped .DMA_CH_CTL n v) (hidle : t.fld F.DMA_CH_STAT_state n = 0)
include hn hheld hen ht hidle

/-- A write to an idle channel that its port holds. -/
theorem execDmaChCtlWrite_of_idle : exec (.dmaChCtlWrite p n v) s = .next (if bitAt v 0 = false then t
    else if t.flag F.DMA_CH_CTL_tc_start n then
      if t.unitOfOwner n (t.fld F.DMA_CH_CTL_tc_unit n) then t.setFld F.DMA_CH_STAT_state n dArmed
      else (t.setDma n { t.dma n with desc := [] }).dmaHalt n 5
    else t.dmaStart n) := by
  subst ht
  change execDmaChCtlWrite p n v s = _
  have hzero : (s.writeTyped .DMA_CH_CTL n v).fld F.DMA_CH_STAT_state n = dIdle := hidle
  have hrest : ¬ (s.flag F.DMA_CH_CTL_en n = true ∨ (s.writeTyped .DMA_CH_CTL n v).fld F.DMA_CH_STAT_state n ≠ dIdle) := by
    simp [hen, hidle, dIdle]
  rw [execDmaChCtlWrite, if_pos hn, State.writeDmaCtl, if_neg (ne_false_of_eq_true hheld)]
  dsimp only
  rw [if_pos hzero, if_neg hrest]

end

theorem execAuxSeqCtlWrite_of_stopped {p : Port} {v : Word} {s t : State} (hheld : s.portHolds p resAux 0 = true)
    (hstopped : s.flag F.AUX_SEQ_CTL_run = false) (ht : t = s.writeTyped .AUX_SEQ_CTL 0 (v &&& 0xFFFFFFFE)) :
    exec (.auxSeqCtlWrite p v) s = .next (if bitAt v 0 = false then t
      else if t.reg .AUX_SEQ_MASK 0 = 0 ∨ t.auxRingOk = false then t.setFld F.AUX_STAT_cfg_err 0 1
      else (t.auxTiles.foldl State.useTile (t.setFld F.AUX_SEQ_CTL_run 0 1)).auxSweep) := by
  subst ht
  exact congrArg Outcome.next ((if_neg (ne_false_of_eq_true hheld)).trans (if_neg (ne_true_of_eq_false hstopped)))

/-! ### Tilin's turn (R85, R86) -/

section
variable {s t : State} {n : Nat} (hup : s.coreUp = true) (hnext : s.nextMbx = some n)
include hup hnext

/-- Tilin takes the mailbox that is next. -/
theorem execCommandTake_of_next : exec .commandTake s = s.takeMbx n := by
  change execCommandTake s = _
  simp only [execCommandTake, hup, hnext]

/-- An internal step that exceeds its bound ends the command that would be next. -/
theorem execCommandFinish_of_late (htake : s.takeMbx n = .next t) : exec (.commandFinish ⟨n, true⟩) s =
    .next (if t.underWay n = true then (s.markTaken n).respond n (rspErr stTimeout) else s) := by
  change execCommandFinish ⟨n, true⟩ s = _
  simp only [execCommandFinish, hup, hnext, State.stepsAhead, htake, if_true, true_and]
  split <;> rfl

end

theorem State.takeMbx_of_command {s t : State} {n : Nat}
    (h : commandOf (reqOpcode (((s.markTaken n).mbx n).copied.headD 0)) (s.reqOf n) (s.markTaken n) = some (.next t)) :
    s.takeMbx n = .next t := by
  simp only [State.takeMbx, h]

theorem State.takeMbx_of_none {s : State} {n : Nat}
    (h : commandOf (reqOpcode (((s.markTaken n).mbx n).copied.headD 0)) (s.reqOf n) (s.markTaken n) = none) :
    s.takeMbx n = .next ((s.markTaken n).stageRsp n (rspErr stBadOpcode)) := by
  simp only [State.takeMbx, h]

/-- Settles O23, access by access. That a command is served when it is taken, and an overrun mark ends it, is log entry 11. -/
theorem registerAccessesComplete : Obligations.RegisterAccessesComplete := by
  refine ⟨fun p a v s r i halign ha hreg hplain hfree hone => ?write, fun p a s r i halign ha hreg hplain => ?read,
    fun p s l hl => by subst hl; rfl, fun p n s hn => ⟨fun h => ?collide, fun h => ?take⟩, fun p n s hn hdone => ?ack,
    fun p v s hsel => ?beamSel, fun p u v s t hu hheld hfree ht => ⟨fun harm => ?disarm, fun harm haction hper hpast => ?arm⟩,
    fun p v s hsrc => execTsOffsetWrite_of_source hsrc, fun p n v s t hn hheld hen hidle ht htidle => ?dma,
    fun p v s t hheld hstopped ht => ?aux, fun s hon => if_pos hon,
    fun s n t hup hnext => ⟨fun hcmd => ?taken, fun hcmd => ?badOpcode⟩,
    fun n s r hn hbusy hr => execCommandFinish_of_staged hn hbusy hr, fun code scope s w hw => ?window⟩
  case write =>
    change execRegisterWrite p a v s = _
    rw [execRegisterWrite_aligned p v s halign ha, s.writeReg_plain p a v r i ha hreg hplain hfree hone]
  case read => exact execRcRegisterRead_plain halign ha hreg hplain
  case collide => exact congrArg Outcome.next ((if_pos hn).trans (if_pos h))
  case take => exact congrArg Outcome.next ((if_pos hn).trans (if_neg h))
  case ack => exact congrArg Outcome.next ((if_pos hn).trans (if_pos hdone))
  case beamSel => exact congrArg Outcome.next (if_neg fun h => hsel.elim (ne_false_of_eq_true h.1) (Nat.not_le.2 h.2))
  case disarm => subst ht; exact execTcCtlWrite_of_disarm hu hheld hfree harm
  case arm =>
    have hlong : ¬ (bitAt v 1 = true ∧ (t.reg .TC_PERIOD u).toNat < 100) := fun h => Nat.not_lt.2 (hper h.1) h.2
    exact (execTcCtlWrite_of_long_period hu hheld hfree harm haction ht hlong).trans
      (congrArg Outcome.next (if_neg (ne_true_of_eq_false hpast)))
  case dma =>
    rw [execDmaChCtlWrite_of_idle hn hheld hen ht htidle]
    refine ⟨fun h => by rw [if_pos h], fun h hstart => ?_, fun h hstart hunit => ?_⟩
    · rw [if_neg (ne_false_of_eq_true h), if_neg (ne_true_of_eq_false hstart)]
      rfl
    · rw [if_neg (ne_false_of_eq_true h), if_pos hstart, if_pos hunit]
      rfl
  case aux =>
    rw [execAuxSeqCtlWrite_of_stopped hheld hstopped ht]
    refine ⟨fun h => by rw [if_pos h], fun h hmask hring => ?_⟩
    rw [if_neg (ne_false_of_eq_true h), if_neg fun hbad => hbad.elim hmask (ne_false_of_eq_true hring)]
  case taken =>
    have htake := State.takeMbx_of_command hcmd
    exact ⟨(execCommandTake_of_next hup hnext).trans htake, execCommandFinish_of_late hup hnext htake⟩
  case badOpcode => exact (execCommandTake_of_next hup hnext).trans (State.takeMbx_of_none hcmd)
  case window =>
    change execRateLimitWindowEnd code scope s = _
    simp only [execRateLimitWindowEnd, hw]

end Sys2Proof.Machine
end

section
/-! PROOFS. Chapters 02, 18 and 21: the steps of boot, resets, the faults of cores and headers, recoveries and temperatures. -/

namespace Sys2Proof.Machine

open Host

/-! ### Boot (R105 to R110, R634 to R636) -/

/-- HOSC ready without CLK_HOLD, the image from a slot or a host. -/
theorem execHoscReady_of_slot {s u : State} {h : Nat} (hstage : s.stage = 2) (hheld : s.time.held = false)
    (hsrc : s.fld F.SYS_STATE_boot_src ≠ 2)
    (hu : u = ((s.setFld F.SYS_STATE_stage 0 3).setFld F.CLK_STAT_hosc_ready 0 1).setFld F.CLK_SRC_rdy_hosc 0 1) :
    exec (.hoscReady h) s = .next { u with
      sys := { u.sys with imageFrom := firstImage (s.fld F.SYS_STATE_boot_src) }
      clk := { u.clk with firstWin := true }
      time := { u.time with
        ticks := 0
        running := true
        held := false
        outs := (List.range 4).foldl (fun (m : Store OutPin) n => Store.set (fun _ => {}) m n { level := .low }) [] } } := by
  subst hu
  refine (if_neg (not_not_intro hstage)).trans ?_
  dsimp only
  rw [if_neg hsrc, if_neg (ne_true_of_eq_false hheld), hheld]
  rfl

theorem execImageLoadDone_of_slot {s : State} {answered : Bool} (hstage : s.stage = 3)
    (hsrc : s.fld F.SYS_STATE_boot_src = 0 ∨ s.fld F.SYS_STATE_boot_src = 3) (hslot : s.sys.imageFrom < 2) :
    exec (.imageLoadDone answered) s =
      if answered = false then .next (s.imageFails 6) else .next (s.setFld F.SYS_STATE_stage 0 4) := by
  refine (if_pos ⟨.inl ⟨hstage, hsrc⟩, hslot⟩).trans ?_
  rw [if_neg (show ¬ s.stage = 9 by omega)]

theorem execImageVerifyDone_of_verify {s : State} {img : ImageChecks} (hstage : s.stage = 4) : exec (.imageVerifyDone img) s =
    .next (if s.imageCause img = 0 then s.mgmtStart (if s.sys.imageFrom = 2 then s.memWord (s.sys.imageAddr + 4) else img.version)
      else s.imageFails (s.imageCause img)) := by
  refine (if_pos (.inl hstage)).trans ?_
  split
  next h => rw [if_pos h]
  next h => rw [if_neg h]

/-- CALIBRATING is entered with a profile that carries a network table and no link set. -/
theorem execCalibratingEntry_of_profile {s u : State} {l : List Byte} (hstage : s.stage = 5) (hfirst : s.cal.commissioned = false)
    (hsrc : s.fld F.SYS_STATE_boot_src = 0) (hok : profileOk l = true) (hnet : bitAt (profileWord l 2) 0 = true)
    (hlink : bitAt (profileWord l 2) 1 = false) (hu : u = s.setNet ((List.range 68).map fun i => profileWord l (3 + i))) :
    exec (.calibratingEntry l) s = .next (({ u with
      sys := { u.sys with linkWords := [] }
      cal := { u.cal with step := 1 }
      clk := { u.clk with noRef := 0, noRefAt := u.now } } : State).setFld F.SYS_STATE_stage 0 6) := by
  have hown : ¬ (s.fld F.SYS_STATE_boot_src = 1 ∨ s.fld F.SYS_STATE_boot_src = 2) := by omega
  have hnone : ¬ (profileOk l = true ∧ bitAt (profileWord l 2) 1 = true) := fun h => ne_true_of_eq_false hlink h.2
  subst hu
  change execCalibratingEntry l s = _
  simp only [execCalibratingEntry, if_pos (And.intro hstage hfirst), if_neg hown, if_pos (And.intro hok hnet), if_neg hnone]

section
variable {s u : State} {rs : List CalResult} (hstage : s.stage = 6) (hok : s.flag F.CLK_STAT_ref_ok = true) (hlo : 1 ≤ s.cal.step)
  (hhi : s.cal.step ≤ 11)
include hstage hok hlo hhi

/-- A step of CALIBRATING but the second: its results are taken, and the next follows or READY. -/
theorem execStartupCalStepDone_of_step (hn : s.cal.step ≠ 2) (hu : u = (s.stepResults rs).foldl (fun s r => s.calResult r true) s) :
    exec (.startupCalStepDone rs) s =
      if s.cal.step = 11 then .next u.startReady else .next { u with cal := { u.cal with step := s.cal.step + 1 } } := by
  subst hu
  change execStartupCalStepDone rs s = _
  simp only [execStartupCalStepDone, if_pos (And.intro hstage (And.intro hok (And.intro hlo hhi))), if_neg hn]

/-- The second step begins with the sides in CAL and ends with the clocks on REFCLK. -/
theorem execStartupCalStepDone_of_second (hn : s.cal.step = 2)
    (hu : u = ((s.stepResults rs).foldl (fun s r => s.calResult r true) s.sidesIntoCal).firstClocks) :
    exec (.startupCalStepDone rs) s = .next { u with cal := { u.cal with step := 3 } } := by
  subst hu
  change execStartupCalStepDone rs s = _
  simp only [execStartupCalStepDone, if_pos (And.intro hstage (And.intro hok (And.intro hlo hhi))), if_pos hn]
  rw [if_neg (by omega), hn]

end

theorem execDeferredTrivetReset_of_due {s : State} {dev : Bool} {t : T48} (h : s.flt.deferred = some (dev, some t)) :
    exec .deferredTrivetReset s = .next (({ s.elapseTo t with
      flt := { (s.elapseTo t).flt with deferred := none } } : State).raiseAny (if dev then 0x0905 else 0x0903) 0 0) := by
  change execDeferredTrivetReset s = _
  simp only [execDeferredTrivetReset, h]

/-- Settles O24, step by step. That the waiting commands stay through the resets is log entries 24 and 79. -/
theorem bootCommandsComplete : Obligations.BootCommandsComplete := by
  refine ⟨fun s => rfl, fun b r s h => if_neg (ne_true_of_eq_false h), fun b r s h => if_pos h, fun s h => if_pos h,
    fun h s u hstage hheld hsrc hu => execHoscReady_of_slot hstage hheld hsrc hu, fun s hstage hsrc hslot => ?load,
    fun img s hstage => ?verify,
    fun l s u hstage hfirst hsrc hok hnet hlink hu => execCalibratingEntry_of_profile hstage hfirst hsrc hok hnet hlink hu,
    fun rs s u hstage hok hlo hhi => ?step, fun s h => if_pos h, fun s => rfl, fun rail code s h => if_pos h,
    fun s dev t h => execDeferredTrivetReset_of_due h⟩
  case load => exact ⟨execImageLoadDone_of_slot hstage hsrc hslot, execImageLoadDone_of_slot hstage hsrc hslot⟩
  case verify =>
    rw [execImageVerifyDone_of_verify hstage]
    exact ⟨fun h => by rw [if_pos h], fun h => by rw [if_neg h]⟩
  case step =>
    refine ⟨fun hn hu => ?_, fun hn hu => execStartupCalStepDone_of_second hstage hok hlo hhi hn hu⟩
    rw [execStartupCalStepDone_of_step hstage hok hlo hhi hn hu]
    exact ⟨fun h => if_pos h, fun h => if_neg h⟩

end Sys2Proof.Machine
end

section
/-! PROOFS. Chapter 18, the rows of faults: the cores, the headers, the end of a recovery, the temperatures. -/

namespace Sys2Proof.Machine

open Host

/-! ### Cores and headers (R547, R571 to R574) -/

theorem execLdpcBlockOverrun_of_assist {s : State} {k : Nat} (h : (s.assistOf k).isSome = true) :
    exec (.ldpcBlockOverrun k) s = .next ((s.raiseAny 0x0401 k 0).skilletAbort k) := by
  obtain ⟨a, ha⟩ := Option.isSome_iff_exists.1 h
  change execLdpcBlockOverrun k s = _
  simp only [execLdpcBlockOverrun, ha]
  rfl

/-- Tilin resumes after its restart. -/
theorem execMgmtResumeDone_of_cause {s : State} {c : Nat} (hcause : s.sys.restartCause = some c) (hstage : s.stage = 5)
    (hcal : s.cal.commissioned = true) : exec .mgmtResumeDone s = .next (({ s with
      sys := { s.sys with restartCause := none }, cal := { s.cal with trackAt := s.now } } : State).post 0x0104 clsWarn
        (toWord c)).atReady := by
  change execMgmtResumeDone s = _
  simp only [execMgmtResumeDone, hcause]
  exact if_pos ⟨hstage, hcal⟩

/-- A header falls short while its supply is in order: the clocks stop and its fault is raised. -/
theorem execHeaderSag_of_supply {s u : State} {d code unit : Nat} (hd : isDomain d = true) (hon : s.domState d = 0)
    (hgood : s.sagging d = false) (hreset : s.sys.resetN = true) (hfault : sagFault d = some (code, unit))
    (hu : u = if d = dTxb then (s.setSag d true).queuesStop else s.setSag d true)
    (hsupply : (u.fld F.VMON_STAT_warn).testBit 0 = false) : exec (.headerSag d) s = .next (u.raiseAny code unit 0) := by
  subst hu
  change execHeaderSag d s = _
  simp only [execHeaderSag, if_pos (And.intro hd (And.intro hon (And.intro hgood hreset))), hfault]
  exact if_neg (ne_true_of_eq_false hsupply)

theorem execHeaderGoodFlagReturn_of_recovery {s : State} {d : Nat} {e : FaultEnt} (hsag : s.sagging d = true)
    (hrun : s.flt.running = some e) (hcode : e.code = 0x0103 ∨ e.code = 0x0104) (hunit : e.unit = d) :
    exec (.headerGoodFlagReturn d) s = .next ((s.setSag d false).sagActions d) := by
  have hrun' : (s.setSag d false).flt.running = some e := hrun
  change execHeaderGoodFlagReturn d s = _
  simp only [execHeaderGoodFlagReturn, if_pos hsag, hrun']
  exact if_pos ⟨hcode, hunit⟩

/-! ### The end of a recovery (R565, R566, R571) -/

section
variable {s : State} {ok : Bool} {rs : List CalResult} {e : FaultEnt} (hrun : s.flt.running = some e)
include hrun

theorem execRecoveryEnd_of_skillet (hcode : e.code = 0x0401) (hunit : e.unit < 12) : exec (.recoveryEnd ok rs) s =
    .next ((s.endSkillet e.unit ok).2.endRecovery (if (s.endSkillet e.unit ok).1 then outDone else outFailed)) := by
  change execRecoveryEnd ok rs s = _
  simp only [execRecoveryEnd, hrun]
  rw [if_neg (by simp [isMgmt, hcode]), if_neg (by simp [hcode]), if_pos ⟨hcode, hunit⟩]

/-- A recovery of a code that has neither a header nor a Skillet: its measurements are taken, and it is DONE. -/
theorem execRecoveryEnd_of_cal (hmgmt : isMgmt e.code = false) (hhead : ¬ (e.code = 0x0103 ∨ e.code = 0x0104))
    (hskl : e.code ≠ 0x0401) : exec (.recoveryEnd ok rs) s = .next ((s.recoveryCal e rs).2.endRecovery outDone) := by
  change execRecoveryEnd ok rs s = _
  simp only [execRecoveryEnd, hrun]
  rw [if_neg (ne_true_of_eq_false hmgmt), if_neg fun h => hhead h.1, if_neg fun h => hskl h.1, if_neg fun h => hhead (.inl h.1)]

end

/-! ### Temperatures (R577) -/

/-- A sensor above the upper limit is above the lower one. -/
theorem hotSensor_mono {l : List Nat} (h : hotSensor l (tjMax - 5) = none) : hotSensor l (tjMax + 5) = none := by
  refine List.find?_eq_none.2 fun n hn => ?_
  have hcool := List.find?_eq_none.1 h n hn
  have hcodes : tempCode (tjMax - 5) ≤ tempCode (tjMax + 5) := by
    unfold tempCode
    omega
  have hbelow := mt decide_eq_true hcool
  exact mt of_decide_eq_true fun h => hbelow (hcodes.trans h)

section
variable {s : State} {l : List Nat} {n : Nat}

theorem State.thermCrit_of_none (h : hotSensor l (tjMax + 5) = none) : s.thermCrit l = s := by
  unfold State.thermCrit
  rw [h]

theorem State.thermCrit_of_some (h : hotSensor l (tjMax + 5) = some n) (hfirst : s.flt.crit = false) : s.thermCrit l =
    ({ s with flt := { s.flt with crit := true } } : State).raiseAny 0x0504 n (toWord (sensorCode l n)) := by
  unfold State.thermCrit
  rw [h]
  exact if_neg (ne_true_of_eq_false hfirst)

theorem State.thermWarn_of_none (h : hotSensor l (tjMax - 5) = none) : s.thermWarn l = s := by
  unfold State.thermWarn
  rw [h]

theorem State.thermWarn_of_some (h : hotSensor l (tjMax - 5) = some n) (hfirst : s.flt.warned = false) : s.thermWarn l =
    ({ s with flt := { s.flt with warned := true } } : State).raiseAny 0x0503 n (toWord (sensorCode l n)) := by
  unfold State.thermWarn
  rw [h]
  exact if_neg (ne_true_of_eq_false hfirst)

end

theorem execTemperatureRead_of_five {s u : State} {l : List Nat} (hlen : l.length = 5) (hreset : s.sys.resetN = true)
    (hheld : s.sys.held = false) (hu : u = (((s.takeTemps l).biasTemp (sensorCode l 4)).rearmWarn l).noteCool l) :
    exec (.temperatureRead l) s = .next ((u.thermCrit l).thermWarn l) := by
  subst hu
  exact if_pos ⟨hlen, hreset, hheld⟩

theorem execThermHoldClear_of_cool {s : State} {t : T48} (hcool : s.flt.coolSince = some t)
    (hhold : s.flag F.FLT_STAT_therm_hold = true) : exec .thermHoldClear s = .next (({ s.elapseTo (t + 1000000000) with
      flt := { (s.elapseTo (t + 1000000000)).flt with crit := false } } : State).setFld F.FLT_STAT_therm_hold 0 0) := by
  change execThermHoldClear s = _
  simp only [execThermHoldClear, hcool]
  exact if_pos hhold

/-- Settles O25, row by row. That the recoveries of clocks, banks, the Pantry and the temperature end DONE is log entry 83. -/
theorem faultRowsComplete : Obligations.FaultRowsComplete := by
  refine ⟨fun k s hk => congrArg Outcome.next (if_pos hk), fun k s a ha => execLdpcBlockOverrun_of_assist (by rw [ha]; rfl),
    fun s h => if_pos h, fun s h => if_pos h, fun s c hcause hstage hcal => execMgmtResumeDone_of_cause hcause hstage hcal,
    fun d s code unit u hd hon hgood hreset hfault hu hsupply =>
      execHeaderSag_of_supply hd hon hgood hreset hfault hu hsupply,
    fun d s e hsag hrun hcode hunit => execHeaderGoodFlagReturn_of_recovery hsag hrun hcode hunit,
    fun ok rs s e hrun hcode hunit => execRecoveryEnd_of_skillet hrun hcode hunit, fun ok rs s e hrun hcode => ?cal,
    fun l s u hlen hreset hheld hu => ?temps, fun s t hcool hhold => execThermHoldClear_of_cool hcool hhold⟩
  case cal => exact execRecoveryEnd_of_cal hrun (decide_eq_false (by omega)) (by omega) (by omega)
  case temps =>
    rw [execTemperatureRead_of_five hlen hreset hheld hu]
    refine ⟨fun hcool => ?_, fun n hcrit hwarn hfirst => ?_, fun n m hcrit hwarn hfirst => ?_⟩
    · rw [State.thermCrit_of_none (hotSensor_mono hcool), State.thermWarn_of_none hcool]
    · rw [State.thermCrit_of_none hcrit, State.thermWarn_of_some hwarn hfirst]
    · rw [State.thermCrit_of_some hcrit hfirst]

end Sys2Proof.Machine
end
